-- ==== Sys2Proof/Word.lean ====
section
/-!
DEFINITION. The plain words of the model: bytes, 32-bit words, module time (MTC, 64 bits of nanoseconds, R319/R53), binary64 and
binary32 values as their bit patterns (R7), and the names of the two lanes (R12).
-/

namespace Sys2Proof

/-- A byte. -/
abbrev Byte := BitVec 8

/-- A 32-bit word: a register (R493). -/
abbrev Word := BitVec 32

/-- An instant of the module time count, in nanoseconds; it wraps modulo 2^64 and readers use differences (R53). -/
abbrev Time := BitVec 64

/-- An IEEE 754 binary64 value as its bit pattern (R7). -/
abbrev F64 := BitVec 64

/-- An IEEE 754 binary32 value as its bit pattern. -/
abbrev F32 := BitVec 32

/-- The two compute lanes (R12); Lane A is numbered 0, Lane B 1. -/
inductive Lane where
  | a | b
  deriving DecidableEq, Repr

/-- The number of a lane: 0 for Lane A, 1 for Lane B. -/
def Lane.idx : Lane → Nat
  | .a => 0
  | .b => 1

/-- The lane of a number. -/
def Lane.ofIdx : Nat → Lane
  | 0 => .a
  | _ => .b

/-- The other lane of the module. -/
def Lane.other : Lane → Lane
  | .a => .b
  | .b => .a

end Sys2Proof
end

