-- ==== Sys2Proof/Machine/Sparse.lean ====
section
/-!
DEFINITION. Sparse maps with a canonical form: a list of (key, value) pairs with rising keys and no entry equal to the default
of its key, so that equal maps are equal lists. Register files, buffers and memories of the block are held in this form.
-/

namespace Sys2Proof.Machine

/-- A sparse map from numbers to values; what an unlisted key reads as is given where the map is used. -/
abbrev Sparse (α : Type) := List (Nat × α)

namespace Sparse

/-- Read of one key: the listed value, or the default. -/
def get {α : Type} (d : Nat → α) : Sparse α → Nat → α
  | [], k => d k
  | (j, v) :: m, k => if j = k then v else get d m k

/-- Removal of one key. -/
def erase {α : Type} : Sparse α → Nat → Sparse α
  | [], _ => []
  | (j, v) :: m, k => if j = k then erase m k else (j, v) :: erase m k

/-- Insertion of a key in rising order. -/
def insert {α : Type} : Sparse α → Nat → α → Sparse α
  | [], k, v => [(k, v)]
  | (j, w) :: m, k, v =>
    if k < j then (k, v) :: (j, w) :: m
    else if j = k then (k, v) :: m
    else (j, w) :: insert m k v

/-- Write of one key; writing the default of a key removes its entry. -/
def set {α : Type} [DecidableEq α] (d : Nat → α) (m : Sparse α) (k : Nat) (v : α) : Sparse α :=
  if v = d k then erase m k else insert m k v

/-- Keys strictly rising, all at least the bound. -/
def rising {α : Type} : Nat → Sparse α → Bool
  | _, [] => true
  | lo, (k, _) :: m => decide (lo ≤ k) && rising (k + 1) m

/-- No entry equals the default of its key. -/
def noDefault {α : Type} [DecidableEq α] (d : Nat → α) : Sparse α → Bool
  | [] => true
  | (k, v) :: m => decide (v ≠ d k) && noDefault d m

/-- The canonical form. -/
def wf {α : Type} [DecidableEq α] (d : Nat → α) (m : Sparse α) : Bool := rising 0 m && noDefault d m

/-- Apply a function to every listed value and drop the entries that become defaults. -/
def mapVals {α : Type} [DecidableEq α] (d : Nat → α) (f : Nat → α → α) : Sparse α → Sparse α
  | [] => []
  | (k, v) :: m => if f k v = d k then mapVals d f m else (k, f k v) :: mapVals d f m

/-- Keep the entries whose key passes a test. -/
def keep {α : Type} (p : Nat → Bool) : Sparse α → Sparse α
  | [] => []
  | (k, v) :: m => if p k then (k, v) :: keep p m else keep p m

/-- Write consecutive keys from a list of values. -/
def setRange {α : Type} [DecidableEq α] (d : Nat → α) (m : Sparse α) (k : Nat) : List α → Sparse α
  | [] => m
  | v :: vs => setRange d (set d m k v) (k + 1) vs

/-- Read `n` consecutive keys. -/
def getRange {α : Type} (d : Nat → α) (m : Sparse α) (k : Nat) : Nat → List α
  | 0 => []
  | n + 1 => get d m k :: getRange d m (k + 1) n

end Sparse

end Sys2Proof.Machine
end

