-- ==== Sys2Proof/Types.lean ====
section
/-!
DEFINITION. The types of the commands' operands and of the items that travel between the lanes: modes, order paths and
descriptors (R362), the authority state (R369), and the items of the mirrored set (R291).
-/

namespace Sys2Proof

open Machine (Sparse)

/-- The five operating modes (R40), numbered as JX_MODE.mode (R51). -/
inductive Mode where
  | layup | transit | approach | berth | joystick
  deriving DecidableEq, Repr

/-- Life-cycle states (R473). -/
inductive LcState where
  | blank | provisioned | operational | service | decommissioned
  deriving DecidableEq, Repr

/-- Package kinds (R374 ARM): model or network. -/
inductive PkgKind where
  | model | network
  deriving DecidableEq, Repr

/-- Engines whose fast PLL the cycle scheduler starts and stops (R28). -/
inductive Engine where
  | cores | fen | slv
  deriving DecidableEq, Repr

/-- The path a descriptor came by (R368): a submission ring of an endpoint, a network station, or the CAN joystick. -/
inductive Path where
  | pcie (ep : Lane) (ring : Nat)
  | net (station : Nat)
  | can
  deriving DecidableEq, Repr

/-- A submitted descriptor (R362) as the module receives it: class, operation, flags, tag, the complement of bytes 0-7, the
CRC-32C of bytes 24-63, the word at bytes 20-23, and the body (byte k of the body is bits 8k+7..8k). -/
structure Order where
  path : Path
  cls : Byte
  op : Byte
  flags : BitVec 16
  tag : Word
  cpl : BitVec 64
  crc : Word
  rsv : Word
  body : BitVec 320
  deriving DecidableEq, Repr

/-- What ends an attempt to send a CAN frame (R390, R395): lost arbitration; an acknowledge error with no dominant bit seen while the error flag is
sent; a stuff error during arbitration for a bit sent recessive; any other error. -/
inductive TxFault where
  | arb | ack | stuff | other
  deriving DecidableEq, Repr

/-- A host buffer named by a descriptor: whether the DMA transfer succeeded, and the bytes it read. -/
structure HostBuf where
  dmaOk : Bool
  bytes : List Byte
  deriving DecidableEq, Repr

/-- Where a completion of an order goes, and what it repeats (R364); `port` is the UDP port a network station sent from (R383), or
the completion ring its submission ring named (R355). -/
structure OrdInfo where
  path : Path
  cls : Byte
  tag : Word
  quiet : Bool
  index : Nat
  tAcc : Time
  station : Nat
  port : Nat
  deriving DecidableEq, Repr

/-- The quay datum (R161, R374 DATUM): latitude, longitude, height, azimuth. -/
structure Datum where
  lat : F64
  lon : F64
  hgt : F64
  azi : F64
  deriving DecidableEq, Repr

/-- What a loop command sets (R268). -/
inductive LoopCmd where
  | mode (m : Nat) | man (v : F64) | sp (v : F64) | bank (b : Nat)
  deriving DecidableEq, Repr

/-- What a pending order does when it takes effect (R374, R371): a mode with its warm value, a setpoint or its withdrawal, a
package arm (network or model, bank, instant T), a loop command, a trusted reference or its clearing, a datum, a planned role
swap with the epochs it has waited, a release of authority. -/
inductive OrdVal where
  | mode (m : Mode) (warm : Bool)
  | sp (id : Word) (v : Option F64)
  | arm (net : Bool) (bank : Nat) (tai : Option (Nat × Nat))
  | loop (slot : Nat) (c : LoopCmd)
  | trust (slot : Option Nat)
  | datum (d : Datum)
  | swap (waits : Nat)
  | release
  deriving DecidableEq, Repr

/-- The item an order sets (R370): two orders on one item replace or contradict each other. -/
def OrdVal.item : OrdVal → Nat × Nat
  | .mode _ _ => (0, 0)
  | .sp id _ => (1, id.toNat)
  | .arm net _ _ => (2, if net then 1 else 0)
  | .loop slot c => (3, 4 * slot + match c with | .mode _ => 0 | .man _ => 1 | .sp _ => 2 | .bank _ => 3)
  | .trust _ => (4, 0)
  | .datum _ => (5, 0)
  | .swap _ => (6, 0)
  | .release => (7, 0)

/-- A pending order of the authority state: station, acceptance instant, the earliest instant of its E_eff, and its ticket. -/
structure PendOrd where
  val : OrdVal
  stn : Nat
  tAcc : Time
  earliest : Time
  tkt : Nat
  deriving DecidableEq, Repr

/-- A transfer of authority in progress (R371): destination, the grant's acceptance, the tickets of request and grant. -/
structure Transfer where
  dest : Nat
  tGrant : Time
  tkts : List Nat
  deriving DecidableEq, Repr

/-- A pending authority request (R371). -/
structure Request where
  stn : Nat
  tReq : Time
  tkt : Nat
  deriving DecidableEq, Repr

/-- The command authority state (R369, R291 item AUTHORITY): holder, transfer, request, expert session (its start), the holder's
last sign of life, version, pending orders, setpoints in force, trusted reference, datum. -/
structure Auth where
  holder : Option Nat := none
  xfer : Option Transfer := none
  req : Option Request := none
  expert : Option Time := none
  lastSign : Time := 0#64
  ver : Word := 0#32
  orders : List PendOrd := []
  sps : List (Word × F64) := []
  trust : Option Nat := none
  datum : Option Datum := none
  deriving DecidableEq, Repr

/-- SOLUTION (R293): V9-V12 of a published solution, its E, status word, bank and package digest bytes 0-7. -/
structure Solution where
  e : Time
  status : Word
  bank : Nat
  dig : BitVec 64
  v9 : List F64
  v10 : List F64
  v11 : List F64
  v12 : List F64
  deriving DecidableEq, Repr

/-- One field of a drive set (R141). -/
structure DriveFld where
  code : Nat
  valid : Bool
  clip : Bool
  val : F64
  deriving DecidableEq, Repr

/-- One entry of the solution part of an allocation (R381). -/
structure SolEnt where
  code : Nat
  stage : Nat
  valid : Bool
  val : F64
  deriving DecidableEq, Repr

/-- A published allocation (R381): header fields and both parts. -/
structure AllocRec where
  e : Time
  stamp : Time
  ltS : BitVec 64
  ltNs : Word
  cyc : Word
  status : Word
  hls : Bool
  stale : Bool
  nosafe : Bool
  noflags : Bool
  byB : Bool
  red : Byte
  amber : Byte
  sol : List SolEnt
  drive : List DriveFld
  dig : BitVec 64
  mode : Nat
  grade : Nat
  deriving DecidableEq, Repr

/-- DISPATCH (R291): the dispatch state of a cycle: the last published allocation, the last-safe drive set with its E, and the
count of consecutive hold-last-safe cycles. -/
structure Dispatch where
  last : Option AllocRec := none
  safe : Option (List DriveFld × Time) := none
  hlscyc : Nat := 0
  deriving DecidableEq, Repr

/-- State of one reference slot in the votes (R157, R180): whether it is SUSPECT, the stale values counted, the code of FUS_REFn.state,
consecutive rejections, consecutive cycles in the chosen set, consecutive cycles without a usable value. -/
structure RefSt where
  sus : Bool := false
  stale : Nat := 0
  state : Nat := 0
  rej : Nat := 0
  chosen : Nat := 0
  unus : Nat := 0
  deriving DecidableEq, Repr

/-- Grade state (R182, R183, R185): published grade, the computed grades of the present run of better cycles, the G3 timer's
start, consecutive LATE cycles, cycles without any input, the reference states, and what FUS_STAT tells of the last votes: a contradiction
of positions, no accepted heading. -/
structure GradeSt where
  grade : Nat := 4
  better : List Nat := []
  g3 : Option Time := none
  lateRun : Nat := 0
  noInput : Nat := 0
  wasBetter : Bool := false
  refs : Sparse RefSt := []
  suspect : Bool := false
  nohdg : Bool := false
  deriving DecidableEq, Repr

/-- The state of the fusion filter (R174): the instant it holds for; x, y, ψ in the quay frame, body velocities u, v, r and the gyro bias;
the covariance, row by row. -/
structure Filt where
  at' : Time
  x : List F64
  p : List (List F64)
  deriving DecidableEq, Repr

/-- FUSION (R185): output record items 0-21, filter state and covariance, grade state with the trust, keyframe with its origin. -/
structure FusMir where
  items : List F64
  filter : Option Filt
  grd : GradeSt
  trust : Option Nat
  prov : Option Datum
  key : Option (Sparse (BitVec 16) × Int × Int)
  deriving DecidableEq, Repr

/-- Mirrored state of one loop slot (R276). -/
structure LoopMir where
  slot : Nat
  inst : Time
  i : F64
  x1 : F64
  x2 : F64
  dPrev : F64
  ePrev : F64
  yPrev : F64
  u : F64
  mode : Nat
  bank : Nat
  w : F64
  man : F64
  deriving DecidableEq, Repr

/-- RECORDER (R446): write slot, sequence and overflow count as the Active lane last read them. -/
structure RecMir where
  wslot : Nat
  seq : Word
  ovf : Word
  deriving DecidableEq, Repr

/-- What a SEAL lists of an item (R291): type, length, CRC-32C. -/
structure SealEnt where
  typ : Nat
  len : Nat
  crc : Word
  deriving DecidableEq, Repr

/-- The sections of an item as it travels (R291, R292): content, complement, keyframe. -/
structure ItemSecs where
  main : List Byte := []
  cpl : List Byte := []
  tail : List Byte := []
  deriving DecidableEq, Repr

/-- The items of the mirror link (R291) with their contents. The SOLUTION item carries the status word of the cycle, and the solution
the sender holds. -/
inductive MirItem where
  | solution (status : Word) (s : Option Solution)
  | fusion (f : FusMir)
  | dispatch (d : Dispatch)
  | authority (a : Auth)
  | loops (l : List LoopMir)
  | recorder (r : RecMir)
  | seal (es : List SealEnt)
  deriving DecidableEq, Repr

/-- The type code of an item (R291). -/
def MirItem.code : MirItem → Nat
  | .solution _ _ => 0x1
  | .fusion _ => 0x2
  | .dispatch _ => 0x3
  | .authority _ => 0x4
  | .loops _ => 0x5
  | .recorder _ => 0x6
  | .seal _ => 0xF

/-- Fields of an assembler instruction (R72), all but its opcode. -/
structure AsmI where
  d : BitVec 5
  a : BitVec 5
  b : BitVec 5
  c : BitVec 5
  x : BitVec 4
  m : BitVec 4
  imm : Word
  deriving DecidableEq, Repr

/-- A Ramjor frame as received (R307): the 32 header bytes (byte k at bits 8k+7..8k), whether the FCS is correct, and the
type-specific payload. -/
structure RingFrame where
  fcsOk : Bool
  hdr : BitVec 256
  payload : List Byte
  deriving DecidableEq, Repr

/-- What the firmware knows of a channel at an epoch besides its oscillators (R204, R206): the sample edges since its last accumulation
boundary, the locks, and the transmit time of week once it is decoded, in ms. -/
structure GnbLatch where
  ch : Nat
  n : Nat
  codeLock : Bool
  carLock : Bool
  half : Bool
  tow : Option Word
  deriving DecidableEq, Repr

/-- What the fix firmware computed from the records of one epoch (R208): position, clock bias in s, the covariance of east and
north in m² scaled by the residual variance, PDOP, the channels used (bit c for channel c), and the number of unknowns of the solution. -/
structure FixRes where
  lat : F64
  lon : F64
  hgt : F64
  varE : F64
  varN : F64
  covEN : F64
  clkBias : F64
  pdop : F64
  used : BitVec 160
  unknowns : Nat
  deriving DecidableEq, Repr

/-- A signal that may be given a channel (R195): signal, satellite, GLONASS k (a byte, two's complement), elevation in degrees. -/
structure Cand where
  sig : Nat
  sat : Nat
  k : Nat
  elev : F64
  deriving DecidableEq, Repr

/-- A solved two-antenna baseline (R210): length in metres and heading in radians. -/
structure Baseline where
  len : F64
  hdg : F64
  deriving DecidableEq, Repr

/-- What an epoch brings to a lane's GNSS baseband (R191, R204, R213): the residual of each port in ps, the channels, and per port the
share of outer samples. -/
structure EpochIn where
  r : List Nat
  lat : List GnbLatch
  outer : List Nat
  deriving DecidableEq, Repr

/-- An accumulation of a channel (R188, R201): the samples of its port since the last boundary, and whether the firmware wrote the rate
words later than the next boundary. -/
structure CorrDump where
  ch : Nat
  samples : List Byte
  late : Bool
  deriving DecidableEq, Repr

/-- A verified detection of the acquisition engine (R199): carrier rate word of its Doppler bin, code phase (chips and 2^-32 chip), C/N0 in
dB-Hz, number of non-coherent sums. -/
structure Detection where
  car : Word
  chip : Nat
  frac : Word
  cn0 : F64
  sums : Nat
  deriving DecidableEq, Repr

/-- A decoded navigation data set (R198). -/
structure NavSet where
  sig : Nat
  sat : Nat
  kind : Nat
  issue : Nat
  bytes : List Byte
  deriving DecidableEq, Repr

/-- What a scrub pass found (R449, R450): nothing, a correctable error at an address, an uncorrectable error. -/
inductive Scrub where
  | none' | ce (addr : Nat) | ue (addr : Nat)
  deriving DecidableEq, Repr

/-- A value of AO MRAM kept in two slots (R243, R437, R489), by slot: metrology, the counters of the records, the update journal. -/
inductive MramSlot where
  | met (slot : Nat) | counter (slot : Nat) | journal (slot : Nat)
  deriving DecidableEq, Repr

/-- What a pass over the MRAM found wrong (R451): the offset of a value kept in two slots, with the slot, of a configuration item, of an item without
a copy, or the number of a recorder slot with an uncorrectable error. -/
inductive MramFind where
  | slotPair (off : Nat) (v : MramSlot) | config (off : Nat) | lone (off : Nat) | recSlot (slot : Nat)
  deriving DecidableEq, Repr

/-- A value of AO MRAM with a complement pair beside the registers and the billing slots (R16): the life-cycle record (R476), the
update journal (R489), the active-bank pointer of a package kind (R88; true: network), a configuration item by code and index. -/
inductive AoVal where
  | lifecycle | journal | bankPtr (net : Bool) | item (code index : Nat)
  deriving DecidableEq, Repr

/-- What the start sequence finds in AO MRAM (R16, R243, R470, R498): the registers whose pair fails, the other values without a good
copy with their offset in the MRAM, whether the pairs of the two metrology slots check, and the slots of the counters (R437) whose pairs
fail, with their offset. -/
structure StartIn where
  badRegs : List Nat
  badVals : List (AoVal × Nat)
  met0Ok : Bool
  met1Ok : Bool
  cntBad : List (Nat × Nat) := []
  deriving DecidableEq, Repr

/-- Sensor clock format of a stream (R158). -/
inductive SensClk where
  | none' | ns (ofs : Nat) | ptp (ofs : Nat)
  deriving DecidableEq, Repr, Inhabited

/-- A coordinate of a lidar point record (R158): offset in the record, type (0 int16, 1 int32, 2 binary32) and scale to m. -/
structure PtFld where
  ofs : Nat := 0
  typ : Nat := 2
  scale : F64 := 0x3FF0000000000000#64
  deriving DecidableEq, Repr, Inhabited

/-- Pixel formats of a camera (R158). -/
inductive PixFmt where
  | rgb888 | yuv422 | mono8
  deriving DecidableEq, Repr, Inhabited

/-- Configuration of a stream slot (R158): port, framing, sensor clock, period and latency in ns, image or point layout, extractor, and
the sensor's pose in the body frame: position in m and roll, pitch, yaw in rad. -/
structure StreamCfg where
  port : Nat
  dport : Nat
  lidar : Bool
  ofsCounter : Nat
  ofsIndex : Nat
  packets : Nat
  clk : SensClk
  tf : Nat
  lat : Nat
  width : Nat
  height : Nat
  extractor : Nat
  recLen : Nat := 16
  ptX : PtFld := {}
  ptY : PtFld := {}
  ptZ : PtFld := {}
  intOfs : Nat := 0
  intWide : Bool := false
  pix : PixFmt := .rgb888
  px : F64 := 0#64
  py : F64 := 0#64
  pz : F64 := 0#64
  roll : F64 := 0#64
  pitch : F64 := 0#64
  yaw : F64 := 0#64
  deriving DecidableEq, Repr, Inhabited

/-- Serial items that carry the filter's motion data and wind (R155, R174, R403): gyro rate, roll, pitch, heave, relative wind angle and
speed. -/
structure MotCfg where
  rate : Option Nat := none
  roll : Option Nat := none
  pitch : Option Nat := none
  heave : Option Nat := none
  windA : Option Nat := none
  windS : Option Nat := none
  deriving DecidableEq, Repr, Inhabited

/-- Configuration of a reference slot (R155, R156, R177): the serial items its position (two) and its heading are read from, their
standard deviations, latency in ns, independence group, lever arm in the body frame, and the motion items it names. -/
structure RefCfg where
  pos : Option (Nat × Nat) := none
  hdg : Option Nat := none
  sd : F32 := 0#32
  sdH : F32 := 0#32
  lat : Nat := 0
  group : Nat := 0
  armX : F64 := 0#64
  armY : F64 := 0#64
  armZ : F64 := 0#64
  mot : MotCfg := {}
  deriving DecidableEq, Repr, Inhabited

/-- Calibration constants of a channel (R227). -/
structure ChanCal where
  fsH : F64
  kH : F64
  oH : F64
  aL : F64
  bL : F64
  aL0 : F64
  bL0 : F64
  trim : F64
  deriving DecidableEq, Repr, Inhabited

/-- A measurement point (R235): kind 0 none, 1 single-phase, 2 three-phase four-wire, 3 three-phase three-wire, 4 DC; its
channels in the order of the kind's row of R235; whether its reference direction opposes the channels' sense. -/
structure PointCfg where
  kind : Nat
  chs : List Nat
  rev : Bool
  deriving DecidableEq, Repr, Inhabited

/-- A PTP message as it arrives (R331-R333): sender's port identity, domain, transport, sequenceId, twoStep flag, the
correctionField in 2^-16 ns, the timestamp it carries in ns of TAI, and the port identity it answers. -/
structure PtpMsg where
  src : BitVec 80
  dom : Nat
  udp : Bool
  seq : BitVec 16
  twoStep : Bool
  corr : Int
  ts : Int
  req : BitVec 80
  deriving DecidableEq, Repr

/-- The data set of an Announce message (R331, R334, R342). -/
structure PtpAnn where
  src : BitVec 80
  dom : Nat
  udp : Bool
  gm : BitVec 64
  prio1 : Nat
  cls : Nat
  acc : Nat
  var : Nat
  prio2 : Nat
  steps : Nat
  tsrc : Nat
  utc : Option (BitVec 8)
  deriving DecidableEq, Repr

/-- The PTP messages sent at a message interval (R333). -/
inductive PtpTx where
  | sync | announce | delayReq | pdelayReq
  deriving DecidableEq, Repr

/-- A CAN frame (R385, R391): identifier type, identifier, FD format, remote frame, data. -/
structure CanFrame where
  ide : Bool
  id : BitVec 29
  fd : Bool
  rtr : Bool
  data : List Byte
  deriving DecidableEq, Repr

/-- What one island channel reads in a 1 ms cycle (R409): the sixteen safety inputs, the readbacks of the A and B switches, the
request lines whose two wires are not complementary, and whether it finds the other channel's oscillator or its supply out of
range (R410). -/
structure SafIn where
  si : BitVec 16
  rdA : Byte
  rdB : Byte
  rqBad : Byte
  oscBad : Bool
  supBad : Bool
  deriving DecidableEq, Repr

end Sys2Proof
end

