-- ==== Sys2Proof/Syntax.lean ====
section
/-!
DEFINITION. The commands of the block: one constructor per row of spec/opcode_table.json, in the table's order. The first
operand of every command is the instant it comes about, on the module time count (log entry 1).
-/

namespace Sys2Proof

/-- The commands, each with its operands. -/
inductive Instr where
  /-- EPOCH (R17): The measurement epoch E of a cycle arrives on MTC and a new station cycle begins. -/
  | epoch (t : Time) (ga gb : EpochIn)
  /-- PLL_WAKE (R28): The cycle scheduler starts a stopped fast PLL 200 microseconds before the work that needs it. -/
  | pllWake (t : Time) (l : Lane) (e : Engine)
  /-- INTAKE_CLOSE (R29): The intake close mark passes and frames still incomplete are dropped for the cycle. -/
  | intakeClose (t : Time)
  /-- FUSION_END (R29): The fusion end mark passes without fusion output; the previous output is propagated and flagged LATE. -/
  | fusionEnd (t : Time)
  /-- MIRROR_WINDOW_OPEN (R24): The mirror window opens at its mark and the Active lane starts sending the cycle's mirrored set. -/
  | mirrorWindowOpen (t : Time)
  /-- MIRROR_WINDOW_CLOSE (R29): The mirror window closes; an unfinished transfer stops and a set not adopted counts as a mirror miss. -/
  | mirrorWindowClose (t : Time)
  /-- DEADLINE (R114): The solve deadline arrives; the solve ends and the output is chosen by the deadline rules. -/
  | deadline (t : Time)
  /-- FUSION_COMPLETE (R175): Fusion completes its update and produces the fusion output record for E. -/
  | fusionComplete (t : Time)
  /-- ASM_BUDGET (R78): The assembler executes asm_budget steps before END; assembly stops with fault BUDGET. -/
  | asmBudget (t : Time)
  /-- END (R76): Assembler END ends the program and runs the hard-bound contradiction check. -/
  | asmEnd (t : Time) (i : AsmI)
  /-- LDM (R73): Assembler LDM loads a measurement element and its validity. -/
  | ldm (t : Time) (i : AsmI)
  /-- LDS (R73): Assembler LDS loads a setpoint element and its validity. -/
  | lds (t : Time) (i : AsmI)
  /-- LDP (R73): Assembler LDP loads a parameter word. -/
  | ldp (t : Time) (i : AsmI)
  /-- ITP (R73): Assembler ITP interpolates a one- or two-dimensional table. -/
  | itp (t : Time) (i : AsmI)
  /-- MAD (R73): Assembler MAD performs a fused multiply-add with optional negations. -/
  | mad (t : Time) (i : AsmI)
  /-- FOP (R74): Assembler FOP performs the floating sub-operation selected by its c field. -/
  | fop (t : Time) (i : AsmI)
  /-- CMP (R73): Assembler CMP sets the condition flag from a comparison. -/
  | cmp (t : Time) (i : AsmI)
  /-- LDA (R73): Assembler LDA loads an index register. -/
  | lda (t : Time) (i : AsmI)
  /-- LOOP (R73): Assembler LOOP decrements an index register and jumps while it is non-zero. -/
  | loop (t : Time) (i : AsmI)
  /-- BRQ (R73): Assembler BRQ jumps unconditionally or on the condition flag. -/
  | brq (t : Time) (i : AsmI)
  /-- SCT (R73): Assembler SCT stores or adds a value into a KKT image slot. -/
  | sct (t : Time) (i : AsmI)
  /-- VST (R75): Assembler VST stores or adds a value into a target vector. -/
  | vst (t : Time) (i : AsmI)
  /-- BND (R73): Assembler BND writes lower, upper bound and slack weight of an index. -/
  | bnd (t : Time) (i : AsmI)
  /-- RTL (R73): Assembler RTL writes symmetric rate bounds and slack weight of an index. -/
  | rtl (t : Time) (i : AsmI)
  /-- SIG (R73): Assembler SIG records a diagnostic code and optionally an event. -/
  | sig (t : Time) (i : AsmI)
  /-- BAR (R82): Schedule BAR waits for all earlier instructions and may end a segment. -/
  | bar (t : Time) (n kind : Nat)
  /-- PAN (R82): Schedule PAN sets the source and destination panel context. -/
  | pan (t : Time) (n sb sld scol db dld dcol : Nat)
  /-- BLD (R82): Schedule BLD copies image slots, or zeros, into the factor region. -/
  | bld (t : Time) (n dst src len : Nat) (zero : Bool)
  /-- DAD (R82): Schedule DAD adds V14 and regularisation to panel diagonals. -/
  | dad (t : Time) (n c cnt : Nat) (f0 f1 f2 : Bool)
  /-- GMT (R82): Schedule GMT performs a scaled matrix update of a destination panel. -/
  | gmt (t : Time) (n m nn k ar br kc cr cc : Nat) (lower : Bool)
  /-- PVS (R103): Schedule PVS factors columns with static pivoting, writing D to V15. -/
  | pvs (t : Time) (n cnt c h : Nat) (mask : BitVec 64)
  /-- TSL (R82): Schedule TSL applies the inverse of a unit-lower block to V0. -/
  | tsl (t : Time) (n cnt c : Nat)
  /-- TSU (R82): Schedule TSU applies the inverse transpose of a unit-lower block to V0. -/
  | tsu (t : Time) (n cnt c : Nat)
  /-- DSC (R82): Schedule DSC divides V0 entries by the pivot diagonal. -/
  | dsc (t : Time) (n row cnt : Nat)
  /-- GMV (R82): Schedule GMV performs a matrix-vector update of V0. -/
  | gmv (t : Time) (n m k ar kc tt : Nat) (tr pool : Bool)
  /-- SCA (R82): Schedule SCA scatter-adds factor words through the index pool. -/
  | sca (t : Time) (n src p len : Nat) (zero : Bool)
  /-- RFN (R82): Schedule RFN forms the refinement residual V2 from the image. -/
  | rfn (t : Time) (n : Nat) (f0 f1 f2 : Bool)
  /-- ITERATION_COMPLETE (R96): An interior-point iteration writes its new iterate and its stopping tests run. -/
  | iterationComplete (t : Time)
  /-- ALLOCATION_PUBLISHED (R30): The Active lane publishes the allocation with status word and publication stamp. -/
  | allocationPublished (t : Time)
  /-- PACKAGE_VERIFIED (R66): Verification and staging of a loaded package bank completes, leaving it VERIFIED or FAILED. -/
  | packageVerified (t : Time) (l : Lane) (kind : PkgKind) (bank : Nat)
  /-- MIRROR_FRAME (R294): The Standby receives a mirror-link frame and checks its CRC and the item pairs. -/
  | mirrorFrame (t : Time) (f : List Byte)
  /-- MIRROR_ACK (R294): The Active lane receives an ACK frame carrying the adopted authority version and SEAL. -/
  | mirrorAck (t : Time) (ver cyc : Word) (crcOk : Bool)
  /-- LOOP_MIRROR (R276): At each MTC multiple of 10 ms the Active lane mirrors loop states. -/
  | loopMirror (t : Time)
  /-- WATCH_WORD_SEND (R282): Each lane sends a watch word to the Keeper every 1 ms. -/
  | watchWordSend (t : Time) (l : Lane)
  /-- WATCH_WORD (R284): The Keeper receives a watch word and checks complement, sequence and fatal bits. -/
  | watchWord (t : Time) (l : Lane) (w : BitVec 64)
  /-- KEEPER_SLOT (R284): A 1 ms Keeper slot ends; missed watch words and the MTC difference are checked. -/
  | keeperSlot (t : Time) (d : BitVec 64)
  /-- TAKEOVER_PUBLICATION (R297): The new Active lane publishes the shifted mirrored solution with tkov when owed. -/
  | takeoverPublication (t : Time)
  /-- FAILED_LANE_RESET (R296): 10 ms after t0 the failed lane is placed in lane reset unless held. -/
  | failedLaneReset (t : Time) (l : Lane)
  /-- PUB_CHECK (R284): The Keeper's publication bound expires without a pub toggle; the Active lane is declared failed. -/
  | pubCheck (t : Time)
  /-- LOOP_OUTPUT_REPORT (R285): At each 10 ms multiple lanes report loop outputs and the Keeper compares them. -/
  | loopOutputReport (t : Time) (l : Lane)
  /-- METROLOGY_TOTAL_REPORT (R285): At each 1 s multiple lanes report billing totals and the Keeper compares them. -/
  | metrologyTotalReport (t : Time) (l : Lane)
  /-- MLINK_TIMEOUT (R284): No mirror-link frame in 25 ms declares the Standby failed. -/
  | mlinkTimeout (t : Time)
  /-- KEEPER_WORD (R286): A lane receives the Keeper word naming the role set. -/
  | keeperWord (t : Time) (l : Lane) (role : Option Lane)
  /-- KEEPER_WORD_TIMEOUT (R286): No Keeper word for 10 ms raises alarm KPR_LOST in the lane. -/
  | keeperWordTimeout (t : Time) (l : Lane)
  /-- KEEPER_RESTART (R286): After a fault of its own the Keeper restarts, reads the latched role lines and resumes. -/
  | keeperRestart (t : Time)
  /-- PREFERRED_LANE_TIMEOUT (R287): If the preferred lane is not healthy within 5 s of module reset, the other lane is made Active. -/
  | preferredLaneTimeout (t : Time)
  /-- ADMISSION_TIMEOUT (R301): A lane without adm 60 s after reset records KPR_ADMFAIL and stays blocked. -/
  | admissionTimeout (t : Time) (l : Lane)
  /-- LANE_FATAL_FAULT (R283): A lane detects a fatal fault and sets a fatal bit in its health vector. -/
  | laneFatalFault (t : Time) (l : Lane) (bit : Nat)
  /-- REFERENCE_OSCILLATOR_LOSS (R522): A lane reference input shows no edge for 1 microsecond and the lane sets f_clk. -/
  | referenceOscillatorLoss (t : Time) (l : Lane)
  /-- PRP_FRAME (R305): A frame arrives on VA or VB and PRP duplicate discard and error counting apply. -/
  | prpFrame (t : Time) (lanB : Bool) (src : BitVec 48) (rct : Option (Nat × BitVec 16))
  /-- PRP_SUPERVISION (R305): PRP supervision frames are sent every 2 s. -/
  | prpSupervision (t : Time)
  /-- NODE_FORGET (R305): A PRP node table entry expires after its forget time. -/
  | nodeForget (t : Time) (mac : BitVec 48)
  /-- SYNC_FRAME (R309): A Ramjor SYNC frame is received and the epoch phase is computed. -/
  | syncFrame (t : Time) (port : Bool) (f : RingFrame)
  /-- EXCH_FRAME (R311): An EXCH frame is received and its entries delivered on the ring data stream. -/
  | exchFrame (t : Time) (port : Bool) (f : RingFrame)
  /-- RING_MIRROR_FRAME (R312): A standby module receives a MIRROR frame of the active module's mirrored set. -/
  | ringMirrorFrame (t : Time) (port : Bool) (f : RingFrame) (it : Option MirItem)
  /-- ARB_FRAME (R315): An ARB frame is received and acted on when its term is higher. -/
  | arbFrame (t : Time) (port : Bool) (f : RingFrame)
  /-- GRANT_FRAME (R315): A GRANT frame from the arbiter is received and acted on when its term is higher. -/
  | grantFrame (t : Time) (port : Bool) (f : RingFrame)
  /-- PROBE_FRAME (R310): A PROBE frame is received, counting its source and measuring round trip. -/
  | probeFrame (t : Time) (port : Bool) (f : RingFrame)
  /-- EXCHANGE_SLOT (R310): The module's slot in the exchange window starts and it sends its EXCH frame. -/
  | exchangeSlot (t : Time)
  /-- PROBE_TIMER (R310): Every 10 s the module sends PROBE round the ring. -/
  | probeTimer (t : Time)
  /-- SYNC_LOSS (R309): SYNC absent for 3 cycles makes the next module sync master. -/
  | syncLoss (t : Time)
  /-- RING_MEMBER_EXPIRY (R310): A module not heard for 20 s leaves ring membership. -/
  | ringMemberExpiry (t : Time) (m : Nat)
  /-- ARB_TIMER (R313): Every 1 ms each Keeper of a module pair sends an ARB frame; the arbiter repeats GRANTs. -/
  | arbTimer (t : Time)
  /-- ACTIVE_MODULE_ABSENCE (R314): The arbiter hears no ARB from the active module for 10 ms and grants the standby. -/
  | activeModuleAbsence (t : Time)
  /-- QUORUM_TIMEOUT (R314): An active module hearing neither partner for 20 ms releases its outputs. -/
  | quorumTimeout (t : Time)
  /-- CLOCK_WORD (R324): The Standby receives a clock word over the lane time link and adopts it if its pair checks. -/
  | clockWord (t : Time) (l : Lane) (pairOk : Bool)
  /-- TIMEBASE_PLL_LOCK (R319): A lane timebase PLL locks; after lane reset the MTC is loaded from the Active lane. -/
  | timebasePllLock (t : Time) (l : Lane)
  /-- PTP_SYNC (R332): A PTP Sync message is received and stamped. -/
  | ptpSync (t : Time) (n : Nat) (m : PtpMsg)
  /-- PTP_FOLLOW_UP (R331): A PTP Follow_Up message is received. -/
  | ptpFollowUp (t : Time) (n : Nat) (m : PtpMsg)
  /-- PTP_DELAY_REQ (R331): A PTP Delay_Req message is received and answered by the Active lane. -/
  | ptpDelayReq (t : Time) (n : Nat) (m : PtpMsg)
  /-- PTP_DELAY_RESP (R331): A PTP Delay_Resp message is received, completing a path-delay measurement. -/
  | ptpDelayResp (t : Time) (n : Nat) (m : PtpMsg)
  /-- PTP_PDELAY_REQ (R333): A PTP Pdelay_Req is received and a one-step Pdelay_Resp sent. -/
  | ptpPdelayReq (t : Time) (n : Nat) (m : PtpMsg)
  /-- PTP_PDELAY_RESP (R331): A PTP Pdelay_Resp message is received. -/
  | ptpPdelayResp (t : Time) (n : Nat) (m : PtpMsg)
  /-- PTP_PDELAY_RESP_FOLLOW_UP (R331): A PTP Pdelay_Resp_Follow_Up message is received. -/
  | ptpPdelayRespFollowUp (t : Time) (n : Nat) (m : PtpMsg)
  /-- PTP_ANNOUNCE (R331): A PTP Announce message is received and the best master clock algorithm runs. -/
  | ptpAnnounce (t : Time) (n : Nat) (a : PtpAnn)
  /-- PTP_SIGNALING (R331): A PTP Signaling message is received. -/
  | ptpSignaling (t : Time) (n : Nat) (m : PtpMsg)
  /-- PTP_MANAGEMENT (R331): A PTP Management message is received; GET is answered, SET answered NOT_SUPPORTED. -/
  | ptpManagement (t : Time) (n : Nat) (m : PtpMsg) (action id : Nat)
  /-- PTP_TX_INTERVAL (R333): A PTP message interval expires and the Active lane transmits a one-step message. -/
  | ptpTxInterval (t : Time) (n : Nat) (k : PtpTx)
  /-- PTP_SYNC_TIMEOUT (R326): No Sync for 3 intervals loses the PTP reference. -/
  | ptpSyncTimeout (t : Time) (n : Nat)
  /-- GNSS_REFERENCE_LOSS (R326): Three epochs without a valid fix lose the GNSS reference. -/
  | gnssReferenceLoss (t : Time) (l : Lane)
  /-- HOLDOVER_EXIT (R327): A reference qualified for 10 s returns the timebase from HOLDOVER to SYNC. -/
  | holdoverExit (t : Time) (l : Lane)
  /-- TIME_STEP (R330): A pending step of local time is applied at a whole-second boundary. -/
  | timeStep (t : Time)
  /-- RTC_FIRST_SECOND (R328): At the first RTC second tick after reset local time offset is set from the calendar. -/
  | rtcFirstSecond (t : Time) (k : Nat)
  /-- TP_PULSE_START (R337): A time-pulse instant is reached and the pulse starts. -/
  | tpPulseStart (t : Time) (n : Nat)
  /-- TP_PULSE_END (R340): A time pulse reaches its width and ends; a queued LATE pulse may follow. -/
  | tpPulseEnd (t : Time) (n : Nat)
  /-- TP_START (R337): Writing TMB_TPn_CFG.mode from off to Flash or Isophase starts the generator. -/
  | tpStart (t : Time) (ep : Lane) (n : Nat) (v : Word)
  /-- TP_STOP (R337): Writing TMB_TPn_CFG.mode off ends the generator after any pulse in progress. -/
  | tpStop (t : Time) (ep : Lane) (n : Nat) (v : Word)
  /-- STEP_ACCEPT (R329): Writing TMB_CTL.accept permits a refused large step at the next second. -/
  | stepAccept (t : Time) (ep : Lane) (v : Word)
  /-- TMB_MTCL_READ (R321): Reading TMB_MTCL latches MTC high word and local time. -/
  | tmbMtclRead (t : Time) (ep : Lane)
  /-- TC_EDGE (R341): An edge on a time-capture input is captured into the lane FIFO. -/
  | tcEdge (t : Time) (n : Nat) (rise : Bool) (held : Nat)
  /-- TC_FIFO_READ (R341): Reading TMB_TCn_MTCL takes the oldest capture entry. -/
  | tcFifoRead (t : Time) (ep : Lane) (n : Nat)
  /-- CALENDAR_SET (R343): Writing RTC_WCTL.set validates and loads the staged calendar. -/
  | calendarSet (t : Time) (ep : Lane) (v : Word) (k : Nat)
  /-- SUBSECOND_SHIFT (R344): Writing RTC_SHIFT.go advances or retards the calendar by n/32768 s. -/
  | subsecondShift (t : Time) (ep : Lane) (v : Word) (k : Nat)
  /-- RTC_ALARM (R346): The calendar reaches a matching alarm instant and the alarm fires. -/
  | rtcAlarm (t : Time) (n k : Nat)
  /-- CALENDAR_ROLLOVER (R342): The calendar passes 2199 into 2000 and sets roll. -/
  | calendarRollover (t : Time) (k : Nat)
  /-- RTC_COMPENSATION (R345): Every 60 s the temperature is read and the RTC trim updated. -/
  | rtcCompensation (t : Time) (temp : BitVec 8) (k : Nat)
  /-- RTC_TRACKING (R347): Every 600 s in SYNC the Tender compares the RTC with local time and shifts it. -/
  | rtcTracking (t : Time) (k : Nat)
  /-- CORRELATOR_DUMP (R201): A channel's accumulation ends and its correlator sums go to the loop firmware. -/
  | correlatorDump (t : Time) (l : Lane) (d : CorrDump)
  /-- ACQ_DETECTION (R196): Acquisition verifies a detection and the channel enters PULLIN. -/
  | acqDetection (t : Time) (l : Lane) (ch : Nat) (d : Detection)
  /-- PULLIN_TIMEOUT (R196): A channel in PULLIN without lock for 1 s returns to ACQ. -/
  | pullinTimeout (t : Time) (l : Lane) (ch : Nat)
  /-- PHASE_LOCK (R196): Phase lock held for 100 ms moves the channel to TRACK. -/
  | phaseLock (t : Time) (l : Lane) (ch : Nat)
  /-- TRACK_LOSS (R196): Low lock indicator or C/N0 for its time moves a TRACK channel to LOST. -/
  | trackLoss (t : Time) (l : Lane) (ch : Nat)
  /-- LOST_TIMEOUT (R196): A LOST channel not reacquired within 5 s becomes IDLE. -/
  | lostTimeout (t : Time) (l : Lane) (ch : Nat)
  /-- IF_PORT_FAULT (R192): An IF port without transitions or stuck at a level enters fault. -/
  | ifPortFault (t : Time) (l : Lane) (n : Nat) (stuck : Bool)
  /-- IF_PORT_OK (R192): An IF port fault clears after 100 ms without either condition. -/
  | ifPortOk (t : Time) (l : Lane) (n : Nat)
  /-- NAVIGATION_MESSAGE_DECODED (R198): A navigation data set decoded from a tracked signal is accepted if newer. -/
  | navigationMessageDecoded (t : Time) (l : Lane) (d : NavSet)
  /-- SNAPSHOT_CAPTURE_END (R211): A snapshot capture reaches its length, IFEN is released and x.GNB powered for processing. -/
  | snapshotCaptureEnd (t : Time) (l : Lane) (smp : List (Nat × List Byte))
  /-- SNAPSHOT_PROCESSED (R211): Snapshot processing ends with a snapshot measurement record and x.GNB powered down. -/
  | snapshotProcessed (t : Time) (l : Lane)
  /-- AP_FRAME (R222): An acquisition frame is received and checked for marker, sequence and CRC. -/
  | apFrame (t : Time) (l : Lane) (n : Nat) (bits : BitVec 288)
  /-- AP_LINE_TIMEOUT (R222): No line transition for 10 microseconds returns an acquisition port to ALIGN. -/
  | apLineTimeout (t : Time) (l : Lane) (n : Nat)
  /-- AP_PHASE_FOUND (R222): The bit sampling phase of a port is found and it enters HUNT. -/
  | apPhaseFound (t : Time) (l : Lane) (n : Nat)
  /-- AP_ENABLE (R222): Writing MET_APn_CFG.en = 1 drives MCLKn and starts alignment. -/
  | apEnable (t : Time) (ep : Lane) (n : Nat) (v : Word)
  /-- AP_DISABLE (R222): Writing MET_APn_CFG.en = 0 stops MCLKn and puts the port DOWN. -/
  | apDisable (t : Time) (ep : Lane) (n : Nat) (v : Word)
  /-- CHANNEL_SETTLE (R234): A channel's validity condition has held for its settle time and its samples become valid. -/
  | channelSettle (t : Time) (l : Lane) (ch : Nat)
  /-- METROLOGY_SAMPLE (R238): A decimated metrology sample is completed and accumulated into the energy registers. -/
  | metrologySample (t : Time) (l : Lane)
  /-- PULSE_END (R249): An energy pulse ends after its width. -/
  | pulseEnd (t : Time) (l : Lane) (n : Nat)
  /-- BILLING_SAVE (R243): Every second the Active lane writes totals and pulse state to MRAM. -/
  | billingSave (t : Time)
  /-- RANGE_MATCH_WINDOW (R233): A 10 s window ends and the Tender fits the low-range match constants. -/
  | rangeMatchWindow (t : Time) (l : Lane) (ch : Nat)
  /-- MET_SNAP_GO (R251): Writing MET_SNAP_CTL.go latches all codes of a point. -/
  | metSnapGo (t : Time) (ep : Lane) (v : Word)
  /-- LOOP_SAMPLE (R262): A loop slot's sample instant arrives and its law is computed. -/
  | loopSample (t : Time) (l : Lane) (slot : Nat) (tk : Time)
  /-- TRACE_ARM (R279): Writing LPE_TRC_CTL.arm arms the enabled trace channels. -/
  | traceArm (t : Time) (ep : Lane) (v : Word)
  /-- TRACE_ABORT (R280): Writing LPE_TRC_CTL.abort ends the capture without writing it. -/
  | traceAbort (t : Time) (ep : Lane) (v : Word)
  /-- STREAM_PACKET (R158): A stream UDP packet arrives on a sensor port and is assembled into its frame. -/
  | streamPacket (t : Time) (sp dport : Nat) (payload : List Byte)
  /-- DOORBELL (R357): A doorbell write updates a ring's host index or is ignored if bad. -/
  | doorbell (t : Time) (ep : Lane) (ofs : Nat) (v : Word)
  /-- RING_ENABLE (R355): Writing HRI_RGn_CFG.en = 1 checks settings and starts the ring. -/
  | ringEnable (t : Time) (ep : Lane) (n : Nat) (v : Word)
  /-- RING_DISABLE (R355): Writing HRI_RGn_CFG.en = 0 disables the ring and discards unfetched descriptors. -/
  | ringDisable (t : Time) (ep : Lane) (n : Nat) (v : Word)
  /-- INTERRUPT_MODERATION (R360): The moderation time since the oldest unsignalled entry expires and the vector is raised. -/
  | interruptModeration (t : Time) (l : Lane) (n : Nat)
  /-- PERST (R519): An asserted PERST_N resets the endpoint link and disables its lane's rings. -/
  | perst (t : Time) (l : Lane)
  /-- STATION_DATAGRAM (R383): A network station datagram of descriptors arrives and is checked for source. -/
  | stationDatagram (t : Time) (src dst : Word) (sport : Nat) (hdr : BitVec 64) (copies : Nat)
  /-- MODE (R374): COMMAND MODE requests a mode change. -/
  | mode (t : Time) (o : Order)
  /-- SETPOINT (R374): COMMAND SETPOINT sets or withdraws a setpoint. -/
  | setpoint (t : Time) (o : Order)
  /-- ARM (R87): COMMAND ARM arms a package bank for swap. -/
  | arm (t : Time) (o : Order)
  /-- DISARM (R91): COMMAND DISARM cancels a pending arm. -/
  | disarm (t : Time) (o : Order)
  /-- LOOP_MODE (R268): COMMAND LOOP_MODE sets a slot mode. -/
  | loopMode (t : Time) (o : Order)
  /-- LOOP_MAN (R268): COMMAND LOOP_MAN sets a slot manual output. -/
  | loopMan (t : Time) (o : Order)
  /-- LOOP_SP (R268): COMMAND LOOP_SP sets a slot held setpoint. -/
  | loopSp (t : Time) (o : Order)
  /-- LOOP_BANK (R270): COMMAND LOOP_BANK swaps a slot coefficient bank. -/
  | loopBank (t : Time) (o : Order)
  /-- TRUST (R180): COMMAND TRUST names a trusted reference. -/
  | trust (t : Time) (o : Order)
  /-- TRUSTCLR (R180): COMMAND TRUSTCLR clears the trusted reference. -/
  | trustclr (t : Time) (o : Order)
  /-- DATUM (R162): COMMAND DATUM posts the quay datum. -/
  | datum (t : Time) (o : Order)
  /-- SWAP (R302): COMMAND SWAP orders a planned role swap. -/
  | swap (t : Time) (o : Order)
  /-- LANE_RESET (R374): COMMAND LANE_RESET resets the named Standby lane. -/
  | laneReset (t : Time) (o : Order)
  /-- LIFECYCLE (R477): COMMAND LIFECYCLE orders a life-cycle change with wipe and module reset. -/
  | lifecycle (t : Time) (o : Order)
  /-- SEAL (R477): COMMAND SEAL compares the configuration digest and enters Operational. -/
  | seal (t : Time) (o : Order)
  /-- FW_ACTIVATE (R481): COMMAND FW_ACTIVATE schedules a firmware activation at instant T. -/
  | fwActivate (t : Time) (o : Order)
  /-- FW_CANCEL (R481): COMMAND FW_CANCEL cancels a scheduled activation. -/
  | fwCancel (t : Time) (o : Order)
  /-- REQUEST (R371): AUTHORITY REQUEST asks for command authority. -/
  | request (t : Time) (o : Order)
  /-- GRANT (R371): AUTHORITY GRANT from the holder starts a transfer. -/
  | grant (t : Time) (o : Order)
  /-- DENY (R371): AUTHORITY DENY refuses a pending request. -/
  | deny (t : Time) (o : Order)
  /-- RELEASE (R371): AUTHORITY RELEASE leaves no holder at the next epoch. -/
  | release (t : Time) (o : Order)
  /-- KEEPALIVE (R372): AUTHORITY KEEPALIVE is a sign of life of the holder. -/
  | keepalive (t : Time) (o : Order)
  /-- EXPERT_ON (R378): AUTHORITY EXPERT_ON opens the expert level. -/
  | expertOn (t : Time) (o : Order)
  /-- EXPERT_OFF (R378): AUTHORITY EXPERT_OFF closes the expert level. -/
  | expertOff (t : Time) (o : Order)
  /-- AUTHORITY_REQUEST_TIMEOUT (R371): A request neither granted nor denied in 60 s completes REFUSED. -/
  | authorityRequestTimeout (t : Time)
  /-- HOLDER_SILENCE (R372): A silent holder with a request pending forfeits authority after tmo. -/
  | holderSilence (t : Time)
  /-- EXPERT_SESSION_TIMEOUT (R378): An expert session reaches xmax minutes and closes. -/
  | expertSessionTimeout (t : Time)
  /-- DISPATCH (R375): POST DISPATCH posts a dispatch value with its life. -/
  | dispatch (t : Time) (o : Order)
  /-- POST_REFERENCE (R375): POST REFERENCE posts a host position or heading reference. -/
  | postReference (t : Time) (o : Order)
  /-- AID_NAV (R375): POST AID_NAV posts GNSS navigation data from a buffer. -/
  | aidNav (t : Time) (o : Order) (b : HostBuf)
  /-- AID_POS (R375): POST AID_POS posts a host aiding position. -/
  | aidPos (t : Time) (o : Order)
  /-- EVENT (R375): POST EVENT records a host event in the recorder. -/
  | event (t : Time) (o : Order)
  /-- LOAD_MODEL (R86): LOAD MODEL stores one block of a model package. -/
  | loadModel (t : Time) (o : Order) (b : HostBuf)
  /-- LOAD_NETWORK (R171): LOAD NETWORK stores one block of a network package. -/
  | loadNetwork (t : Time) (o : Order) (b : HostBuf)
  /-- LOAD_FIRMWARE (R480): LOAD FIRMWARE stores one block of a firmware image. -/
  | loadFirmware (t : Time) (o : Order) (b : HostBuf)
  /-- LOAD_SAFETY (R430): LOAD SAFETY stores one block of the safety configuration. -/
  | loadSafety (t : Time) (o : Order) (b : HostBuf)
  /-- CONFIG_ITEM (R376): CONFIG writes one configuration item. -/
  | configItem (t : Time) (o : Order) (b : HostBuf)
  /-- SNAPSHOT_METRO (R377): SNAPSHOT METRO copies a point's latched registers into a host buffer. -/
  | snapshotMetro (t : Time) (o : Order) (dmaOk : Bool)
  /-- SNAPSHOT_BLOCK (R377): SNAPSHOT BLOCK copies a BAR0 block at one instant. -/
  | snapshotBlock (t : Time) (o : Order) (dmaOk : Bool)
  /-- GRID (R377): SNAPSHOT GRID copies a fusion grid after the next blend. -/
  | grid (t : Time) (o : Order) (dmaOk : Bool)
  /-- KEYFRAME (R377): SNAPSHOT KEYFRAME copies the last keyframe. -/
  | keyframe (t : Time) (o : Order) (dmaOk : Bool)
  /-- GNB_LOOP (R378): EXPERT GNB_LOOP writes GNSS loop parameters. -/
  | gnbLoop (t : Time) (o : Order)
  /-- GNB_PIN (R378): EXPERT GNB_PIN pins a channel to a signal and satellite. -/
  | gnbPin (t : Time) (o : Order)
  /-- GNB_UNPIN (R378): EXPERT GNB_UNPIN returns a channel to allocation. -/
  | gnbUnpin (t : Time) (o : Order)
  /-- MEM_READ (R378): EXPERT MEM_READ copies lane memory to a host buffer. -/
  | memRead (t : Time) (o : Order) (dmaOk : Bool)
  /-- CAN_FRAME_RECEIVED (R393): A CAN frame is received, stamped and stored in the matching receive object. -/
  | canFrameReceived (t : Time) (c : Nat) (f : CanFrame)
  /-- JOYSTICK_ORDER_FRAME (R398): A station-7 order frame becomes an AUTHORITY or COMMAND order. -/
  | joystickOrderFrame (t : Time) (c : Nat) (f : CanFrame)
  /-- JOYSTICK_DEMAND_FRAME (R398): A station-7 demand frame becomes joystick SETPOINT orders. -/
  | joystickDemandFrame (t : Time) (c : Nat) (f : CanFrame)
  /-- JOYSTICK_DEMAND_TIMEOUT (R399): No demand frame within tmo withdraws the joystick demands. -/
  | joystickDemandTimeout (t : Time)
  /-- CAN_TX_COMPLETE (R395): A queued CAN frame is transmitted successfully. -/
  | canTxComplete (t : Time) (c k : Nat)
  /-- CAN_TX_FAILURE (R395): A CAN frame loses arbitration or meets an error; it is retried or abandoned. -/
  | canTxFailure (t : Time) (c k : Nat) (x : TxFault)
  /-- BUS_OFF_RECOVERY (R390): 128 occurrences of 11 recessive bits end bus-off. -/
  | busOffRecovery (t : Time) (c : Nat)
  /-- CAN_RECOVER (R390): Writing MBC_Cn_CTL.recover starts bus-off recovery. -/
  | canRecover (t : Time) (ep : Lane) (c : Nat) (v : Word)
  /-- MBC_COUNTER_CLEAR (R404): Writing MBC_Cn_CTL.clr clears the controller counters. -/
  | mbcCounterClear (t : Time) (ep : Lane) (c : Nat) (v : Word)
  /-- CAN_ENABLE (R389): Writing MBC_Cn_CFG.en from 0 to 1 checks and applies bit timing. -/
  | canEnable (t : Time) (ep : Lane) (c : Nat) (v : Word)
  /-- TXREQ (R395): Writing MBC_OBJk_CTL.txreq queues a host transmit frame. -/
  | txreq (t : Time) (ep : Lane) (k : Nat) (v : Word)
  /-- TX_ABORT (R404): Writing MBC_OBJk_CTL.abort removes a queued frame not started. -/
  | txAbort (t : Time) (ep : Lane) (k : Nat) (v : Word)
  /-- SERIAL_SENTENCE (R403): A sentence received on a serial port is checked and updates matching items. `fr` of its characters were
  received with a framing error (R405). -/
  | serialSentence (t : Time) (n fr : Nat) (ch : List Byte)
  /-- SENTENCE_DATAGRAM (R401): An IEC 61162-450 datagram is received and its sentences parsed. -/
  | sentenceDatagram (t : Time) (grp : Nat) (rct : Option (BitVec 48 × BitVec 16)) (payload : List Byte)
  /-- SAFETY_CYCLE (R409): Every 1 ms each island channel reads inputs, evaluates functions and drives outputs. -/
  | safetyCycle (t : Time) (x y : SafIn)
  /-- TEST_PULSE (R413): A test-pulse source pulses off and its inputs are checked. -/
  | testPulse (t : Time) (src : Nat) (lvl : BitVec 16)
  /-- OUTPUT_OFF_PULSE (R417): An on output switch is pulsed off and its readback judged. -/
  | outputOffPulse (t : Time) (k : Nat) (b below : Bool)
  /-- DISCREPANCY_TIMEOUT (R415): Channels of a pair disagree beyond the discrepancy time; fault DISCREP. -/
  | discrepancyTimeout (t : Time) (k : Nat)
  /-- CATEGORY1_DELAY_END (R420): A category 1 delay ends and the delayed outputs go off. -/
  | category1DelayEnd (t : Time) (f : Nat)
  /-- RESET_HELD (R426): A reset input held on for 5 s raises fault RESETHELD. -/
  | resetHeld (t : Time) (i : Nat)
  /-- EDM_TIMEOUT (R418): EDM fails to follow its pair within 300 ms; fault EDM. -/
  | edmTimeout (t : Time) (k : Nat)
  /-- REQUEST_STABLE (R423): A request line change stable for 5 ms takes effect. -/
  | requestStable (t : Time) (k : Nat)
  /-- REQUEST_HOLD_END (R423): The 20 ms request hold after a role change ends. -/
  | requestHoldEnd (t : Time)
  /-- OUTPUT_SHORT_TRIP (R416): An output switch above 1.0 A for 50 microseconds switches off with OUTSHORT. -/
  | outputShortTrip (t : Time) (k : Nat) (b : Bool)
  /-- ROM_CHECK (R410): Every 10 min the island checks its ROM checksum. -/
  | romCheck (t : Time) (ok : Bool)
  /-- RAM_TEST (R410): Every 60 s the island completes a background RAM test. -/
  | ramTest (t : Time) (ok : Bool)
  /-- SAFETY_CONFIG_CHECK (R430): Both island channels finish checking a loaded safety configuration. -/
  | safetyConfigCheck (t : Time)
  /-- ISLAND_SELF_TEST (R432): Island self-tests at start complete and it enters RUN, NOCFG or SAFE. -/
  | islandSelfTest (t : Time) (xOk yOk pairOk : Bool)
  /-- RECORD_APPEND (R436): The appender takes a record from a source queue, numbers and stores it. -/
  | recordAppend (t : Time) (g : Nat)
  /-- SUPPRESSION_SECOND_END (R444): An MTC second ends and REC_SUPPR records the suppressed count. -/
  | suppressionSecondEnd (t : Time)
  /-- REC_ANCHOR (R438): An hour of SYNC passes and an anchor record ties MTC to local time. -/
  | recAnchor (t : Time)
  /-- OPERATING_SECOND (R437): An operating second is counted and the counters written to MRAM. -/
  | operatingSecond (t : Time)
  /-- RECORDER_CLEAR (R443): Writing the REC_CLR key clears the recorder or is refused. -/
  | recorderClear (t : Time) (ep : Lane) (v : Word)
  /-- DRAM_PATROL (R449): The Tender patrol reads lane DRAM through ECC in idle periods. -/
  | dramPatrol (t : Time) (l : Lane) (f : Scrub) (progress : Nat)
  /-- CE_RATE_HOUR (R450): An hour of correctable-error counting ends and warn is set or cleared. -/
  | ceRateHour (t : Time) (l : Lane)
  /-- SRAM_SWEEP (R449): A 60 s sweep of lane, solver or feature SRAM runs. -/
  | sramSweep (t : Time) (l : Lane) (mem : Nat) (f : Scrub)
  /-- MRAM_VERIFY (R451): The hourly MRAM verify checks ECC and pairs and repairs values. -/
  | mramVerify (t : Time) (f : List MramFind)
  /-- FLASH_LEVELLING (R453): Static data is moved when erase counts differ by more than 500. -/
  | flashLevelling (t : Time) (l : Lane) (src dst : Nat)
  /-- READ_DISTURB_REFRESH (R453): A block is rewritten after 100000 reads since its program. -/
  | readDisturbRefresh (t : Time) (l : Lane) (blk : Nat)
  /-- RETENTION_PATROL (R453): Every 7 days programmed blocks are read and weak ones rewritten. -/
  | retentionPatrol (t : Time) (l : Lane) (weak : List Nat)
  /-- BAD_BLOCK_RETIREMENT (R453): A program, erase or retried read failure retires a flash block. -/
  | badBlockRetirement (t : Time) (l : Lane) (blk spare : Nat)
  /-- HEALTH_FRAME (R454): Each lane writes a health frame at each 1 s multiple. -/
  | healthFrame (t : Time) (l : Lane) (die plate : BitVec 16)
  /-- OSCILLATOR_RECORD (R452): Every hour of SYNC the mean oscillator rate is written to MRAM. -/
  | oscillatorRecord (t : Time) (l : Lane) (mean : Int)
  /-- LANE_REFERENCE_CHECK (R452): Every 10 s a lane compares its reference with the other lane's MTC. -/
  | laneReferenceCheck (t : Time) (l : Lane) (ppb : Int)
  /-- TENDER_BEHIND (R448): A Tender activity not complete within twice its period sets its behind bit. -/
  | tenderBehind (t : Time) (l : Lane) (bit : Nat)
  /-- SUPPLY_PRESENT (R461): A supply input above 17 V for 10 ms becomes present. -/
  | supplyPresent (t : Time) (input mv : Nat) (i : StartIn)
  /-- SUPPLY_LOST (R461): A supply input below 16 V for 200 microseconds is lost. -/
  | supplyLost (t : Time) (input mv1 mv2 : Nat)
  /-- MRST_TAKEN (R469): MRST_N asserted for 10 ms starts module reset. -/
  | mrstTaken (t : Time)
  /-- MRST_RELEASE (R469): MRST_N is released and the module leaves reset. -/
  | mrstRelease (t : Time) (i : StartIn)
  /-- MRST_STUCK (R469): MRST_N asserted for 10 s is declared stuck and masked. -/
  | mrstStuck (t : Time) (i : StartIn)
  /-- MRST_UNMASK (R469): MRST_N released for 1 s is unmasked. -/
  | mrstUnmask (t : Time)
  /-- DOMAIN_READY (R459): A powered-up domain becomes ready; resident package sections are copied to solver SRAM. -/
  | domainReady (t : Time) (l : Lane) (d : Nat)
  /-- DRAM_WIPE_COMPLETE (R471): A lane DRAM wipe completes and firmware may use DRAM. -/
  | dramWipeComplete (t : Time) (l : Lane)
  /-- LANE_POWER_RESTORE (R463): 100 ms after removal a failed lane's supplies are restored. -/
  | lanePowerRestore (t : Time) (l : Lane)
  /-- PLATE_HOT (R527): The cold plate above +70 C for 10 s raises PWR_HOT. -/
  | plateHot (t : Time) (temp : BitVec 16)
  /-- DIE_WARN (R527): A lane die above +110 C sets health bit warn. -/
  | dieWarn (t : Time) (l : Lane)
  /-- DIE_PROTECTION (R527): A lane die above +125 C has its supplies removed by hardware. -/
  | dieProtection (t : Time) (l : Lane)
  /-- DIE_COOLED (R527): The die falls below +100 C and the lane restarts. -/
  | dieCooled (t : Time) (l : Lane)
  /-- BACKUP_LOW (R515): VBKP below 2.4 V sets bkplow and raises PWR_BKP. -/
  | backupLow (t : Time) (mv : Nat)
  /-- BACKUP_RECOVERED (R515): VBKP above 2.5 V clears the backup-low alarm. -/
  | backupRecovered (t : Time) (mv : Nat)
  /-- LIFECYCLE_WIPE_COMPLETE (R472): The life-cycle wipe completes and the state or SEAL step is set. -/
  | lifecycleWipeComplete (t : Time)
  /-- FIRMWARE_VERIFIED (R480): A loaded firmware image completes its checks and becomes VERIFIED or FAILED. -/
  | firmwareVerified (t : Time) (l : Lane) (keeper : Bool) (slot : Nat)
  /-- HEALTH_CONFIRMATION (R485): A lane on a new image completes 50 healthy admitted cycles and confirms. -/
  | healthConfirmation (t : Time) (l : Lane)
  /-- CONFIRMATION_TIMEOUT (R485): A lane unconfirmed 120 s after activation restarts its previous image and rolls back. -/
  | confirmationTimeout (t : Time) (l : Lane)
  /-- KEEPER_IMAGE_CONFIRM (R488): A new Keeper image confirms after 10 s of valid watch words. -/
  | keeperImageConfirm (t : Time)
  /-- KEEPER_CONFIRM_TIMEOUT (R488): An unconfirmed Keeper image after 120 s is replaced by the previous one. -/
  | keeperConfirmTimeout (t : Time)
  /-- CYCLE_SET_APPLY (R26): Writing JX_CYC_APPLY validates the cycle set and schedules it. -/
  | cycleSetApply (t : Time) (ep : Lane) (v : Word)
  /-- PUBDLY_CLEAR (R33): Writing JX_PUBDLY_MIN.clr resets the publication delay minimum and maximum. -/
  | pubdlyClear (t : Time) (ep : Lane) (v : Word)
  /-- SLV_CNT_CLR (R123): Writing SLV_CNT_CLR clears the solver counters. -/
  | slvCntClr (t : Time) (ep : Lane) (v : Word)
  /-- FUS_CNT_CLR (R187): Writing FUS_CNT_CLR clears fusion counters. -/
  | fusCntClr (t : Time) (ep : Lane) (v : Word)
  /-- GNB_CNT_CLR (R213): Writing GNB_CNT_CLR clears GNSS counters. -/
  | gnbCntClr (t : Time) (ep : Lane) (v : Word)
  /-- MET_CNT_CLR (R251): Writing MET_CNT_CLR clears metrology counters. -/
  | metCntClr (t : Time) (ep : Lane) (v : Word)
  /-- LPE_CNT_CLR (R280): Writing LPE_CNT_CLR clears loop counters and delay maxima. -/
  | lpeCntClr (t : Time) (ep : Lane) (v : Word)
  /-- KPR_CNT_CLR (R317): Writing KPR_CNT_CLR clears Keeper counters. -/
  | kprCntClr (t : Time) (ep : Lane) (v : Word)
  /-- TMB_CNT_CLR (R350): Writing TMB_CNT_CLR clears timebase counters. -/
  | tmbCntClr (t : Time) (ep : Lane) (v : Word)
  /-- HRI_CNT_CLR (R384): Writing HRI_CNT_CLR clears host counters. -/
  | hriCntClr (t : Time) (ep : Lane) (v : Word)
  /-- SER_CNT_CLR (R405): Writing SER_CNT_CLR clears serial counters. -/
  | serCntClr (t : Time) (ep : Lane) (v : Word)
  /-- TND_CNT_CLR (R457): Writing TND_CNT_CLR clears Tender ECC counters. -/
  | tndCntClr (t : Time) (ep : Lane) (v : Word)
  /-- REGISTER_WRITE (R496): A write to a register without its own row is checked for alignment, lane, lock and range and stored. -/
  | registerWrite (t : Time) (ep : Lane) (off bytes : Nat) (v : BitVec 64)
  /-- KEEPER_FAULT (R286): The Keeper suffers a fault of its own, stops sending Keeper words and leaves the role lines latched until it restarts. -/
  | keeperFault (t : Time)
  /-- TICK_MARKER_LOSS (R349): The Standby loses the tick marker of the lane time link and its timebase free-runs on its own reference. -/
  | tickMarkerLoss (t : Time) (l : Lane)
  /-- PLATE_COOLED (R527): The cold plate has been held below +67 °C for 60 s and alarm PWR_HOT clears. -/
  | plateCooled (t : Time) (temp : BitVec 16)
  /-- ARBITER_LOSS (R314): A module of a pair no longer hears the arbiter; roles stay unchanged and alarm KPR_ARBLOST is raised. -/
  | arbiterLoss (t : Time)
  /-- CAN_BUS_ERROR (R390): A CAN controller detects a bus error while receiving, updates its error counters and may enter error-passive or bus-off. -/
  | canBusError (t : Time) (c : Nat) (eight : Bool)
  /-- SERIAL_LINE_BREAK (R405): A serial receive line held at space for 1 s or more sets SER_Pn_STAT.brk, and clears it when the line returns. -/
  | serialLineBreak (t : Time) (n : Nat) (brk : Bool)
  /-- RING_LINK_CHANGE (R317): A Ramjor port WA or WB gains or loses its link at the SerDes and NET_RING_STAT.wa or wb follows. -/
  | ringLinkChange (t : Time) (port up : Bool)
  /-- BACKUP_EXHAUSTED (R515): With both supplies absent, VBKP falls below 2.0 V and the AO domain stops, so the RTC restarts under R348 on return. -/
  | backupExhausted (t : Time)
  deriving DecidableEq, Repr

end Sys2Proof
end

