-- ==== Sys2Proof/Decode.lean ====
section
/-!
DEFINITION. Decoding. spec/opcode_table.json gives no row any bits, so no word spells a command: commands reach the block from outside, as
terms of `Instr`.
-/

namespace Sys2Proof

/-- The command a word spells by the table's bits: the table gives none (log entry 47). -/
def decodeTableWord (_nbits _w : Nat) : Option Instr := none

end Sys2Proof
end

