-- ==== Sys2Proof/Machine/Events.lean ====
section
/-!
DEFINITION. The codes of the event records (R438, R530).
-/

namespace Sys2Proof.Machine.Ev

def REC_START : Nat := 0x0001
def REC_ANCHOR : Nat := 0x0002
def REC_SUPPR : Nat := 0x0003
def REC_LCCHG : Nat := 0x0004
def REC_CLEAR : Nat := 0x0005
def REC_FULL : Nat := 0x0006
def REC_DROP : Nat := 0x0007
def REC_PWRLOSS : Nat := 0x0008
def JX_BADACC : Nat := 0x0101
def JX_STBYWR : Nat := 0x0102
def JX_LKWRITE : Nat := 0x0103
def JX_CFGPAIR : Nat := 0x0104
def JX_CFG : Nat := 0x0105
def JX_CPLFAIL : Nat := 0x0106
def JX_STAGELATE : Nat := 0x0107
def JX_AUTOJOY : Nat := 0x0108
def KPR_FAIL : Nat := 0x0201
def KPR_MTCDIFF : Nat := 0x0202
def KPR_LOST : Nat := 0x0203
def KPR_NOLANE : Nat := 0x0204
def KPR_MIRPAIR : Nat := 0x0205
def KPR_MIRMISS : Nat := 0x0206
def KPR_MIRROR : Nat := 0x0207
def KPR_ADMFAIL : Nat := 0x0208
def KPR_QUORUM : Nat := 0x0209
def KPR_ARBLOST : Nat := 0x020A
def KPRCFG : Nat := 0x020B
def PWR_SUPLOST : Nat := 0x0301
def PWR_SUPBACK : Nat := 0x0302
def PWR_SUP : Nat := 0x0303
def PWR_LANEOFF : Nat := 0x0304
def PWR_LANE : Nat := 0x0305
def PWR_RSTSTUCK : Nat := 0x0306
def PWR_RSTFREE : Nat := 0x0307
def PWR_BKPLOW : Nat := 0x0308
def PWR_BKP : Nat := 0x0309
def PWR_HOT : Nat := 0x030A
def PWR_DIEHOT : Nat := 0x030B
def PWRCFG : Nat := 0x030C
def TMB_RATELIM : Nat := 0x0401
def TMB_HOLD : Nat := 0x0402
def TMB_HOLDEND : Nat := 0x0403
def TMB_STEP : Nat := 0x0404
def TMB_BIGSTEP : Nat := 0x0405
def TMB_LATE : Nat := 0x0406
def TMB_CLKWD : Nat := 0x0407
def TMBCFG : Nat := 0x0408
def RTC_BADWR : Nat := 0x0501
def RTC_SET : Nat := 0x0502
def RTC_OFFSET : Nat := 0x0503
def RTC_OSC : Nat := 0x0504
def REC_MIRDIFF : Nat := 0x0601
def SLV_SIG : Nat := 0x0701
def SLV_ASMFLT : Nat := 0x0702
def PKG_NOSHIFT : Nat := 0x0703
def PKGMISS : Nat := 0x0704
def SLV_ILLC : Nat := 0x0705
def SLV_RETRY : Nat := 0x0706
def SLV_ITFAIL : Nat := 0x0707
def SLV_INFEAS : Nat := 0x0708
def SLV_REUSE : Nat := 0x0709
def SLVCFG : Nat := 0x070A
def TPL_SCNRED : Nat := 0x070B
def TPL_HLS : Nat := 0x070C
def TPL_HLSCLIP : Nat := 0x070D
def FUS_STREXCL : Nat := 0x0801
def FUS_STRBACK : Nat := 0x0802
def FUS_CONTRA : Nat := 0x0803
def FUS_REFSUS : Nat := 0x0804
def FUS_TRUSTLOST : Nat := 0x0805
def FUS_G2 : Nat := 0x0806
def FUS_DR : Nat := 0x0807
def FUS_LOST : Nat := 0x0808
def FUSCFG : Nat := 0x0809
def GNB_IFFLT : Nat := 0x0901
def GNB_IFOK : Nat := 0x0902
def GNBCFG : Nat := 0x0903
def MET_APLOCK : Nat := 0x0A01
def MET_APUNLK : Nat := 0x0A02
def MET_HEADFLT : Nat := 0x0A03
def MET_CALRANGE : Nat := 0x0A04
def MET_GAP : Nat := 0x0A05
def MET_GAPEND : Nat := 0x0A06
def MET_WRAP : Nat := 0x0A07
def MET_RESTORE : Nat := 0x0A08
def MET_RSTFAIL : Nat := 0x0A09
def MET_PFAIL : Nat := 0x0A0A
def MET_PRESET : Nat := 0x0A0B
def MET_PRESETV : Nat := 0x0A0C
def MET_POCFG : Nat := 0x0A0D
def MET_POBACKLOG : Nat := 0x0A0E
def MET_TKDIFF : Nat := 0x0A0F
def MET_PTCFG : Nat := 0x0A10
def METCFG : Nat := 0x0A11
def LPE_NONFIN : Nat := 0x0B01
def LPE_BUMP : Nat := 0x0B02
def LPE_SWAP : Nat := 0x0B03
def LPE_HOLD : Nat := 0x0B04
def LPE_HOLDEND : Nat := 0x0B05
def HRI_BADBELL : Nat := 0x0C01
def HRI_CONFLICT : Nat := 0x0C02
def HRI_AUTHREQ : Nat := 0x0C03
def HRI_FORFEIT : Nat := 0x0C04
def HRI_EXPERT : Nat := 0x0C05
def HRI_XOP : Nat := 0x0C06
def HRICFG : Nat := 0x0C07
def NET_PHSTEP : Nat := 0x0D01
def NET_CYCMIS : Nat := 0x0D02
def NET_XWIN : Nat := 0x0D03
def NET_EXCHFULL : Nat := 0x0D04
def MBC_BUSOFF : Nat := 0x0E01
def MBC_BUSON : Nat := 0x0E02
def MBC_ABANDON : Nat := 0x0E03
def MBC_JOYLOST : Nat := 0x0E04
def MBCCFG : Nat := 0x0E05
def SERCFG : Nat := 0x0F01
def SAF_SAFE : Nat := 0x1001
def SAF_TRIP : Nat := 0x1002
def SAF_2HLATE : Nat := 0x1003
def SAF_REQPAIR : Nat := 0x1004
def SAF_FAULT : Nat := 0x1005
def SAF_RESET : Nat := 0x1006
def SAF_CFGACT : Nat := 0x1007
def SAF_NOCFG : Nat := 0x1008
def TND_BEHIND : Nat := 0x1101
def TND_CE : Nat := 0x1102
def TND_CERATE : Nat := 0x1103
def TND_PAGERET : Nat := 0x1104
def TND_FENUE : Nat := 0x1105
def TND_MRAM : Nat := 0x1106
def TND_MRAMPAIR : Nat := 0x1107
def TND_RECLOST : Nat := 0x1108
def TND_OSCDIFF : Nat := 0x1109
def TND_FLASHLOW : Nat := 0x110A
def TND_FLASH : Nat := 0x110B
def UPD_LCCHG : Nat := 0x1201
def UPD_SEALED : Nat := 0x1202
def UPD_DONE : Nat := 0x1203
def UPD_ROLLBACK : Nat := 0x1204
def UPD_CANCEL : Nat := 0x1205

/-- The codes of a firmware block that the solver's and the fusion's records may carry (R530), by block. -/
def ofBlock : Nat → List Nat
  | 6 => [SLV_SIG, SLV_ASMFLT, PKG_NOSHIFT, PKGMISS, SLV_ILLC, SLV_RETRY, SLV_ITFAIL, SLV_INFEAS, SLV_REUSE, SLVCFG, TPL_SCNRED, TPL_HLS, TPL_HLSCLIP]
  | _ => [FUS_STREXCL, FUS_STRBACK, FUS_CONTRA, FUS_REFSUS, FUS_TRUSTLOST, FUS_G2, FUS_DR, FUS_LOST, FUSCFG]

end Sys2Proof.Machine.Ev
end

