-- ==== Sys2Proof/Config.lean ====
section
/-!
DEFINITION. The free values of the model: what the spec leaves open although the machine goes on. Each is a constant without a
body, so a statement about the machine holds whatever its value (the log entry stands at each).
-/

namespace Sys2Proof.Config

/-- Sign and payload of a NaN result of binary64 arithmetic on two operands (log entry 6). -/
opaque nanBits : F64 → F64 → BitVec 52 × Bool

/-- Which binary64 value within 1 ulp of the exact one a sine, cosine or arc tangent takes (log entry 8): operation, operands. -/
opaque ulpPick : Nat → F64 → F64 → BitVec 2

/-- The value of a sum of products whose order of rounding the spec leaves open (log entry 9): operation number, terms. -/
opaque arraySum : List F64 → F64

/-- Contents of the vectors of a cold start, at an iteration, vector and index (log entry 10). -/
opaque ctlVec : Nat → Nat → Nat → F64

/-- A figure the iteration controller forms by a formula the spec does not give: which, in which iteration, from which values of its
row (log entry 10). -/
opaque ctlTerm : Nat → Nat → List F64 → F64

/-- Rounding of a quantity whose rounding mode the spec leaves open: true rounds away from the floor (log entry 11). -/
opaque roundUp : Nat → Bool

/-- Number of a source within the range of its owner (R336), where the spec names no number (log entry 12). -/
opaque srcLocal : Nat → Nat → Nat

/-- The MAC address of the module (R306): an identity of the device (log entry 16). -/
opaque modMac : BitVec 48

/-- The spare blocks of a lane's flash as delivered: 2 % of its blocks, whose size the spec does not give (R453, log entry 103). -/
opaque flashSpares : Nat

/-- The flash block that holds a part of a package bank: of a model or network package (true: network), bank, and 64 KiB block of the load.
The spec gives no placement (log entry 103). -/
opaque flashPlace : Bool → Nat → Nat → Nat

/-- A value the spec does not state: of the item named, at the key given (log entry 13). -/
opaque openVal : Nat → Nat → BitVec 64

/-- A number that rests on a method the spec names without its formula, from the numbers it is formed of (log entry 27). -/
opaque listVal : Nat → List Nat → Nat

/-- A figure of the fusion filter after a time: which, the time in s, its value and its rate, and all values and rates (log entry 28). -/
opaque propagate : Nat → F64 → F64 → F64 → List F64 → F64

/-- Variance of a registered shift from the curvature of its peak, from the score there and the curvature (log entry 78). -/
opaque peakVar : Nat → F64 → F64 → F64

/-- An element of an extractor's output tensor, from the package digest, the extractor, its input tensor and the element (log entry 76). -/
opaque extract : List Byte → Nat → List (BitVec 16) → Nat → BitVec 16

/-- The carrier replica of a correlator at a phase, in phase and in quadrature (log entry 80). -/
opaque replica : Word → Int × Int

/-- A figure of the GNSS firmware whose formula the spec does not give or leaves to a signal's interface specification: which, from which
integers, navigation or sample bytes, and values (log entries 80 to 82). -/
opaque gnss : Nat → List Int → List Byte → List F64 → F64

/-- A public key of Askeveur's firmware key in KPR ROM, an uncompressed point (log entry 93). -/
opaque fwKey : Nat → List Byte

/-- Tap of the compensation filter of metrology: 97 of them, whose values the spec does not give (log entry 83): one of each pair. -/
opaque firTap : Nat → F64

/-- Tap of the compensation filter of an air-core coil, for a corner code; and of the filter that shifts a voltage by 90 degrees (log entry
83). -/
opaque coilTap : Nat → Nat → F64
opaque hilbTap : Nat → F64

/-- Output of a metrology filter whose coefficients the spec does not give: which, from its memory and inputs (log entry 83). -/
opaque filt : Nat → List F64 → F64

/-- Whether the pairs of a billing slot of AO MRAM check as a dual lane reset reads them (log entry 95): at a reset, of a slot. -/
opaque pairOk : Nat → Nat → Bool

/-- Bytes of an item of the mirrored set whose layout the spec does not give: 0 its content, 1 the keyframe of FUSION (log entry 98). -/
opaque itemBytes : Nat → MirItem → List Byte

/-- What the bytes of a CONFIG item say whose byte layout the spec does not give (log entry 101): stream slot, reference slot, calibration
constants, measurement point, billing preset (register code and value), antenna positions, compensation curve, PTP priorities. -/
opaque streamItem : List Byte → StreamCfg
opaque refItem : List Byte → RefCfg
opaque calItem : List Byte → ChanCal
opaque pointItem : List Byte → PointCfg
opaque presetItem : List Byte → Nat × BitVec 64
opaque antennaItem : List Byte → List F64
opaque curveItem : List Byte → List (Int × F64)
opaque prioItem : List Byte → Byte × Byte

/-- MAC and IP addresses (R306): of Lane A (0) and Lane B (1), and the IP address of the module (log entry 99). -/
opaque laneMac : Nat → BitVec 48
opaque laneIp : Nat → Word
opaque modIp : Word

end Sys2Proof.Config
end

