-- ==== Sys2Proof/Machine/Float.lean ====
section
/-!
DEFINITION. Binary64 arithmetic on bit patterns (R7): exact integer computation and one rounding to nearest, ties to even
(PRESUMED, log entry 14), with conversions to and from binary32 and binary16.
-/

namespace Sys2Proof.Machine

/-- A finite binary value, m·2^e. -/
structure Dy where
  m : Int
  e : Int
  deriving DecidableEq, Repr

namespace Dy

/-- Bring a value to exponent `e` at or below its own. -/
def at' (x : Dy) (e : Int) : Int := x.m * 2 ^ (x.e - e).toNat

/-- Exact sum. -/
def add (x y : Dy) : Dy :=
  let e := min x.e y.e
  ⟨x.at' e + y.at' e, e⟩

/-- Exact negation. -/
def neg (x : Dy) : Dy := ⟨-x.m, x.e⟩

/-- Exact product. -/
def mul (x y : Dy) : Dy := ⟨x.m * y.m, x.e + y.e⟩

/-- Exact order. -/
def lt (x y : Dy) : Bool :=
  let e := min x.e y.e
  decide (x.at' e < y.at' e)

/-- Exact equality of values. -/
def eq (x y : Dy) : Bool :=
  let e := min x.e y.e
  decide (x.at' e = y.at' e)

/-- An integer. -/
def ofInt (n : Int) : Dy := ⟨n, 0⟩

/-- Largest integer at or below the value. -/
def floor (x : Dy) : Int := if 0 ≤ x.e then x.m * 2 ^ x.e.toNat else x.m / 2 ^ (-x.e).toNat

/-- Nearest integer, ties away from zero. -/
def roundAway (x : Dy) : Int :=
  let a : Dy := ⟨x.m.natAbs, x.e⟩
  let r := (a.add ⟨1, -1⟩).floor
  if x.m < 0 then -r else r

end Dy

/-- Length of a natural number in bits. -/
def bitLen (n : Nat) : Nat := if n = 0 then 0 else Nat.log2 n + 1

/-- Round |m|·2^e (with `sticky`: a nonzero rest below it) to `p` significant bits with least exponent `emin`, nearest, ties to
even: significand and exponent of the result. -/
def roundBin (p : Nat) (emin : Int) (m : Nat) (e : Int) (sticky : Bool) : Nat × Int :=
  let l := bitLen m
  let e' := max (e + l - p) emin
  if e' ≤ e then (m * 2 ^ (e - e').toNat, e')
  else
    let sh := (e' - e).toNat
    let q := m / 2 ^ sh
    let r := m % 2 ^ sh
    let half := 2 ^ (sh - 1)
    let up := decide (half < r) || (decide (r = half) && (sticky || q % 2 == 1))
    (if up then q + 1 else q, e')

/-- Pack a rounded significand (at most 2^p) and exponent into an IEEE format of `p` significant bits and `w` exponent bits. -/
def packBin (p w : Nat) (neg : Bool) (q : Nat) (e : Int) : Nat :=
  let bias : Int := 2 ^ (w - 1) - 1
  let sgn := if neg then 2 ^ (p - 1 + w) else 0
  let (q, e) := if q = 2 ^ p then (2 ^ (p - 1), e + 1) else (q, e)
  if q < 2 ^ (p - 1) then sgn + q
  else
    let be := e + (p - 1) + bias
    if 2 ^ w - 1 ≤ be then sgn + (2 ^ w - 1) * 2 ^ (p - 1)
    else sgn + be.toNat * 2 ^ (p - 1) + (q - 2 ^ (p - 1))

/-- Round a value to binary64. -/
def rnd64 (neg : Bool) (m : Nat) (e : Int) (sticky : Bool) : F64 :=
  let (q, e') := roundBin 53 (-1074) m e sticky
  BitVec.ofNat 64 (packBin 53 11 neg q e')

namespace F64

def sign (x : F64) : Bool := x.getLsbD 63
def expo (x : F64) : Nat := (x.toNat / 2 ^ 52) % 2048
def frac (x : F64) : Nat := x.toNat % 2 ^ 52
def isFin (x : F64) : Bool := expo x != 2047
def isNan (x : F64) : Bool := expo x == 2047 && frac x != 0
def isInf (x : F64) : Bool := expo x == 2047 && frac x == 0
def isZero (x : F64) : Bool := expo x == 0 && frac x == 0

/-- The exact value of a finite pattern (0 for the others). -/
def val (x : F64) : Dy :=
  let m : Int := if expo x = 0 then frac x else frac x + 2 ^ 52
  let e : Int := (max (expo x) 1 : Nat) - 1075
  if isFin x then ⟨if sign x then -m else m, e⟩ else ⟨0, 0⟩

/-- A NaN result: quiet, with free sign and payload. -/
def nan (x y : F64) : F64 :=
  let (p, s) := Config.nanBits x y
  BitVec.ofNat 64 ((if s then 2 ^ 63 else 0) + 0x7FF8000000000000 + p.toNat % 2 ^ 51)

def zero : F64 := 0#64
def one : F64 := 0x3FF0000000000000#64
def inf (s : Bool) : F64 := if s then 0xFFF0000000000000#64 else 0x7FF0000000000000#64

/-- The binary64 nearest to an exact value; `z` is the sign of a zero result. -/
def ofDy (z : Bool) (d : Dy) : F64 :=
  if d.m = 0 then (if z then 0x8000000000000000#64 else 0#64) else rnd64 (decide (d.m < 0)) d.m.natAbs d.e false

def ofInt (n : Int) : F64 := ofDy false ⟨n, 0⟩
def neg (x : F64) : F64 := x ^^^ 0x8000000000000000#64
def abs (x : F64) : F64 := x &&& 0x7FFFFFFFFFFFFFFF#64

/-- Sum. -/
def add (x y : F64) : F64 :=
  if isNan x || isNan y then nan x y
  else if isInf x then (if isInf y && sign x != sign y then nan x y else x)
  else if isInf y then y
  else ofDy (sign x && sign y) ((val x).add (val y))

/-- Difference. -/
def sub (x y : F64) : F64 := add x (neg y)

/-- Product. -/
def mul (x y : F64) : F64 :=
  let s := sign x != sign y
  if isNan x || isNan y then nan x y
  else if isInf x || isInf y then (if isZero x || isZero y then nan x y else inf s)
  else ofDy s ((val x).mul (val y))

/-- x·y + z with one rounding. -/
def fma (x y z : F64) : F64 :=
  if isFin x && isFin y && isFin z then
    let p := (val x).mul (val y)
    let s := sign x != sign y
    ofDy (s && sign z) (p.add (val z))
  else if isFin x && isFin y then (if isNan z then nan x z else z)
  else add (mul x y) z

/-- Quotient. -/
def div (x y : F64) : F64 :=
  let s := sign x != sign y
  if isNan x || isNan y then nan x y
  else if isInf x then (if isInf y then nan x y else inf s)
  else if isInf y then (if s then 0x8000000000000000#64 else 0#64)
  else if isZero y then (if isZero x then nan x y else inf s)
  else if isZero x then (if s then 0x8000000000000000#64 else 0#64)
  else
    let a := val x
    let b := val y
    let n := a.m.natAbs * 2 ^ 130
    let d := b.m.natAbs
    rnd64 s (n / d * 2 + (if n % d = 0 then 0 else 1)) (a.e - b.e - 131) false

/-- The binary64 nearest to the rational n / d (d above 0). -/
def ofRat (n : Int) (d : Nat) : F64 :=
  let k := 66 + bitLen d
  let m := n.natAbs * 2 ^ k
  rnd64 (decide (n < 0)) (m / d) (-(k : Int)) (decide (m % d ≠ 0))

/-- Integer square root by bisection on `fuel` bits. -/
def isqrt (n : Nat) : Nat → Nat → Nat
  | 0, r => r
  | fuel + 1, r => let c := r + 2 ^ fuel; isqrt n fuel (if c * c ≤ n then c else r)

/-- Square root. -/
def sqrt (x : F64) : F64 :=
  if isNan x then nan x x
  else if isZero x then x
  else if sign x then nan x x
  else if isInf x then x
  else
    let a := val x
    let (m, e) := if a.e % 2 = 0 then (a.m.natAbs, a.e) else (a.m.natAbs * 2, a.e - 1)
    let n := m * 2 ^ 120
    let r := isqrt n 90 0
    rnd64 false (r * 2 + (if r * r = n then 0 else 1)) (e / 2 - 61) false

/-- x < y; false when either is NaN. -/
def lt (x y : F64) : Bool :=
  if isNan x || isNan y then false
  else if isInf x then sign x && !(isInf y && sign y)
  else if isInf y then !sign y
  else (val x).lt (val y)

/-- x = y as values. -/
def eq (x y : F64) : Bool :=
  if isNan x || isNan y then false
  else if isInf x || isInf y then decide (x = y)
  else (val x).eq (val y)

/-- x ≤ y. -/
def le (x y : F64) : Bool := lt x y || eq x y

/-- The larger of two values (a NaN is passed over). -/
def max (x y : F64) : F64 := if isNan x then y else if isNan y then x else if lt x y then y else x

/-- The smaller of two values (a NaN is passed over). -/
def min (x y : F64) : F64 := if isNan x then y else if isNan y then x else if lt y x then y else x

/-- Limit to a range. -/
def clamp (lo hi x : F64) : F64 := max lo (min hi x)

/-- n / d as the nearest binary64. -/
def ratio (n : Int) (d : Nat) : F64 := div (ofInt n) (ofInt d)

/-- Conversion to binary32, nearest, ties to even. -/
def to32 (x : F64) : F32 :=
  if isNan x then BitVec.ofNat 32 ((if sign x then 2 ^ 31 else 0) + 0x7FC00000 + (frac x / 2 ^ 29) % 2 ^ 22)
  else if isInf x then BitVec.ofNat 32 ((if sign x then 2 ^ 31 else 0) + 0x7F800000)
  else
    let d := val x
    let (q, e) := roundBin 24 (-149) d.m.natAbs d.e false
    BitVec.ofNat 32 (packBin 24 8 (sign x) q e)

/-- The value of a binary32 pattern as binary64 (exact). -/
def of32 (x : F32) : F64 :=
  let n := x.toNat
  let s := decide (2 ^ 31 ≤ n)
  let e := n / 2 ^ 23 % 256
  let f := n % 2 ^ 23
  if e = 255 then BitVec.ofNat 64 ((if s then 2 ^ 63 else 0) + 0x7FF0000000000000 + f * 2 ^ 29)
  else
    let m : Int := if e = 0 then f else f + 2 ^ 23
    ofDy s ⟨if s then -m else m, (Nat.max e 1 : Nat) - 150⟩

/-- Conversion to binary16, nearest, ties to even. -/
def to16 (x : F64) : BitVec 16 :=
  if isNan x then BitVec.ofNat 16 ((if sign x then 2 ^ 15 else 0) + 0x7E00)
  else if isInf x then BitVec.ofNat 16 ((if sign x then 2 ^ 15 else 0) + 0x7C00)
  else
    let d := val x
    let (q, e) := roundBin 11 (-24) d.m.natAbs d.e false
    BitVec.ofNat 16 (packBin 11 5 (sign x) q e)

/-- The value of a binary16 pattern as binary64 (exact). -/
def of16 (x : BitVec 16) : F64 :=
  let n := x.toNat
  let s := decide (2 ^ 15 ≤ n)
  let e := n / 2 ^ 10 % 32
  let f := n % 2 ^ 10
  if e = 31 then BitVec.ofNat 64 ((if s then 2 ^ 63 else 0) + 0x7FF0000000000000 + f * 2 ^ 42)
  else
    let m : Int := if e = 0 then f else f + 2 ^ 10
    ofDy s ⟨if s then -m else m, (Nat.max e 1 : Nat) - 25⟩

end F64

end Sys2Proof.Machine
end

