-- ==== Sys2Proof/Machine/RegTable.lean ====
section
/-!
DEFINITION. The register map: every register of the index of R506 (16_register_map.md), with its BAR0 offset, stride, scope
(module-wide or per lane), persistence (R498), reset values (R11) and the writable fields with their access codes (R10) and
ranges (R496), as the field tables of the chapters give them; and one name for every field of every register.
A field whose persistent copy (MRAM) has no stated default takes 0 at delivery (log entry 3).
-/

namespace Sys2Proof.Machine

/-- Access codes of writable fields (R10); `lkwo` is the combined code "LK, WO" of R497. -/
inductive Acc where
  | rw | lk | wo | w1c | lkwo
  deriving DecidableEq, Repr

/-- A writable field of a register: place, access code and the range R496 checks. -/
structure WField where
  lsb : Nat
  w : Nat
  acc : Acc
  lo : Nat
  hi : Nat
  deriving DecidableEq, Repr

/-- One row of the index of R506: `count` registers at `base`, `base + stride`, ...; `dflt` is the value after the first
module reset (state values, or the default of an MRAM field); `mMask`/`mVal` are the bits a module reset sets and their
values, `lMask`/`lVal` those of a lane reset (R11). -/
structure RegRow where
  base : Nat
  stride : Nat
  count : Nat
  perLane : Bool
  mram : Bool
  dflt : BitVec 32
  mMask : BitVec 32
  mVal : BitVec 32
  lMask : BitVec 32
  lVal : BitVec 32
  fields : List WField
  deriving DecidableEq, Repr

/-- A named register field (R9): BAR0 offset, least significant bit, width, and whether each lane has its own copy (R495). -/
structure Fld where
  off : Nat
  lsb : Nat
  w : Nat
  perLane : Bool
  deriving DecidableEq, Repr

/-- Rows of the JX block (R506). -/
def rowsJx0 : List RegRow := [
  ⟨0x00000, 0x0, 1, false, false, 0x4A587400#32, 0x00000000#32, 0x00000000#32, 0x00000000#32, 0x00000000#32, []⟩,
  ⟨0x00004, 0x0, 1, true, false, 0x01000400#32, 0x00000000#32, 0x00000000#32, 0x00000000#32, 0x00000000#32, []⟩,
  ⟨0x00008, 0x0, 1, false, false, 0x00000000#32, 0x00000000#32, 0x00000000#32, 0x00000000#32, 0x00000000#32, []⟩,
  ⟨0x0000C, 0x0, 1, false, false, 0x00000000#32, 0x00000000#32, 0x00000000#32, 0x00000000#32, 0x00000000#32, []⟩,
  ⟨0x00100, 0x0, 1, false, true, 0x00020064#32, 0x00000000#32, 0x00000000#32, 0x00000000#32, 0x00000000#32, [⟨0,10,.lk,0,1023⟩, ⟨16,5,.lk,0,31⟩]⟩,
  ⟨0x00104, 0x0, 1, false, true, 0x00230005#32, 0x00000000#32, 0x00000000#32, 0x00000000#32, 0x00000000#32, [⟨0,10,.lk,0,1023⟩, ⟨16,10,.lk,0,1023⟩]⟩,
  ⟨0x00108, 0x0, 1, false, true, 0x00580028#32, 0x00000000#32, 0x00000000#32, 0x00000000#32, 0x00000000#32, [⟨0,10,.lk,0,1023⟩, ⟨16,10,.lk,0,1023⟩]⟩,
  ⟨0x0010C, 0x0, 1, false, false, 0x00000000#32, 0x00000001#32, 0x00000000#32, 0x00000000#32, 0x00000000#32, [⟨0,1,.lkwo,0,1⟩]⟩,
  ⟨0x00110, 0x0, 1, false, false, 0x00000000#32, 0x000000F1#32, 0x00000000#32, 0x00000000#32, 0x00000000#32, []⟩,
  ⟨0x00114, 0x0, 1, false, false, 0x00000000#32, 0xFFFFFFFF#32, 0x00000000#32, 0x00000000#32, 0x00000000#32, []⟩,
  ⟨0x00118, 0x0, 1, false, false, 0x00000000#32, 0xFFFFFFFF#32, 0x00000000#32, 0x00000000#32, 0x00000000#32, []⟩,
  ⟨0x00120, 0x0, 1, false, false, 0x00000000#32, 0xFFFF03FF#32, 0x00000000#32, 0x00000000#32, 0x00000000#32, []⟩,
  ⟨0x00130, 0x0, 1, true, false, 0x00000000#32, 0x000FFFFF#32, 0x00000000#32, 0x000FFFFF#32, 0x00000000#32, []⟩,
  ⟨0x00134, 0x0, 1, true, false, 0x000FFFFF#32, 0x800FFFFF#32, 0x000FFFFF#32, 0x800FFFFF#32, 0x000FFFFF#32, [⟨31,1,.wo,0,1⟩]⟩]

/-- Rows of the JX block (R506). -/
def rowsJx1 : List RegRow := [
  ⟨0x00138, 0x0, 1, true, false, 0x00000000#32, 0x000FFFFF#32, 0x00000000#32, 0x000FFFFF#32, 0x00000000#32, []⟩]

/-- Rows of the KPR block (R506). -/
def rowsKpr : List RegRow := [
  ⟨0x10000, 0x0, 1, false, false, 0x00000000#32, 0x0000FFFF#32, 0x00000000#32, 0x00000000#32, 0x00000000#32, []⟩,
  ⟨0x10004, 0x0, 1, false, true, 0x03E80005#32, 0x00000000#32, 0x00000000#32, 0x00000000#32, 0x00000000#32, [⟨0,8,.lk,1,255⟩, ⟨8,1,.lk,0,1⟩, ⟨9,1,.lk,0,1⟩, ⟨16,16,.lk,1,65535⟩]⟩,
  ⟨0x10010, 0x0, 1, false, false, 0x00000000#32, 0xFFFFFFFF#32, 0x00000000#32, 0x00000000#32, 0x00000000#32, []⟩,
  ⟨0x10014, 0x0, 1, false, false, 0x00000000#32, 0xFFFFFFFF#32, 0x00000000#32, 0x00000000#32, 0x00000000#32, []⟩,
  ⟨0x10020, 0x0, 1, false, false, 0x00000000#32, 0xFFFFFFFF#32, 0x00000000#32, 0x00000000#32, 0x00000000#32, []⟩,
  ⟨0x10024, 0x0, 1, false, false, 0x00000000#32, 0xFFFFFFFF#32, 0x00000000#32, 0x00000000#32, 0x00000000#32, []⟩,
  ⟨0x10028, 0x0, 1, false, false, 0x00000000#32, 0x0000FFFF#32, 0x00000000#32, 0x00000000#32, 0x00000000#32, []⟩,
  ⟨0x1002C, 0x0, 1, false, false, 0x00000000#32, 0x00000001#32, 0x00000000#32, 0x00000000#32, 0x00000000#32, [⟨0,1,.wo,0,1⟩]⟩]

/-- Rows of the PWR block (R506). -/
def rowsPwr : List RegRow := [
  ⟨0x20000, 0x0, 1, false, false, 0x0300000F#32, 0x0F000FFF#32, 0x0300000F#32, 0x00000000#32, 0x00000000#32, [⟨26,1,.w1c,0,1⟩]⟩,
  ⟨0x20004, 0x0, 1, false, true, 0x00000002#32, 0x00000000#32, 0x00000000#32, 0x00000000#32, 0x00000000#32, [⟨0,2,.lk,0,3⟩]⟩,
  ⟨0x20008, 0x0, 1, false, false, 0x00000000#32, 0x00000000#32, 0x00000000#32, 0x00000000#32, 0x00000000#32, []⟩,
  ⟨0x2000C, 0x0, 1, false, false, 0x00000000#32, 0x00000000#32, 0x00000000#32, 0x00000000#32, 0x00000000#32, []⟩,
  ⟨0x20010, 0x0, 1, false, false, 0x00000000#32, 0x00000000#32, 0x00000000#32, 0x00000000#32, 0x00000000#32, []⟩]

/-- Rows of the TMB block (R506). -/
def rowsTmb0 : List RegRow := [
  ⟨0x30000, 0x0, 1, false, true, 0x00005054#32, 0x00000000#32, 0x00000000#32, 0x00000000#32, 0x00000000#32, [⟨0,2,.lk,0,3⟩, ⟨2,1,.lk,0,1⟩, ⟨3,8,.lk,10,200⟩, ⟨11,8,.lk,1,255⟩]⟩,
  ⟨0x30004, 0x0, 1, true, false, 0x00000000#32, 0x00000001#32, 0x00000000#32, 0x00000001#32, 0x00000000#32, [⟨0,1,.wo,0,1⟩]⟩,
  ⟨0x30008, 0x0, 1, true, false, 0x0000023C#32, 0xFFFF03FF#32, 0x0000023C#32, 0xFFFF03FF#32, 0x0000003C#32, []⟩,
  ⟨0x30010, 0x0, 1, true, false, 0x00000000#32, 0xFFFFFFFF#32, 0x00000000#32, 0xFFFFFFFF#32, 0x00000000#32, []⟩,
  ⟨0x30014, 0x0, 1, true, false, 0x00000000#32, 0xFFFFFFFF#32, 0x00000000#32, 0xFFFFFFFF#32, 0x00000000#32, []⟩,
  ⟨0x30018, 0x0, 1, true, false, 0x00000000#32, 0xFFFFFFFF#32, 0x00000000#32, 0xFFFFFFFF#32, 0x00000000#32, []⟩,
  ⟨0x3001C, 0x0, 1, true, false, 0x00000000#32, 0xFFFFFFFF#32, 0x00000000#32, 0xFFFFFFFF#32, 0x00000000#32, []⟩,
  ⟨0x30020, 0x0, 1, true, false, 0x00000000#32, 0x3FFFFFFF#32, 0x00000000#32, 0x3FFFFFFF#32, 0x00000000#32, []⟩,
  ⟨0x30024, 0x0, 1, true, false, 0x00000000#32, 0xFFFFFFFF#32, 0x00000000#32, 0xFFFFFFFF#32, 0x00000000#32, []⟩,
  ⟨0x30028, 0x0, 1, true, false, 0x00000000#32, 0xFFFFFFFF#32, 0x00000000#32, 0xFFFFFFFF#32, 0x00000000#32, []⟩,
  ⟨0x3002C, 0x0, 1, true, false, 0x00000000#32, 0xFFFFFFFF#32, 0x00000000#32, 0xFFFFFFFF#32, 0x00000000#32, []⟩,
  ⟨0x30030, 0x0, 1, true, false, 0x00000000#32, 0xFFFFFFFF#32, 0x00000000#32, 0xFFFFFFFF#32, 0x00000000#32, []⟩,
  ⟨0x30034, 0x0, 1, true, false, 0x00000000#32, 0x00000001#32, 0x00000000#32, 0x00000001#32, 0x00000000#32, [⟨0,1,.wo,0,1⟩]⟩,
  ⟨0x30100, 0x10, 8, false, true, 0x00001001#32, 0x00000000#32, 0x00000000#32, 0x00000000#32, 0x00000000#32, [⟨0,1,.lk,0,1⟩, ⟨1,2,.lk,0,2⟩, ⟨3,1,.lk,0,1⟩, ⟨4,8,.lk,0,255⟩, ⟨12,1,.lk,0,1⟩]⟩]

/-- Rows of the TMB block (R506). -/
def rowsTmb1 : List RegRow := [
  ⟨0x30104, 0x10, 8, false, true, 0x00000000#32, 0x00000000#32, 0x00000000#32, 0x00000000#32, 0x00000000#32, [⟨0,32,.lk,0,4294967295⟩]⟩,
  ⟨0x30108, 0x10, 8, true, false, 0x00000001#32, 0xFFFFFF0F#32, 0x00000001#32, 0x00000000#32, 0x00000000#32, []⟩,
  ⟨0x30200, 0x20, 4, false, false, 0x00000000#32, 0x0000000F#32, 0x00000000#32, 0x00000000#32, 0x00000000#32, [⟨0,2,.rw,0,2⟩, ⟨2,1,.rw,0,1⟩, ⟨3,1,.rw,0,1⟩]⟩,
  ⟨0x30204, 0x20, 4, false, false, 0x00000000#32, 0xFFFFFFFF#32, 0x00000000#32, 0x00000000#32, 0x00000000#32, [⟨0,32,.rw,0,4294967295⟩]⟩,
  ⟨0x30208, 0x20, 4, false, false, 0x00000000#32, 0xFFFFFFFF#32, 0x00000000#32, 0x00000000#32, 0x00000000#32, [⟨0,32,.rw,0,4294967295⟩]⟩,
  ⟨0x3020C, 0x20, 4, false, false, 0x00000000#32, 0x3FFFFFFF#32, 0x00000000#32, 0x00000000#32, 0x00000000#32, [⟨0,30,.rw,0,1073741823⟩]⟩,
  ⟨0x30210, 0x20, 4, false, false, 0x00000000#32, 0xFFFFFFFF#32, 0x00000000#32, 0x00000000#32, 0x00000000#32, [⟨0,32,.rw,0,4294967295⟩]⟩,
  ⟨0x30214, 0x20, 4, false, false, 0x00000000#32, 0xFFFFFFFF#32, 0x00000000#32, 0x00000000#32, 0x00000000#32, [⟨0,8,.rw,0,255⟩]⟩,
  ⟨0x30218, 0x20, 4, false, false, 0x00000000#32, 0x3FFFFFFF#32, 0x00000000#32, 0x00000000#32, 0x00000000#32, [⟨0,30,.rw,0,1073741823⟩]⟩,
  ⟨0x3021C, 0x20, 4, true, false, 0x00000000#32, 0xFFFFFFFF#32, 0x00000000#32, 0xFFFFFFFF#32, 0x00000000#32, []⟩,
  ⟨0x30300, 0x20, 8, false, false, 0x00000000#32, 0x00000007#32, 0x00000000#32, 0x00000000#32, 0x00000000#32, [⟨0,2,.rw,0,3⟩, ⟨2,1,.rw,0,1⟩]⟩,
  ⟨0x30304, 0x20, 8, true, false, 0x00000000#32, 0xFFFFFFFF#32, 0x00000000#32, 0xFFFFFFFF#32, 0x00000000#32, []⟩,
  ⟨0x30308, 0x20, 8, true, false, 0x00000000#32, 0xFFFFFFFF#32, 0x00000000#32, 0xFFFFFFFF#32, 0x00000000#32, []⟩,
  ⟨0x3030C, 0x20, 8, true, false, 0x00000000#32, 0xFFFFFFFF#32, 0x00000000#32, 0xFFFFFFFF#32, 0x00000000#32, []⟩]

/-- Rows of the TMB block (R506). -/
def rowsTmb2 : List RegRow := [
  ⟨0x30310, 0x20, 8, true, false, 0x00000000#32, 0xFFFFFFFF#32, 0x00000000#32, 0xFFFFFFFF#32, 0x00000000#32, []⟩,
  ⟨0x30314, 0x20, 8, true, false, 0x00000000#32, 0xFFFFFFFF#32, 0x00000000#32, 0xFFFFFFFF#32, 0x00000000#32, []⟩,
  ⟨0x30318, 0x20, 8, true, false, 0x00000000#32, 0xFFFF001F#32, 0x00000000#32, 0xFFFF001F#32, 0x00000000#32, []⟩]

/-- Rows of the RTC block (R506). -/
def rowsRtc0 : List RegRow := [
  ⟨0x40000, 0x0, 1, false, false, 0x00000000#32, 0x00000000#32, 0x00000000#32, 0x00000000#32, 0x00000000#32, []⟩,
  ⟨0x40004, 0x0, 1, false, false, 0x00000000#32, 0x00000000#32, 0x00000000#32, 0x00000000#32, 0x00000000#32, []⟩,
  ⟨0x40008, 0x0, 1, false, false, 0x00000000#32, 0x00000000#32, 0x00000000#32, 0x00000000#32, 0x00000000#32, []⟩,
  ⟨0x4000C, 0x0, 1, false, false, 0x00000000#32, 0x00000000#32, 0x00000000#32, 0x00000000#32, 0x00000000#32, []⟩,
  ⟨0x40010, 0x0, 1, false, false, 0x00000000#32, 0x00000000#32, 0x00000000#32, 0x00000000#32, 0x00000000#32, [⟨0,7,.rw,0,127⟩, ⟨8,7,.rw,0,127⟩, ⟨16,6,.rw,0,63⟩]⟩,
  ⟨0x40014, 0x0, 1, false, false, 0x00000000#32, 0x00000000#32, 0x00000000#32, 0x00000000#32, 0x00000000#32, [⟨0,6,.rw,0,63⟩, ⟨8,5,.rw,0,31⟩]⟩,
  ⟨0x40018, 0x0, 1, false, false, 0x00000000#32, 0x00000000#32, 0x00000000#32, 0x00000000#32, 0x00000000#32, [⟨0,16,.rw,0,65535⟩]⟩,
  ⟨0x4001C, 0x0, 1, false, false, 0x00000000#32, 0x00000001#32, 0x00000000#32, 0x00000000#32, 0x00000000#32, [⟨0,1,.wo,0,1⟩]⟩,
  ⟨0x40020, 0x0, 1, false, false, 0x00000000#32, 0x0003FFFF#32, 0x00000000#32, 0x00000000#32, 0x00000000#32, [⟨0,15,.rw,1,32767⟩, ⟨15,1,.rw,0,1⟩, ⟨16,1,.wo,0,1⟩]⟩,
  ⟨0x40024, 0x0, 1, false, false, 0x00000000#32, 0x00000080#32, 0x00000000#32, 0x00000000#32, 0x00000000#32, [⟨0,1,.w1c,0,1⟩, ⟨1,1,.w1c,0,1⟩, ⟨2,1,.w1c,0,1⟩, ⟨3,1,.w1c,0,1⟩, ⟨4,1,.w1c,0,1⟩, ⟨5,1,.w1c,0,1⟩, ⟨6,1,.w1c,0,1⟩]⟩,
  ⟨0x40030, 0x10, 2, false, false, 0x00000000#32, 0x00000000#32, 0x00000000#32, 0x00000000#32, 0x00000000#32, [⟨0,32,.rw,0,4294967295⟩]⟩,
  ⟨0x40034, 0x10, 2, false, false, 0x00000000#32, 0x00000000#32, 0x00000000#32, 0x00000000#32, 0x00000000#32, [⟨0,6,.rw,0,63⟩, ⟨8,5,.rw,0,31⟩, ⟨16,16,.rw,0,65535⟩]⟩,
  ⟨0x40038, 0x10, 2, false, false, 0x00000000#32, 0x00000000#32, 0x00000000#32, 0x00000000#32, 0x00000000#32, [⟨0,1,.rw,0,1⟩, ⟨1,6,.rw,0,63⟩, ⟨7,1,.rw,0,1⟩]⟩,
  ⟨0x40050, 0x0, 1, false, false, 0x00000000#32, 0x00000000#32, 0x00000000#32, 0x00000000#32, 0x00000000#32, []⟩]

/-- Rows of the RTC block (R506). -/
def rowsRtc1 : List RegRow := [
  ⟨0x40054, 0x0, 1, false, true, 0x00000003#32, 0x00000000#32, 0x00000000#32, 0x00000000#32, 0x00000000#32, [⟨0,1,.lk,0,1⟩, ⟨1,1,.lk,0,1⟩]⟩,
  ⟨0x40058, 0x0, 1, false, false, 0x00000000#32, 0x00000000#32, 0x00000000#32, 0x00000000#32, 0x00000000#32, [⟨0,8,.rw,0,255⟩, ⟨8,1,.rw,0,1⟩]⟩]

/-- Rows of the REC block (R506). -/
def rowsRec : List RegRow := [
  ⟨0x50000, 0x0, 1, false, true, 0x00000004#32, 0x00000000#32, 0x00000000#32, 0x00000000#32, 0x00000000#32, [⟨0,5,.lk,1,16⟩]⟩,
  ⟨0x50004, 0x0, 1, false, false, 0x00000000#32, 0x00000000#32, 0x00000000#32, 0x00000000#32, 0x00000000#32, [⟨4,1,.w1c,0,1⟩]⟩,
  ⟨0x50008, 0x0, 1, false, false, 0x00000000#32, 0x00000000#32, 0x00000000#32, 0x00000000#32, 0x00000000#32, []⟩,
  ⟨0x5000C, 0x0, 1, false, false, 0x00000000#32, 0x00000000#32, 0x00000000#32, 0x00000000#32, 0x00000000#32, []⟩,
  ⟨0x50010, 0x0, 1, false, false, 0x00000000#32, 0x00000000#32, 0x00000000#32, 0x00000000#32, 0x00000000#32, []⟩,
  ⟨0x50014, 0x0, 1, false, false, 0x00000000#32, 0x00000000#32, 0x00000000#32, 0x00000000#32, 0x00000000#32, []⟩,
  ⟨0x50018, 0x0, 1, false, false, 0x00000000#32, 0xFFFFFFFF#32, 0x00000000#32, 0x00000000#32, 0x00000000#32, []⟩,
  ⟨0x50020, 0x0, 1, true, false, 0x00000000#32, 0x00007FFF#32, 0x00000000#32, 0x00007FFF#32, 0x00000000#32, [⟨0,15,.rw,0,32767⟩]⟩,
  ⟨0x50040, 0x4, 8, true, false, 0x00000000#32, 0x00000000#32, 0x00000000#32, 0x00000000#32, 0x00000000#32, []⟩,
  ⟨0x50060, 0x0, 1, false, false, 0x00000000#32, 0xFFFFFFFF#32, 0x00000000#32, 0x00000000#32, 0x00000000#32, [⟨0,16,.wo,0,65535⟩, ⟨16,16,.wo,0,65535⟩]⟩]

/-- Rows of the SLV block (R506). -/
def rowsSlv0 : List RegRow := [
  ⟨0x60000, 0x0, 1, false, true, 0x00000055#32, 0x00000000#32, 0x00000000#32, 0x00000000#32, 0x00000000#32, [⟨0,10,.lk,0,1023⟩]⟩,
  ⟨0x60004, 0x0, 1, false, true, 0x0000000C#32, 0x00000000#32, 0x00000000#32, 0x00000000#32, 0x00000000#32, [⟨0,6,.lk,1,63⟩]⟩,
  ⟨0x60008, 0x0, 1, false, true, 0x00000020#32, 0x00000000#32, 0x00000000#32, 0x00000000#32, 0x00000000#32, [⟨0,16,.lk,0,65535⟩]⟩,
  ⟨0x6000C, 0x0, 1, false, true, 0x00000005#32, 0x00000000#32, 0x00000000#32, 0x00000000#32, 0x00000000#32, [⟨0,8,.lk,1,254⟩]⟩,
  ⟨0x60010, 0x0, 1, false, true, 0x3A83126F#32, 0x00000000#32, 0x00000000#32, 0x00000000#32, 0x00000000#32, [⟨0,32,.lk,813694976,1056964608⟩]⟩,
  ⟨0x60014, 0x0, 1, false, true, 0x358637BD#32, 0x00000000#32, 0x00000000#32, 0x00000000#32, 0x00000000#32, [⟨0,32,.lk,645922816,4294967295⟩]⟩,
  ⟨0x60018, 0x0, 1, false, true, 0x358637BD#32, 0x00000000#32, 0x00000000#32, 0x00000000#32, 0x00000000#32, [⟨0,32,.lk,645922816,1056964608⟩]⟩,
  ⟨0x6001C, 0x0, 1, false, true, 0x322BCC77#32, 0x00000000#32, 0x00000000#32, 0x00000000#32, 0x00000000#32, [⟨0,32,.lk,562036736,1056964608⟩]⟩,
  ⟨0x60020, 0x0, 1, false, true, 0x00002020#32, 0x00000000#32, 0x00000000#32, 0x00000000#32, 0x00000000#32, [⟨0,6,.lk,16,52⟩, ⟨8,6,.lk,16,52⟩]⟩,
  ⟨0x60040, 0x0, 1, true, false, 0x00008003#32, 0xFF3FFFF7#32, 0x00008003#32, 0xFF3FFFF7#32, 0x00008003#32, []⟩,
  ⟨0x60044, 0x0, 1, true, false, 0x00000000#32, 0xFFFFFFFF#32, 0x00000000#32, 0xFFFFFFFF#32, 0x00000000#32, []⟩,
  ⟨0x60048, 0x0, 1, true, false, 0x00000000#32, 0x000FFFFF#32, 0x00000000#32, 0x000FFFFF#32, 0x00000000#32, []⟩,
  ⟨0x6004C, 0x0, 1, true, false, 0x00000000#32, 0x000FFFFF#32, 0x00000000#32, 0x000FFFFF#32, 0x00000000#32, []⟩,
  ⟨0x60050, 0x0, 1, true, false, 0x00000000#32, 0xFFFFFFFF#32, 0x00000000#32, 0xFFFFFFFF#32, 0x00000000#32, []⟩]

/-- Rows of the SLV block (R506). -/
def rowsSlv1 : List RegRow := [
  ⟨0x60054, 0x0, 1, true, false, 0x00000000#32, 0xFFFFFFFF#32, 0x00000000#32, 0xFFFFFFFF#32, 0x00000000#32, []⟩,
  ⟨0x60058, 0x0, 1, true, false, 0x00000000#32, 0xFFFFFFFF#32, 0x00000000#32, 0xFFFFFFFF#32, 0x00000000#32, []⟩,
  ⟨0x6005C, 0x0, 1, true, false, 0x00000000#32, 0xFFFFFFFF#32, 0x00000000#32, 0xFFFFFFFF#32, 0x00000000#32, []⟩,
  ⟨0x60060, 0x0, 1, true, false, 0x00000000#32, 0x00000001#32, 0x00000000#32, 0x00000001#32, 0x00000000#32, [⟨0,1,.wo,0,1⟩]⟩,
  ⟨0x60070, 0x0, 1, true, false, 0x00000000#32, 0xFFFFFF0F#32, 0x00000000#32, 0xFFFFFF0F#32, 0x00000000#32, []⟩,
  ⟨0x60078, 0x0, 1, false, true, 0x0000007D#32, 0x00000000#32, 0x00000000#32, 0x00000000#32, 0x00000000#32, [⟨0,8,.lk,100,255⟩]⟩,
  ⟨0x60200, 0x0, 1, true, false, 0x00000600#32, 0x01FF0677#32, 0x00000600#32, 0x01FF0677#32, 0x00000600#32, []⟩,
  ⟨0x60210, 0x10, 2, true, false, 0x00000000#32, 0xFFFFFFFF#32, 0x00000000#32, 0xFFFFFFFF#32, 0x00000000#32, []⟩,
  ⟨0x60214, 0x10, 2, true, false, 0x00000000#32, 0xFFFFFFFF#32, 0x00000000#32, 0xFFFFFFFF#32, 0x00000000#32, []⟩,
  ⟨0x60218, 0x10, 2, true, false, 0x00000000#32, 0xFFFFFFFF#32, 0x00000000#32, 0xFFFFFFFF#32, 0x00000000#32, []⟩,
  ⟨0x6021C, 0x10, 2, true, false, 0x00000000#32, 0xFFFFFFFF#32, 0x00000000#32, 0xFFFFFFFF#32, 0x00000000#32, []⟩,
  ⟨0x60240, 0x0, 1, false, true, 0x00000000#32, 0x00000000#32, 0x00000000#32, 0x00000000#32, 0x00000000#32, [⟨0,1,.lk,0,1⟩, ⟨1,1,.lk,0,1⟩]⟩,
  ⟨0x60244, 0x4, 2, false, true, 0x00000000#32, 0x00000000#32, 0x00000000#32, 0x00000000#32, 0x00000000#32, []⟩,
  ⟨0x60250, 0x0, 1, true, false, 0x00000000#32, 0x0FFFFFFF#32, 0x00000000#32, 0x0FFFFFFF#32, 0x00000000#32, []⟩]

/-- Rows of the SLV block (R506). -/
def rowsSlv2 : List RegRow := [
  ⟨0x60254, 0x0, 1, true, false, 0x00000000#32, 0x0000FFFF#32, 0x00000000#32, 0x0000FFFF#32, 0x00000000#32, []⟩,
  ⟨0x60258, 0x0, 1, true, false, 0x00000000#32, 0xFFFFFFFF#32, 0x00000000#32, 0xFFFFFFFF#32, 0x00000000#32, []⟩]

/-- Rows of the FUS block (R506). -/
def rowsFus : List RegRow := [
  ⟨0x70000, 0x0, 1, false, true, 0x006451E1#32, 0x00000000#32, 0x00000000#32, 0x00000000#32, 0x00000000#32, [⟨0,3,.lk,0,7⟩, ⟨4,7,.lk,1,120⟩, ⟨12,4,.lk,1,15⟩, ⟨16,8,.lk,1,255⟩]⟩,
  ⟨0x70010, 0x0, 1, true, false, 0x0000000C#32, 0xFF1FFFFF#32, 0x0000000C#32, 0xFF1FFFFF#32, 0x0000000C#32, []⟩,
  ⟨0x70030, 0x0, 1, true, false, 0x00000000#32, 0xFFFFFFFF#32, 0x00000000#32, 0xFFFFFFFF#32, 0x00000000#32, []⟩,
  ⟨0x70034, 0x0, 1, true, false, 0x00000000#32, 0xFFFFFFFF#32, 0x00000000#32, 0xFFFFFFFF#32, 0x00000000#32, []⟩,
  ⟨0x70038, 0x0, 1, true, false, 0x00000000#32, 0x00000001#32, 0x00000000#32, 0x00000001#32, 0x00000000#32, [⟨0,1,.wo,0,1⟩]⟩,
  ⟨0x70040, 0x4, 16, true, false, 0x00000000#32, 0xFFFF0107#32, 0x00000000#32, 0xFFFF0107#32, 0x00000000#32, []⟩,
  ⟨0x70080, 0x10, 8, true, false, 0x00000000#32, 0xFFFF001F#32, 0x00000000#32, 0xFFFF001F#32, 0x00000000#32, []⟩,
  ⟨0x70084, 0x10, 8, true, false, 0x00000000#32, 0xFFFFFFFF#32, 0x00000000#32, 0xFFFFFFFF#32, 0x00000000#32, []⟩,
  ⟨0x70088, 0x10, 8, true, false, 0x00000000#32, 0xFFFFFFFF#32, 0x00000000#32, 0xFFFFFFFF#32, 0x00000000#32, []⟩,
  ⟨0x70200, 0x0, 1, true, false, 0x00000400#32, 0x01FF0477#32, 0x00000400#32, 0x01FF0477#32, 0x00000400#32, []⟩]

/-- Rows of the GNB block (R506). -/
def rowsGnb : List RegRow := [
  ⟨0x80000, 0x0, 1, false, true, 0x0000141F#32, 0x00000000#32, 0x00000000#32, 0x00000000#32, 0x00000000#32, [⟨0,4,.rw,0,15⟩, ⟨4,1,.rw,0,1⟩, ⟨5,2,.rw,0,2⟩, ⟨8,8,.rw,0,180⟩]⟩,
  ⟨0x80010, 0x10, 4, false, true, 0x00000000#32, 0x00000000#32, 0x00000000#32, 0x00000000#32, 0x00000000#32, [⟨0,1,.lk,0,1⟩, ⟨1,2,.lk,0,2⟩, ⟨3,1,.lk,0,1⟩, ⟨4,1,.lk,0,1⟩]⟩,
  ⟨0x80014, 0x10, 4, false, true, 0x00000000#32, 0x00000000#32, 0x00000000#32, 0x00000000#32, 0x00000000#32, [⟨0,32,.lk,0,4294967295⟩]⟩,
  ⟨0x80018, 0x10, 4, false, true, 0x00000000#32, 0x00000000#32, 0x00000000#32, 0x00000000#32, 0x00000000#32, [⟨0,16,.lk,0,65535⟩]⟩,
  ⟨0x8001C, 0x10, 4, true, false, 0x00000000#32, 0x00FFFF03#32, 0x00000000#32, 0x00FFFF03#32, 0x00000000#32, []⟩,
  ⟨0x80050, 0x0, 1, false, true, 0x01003C14#32, 0x00000000#32, 0x00000000#32, 0x00000000#32, 0x00000000#32, [⟨0,7,.rw,2,100⟩, ⟨8,12,.rw,10,3600⟩, ⟨24,4,.rw,0,15⟩]⟩,
  ⟨0x80060, 0x0, 1, true, false, 0x00000000#32, 0x0007FFFF#32, 0x00000000#32, 0x0007FFFF#32, 0x00000000#32, []⟩,
  ⟨0x80064, 0x0, 1, true, false, 0x00000000#32, 0xFFFFFFFF#32, 0x00000000#32, 0xFFFFFFFF#32, 0x00000000#32, []⟩,
  ⟨0x80068, 0x0, 1, true, false, 0x00000000#32, 0x00000001#32, 0x00000000#32, 0x00000001#32, 0x00000000#32, [⟨0,1,.wo,0,1⟩]⟩,
  ⟨0x80400, 0x4, 160, true, false, 0x00000000#32, 0xFF003FFF#32, 0x00000000#32, 0xFF003FFF#32, 0x00000000#32, []⟩]

/-- Rows of the MET block (R506). -/
def rowsMet0 : List RegRow := [
  ⟨0x90000, 0x0, 1, false, true, 0x00000384#32, 0x00000000#32, 0x00000000#32, 0x00000000#32, 0x00000000#32, [⟨0,12,.lk,1,3600⟩, ⟨12,1,.lk,0,1⟩]⟩,
  ⟨0x90004, 0x0, 1, true, false, 0x00000001#32, 0x0000000F#32, 0x00000001#32, 0x00000009#32, 0x00000001#32, []⟩,
  ⟨0x90008, 0x0, 1, true, false, 0x00000000#32, 0xFFFFFFFF#32, 0x00000000#32, 0xFFFFFFFF#32, 0x00000000#32, []⟩,
  ⟨0x9000C, 0x0, 1, true, false, 0x00000000#32, 0x00000001#32, 0x00000000#32, 0x00000001#32, 0x00000000#32, [⟨0,1,.wo,0,1⟩]⟩,
  ⟨0x90100, 0x10, 24, false, true, 0x00000000#32, 0x00000000#32, 0x00000000#32, 0x00000000#32, 0x00000000#32, [⟨0,1,.lk,0,1⟩, ⟨1,8,.lk,16,255⟩]⟩,
  ⟨0x90104, 0x10, 24, true, false, 0x00000000#32, 0x01FFFF03#32, 0x00000000#32, 0x01FFFF03#32, 0x00000000#32, []⟩,
  ⟨0x90108, 0x10, 24, true, false, 0x00000000#32, 0xFFFFFFFF#32, 0x00000000#32, 0xFFFFFFFF#32, 0x00000000#32, []⟩,
  ⟨0x90300, 0x8, 24, true, false, 0x00000000#32, 0xFFFFFFFF#32, 0x00000000#32, 0xFFFFFFFF#32, 0x00000000#32, []⟩,
  ⟨0x90304, 0x8, 24, true, false, 0x00000000#32, 0xFFFFFFFF#32, 0x00000000#32, 0xFFFFFFFF#32, 0x00000000#32, []⟩,
  ⟨0x90400, 0x4, 192, false, true, 0x00001040#32, 0x00000000#32, 0x00000000#32, 0x00000000#32, 0x00000000#32, [⟨0,2,.lk,0,3⟩, ⟨2,1,.lk,0,1⟩, ⟨4,4,.lk,0,15⟩, ⟨8,8,.lk,4,255⟩]⟩,
  ⟨0x90800, 0x4, 192, true, false, 0x00000000#32, 0xFFFF003F#32, 0x00000000#32, 0xFFFF002F#32, 0x00000000#32, []⟩,
  ⟨0x90C00, 0x8, 96, false, true, 0x00000000#32, 0x00000000#32, 0x00000000#32, 0x00000000#32, 0x00000000#32, [⟨4,4,.lk,0,8⟩]⟩,
  ⟨0x90C04, 0x8, 96, true, false, 0x00000000#32, 0x0000003F#32, 0x00000000#32, 0x0000003F#32, 0x00000000#32, [⟨5,1,.w1c,0,1⟩]⟩,
  ⟨0x91000, 0x0, 1, true, false, 0x00000000#32, 0x0000077F#32, 0x00000000#32, 0x0000077F#32, 0x00000000#32, [⟨0,7,.rw,0,95⟩, ⟨8,1,.wo,0,1⟩]⟩]

/-- Rows of the MET block (R506). -/
def rowsMet1 : List RegRow := [
  ⟨0x91004, 0x0, 1, true, false, 0x00000000#32, 0xFFFFFFFF#32, 0x00000000#32, 0xFFFFFFFF#32, 0x00000000#32, []⟩,
  ⟨0x91008, 0x0, 1, true, false, 0x00000000#32, 0xFFFFFFFF#32, 0x00000000#32, 0xFFFFFFFF#32, 0x00000000#32, []⟩,
  ⟨0x91200, 0x10, 8, false, true, 0x00000000#32, 0x00000000#32, 0x00000000#32, 0x00000000#32, 0x00000000#32, [⟨0,7,.lk,0,95⟩, ⟨7,1,.lk,0,1⟩, ⟨8,4,.lk,0,8⟩, ⟨12,1,.lk,0,1⟩, ⟨16,8,.lk,2,200⟩]⟩,
  ⟨0x91204, 0x10, 8, false, true, 0x00000000#32, 0x00000000#32, 0x00000000#32, 0x00000000#32, 0x00000000#32, [⟨0,32,.lk,1,1000000⟩]⟩,
  ⟨0x91208, 0x10, 8, true, false, 0x00000000#32, 0x00000007#32, 0x00000000#32, 0x00000007#32, 0x00000000#32, []⟩,
  ⟨0x9120C, 0x10, 8, true, false, 0x00000000#32, 0xFFFFFFFF#32, 0x00000000#32, 0xFFFFFFFF#32, 0x00000000#32, []⟩,
  ⟨0x91400, 0x4, 96, true, false, 0x00000000#32, 0xFFFFFFFF#32, 0x00000000#32, 0xFFFFFFFF#32, 0x00000000#32, []⟩]

/-- Rows of the LPE block (R506). -/
def rowsLpe : List RegRow := [
  ⟨0xA0000, 0x0, 1, true, false, 0x00000000#32, 0x001FFFFF#32, 0x00000000#32, 0x001FFFFF#32, 0x00000000#32, []⟩,
  ⟨0xA0004, 0x0, 1, true, false, 0x00000000#32, 0xFFFFFFFF#32, 0x00000000#32, 0xFFFFFFFF#32, 0x00000000#32, []⟩,
  ⟨0xA0008, 0x0, 1, true, false, 0x00000000#32, 0x00000001#32, 0x00000000#32, 0x00000001#32, 0x00000000#32, [⟨0,1,.wo,0,1⟩]⟩,
  ⟨0xA000C, 0x0, 1, true, false, 0x00000000#32, 0x0000FFFF#32, 0x00000000#32, 0x0000FFFF#32, 0x00000000#32, []⟩,
  ⟨0xA0100, 0x4, 8, true, false, 0x00000000#32, 0x00FF1FFF#32, 0x00000000#32, 0x00FF1FFF#32, 0x00000000#32, [⟨0,8,.rw,0,255⟩, ⟨8,4,.rw,0,15⟩, ⟨12,1,.rw,0,1⟩, ⟨16,8,.rw,0,255⟩]⟩,
  ⟨0xA0120, 0x0, 1, true, false, 0x00000000#32, 0x3FFF7FFF#32, 0x00000000#32, 0x3FFF7FFF#32, 0x00000000#32, [⟨0,8,.rw,0,255⟩, ⟨8,4,.rw,0,15⟩, ⟨12,3,.rw,0,4⟩, ⟨16,14,.rw,0,16383⟩]⟩,
  ⟨0xA0124, 0x0, 1, true, false, 0x00000000#32, 0xFFFFFFFF#32, 0x00000000#32, 0xFFFFFFFF#32, 0x00000000#32, [⟨0,32,.rw,0,4294967295⟩]⟩,
  ⟨0xA0128, 0x0, 1, true, false, 0x00000000#32, 0x00000003#32, 0x00000000#32, 0x00000003#32, 0x00000000#32, [⟨0,1,.wo,0,1⟩, ⟨1,1,.wo,0,1⟩]⟩,
  ⟨0xA012C, 0x0, 1, true, false, 0x00000000#32, 0x0001FFFF#32, 0x00000000#32, 0x0001FFFF#32, 0x00000000#32, []⟩,
  ⟨0xA1000, 0x10, 256, true, false, 0x00000000#32, 0xFFFF1FC0#32, 0x00000000#32, 0xFFFF1FC7#32, 0x00001004#32, []⟩,
  ⟨0xA1004, 0x10, 256, true, false, 0x00000000#32, 0xFFFFFFFF#32, 0x00000000#32, 0xFFFFFFFF#32, 0x00000000#32, []⟩,
  ⟨0xA1008, 0x10, 256, true, false, 0x00000000#32, 0xFFFFFFFF#32, 0x00000000#32, 0xFFFFFFFF#32, 0x00000000#32, []⟩]

/-- Rows of the HRI block (R506). -/
def rowsHri0 : List RegRow := [
  ⟨0xB0000, 0x0, 1, true, true, 0x00000000#32, 0x00000000#32, 0x00000000#32, 0x00000000#32, 0x00000000#32, [⟨0,1,.lk,0,1⟩]⟩,
  ⟨0xB0004, 0x0, 1, true, false, 0x00000000#32, 0x00000005#32, 0x00000000#32, 0x00000005#32, 0x00000000#32, []⟩,
  ⟨0xB0008, 0x0, 1, true, false, 0x00000000#32, 0x0000003F#32, 0x00000000#32, 0x0000003F#32, 0x00000000#32, [⟨0,6,.rw,0,63⟩]⟩,
  ⟨0xB000C, 0x0, 1, true, false, 0x00000000#32, 0x0000007F#32, 0x00000000#32, 0x0000007F#32, 0x00000000#32, [⟨0,1,.w1c,0,1⟩, ⟨1,1,.w1c,0,1⟩, ⟨2,1,.w1c,0,1⟩, ⟨3,1,.w1c,0,1⟩, ⟨4,1,.w1c,0,1⟩, ⟨5,1,.w1c,0,1⟩, ⟨6,1,.w1c,0,1⟩]⟩,
  ⟨0xB0010, 0x0, 1, false, false, 0x00000000#32, 0x00001FFF#32, 0x00000000#32, 0x00000000#32, 0x00000000#32, []⟩,
  ⟨0xB0014, 0x0, 1, false, false, 0x00000000#32, 0xFFFFFFFF#32, 0x00000000#32, 0x00000000#32, 0x00000000#32, []⟩,
  ⟨0xB0018, 0x0, 1, false, true, 0x003C0303#32, 0x00000000#32, 0x00000000#32, 0x00000000#32, 0x00000000#32, [⟨0,6,.lk,1,60⟩, ⟨8,8,.lk,0,255⟩, ⟨16,8,.lk,1,240⟩]⟩,
  ⟨0xB001C, 0x0, 1, false, true, 0x0000B928#32, 0x00000000#32, 0x00000000#32, 0x00000000#32, 0x00000000#32, [⟨0,16,.lk,1,65535⟩]⟩,
  ⟨0xB0020, 0x4, 5, false, true, 0x00000000#32, 0x00000000#32, 0x00000000#32, 0x00000000#32, 0x00000000#32, [⟨0,32,.lk,0,4294967295⟩]⟩,
  ⟨0xB0038, 0x0, 1, true, false, 0x00000000#32, 0xFFFFFFFF#32, 0x00000000#32, 0xFFFFFFFF#32, 0x00000000#32, []⟩,
  ⟨0xB003C, 0x0, 1, true, false, 0x00000000#32, 0x00000001#32, 0x00000000#32, 0x00000001#32, 0x00000000#32, [⟨0,1,.wo,0,1⟩]⟩,
  ⟨0xB1000, 0x40, 64, true, false, 0x00000000#32, 0xFFFFFFC0#32, 0x00000000#32, 0xFFFFFFC0#32, 0x00000000#32, [⟨6,26,.rw,0,67108863⟩]⟩,
  ⟨0xB1004, 0x40, 64, true, false, 0x00000000#32, 0xFFFFFFFF#32, 0x00000000#32, 0xFFFFFFFF#32, 0x00000000#32, [⟨0,32,.rw,0,4294967295⟩]⟩,
  ⟨0xB1008, 0x40, 64, true, false, 0x00000040#32, 0xFF7F7FF7#32, 0x00000040#32, 0xFF7F7FF7#32, 0x00000040#32, [⟨0,1,.rw,0,1⟩, ⟨1,2,.rw,0,2⟩, ⟨4,5,.rw,4,16⟩, ⟨9,6,.rw,0,63⟩, ⟨16,6,.rw,0,63⟩, ⟨22,1,.rw,0,1⟩, ⟨24,8,.rw,0,255⟩]⟩]

/-- Rows of the HRI block (R506). -/
def rowsHri1 : List RegRow := [
  ⟨0xB100C, 0x40, 64, true, false, 0x00000000#32, 0x00FFFFFF#32, 0x00000000#32, 0x00FFFFFF#32, 0x00000000#32, [⟨0,8,.rw,0,255⟩, ⟨8,16,.rw,0,65535⟩]⟩,
  ⟨0xB1010, 0x40, 64, true, false, 0x00000000#32, 0xFFFFF000#32, 0x00000000#32, 0xFFFFF000#32, 0x00000000#32, [⟨12,20,.rw,0,1048575⟩]⟩,
  ⟨0xB1014, 0x40, 64, true, false, 0x00000000#32, 0xFFFFFFFF#32, 0x00000000#32, 0xFFFFFFFF#32, 0x00000000#32, [⟨0,32,.rw,0,4294967295⟩]⟩,
  ⟨0xB1018, 0x40, 64, true, false, 0x00000000#32, 0x0000FFFF#32, 0x00000000#32, 0x0000FFFF#32, 0x00000000#32, [⟨0,16,.rw,0,65535⟩]⟩,
  ⟨0xB101C, 0x40, 64, true, false, 0x00010000#32, 0x0001FFFF#32, 0x00010000#32, 0x0001FFFF#32, 0x00010000#32, []⟩,
  ⟨0xB1020, 0x40, 64, true, false, 0x00000000#32, 0x0000FFFF#32, 0x00000000#32, 0x0000FFFF#32, 0x00000000#32, []⟩,
  ⟨0xB1024, 0x40, 64, true, false, 0x00000000#32, 0xFFFF00F3#32, 0x00000000#32, 0xFFFF00F3#32, 0x00000000#32, []⟩]

/-- Rows of the NET block (R506). -/
def rowsNet : List RegRow := [
  ⟨0xC0100, 0x0, 1, false, true, 0x00000000#32, 0x00000000#32, 0x00000000#32, 0x00000000#32, 0x00000000#32, [⟨0,10,.lk,0,1022⟩, ⟨12,4,.lk,0,15⟩, ⟨16,1,.lk,0,1⟩, ⟨17,2,.lk,0,3⟩]⟩,
  ⟨0xC0104, 0x0, 1, false, true, 0x00000000#32, 0x00000000#32, 0x00000000#32, 0x00000000#32, 0x00000000#32, [⟨0,10,.lk,0,1023⟩, ⟨16,10,.lk,0,1023⟩]⟩,
  ⟨0xC0108, 0x0, 1, false, false, 0x00000000#32, 0x03FF001F#32, 0x00000000#32, 0x00000000#32, 0x00000000#32, []⟩,
  ⟨0xC010C, 0x0, 1, false, false, 0x00000000#32, 0x03FFFFFF#32, 0x00000000#32, 0x00000000#32, 0x00000000#32, []⟩,
  ⟨0xC0110, 0x0, 1, false, false, 0x00000000#32, 0xFFFFFFFF#32, 0x00000000#32, 0x00000000#32, 0x00000000#32, []⟩,
  ⟨0xC0200, 0x0, 1, false, false, 0x00000000#32, 0xFFFFFFFF#32, 0x00000000#32, 0x00000000#32, 0x00000000#32, []⟩]

/-- Rows of the MBC block (R506). -/
def rowsMbc : List RegRow := [
  ⟨0xD0000, 0x20, 4, false, true, 0x00000008#32, 0x00000000#32, 0x00000000#32, 0x00000000#32, 0x00000000#32, [⟨0,1,.lk,0,1⟩, ⟨1,1,.lk,0,1⟩, ⟨2,1,.lk,0,1⟩, ⟨3,1,.lk,0,1⟩]⟩,
  ⟨0xD0004, 0x20, 4, false, true, 0x00000000#32, 0x00000000#32, 0x00000000#32, 0x00000000#32, 0x00000000#32, [⟨0,5,.lk,0,31⟩, ⟨5,8,.lk,0,255⟩, ⟨13,7,.lk,0,127⟩, ⟨20,7,.lk,0,127⟩]⟩,
  ⟨0xD0008, 0x20, 4, false, true, 0x00000000#32, 0x00000000#32, 0x00000000#32, 0x00000000#32, 0x00000000#32, [⟨0,5,.lk,0,31⟩, ⟨5,5,.lk,0,31⟩, ⟨10,4,.lk,0,15⟩, ⟨14,4,.lk,0,15⟩, ⟨18,7,.lk,0,127⟩]⟩,
  ⟨0xD000C, 0x20, 4, false, false, 0x00000003#32, 0x0FFFFF03#32, 0x00000003#32, 0x00000000#32, 0x00000000#32, []⟩,
  ⟨0xD0010, 0x20, 4, false, false, 0x00000000#32, 0xFFFFFFFF#32, 0x00000000#32, 0x00000000#32, 0x00000000#32, []⟩,
  ⟨0xD0014, 0x20, 4, false, false, 0x00000000#32, 0xFFFFFFFF#32, 0x00000000#32, 0x00000000#32, 0x00000000#32, []⟩,
  ⟨0xD0018, 0x20, 4, false, false, 0x00000000#32, 0x00000003#32, 0x00000000#32, 0x00000000#32, 0x00000000#32, [⟨0,1,.wo,0,1⟩, ⟨1,1,.wo,0,1⟩]⟩,
  ⟨0xD0100, 0x0, 1, false, true, 0x0000001E#32, 0x00000000#32, 0x00000000#32, 0x00000000#32, 0x00000000#32, [⟨0,7,.lk,5,100⟩]⟩,
  ⟨0xD0104, 0x0, 1, false, false, 0x00000000#32, 0xFF03FFFF#32, 0x00000000#32, 0x00000000#32, 0x00000000#32, []⟩,
  ⟨0xD1000, 0x10, 512, false, false, 0x00000000#32, 0x007F03F8#32, 0x00000000#32, 0x00000000#32, 0x00000000#32, [⟨4,1,.w1c,0,1⟩, ⟨5,1,.w1c,0,1⟩, ⟨6,1,.w1c,0,1⟩]⟩,
  ⟨0xD1004, 0x10, 512, false, false, 0x00000000#32, 0xFFFFFFFF#32, 0x00000000#32, 0x00000000#32, 0x00000000#32, []⟩,
  ⟨0xD1008, 0x10, 512, false, false, 0x00000000#32, 0x3FFFFFFF#32, 0x00000000#32, 0x00000000#32, 0x00000000#32, []⟩,
  ⟨0xD100C, 0x10, 512, true, false, 0x00000000#32, 0x00000003#32, 0x00000000#32, 0x00000003#32, 0x00000000#32, [⟨0,1,.wo,0,1⟩, ⟨1,1,.wo,0,1⟩]⟩]

/-- Rows of the SER block (R506). -/
def rowsSer : List RegRow := [
  ⟨0xE0000, 0x10, 8, false, true, 0x00000000#32, 0x00000000#32, 0x00000000#32, 0x00000000#32, 0x00000000#32, [⟨0,1,.lk,0,1⟩, ⟨1,2,.lk,0,3⟩, ⟨3,1,.lk,0,1⟩]⟩,
  ⟨0xE0004, 0x10, 8, true, false, 0x00000000#32, 0x00000003#32, 0x00000000#32, 0x00000003#32, 0x00000000#32, []⟩,
  ⟨0xE0008, 0x10, 8, true, false, 0x00000000#32, 0xFFFFFFFF#32, 0x00000000#32, 0xFFFFFFFF#32, 0x00000000#32, []⟩,
  ⟨0xE0100, 0x0, 1, false, true, 0x00000000#32, 0x00000000#32, 0x00000000#32, 0x00000000#32, 0x00000000#32, [⟨0,16,.lk,0,65535⟩]⟩,
  ⟨0xE0104, 0x0, 1, true, false, 0x00000000#32, 0x00000001#32, 0x00000000#32, 0x00000001#32, 0x00000000#32, [⟨0,1,.wo,0,1⟩]⟩,
  ⟨0xE0400, 0x8, 192, true, false, 0xFFFF0000#32, 0xFFFF0003#32, 0xFFFF0000#32, 0xFFFF0003#32, 0xFFFF0000#32, []⟩,
  ⟨0xE0404, 0x8, 192, true, false, 0x00000000#32, 0xFFFFFFFF#32, 0x00000000#32, 0xFFFFFFFF#32, 0x00000000#32, []⟩]

/-- Rows of the SAF block (R506). -/
def rowsSaf : List RegRow := [
  ⟨0xF0000, 0x0, 1, false, false, 0x00000000#32, 0x0000003F#32, 0x00000000#32, 0x00000000#32, 0x00000000#32, []⟩,
  ⟨0xF0004, 0x0, 1, false, false, 0x00000000#32, 0x000003FF#32, 0x00000000#32, 0x00000000#32, 0x00000000#32, []⟩,
  ⟨0xF0008, 0x0, 1, false, false, 0x00000000#32, 0x00000000#32, 0x00000000#32, 0x00000000#32, 0x00000000#32, []⟩,
  ⟨0xF000C, 0x0, 1, false, false, 0x00000000#32, 0x00000000#32, 0x00000000#32, 0x00000000#32, 0x00000000#32, []⟩,
  ⟨0xF0010, 0x0, 1, false, false, 0x00000000#32, 0x00000000#32, 0x00000000#32, 0x00000000#32, 0x00000000#32, []⟩,
  ⟨0xF0014, 0x0, 1, false, false, 0x00000000#32, 0x00000000#32, 0x00000000#32, 0x00000000#32, 0x00000000#32, []⟩,
  ⟨0xF0020, 0x0, 1, false, false, 0x00000000#32, 0xFFFFFFFF#32, 0x00000000#32, 0x00000000#32, 0x00000000#32, []⟩,
  ⟨0xF0024, 0x0, 1, false, false, 0x00000000#32, 0xFFFFFFFF#32, 0x00000000#32, 0x00000000#32, 0x00000000#32, []⟩,
  ⟨0xF0028, 0x0, 1, false, false, 0x00000000#32, 0x0000FFFF#32, 0x00000000#32, 0x00000000#32, 0x00000000#32, []⟩,
  ⟨0xF002C, 0x0, 1, false, false, 0x00000000#32, 0xFFFFFFFF#32, 0x00000000#32, 0x00000000#32, 0x00000000#32, []⟩,
  ⟨0xF0040, 0x4, 16, false, false, 0x00000000#32, 0x01FF0007#32, 0x00000000#32, 0x00000000#32, 0x00000000#32, []⟩]

/-- Rows of the TND block (R506). -/
def rowsTnd : List RegRow := [
  ⟨0x100000, 0x0, 1, true, false, 0x00000000#32, 0x03FF073F#32, 0x00000000#32, 0x03FF073F#32, 0x00000000#32, []⟩,
  ⟨0x100004, 0x0, 1, true, false, 0x00000000#32, 0xFFFFFFFF#32, 0x00000000#32, 0xFFFFFFFF#32, 0x00000000#32, []⟩,
  ⟨0x100008, 0x0, 1, true, false, 0x00000000#32, 0x0000FFFF#32, 0x00000000#32, 0x0000FFFF#32, 0x00000000#32, []⟩,
  ⟨0x10000C, 0x0, 1, true, false, 0x00000000#32, 0x00000000#32, 0x00000000#32, 0x00000000#32, 0x00000000#32, []⟩,
  ⟨0x100010, 0x0, 1, false, false, 0x00000000#32, 0xFFFFFFFF#32, 0x00000000#32, 0x00000000#32, 0x00000000#32, []⟩,
  ⟨0x100014, 0x0, 1, true, false, 0x00000000#32, 0x00000001#32, 0x00000000#32, 0x00000001#32, 0x00000000#32, [⟨0,1,.wo,0,1⟩]⟩]

/-- Rows of the UPD block (R506). -/
def rowsUpd : List RegRow := [
  ⟨0x110000, 0x0, 1, false, false, 0x00000000#32, 0x0000FF00#32, 0x00000000#32, 0x00000000#32, 0x00000000#32, []⟩,
  ⟨0x110004, 0x4, 4, false, false, 0x00000000#32, 0x00000000#32, 0x00000000#32, 0x00000000#32, 0x00000000#32, []⟩,
  ⟨0x110014, 0x4, 4, false, false, 0x00000000#32, 0x00000000#32, 0x00000000#32, 0x00000000#32, 0x00000000#32, []⟩,
  ⟨0x110024, 0x4, 2, true, false, 0x00000000#32, 0xFF000000#32, 0x00000000#32, 0x00000000#32, 0x00000000#32, []⟩,
  ⟨0x11002C, 0x4, 2, false, false, 0x00000000#32, 0x00000000#32, 0x00000000#32, 0x00000000#32, 0x00000000#32, []⟩,
  ⟨0x110034, 0x0, 1, false, false, 0x00000000#32, 0x07FF3F00#32, 0x00000000#32, 0x00000000#32, 0x00000000#32, []⟩,
  ⟨0x110038, 0x0, 1, false, false, 0x00000000#32, 0x00000000#32, 0x00000000#32, 0x00000000#32, 0x00000000#32, []⟩,
  ⟨0x11003C, 0x0, 1, false, false, 0x00000000#32, 0x00000000#32, 0x00000000#32, 0x00000000#32, 0x00000000#32, []⟩]

/-- The MET snapshot's latched values (R252): eleven entries of four words, read-only, per lane. -/
def rowsMetLatch : List RegRow := [
  ⟨0x91010, 0x4, 44, true, false, 0#32, 0xFFFFFFFF#32, 0#32, 0xFFFFFFFF#32, 0#32, []⟩]

/-- The MBC data windows (R404): sixteen words for each of the 512 objects; a host transmit object's window is held per lane. -/
def rowsMbcData : List RegRow := [
  ⟨0xD8000, 0x4, 8192, true, false, 0#32, 0xFFFFFFFF#32, 0#32, 0xFFFFFFFF#32, 0#32, [⟨0, 32, .rw, 0, 0xFFFFFFFF⟩]⟩]

/-- The whole index (R506), block by block: block number is the BAR0 window (R492). -/
def blockRows : Nat → List RegRow
  | 0 => rowsJx0 ++ rowsJx1
  | 1 => rowsKpr
  | 2 => rowsPwr
  | 3 => rowsTmb0 ++ rowsTmb1 ++ rowsTmb2
  | 4 => rowsRtc0 ++ rowsRtc1
  | 5 => rowsRec
  | 6 => rowsSlv0 ++ rowsSlv1 ++ rowsSlv2
  | 7 => rowsFus
  | 8 => rowsGnb
  | 9 => rowsMet0 ++ rowsMet1 ++ rowsMetLatch
  | 10 => rowsLpe
  | 11 => rowsHri0 ++ rowsHri1
  | 12 => rowsNet
  | 13 => rowsMbc ++ rowsMbcData
  | 14 => rowsSer
  | 15 => rowsSaf
  | 16 => rowsTnd
  | 17 => rowsUpd
  | _ => []

/-- Does a row hold the register at this offset? -/
def RegRow.covers (r : RegRow) (off : Nat) : Bool :=
  if r.stride = 0 then off == r.base
  else decide (r.base ≤ off ∧ off < r.base + r.stride * r.count) && (off - r.base) % r.stride == 0

/-- The row of the index that holds a register; none where R494 applies. -/
def regRow (off : Nat) : Option RegRow := (blockRows (off / 0x10000)).find? (·.covers off)

/-- Value of a register after the first module reset (R11); TMB_PTPn_CFG.mo is 1 on SP0-SP3 only; the IF
ports' rates and centres are those of R189. -/
def regDflt (off : Nat) : BitVec 32 :=
  if off = 0x80010 ∨ off = 0x80030 then 0x4#32
  else if off = 0x80020 ∨ off = 0x80040 then 0x2#32
  else if off = 0x80014 ∨ off = 0x80034 then 1590000#32
  else if off = 0x80024 ∨ off = 0x80044 then 1176450#32
  else if off ∈ [0x30140, 0x30150, 0x30160, 0x30170] then 0x1001#32
  else if 0x30100 ≤ off ∧ off < 0x30180 ∧ off % 0x10 = 0 then 0x0001#32
  else match regRow off with
    | some r => r.dflt
    | none => 0#32

namespace Reg

def JX_CYC_PERIOD : Nat := 0x00100
def JX_CYC_MARK0 : Nat := 0x00104
def JX_CYC_MARK1 : Nat := 0x00108
def JX_CYC_APPLY : Nat := 0x0010C
def JX_CYC_STATUS : Nat := 0x00110
def JX_CYC_PHASE : Nat := 0x00114
def JX_CYC_COUNT : Nat := 0x00118
def JX_PUBDLY_LAST : Nat := 0x00130
def JX_PUBDLY_MIN : Nat := 0x00134
def JX_PUBDLY_MAX : Nat := 0x00138
def JX_MODE : Nat := 0x00120
def SLV_PKG_BANK : Nat := 0x60200
def SLV_PKGn_IDL (n : Nat) : Nat := 0x60210 + n * 0x10
def SLV_PKGn_IDH (n : Nat) : Nat := 0x60214 + n * 0x10
def SLV_PKGn_REV (n : Nat) : Nat := 0x60218 + n * 0x10
def SLV_PKGn_DIG (n : Nat) : Nat := 0x6021C + n * 0x10
def SLV_PKG_KEY : Nat := 0x60240
def SLV_PKG_KEYnID (n : Nat) : Nat := 0x60244 + n * 0x4
def SLV_ASM_STAT : Nat := 0x60250
def SLV_ASM_TIME : Nat := 0x60254
def SLV_ASM_DIAG : Nat := 0x60258
def SLV_DEADLINE : Nat := 0x60000
def SLV_ITCAP : Nat := 0x60004
def SLV_PIVLIM : Nat := 0x60008
def SLV_SHIFTMAX : Nat := 0x6000C
def SLV_ACCEPT : Nat := 0x60010
def SLV_TOLP : Nat := 0x60014
def SLV_TOLD : Nat := 0x60018
def SLV_TOLMU : Nat := 0x6001C
def SLV_REG : Nat := 0x60020
def SLV_OUT_STAT : Nat := 0x60040
def SLV_NUM_STAT : Nat := 0x60044
def SLV_SOLVE_T0 : Nat := 0x60048
def SLV_SOLVE_T1 : Nat := 0x6004C
def SLV_RESID : Nat := 0x60050
def SLV_MU : Nat := 0x60054
def SLV_CNT0 : Nat := 0x60058
def SLV_CNT1 : Nat := 0x6005C
def SLV_CNT_CLR : Nat := 0x60060
def SLV_TPL_STAT : Nat := 0x60070
def SLV_TPL_CFG : Nat := 0x60078
def FUS_CFG : Nat := 0x70000
def FUS_STAT : Nat := 0x70010
def FUS_REG : Nat := 0x70030
def FUS_CNT : Nat := 0x70034
def FUS_CNT_CLR : Nat := 0x70038
def FUS_REFn (n : Nat) : Nat := 0x70040 + n * 0x4
def FUS_STRn_STAT (n : Nat) : Nat := 0x70080 + n * 0x10
def FUS_STRn_OFS (n : Nat) : Nat := 0x70084 + n * 0x10
def FUS_STRn_ERR (n : Nat) : Nat := 0x70088 + n * 0x10
def FUS_NPKG_BANK : Nat := 0x70200
def GNB_CFG : Nat := 0x80000
def GNB_IFn_CFG (n : Nat) : Nat := 0x80010 + n * 0x10
def GNB_IFn_RFC (n : Nat) : Nat := 0x80014 + n * 0x10
def GNB_IFn_DLY (n : Nat) : Nat := 0x80018 + n * 0x10
def GNB_IFn_STAT (n : Nat) : Nat := 0x8001C + n * 0x10
def GNB_SNAP : Nat := 0x80050
def GNB_STAT : Nat := 0x80060
def GNB_CNT : Nat := 0x80064
def GNB_CNT_CLR : Nat := 0x80068
def GNB_CHn_STAT (n : Nat) : Nat := 0x80400 + n * 0x4
def MET_CFG : Nat := 0x90000
def MET_STAT : Nat := 0x90004
def MET_CNT : Nat := 0x90008
def MET_CNT_CLR : Nat := 0x9000C
def MET_APn_CFG (n : Nat) : Nat := 0x90100 + n * 0x10
def MET_APn_STAT (n : Nat) : Nat := 0x90104 + n * 0x10
def MET_APn_ERR (n : Nat) : Nat := 0x90108 + n * 0x10
def MET_APn_IDL (n : Nat) : Nat := 0x90300 + n * 0x8
def MET_APn_IDH (n : Nat) : Nat := 0x90304 + n * 0x8
def MET_CHn_CFG (n : Nat) : Nat := 0x90400 + n * 0x4
def MET_CHn_STAT (n : Nat) : Nat := 0x90800 + n * 0x4
def MET_PTn_CFG (n : Nat) : Nat := 0x90C00 + n * 0x8
def MET_PTn_STAT (n : Nat) : Nat := 0x90C04 + n * 0x8
def MET_PTn_IDLT (n : Nat) : Nat := 0x91400 + n * 0x4
def MET_SNAP_CTL : Nat := 0x91000
def MET_SNAP_MTCL : Nat := 0x91004
def MET_SNAP_MTCH : Nat := 0x91008
def MET_POn_CFG (n : Nat) : Nat := 0x91200 + n * 0x10
def MET_POn_K (n : Nat) : Nat := 0x91204 + n * 0x10
def MET_POn_STAT (n : Nat) : Nat := 0x91208 + n * 0x10
def MET_POn_OWED (n : Nat) : Nat := 0x9120C + n * 0x10
def LPE_STAT : Nat := 0xA0000
def LPE_CNT : Nat := 0xA0004
def LPE_CNT_CLR : Nat := 0xA0008
def LPE_ERR : Nat := 0xA000C
def LPE_SLn_STAT (n : Nat) : Nat := 0xA1000 + n * 0x10
def LPE_SLn_DLY (n : Nat) : Nat := 0xA1004 + n * 0x10
def LPE_SLn_OUT (n : Nat) : Nat := 0xA1008 + n * 0x10
def LPE_TRCn_CFG (n : Nat) : Nat := 0xA0100 + n * 0x4
def LPE_TRC_TRIG : Nat := 0xA0120
def LPE_TRC_LVL : Nat := 0xA0124
def LPE_TRC_CTL : Nat := 0xA0128
def LPE_TRC_STAT : Nat := 0xA012C
def KPR_STAT : Nat := 0x10000
def KPR_CFG : Nat := 0x10004
def KPR_HLTHA : Nat := 0x10010
def KPR_HLTHB : Nat := 0x10014
def KPR_CNT0 : Nat := 0x10020
def KPR_CNT1 : Nat := 0x10024
def KPR_MTCD : Nat := 0x10028
def KPR_CNT_CLR : Nat := 0x1002C
def NET_RING_CFG : Nat := 0xC0100
def NET_RING_PEER : Nat := 0xC0104
def NET_RING_STAT : Nat := 0xC0108
def NET_RING_RTT : Nat := 0xC010C
def NET_RING_CNT : Nat := 0xC0110
def NET_PRP_CNT : Nat := 0xC0200
def TMB_CFG : Nat := 0x30000
def TMB_CTL : Nat := 0x30004
def TMB_STAT : Nat := 0x30008
def TMB_MTCL : Nat := 0x30010
def TMB_MTCH : Nat := 0x30014
def TMB_LTSL : Nat := 0x30018
def TMB_LTSH : Nat := 0x3001C
def TMB_LTNS : Nat := 0x30020
def TMB_THETA : Nat := 0x30024
def TMB_RATEL : Nat := 0x30028
def TMB_RATEH : Nat := 0x3002C
def TMB_CNT : Nat := 0x30030
def TMB_CNT_CLR : Nat := 0x30034
def TMB_PTPn_CFG (n : Nat) : Nat := 0x30100 + n * 0x10
def TMB_PTPn_ASYM (n : Nat) : Nat := 0x30104 + n * 0x10
def TMB_PTPn_STAT (n : Nat) : Nat := 0x30108 + n * 0x10
def TMB_TPn_CFG (n : Nat) : Nat := 0x30200 + n * 0x20
def TMB_TPn_T0L (n : Nat) : Nat := 0x30204 + n * 0x20
def TMB_TPn_T0H (n : Nat) : Nat := 0x30208 + n * 0x20
def TMB_TPn_T0NS (n : Nat) : Nat := 0x3020C + n * 0x20
def TMB_TPn_PERL (n : Nat) : Nat := 0x30210 + n * 0x20
def TMB_TPn_PERH (n : Nat) : Nat := 0x30214 + n * 0x20
def TMB_TPn_WID (n : Nat) : Nat := 0x30218 + n * 0x20
def TMB_TPn_STAT (n : Nat) : Nat := 0x3021C + n * 0x20
def TMB_TCn_CFG (n : Nat) : Nat := 0x30300 + n * 0x20
def TMB_TCn_MTCL (n : Nat) : Nat := 0x30304 + n * 0x20
def TMB_TCn_MTCH (n : Nat) : Nat := 0x30308 + n * 0x20
def TMB_TCn_TSL (n : Nat) : Nat := 0x3030C + n * 0x20
def TMB_TCn_TSH (n : Nat) : Nat := 0x30310 + n * 0x20
def TMB_TCn_TNS (n : Nat) : Nat := 0x30314 + n * 0x20
def TMB_TCn_STAT (n : Nat) : Nat := 0x30318 + n * 0x20
def RTC_TIME : Nat := 0x40000
def RTC_WTIME : Nat := 0x40010
def RTC_DATE : Nat := 0x40004
def RTC_WDATE : Nat := 0x40014
def RTC_YEAR : Nat := 0x40008
def RTC_WYEAR : Nat := 0x40018
def RTC_SUBS : Nat := 0x4000C
def RTC_WCTL : Nat := 0x4001C
def RTC_SHIFT : Nat := 0x40020
def RTC_STATUS : Nat := 0x40024
def RTC_ALMn_TIME (n : Nat) : Nat := 0x40030 + n * 0x10
def RTC_ALMn_DATE (n : Nat) : Nat := 0x40034 + n * 0x10
def RTC_ALMn_CTL (n : Nat) : Nat := 0x40038 + n * 0x10
def RTC_TRIM : Nat := 0x40050
def RTC_CFG : Nat := 0x40054
def RTC_UTCOFS : Nat := 0x40058
def HRI_EP_CFG : Nat := 0xB0000
def HRI_STAT : Nat := 0xB0004
def HRI_SYS_CFG : Nat := 0xB0008
def HRI_SYS_STAT : Nat := 0xB000C
def HRI_AUTH_STAT : Nat := 0xB0010
def HRI_AUTH_VER : Nat := 0xB0014
def HRI_AUTH_CFG : Nat := 0xB0018
def HRI_NET_CFG : Nat := 0xB001C
def HRI_NETSTn (n : Nat) : Nat := 0xB0020 + n * 0x4
def HRI_CNT : Nat := 0xB0038
def HRI_CNT_CLR : Nat := 0xB003C
def HRI_RGn_BASEL (n : Nat) : Nat := 0xB1000 + n * 0x40
def HRI_RGn_BASEH (n : Nat) : Nat := 0xB1004 + n * 0x40
def HRI_RGn_CFG (n : Nat) : Nat := 0xB1008 + n * 0x40
def HRI_RGn_MOD (n : Nat) : Nat := 0xB100C + n * 0x40
def HRI_RGn_DBASEL (n : Nat) : Nat := 0xB1010 + n * 0x40
def HRI_RGn_DBASEH (n : Nat) : Nat := 0xB1014 + n * 0x40
def HRI_RGn_DSIZE (n : Nat) : Nat := 0xB1018 + n * 0x40
def HRI_RGn_PTR (n : Nat) : Nat := 0xB101C + n * 0x40
def HRI_RGn_HOST (n : Nat) : Nat := 0xB1020 + n * 0x40
def HRI_RGn_STAT (n : Nat) : Nat := 0xB1024 + n * 0x40
def MBC_Cn_CFG (n : Nat) : Nat := 0xD0000 + n * 0x20
def MBC_Cn_NBT (n : Nat) : Nat := 0xD0004 + n * 0x20
def MBC_Cn_DBT (n : Nat) : Nat := 0xD0008 + n * 0x20
def MBC_Cn_STAT (n : Nat) : Nat := 0xD000C + n * 0x20
def MBC_Cn_CNT0 (n : Nat) : Nat := 0xD0010 + n * 0x20
def MBC_Cn_CNT1 (n : Nat) : Nat := 0xD0014 + n * 0x20
def MBC_Cn_CTL (n : Nat) : Nat := 0xD0018 + n * 0x20
def MBC_JOY_CFG : Nat := 0xD0100
def MBC_JOY : Nat := 0xD0104
def MBC_OBJk_STAT (n : Nat) : Nat := 0xD1000 + n * 0x10
def MBC_OBJk_TS (n : Nat) : Nat := 0xD1004 + n * 0x10
def MBC_OBJk_ID (n : Nat) : Nat := 0xD1008 + n * 0x10
def MBC_OBJk_CTL (n : Nat) : Nat := 0xD100C + n * 0x10
def SER_Pn_CFG (n : Nat) : Nat := 0xE0000 + n * 0x10
def SER_Pn_STAT (n : Nat) : Nat := 0xE0004 + n * 0x10
def SER_Pn_CNT (n : Nat) : Nat := 0xE0008 + n * 0x10
def SER_NET_CFG : Nat := 0xE0100
def SER_CNT_CLR : Nat := 0xE0104
def SER_ITk_STAT (n : Nat) : Nat := 0xE0400 + n * 0x8
def SER_ITk_VAL (n : Nat) : Nat := 0xE0404 + n * 0x8
def SAF_STAT : Nat := 0xF0000
def SAF_CFG : Nat := 0xF0004
def SAF_CFG_IDL : Nat := 0xF0008
def SAF_CFG_IDH : Nat := 0xF000C
def SAF_CFG_REV : Nat := 0xF0010
def SAF_CFG_DIG : Nat := 0xF0014
def SAF_IN : Nat := 0xF0020
def SAF_OUT : Nat := 0xF0024
def SAF_FLT : Nat := 0xF0028
def SAF_CNT : Nat := 0xF002C
def SAF_FNn (n : Nat) : Nat := 0xF0040 + n * 0x4
def REC_CFG : Nat := 0x50000
def REC_STAT : Nat := 0x50004
def REC_SEQ : Nat := 0x50008
def REC_OVF : Nat := 0x5000C
def REC_OPSEC : Nat := 0x50010
def REC_PWRCYC : Nat := 0x50014
def REC_CNT : Nat := 0x50018
def REC_RDIDX : Nat := 0x50020
def REC_WINw (n : Nat) : Nat := 0x50040 + n * 0x4
def REC_CLR : Nat := 0x50060
def TND_STAT : Nat := 0x100000
def TND_ECC : Nat := 0x100004
def TND_DRAM : Nat := 0x100008
def TND_FLASH : Nat := 0x10000C
def TND_MRAM : Nat := 0x100010
def TND_CNT_CLR : Nat := 0x100014
def PWR_STAT : Nat := 0x20000
def PWR_CFG : Nat := 0x20004
def PWR_SUP : Nat := 0x20008
def PWR_BKP : Nat := 0x2000C
def PWR_CNT : Nat := 0x20010
def UPD_LCS : Nat := 0x110000
def UPD_DIGn (n : Nat) : Nat := 0x110004 + n * 0x4
def UPD_CMTn (n : Nat) : Nat := 0x110014 + n * 0x4
def UPD_SLOTn (n : Nat) : Nat := 0x110024 + n * 0x4
def UPD_KSLOTn (n : Nat) : Nat := 0x11002C + n * 0x4
def UPD_SEQ : Nat := 0x110034
def UPD_TL : Nat := 0x110038
def UPD_TH : Nat := 0x11003C
def JX_ID : Nat := 0x00000
def JX_REV : Nat := 0x00004
def JX_SNL : Nat := 0x00008
def JX_SNH : Nat := 0x0000C

def JX_CYC_PERIOD_period : Fld := ⟨0x00100, 0, 10, false⟩
def JX_CYC_PERIOD_xwin : Fld := ⟨0x00100, 16, 5, false⟩
def JX_CYC_MARK0_intake : Fld := ⟨0x00104, 0, 10, false⟩
def JX_CYC_MARK0_fusion : Fld := ⟨0x00104, 16, 10, false⟩
def JX_CYC_MARK1_assembly : Fld := ⟨0x00108, 0, 10, false⟩
def JX_CYC_MARK1_mirror : Fld := ⟨0x00108, 16, 10, false⟩
def JX_CYC_APPLY_apply : Fld := ⟨0x0010C, 0, 1, false⟩
def JX_CYC_STATUS_pending : Fld := ⟨0x00110, 0, 1, false⟩
def JX_CYC_STATUS_err : Fld := ⟨0x00110, 4, 4, false⟩
def JX_CYC_PHASE_phase : Fld := ⟨0x00114, 0, 32, false⟩
def JX_CYC_COUNT_count : Fld := ⟨0x00118, 0, 32, false⟩
def JX_PUBDLY_LAST_last : Fld := ⟨0x00130, 0, 20, true⟩
def JX_PUBDLY_MIN_min : Fld := ⟨0x00134, 0, 20, true⟩
def JX_PUBDLY_MIN_clr : Fld := ⟨0x00134, 31, 1, true⟩
def JX_PUBDLY_MAX_max : Fld := ⟨0x00138, 0, 20, true⟩
def JX_MODE_mode : Fld := ⟨0x00120, 0, 3, false⟩
def JX_MODE_warm : Fld := ⟨0x00120, 3, 1, false⟩
def JX_MODE_pmode : Fld := ⟨0x00120, 4, 3, false⟩
def JX_MODE_pend : Fld := ⟨0x00120, 7, 1, false⟩
def JX_MODE_pwarm : Fld := ⟨0x00120, 8, 1, false⟩
def JX_MODE_autojoy : Fld := ⟨0x00120, 9, 1, false⟩
def JX_MODE_since : Fld := ⟨0x00120, 16, 16, false⟩
def SLV_PKG_BANK_st0 : Fld := ⟨0x60200, 0, 3, true⟩
def SLV_PKG_BANK_st1 : Fld := ⟨0x60200, 4, 3, true⟩
def SLV_PKG_BANK_act : Fld := ⟨0x60200, 8, 1, true⟩
def SLV_PKG_BANK_cold : Fld := ⟨0x60200, 9, 1, true⟩
def SLV_PKG_BANK_verif : Fld := ⟨0x60200, 10, 1, true⟩
def SLV_PKG_BANK_err : Fld := ⟨0x60200, 16, 8, true⟩
def SLV_PKG_BANK_errbank : Fld := ⟨0x60200, 24, 1, true⟩
def SLV_PKGn_IDL_idl (n : Nat) : Fld := ⟨0x60210 + n * 0x10, 0, 32, true⟩
def SLV_PKGn_IDH_idh (n : Nat) : Fld := ⟨0x60214 + n * 0x10, 0, 32, true⟩
def SLV_PKGn_REV_rev (n : Nat) : Fld := ⟨0x60218 + n * 0x10, 0, 32, true⟩
def SLV_PKGn_DIG_dig (n : Nat) : Fld := ⟨0x6021C + n * 0x10, 0, 32, true⟩
def SLV_PKG_KEY_en0 : Fld := ⟨0x60240, 0, 1, false⟩
def SLV_PKG_KEY_en1 : Fld := ⟨0x60240, 1, 1, false⟩
def SLV_PKG_KEYnID_id (n : Nat) : Fld := ⟨0x60244 + n * 0x4, 0, 32, false⟩
def SLV_ASM_STAT_steps : Fld := ⟨0x60250, 0, 24, true⟩
def SLV_ASM_STAT_fault : Fld := ⟨0x60250, 24, 4, true⟩
def SLV_ASM_TIME_last : Fld := ⟨0x60254, 0, 16, true⟩
def SLV_ASM_DIAG_code : Fld := ⟨0x60258, 0, 16, true⟩
def SLV_ASM_DIAG_count : Fld := ⟨0x60258, 16, 16, true⟩
def SLV_DEADLINE_deadline : Fld := ⟨0x60000, 0, 10, false⟩
def SLV_ITCAP_itcap : Fld := ⟨0x60004, 0, 6, false⟩
def SLV_PIVLIM_pivlim : Fld := ⟨0x60008, 0, 16, false⟩
def SLV_SHIFTMAX_shiftmax : Fld := ⟨0x6000C, 0, 8, false⟩
def SLV_ACCEPT_accept : Fld := ⟨0x60010, 0, 32, false⟩
def SLV_TOLP_tolp : Fld := ⟨0x60014, 0, 32, false⟩
def SLV_TOLD_told : Fld := ⟨0x60018, 0, 32, false⟩
def SLV_TOLMU_tolmu : Fld := ⟨0x6001C, 0, 32, false⟩
def SLV_REG_rp : Fld := ⟨0x60020, 0, 6, false⟩
def SLV_REG_rd : Fld := ⟨0x60020, 8, 6, false⟩
def SLV_OUT_STAT_code : Fld := ⟨0x60040, 0, 3, true⟩
def SLV_OUT_STAT_iters : Fld := ⟨0x60040, 4, 6, true⟩
def SLV_OUT_STAT_repl : Fld := ⟨0x60040, 10, 1, true⟩
def SLV_OUT_STAT_illc : Fld := ⟨0x60040, 11, 1, true⟩
def SLV_OUT_STAT_retry : Fld := ⟨0x60040, 12, 1, true⟩
def SLV_OUT_STAT_itfail : Fld := ⟨0x60040, 13, 1, true⟩
def SLV_OUT_STAT_late : Fld := ⟨0x60040, 14, 1, true⟩
def SLV_OUT_STAT_cold : Fld := ⟨0x60040, 15, 1, true⟩
def SLV_OUT_STAT_shviol : Fld := ⟨0x60040, 16, 1, true⟩
def SLV_OUT_STAT_asmf : Fld := ⟨0x60040, 17, 1, true⟩
def SLV_OUT_STAT_noshift : Fld := ⟨0x60040, 18, 1, true⟩
def SLV_OUT_STAT_rej : Fld := ⟨0x60040, 19, 1, true⟩
def SLV_OUT_STAT_mfault : Fld := ⟨0x60040, 20, 1, true⟩
def SLV_OUT_STAT_tkov : Fld := ⟨0x60040, 21, 1, true⟩
def SLV_OUT_STAT_shcnt : Fld := ⟨0x60040, 24, 8, true⟩
def SLV_NUM_STAT_repl : Fld := ⟨0x60044, 0, 16, true⟩
def SLV_NUM_STAT_inert : Fld := ⟨0x60044, 16, 8, true⟩
def SLV_NUM_STAT_rsteps : Fld := ⟨0x60044, 24, 4, true⟩
def SLV_NUM_STAT_retries : Fld := ⟨0x60044, 28, 4, true⟩
def SLV_SOLVE_T0_t0 : Fld := ⟨0x60048, 0, 20, true⟩
def SLV_SOLVE_T1_t1 : Fld := ⟨0x6004C, 0, 20, true⟩
def SLV_RESID_rp : Fld := ⟨0x60050, 0, 32, true⟩
def SLV_MU_mu : Fld := ⟨0x60054, 0, 32, true⟩
def SLV_CNT0_fallback : Fld := ⟨0x60058, 0, 16, true⟩
def SLV_CNT0_retry : Fld := ⟨0x60058, 16, 16, true⟩
def SLV_CNT1_itfail : Fld := ⟨0x6005C, 0, 16, true⟩
def SLV_CNT1_exhaust : Fld := ⟨0x6005C, 16, 16, true⟩
def SLV_CNT_CLR_clr : Fld := ⟨0x60060, 0, 1, true⟩
def SLV_TPL_STAT_hls : Fld := ⟨0x60070, 0, 1, true⟩
def SLV_TPL_STAT_hlsclip : Fld := ⟨0x60070, 1, 1, true⟩
def SLV_TPL_STAT_nosafe : Fld := ⟨0x60070, 2, 1, true⟩
def SLV_TPL_STAT_stale : Fld := ⟨0x60070, 3, 1, true⟩
def SLV_TPL_STAT_hlscyc : Fld := ⟨0x60070, 8, 8, true⟩
def SLV_TPL_STAT_red : Fld := ⟨0x60070, 16, 8, true⟩
def SLV_TPL_STAT_amb : Fld := ⟨0x60070, 24, 8, true⟩
def SLV_TPL_CFG_amber : Fld := ⟨0x60078, 0, 8, false⟩
def FUS_CFG_cell : Fld := ⟨0x70000, 0, 3, false⟩
def FUS_CFG_drmax : Fld := ⟨0x70000, 4, 7, false⟩
def FUS_CFG_uphold : Fld := ⟨0x70000, 12, 4, false⟩
def FUS_CFG_refage : Fld := ⟨0x70000, 16, 8, false⟩
def FUS_STAT_grade : Fld := ⟨0x70010, 0, 3, true⟩
def FUS_STAT_off : Fld := ⟨0x70010, 3, 1, true⟩
def FUS_STAT_late : Fld := ⟨0x70010, 4, 1, true⟩
def FUS_STAT_tkcap : Fld := ⟨0x70010, 5, 1, true⟩
def FUS_STAT_suspect : Fld := ⟨0x70010, 6, 1, true⟩
def FUS_STAT_mirr : Fld := ⟨0x70010, 7, 1, true⟩
def FUS_STAT_nagree : Fld := ⟨0x70010, 8, 4, true⟩
def FUS_STAT_trust : Fld := ⟨0x70010, 12, 4, true⟩
def FUS_STAT_trusten : Fld := ⟨0x70010, 16, 1, true⟩
def FUS_STAT_ego : Fld := ⟨0x70010, 17, 1, true⟩
def FUS_STAT_nohdg : Fld := ⟨0x70010, 18, 1, true⟩
def FUS_STAT_datum : Fld := ⟨0x70010, 19, 1, true⟩
def FUS_STAT_prov : Fld := ⟨0x70010, 20, 1, true⟩
def FUS_STAT_drtime : Fld := ⟨0x70010, 24, 8, true⟩
def FUS_REG_score : Fld := ⟨0x70030, 0, 16, true⟩
def FUS_REG_ratio : Fld := ⟨0x70030, 16, 16, true⟩
def FUS_CNT_late : Fld := ⟨0x70034, 0, 16, true⟩
def FUS_CNT_regfail : Fld := ⟨0x70034, 16, 16, true⟩
def FUS_CNT_CLR_clr : Fld := ⟨0x70038, 0, 1, true⟩
def FUS_REFn_state (n : Nat) : Fld := ⟨0x70040 + n * 0x4, 0, 3, true⟩
def FUS_REFn_group (n : Nat) : Fld := ⟨0x70040 + n * 0x4, 4, 4, true⟩
def FUS_REFn_trusted (n : Nat) : Fld := ⟨0x70040 + n * 0x4, 8, 1, true⟩
def FUS_REFn_rejcnt (n : Nat) : Fld := ⟨0x70040 + n * 0x4, 16, 16, true⟩
def FUS_STRn_STAT_state (n : Nat) : Fld := ⟨0x70080 + n * 0x10, 0, 3, true⟩
def FUS_STRn_STAT_dw (n : Nat) : Fld := ⟨0x70080 + n * 0x10, 3, 1, true⟩
def FUS_STRn_STAT_clk (n : Nat) : Fld := ⟨0x70080 + n * 0x10, 4, 1, true⟩
def FUS_STRn_STAT_jit (n : Nat) : Fld := ⟨0x70080 + n * 0x10, 16, 16, true⟩
def FUS_STRn_OFS_ofs (n : Nat) : Fld := ⟨0x70084 + n * 0x10, 0, 32, true⟩
def FUS_STRn_ERR_late (n : Nat) : Fld := ⟨0x70088 + n * 0x10, 0, 16, true⟩
def FUS_STRn_ERR_stale (n : Nat) : Fld := ⟨0x70088 + n * 0x10, 16, 16, true⟩
def FUS_NPKG_BANK_st0 : Fld := ⟨0x70200, 0, 3, true⟩
def FUS_NPKG_BANK_st1 : Fld := ⟨0x70200, 4, 3, true⟩
def FUS_NPKG_BANK_act : Fld := ⟨0x70200, 8, 1, true⟩
def FUS_NPKG_BANK_verif : Fld := ⟨0x70200, 10, 1, true⟩
def FUS_NPKG_BANK_err : Fld := ⟨0x70200, 16, 8, true⟩
def FUS_NPKG_BANK_errbank : Fld := ⟨0x70200, 24, 1, true⟩
def GNB_CFG_sys : Fld := ⟨0x80000, 0, 4, false⟩
def GNB_CFG_auto : Fld := ⟨0x80000, 4, 1, false⟩
def GNB_CFG_isb : Fld := ⟨0x80000, 5, 2, false⟩
def GNB_CFG_elev : Fld := ⟨0x80000, 8, 8, false⟩
def GNB_IFn_CFG_en (n : Nat) : Fld := ⟨0x80010 + n * 0x10, 0, 1, false⟩
def GNB_IFn_CFG_rate (n : Nat) : Fld := ⟨0x80010 + n * 0x10, 1, 2, false⟩
def GNB_IFn_CFG_fmt (n : Nat) : Fld := ⟨0x80010 + n * 0x10, 3, 1, false⟩
def GNB_IFn_CFG_inv (n : Nat) : Fld := ⟨0x80010 + n * 0x10, 4, 1, false⟩
def GNB_IFn_RFC_rfc (n : Nat) : Fld := ⟨0x80014 + n * 0x10, 0, 32, false⟩
def GNB_IFn_DLY_dly (n : Nat) : Fld := ⟨0x80018 + n * 0x10, 0, 16, false⟩
def GNB_IFn_STAT_act (n : Nat) : Fld := ⟨0x8001C + n * 0x10, 0, 1, true⟩
def GNB_IFn_STAT_fault (n : Nat) : Fld := ⟨0x8001C + n * 0x10, 1, 1, true⟩
def GNB_IFn_STAT_outer (n : Nat) : Fld := ⟨0x8001C + n * 0x10, 8, 8, true⟩
def GNB_IFn_STAT_ntrk (n : Nat) : Fld := ⟨0x8001C + n * 0x10, 16, 8, true⟩
def GNB_SNAP_len : Fld := ⟨0x80050, 0, 7, false⟩
def GNB_SNAP_intv : Fld := ⟨0x80050, 8, 12, false⟩
def GNB_SNAP_ports : Fld := ⟨0x80050, 24, 4, false⟩
def GNB_STAT_ntrk : Fld := ⟨0x80060, 0, 8, true⟩
def GNB_STAT_nused : Fld := ⟨0x80060, 8, 6, true⟩
def GNB_STAT_fix : Fld := ⟨0x80060, 14, 2, true⟩
def GNB_STAT_hdg : Fld := ⟨0x80060, 16, 1, true⟩
def GNB_STAT_clksw : Fld := ⟨0x80060, 17, 1, true⟩
def GNB_STAT_snap : Fld := ⟨0x80060, 18, 1, true⟩
def GNB_CNT_acqfail : Fld := ⟨0x80064, 0, 12, true⟩
def GNB_CNT_snapskip : Fld := ⟨0x80064, 12, 4, true⟩
def GNB_CNT_slip : Fld := ⟨0x80064, 16, 16, true⟩
def GNB_CNT_CLR_clr : Fld := ⟨0x80068, 0, 1, true⟩
def GNB_CHn_STAT_state (n : Nat) : Fld := ⟨0x80400 + n * 0x4, 0, 3, true⟩
def GNB_CHn_STAT_pin (n : Nat) : Fld := ⟨0x80400 + n * 0x4, 3, 1, true⟩
def GNB_CHn_STAT_sig (n : Nat) : Fld := ⟨0x80400 + n * 0x4, 4, 4, true⟩
def GNB_CHn_STAT_sat (n : Nat) : Fld := ⟨0x80400 + n * 0x4, 8, 6, true⟩
def GNB_CHn_STAT_cn0 (n : Nat) : Fld := ⟨0x80400 + n * 0x4, 24, 8, true⟩
def MET_CFG_intv : Fld := ⟨0x90000, 0, 12, false⟩
def MET_CFG_fnom : Fld := ⟨0x90000, 12, 1, false⟩
def MET_STAT_ldr : Fld := ⟨0x90004, 0, 1, true⟩
def MET_STAT_rstold : Fld := ⟨0x90004, 1, 1, true⟩
def MET_STAT_rstfail : Fld := ⟨0x90004, 2, 1, true⟩
def MET_STAT_freq : Fld := ⟨0x90004, 3, 1, true⟩
def MET_CNT_badfr : Fld := ⟨0x90008, 0, 16, true⟩
def MET_CNT_gaps : Fld := ⟨0x90008, 16, 16, true⟩
def MET_CNT_CLR_clr : Fld := ⟨0x9000C, 0, 1, true⟩
def MET_APn_CFG_en (n : Nat) : Fld := ⟨0x90100 + n * 0x10, 0, 1, false⟩
def MET_APn_CFG_lat (n : Nat) : Fld := ⟨0x90100 + n * 0x10, 1, 8, false⟩
def MET_APn_STAT_state (n : Nat) : Fld := ⟨0x90104 + n * 0x10, 0, 2, true⟩
def MET_APn_STAT_status (n : Nat) : Fld := ⟨0x90104 + n * 0x10, 8, 8, true⟩
def MET_APn_STAT_temp (n : Nat) : Fld := ⟨0x90104 + n * 0x10, 16, 8, true⟩
def MET_APn_STAT_idv (n : Nat) : Fld := ⟨0x90104 + n * 0x10, 24, 1, true⟩
def MET_APn_ERR_badfr (n : Nat) : Fld := ⟨0x90108 + n * 0x10, 0, 16, true⟩
def MET_APn_ERR_unlk (n : Nat) : Fld := ⟨0x90108 + n * 0x10, 16, 8, true⟩
def MET_APn_ERR_hflt (n : Nat) : Fld := ⟨0x90108 + n * 0x10, 24, 8, true⟩
def MET_APn_IDL_idl (n : Nat) : Fld := ⟨0x90300 + n * 0x8, 0, 32, true⟩
def MET_APn_IDH_idh (n : Nat) : Fld := ⟨0x90304 + n * 0x8, 0, 32, true⟩
def MET_CHn_CFG_type (n : Nat) : Fld := ⟨0x90400 + n * 0x4, 0, 2, false⟩
def MET_CHn_CFG_en (n : Nat) : Fld := ⟨0x90400 + n * 0x4, 2, 1, false⟩
def MET_CHn_CFG_fc (n : Nat) : Fld := ⟨0x90400 + n * 0x4, 4, 4, false⟩
def MET_CHn_CFG_g (n : Nat) : Fld := ⟨0x90400 + n * 0x4, 8, 8, false⟩
def MET_CHn_STAT_valid (n : Nat) : Fld := ⟨0x90800 + n * 0x4, 0, 1, true⟩
def MET_CHn_STAT_sel (n : Nat) : Fld := ⟨0x90800 + n * 0x4, 1, 1, true⟩
def MET_CHn_STAT_ovl (n : Nat) : Fld := ⟨0x90800 + n * 0x4, 2, 1, true⟩
def MET_CHn_STAT_clip (n : Nat) : Fld := ⟨0x90800 + n * 0x4, 3, 1, true⟩
def MET_CHn_STAT_calf (n : Nat) : Fld := ⟨0x90800 + n * 0x4, 4, 1, true⟩
def MET_CHn_STAT_subst (n : Nat) : Fld := ⟨0x90800 + n * 0x4, 5, 1, true⟩
def MET_CHn_STAT_clipcnt (n : Nat) : Fld := ⟨0x90800 + n * 0x4, 16, 16, true⟩
def MET_PTn_CFG_kind (n : Nat) : Fld := ⟨0x90C00 + n * 0x8, 0, 3, false⟩
def MET_PTn_CFG_iq (n : Nat) : Fld := ⟨0x90C00 + n * 0x8, 4, 4, false⟩
def MET_PTn_STAT_valid (n : Nat) : Fld := ⟨0x90C04 + n * 0x8, 0, 1, true⟩
def MET_PTn_STAT_gap (n : Nat) : Fld := ⟨0x90C04 + n * 0x8, 1, 1, true⟩
def MET_PTn_STAT_iwrap (n : Nat) : Fld := ⟨0x90C04 + n * 0x8, 2, 1, true⟩
def MET_PTn_STAT_ilate (n : Nat) : Fld := ⟨0x90C04 + n * 0x8, 3, 1, true⟩
def MET_PTn_STAT_subst (n : Nat) : Fld := ⟨0x90C04 + n * 0x8, 4, 1, true⟩
def MET_PTn_STAT_wrapev (n : Nat) : Fld := ⟨0x90C04 + n * 0x8, 5, 1, true⟩
def MET_PTn_STAT_gaps (n : Nat) : Fld := ⟨0x90C04 + n * 0x8, 16, 16, true⟩
def MET_PTn_IDLT_idlt (n : Nat) : Fld := ⟨0x91400 + n * 0x4, 0, 32, true⟩
def MET_SNAP_CTL_pt : Fld := ⟨0x91000, 0, 7, true⟩
def MET_SNAP_CTL_go : Fld := ⟨0x91000, 8, 1, true⟩
def MET_SNAP_CTL_busy : Fld := ⟨0x91000, 9, 1, true⟩
def MET_SNAP_CTL_inv : Fld := ⟨0x91000, 10, 1, true⟩
def MET_SNAP_MTCL_mtcl : Fld := ⟨0x91004, 0, 32, true⟩
def MET_SNAP_MTCH_mtch : Fld := ⟨0x91008, 0, 32, true⟩
def MET_POn_CFG_pt (n : Nat) : Fld := ⟨0x91200 + n * 0x10, 0, 7, false⟩
def MET_POn_CFG_pol (n : Nat) : Fld := ⟨0x91200 + n * 0x10, 7, 1, false⟩
def MET_POn_CFG_q (n : Nat) : Fld := ⟨0x91200 + n * 0x10, 8, 4, false⟩
def MET_POn_CFG_en (n : Nat) : Fld := ⟨0x91200 + n * 0x10, 12, 1, false⟩
def MET_POn_CFG_w (n : Nat) : Fld := ⟨0x91200 + n * 0x10, 16, 8, false⟩
def MET_POn_K_k (n : Nat) : Fld := ⟨0x91204 + n * 0x10, 0, 32, false⟩
def MET_POn_STAT_level (n : Nat) : Fld := ⟨0x91208 + n * 0x10, 0, 1, true⟩
def MET_POn_STAT_backlog (n : Nat) : Fld := ⟨0x91208 + n * 0x10, 1, 1, true⟩
def MET_POn_STAT_shadow (n : Nat) : Fld := ⟨0x91208 + n * 0x10, 2, 1, true⟩
def MET_POn_OWED_owed (n : Nat) : Fld := ⟨0x9120C + n * 0x10, 0, 32, true⟩
def LPE_STAT_load : Fld := ⟨0xA0000, 0, 10, true⟩
def LPE_STAT_nslot : Fld := ⟨0xA0000, 10, 9, true⟩
def LPE_STAT_run : Fld := ⟨0xA0000, 19, 1, true⟩
def LPE_STAT_shadow : Fld := ⟨0xA0000, 20, 1, true⟩
def LPE_CNT_ovr : Fld := ⟨0xA0004, 0, 16, true⟩
def LPE_CNT_hold : Fld := ⟨0xA0004, 16, 16, true⟩
def LPE_CNT_CLR_clr : Fld := ⟨0xA0008, 0, 1, true⟩
def LPE_ERR_err : Fld := ⟨0xA000C, 0, 8, true⟩
def LPE_ERR_slot : Fld := ⟨0xA000C, 8, 8, true⟩
def LPE_SLn_STAT_mode (n : Nat) : Fld := ⟨0xA1000 + n * 0x10, 0, 3, true⟩
def LPE_SLn_STAT_law (n : Nat) : Fld := ⟨0xA1000 + n * 0x10, 3, 2, true⟩
def LPE_SLn_STAT_bank (n : Nat) : Fld := ⟨0xA1000 + n * 0x10, 5, 1, true⟩
def LPE_SLn_STAT_pend (n : Nat) : Fld := ⟨0xA1000 + n * 0x10, 6, 1, true⟩
def LPE_SLn_STAT_hi (n : Nat) : Fld := ⟨0xA1000 + n * 0x10, 7, 1, true⟩
def LPE_SLn_STAT_lo (n : Nat) : Fld := ⟨0xA1000 + n * 0x10, 8, 1, true⟩
def LPE_SLn_STAT_rlim (n : Nat) : Fld := ⟨0xA1000 + n * 0x10, 9, 1, true⟩
def LPE_SLn_STAT_spst (n : Nat) : Fld := ⟨0xA1000 + n * 0x10, 10, 1, true⟩
def LPE_SLn_STAT_nonf (n : Nat) : Fld := ⟨0xA1000 + n * 0x10, 11, 1, true⟩
def LPE_SLn_STAT_shadow (n : Nat) : Fld := ⟨0xA1000 + n * 0x10, 12, 1, true⟩
def LPE_SLn_STAT_ovr (n : Nat) : Fld := ⟨0xA1000 + n * 0x10, 16, 16, true⟩
def LPE_SLn_DLY_last (n : Nat) : Fld := ⟨0xA1004 + n * 0x10, 0, 16, true⟩
def LPE_SLn_DLY_max (n : Nat) : Fld := ⟨0xA1004 + n * 0x10, 16, 16, true⟩
def LPE_SLn_OUT_u (n : Nat) : Fld := ⟨0xA1008 + n * 0x10, 0, 32, true⟩
def LPE_TRCn_CFG_slot (n : Nat) : Fld := ⟨0xA0100 + n * 0x4, 0, 8, true⟩
def LPE_TRCn_CFG_node (n : Nat) : Fld := ⟨0xA0100 + n * 0x4, 8, 4, true⟩
def LPE_TRCn_CFG_en (n : Nat) : Fld := ⟨0xA0100 + n * 0x4, 12, 1, true⟩
def LPE_TRCn_CFG_dec (n : Nat) : Fld := ⟨0xA0100 + n * 0x4, 16, 8, true⟩
def LPE_TRC_TRIG_slot : Fld := ⟨0xA0120, 0, 8, true⟩
def LPE_TRC_TRIG_node : Fld := ⟨0xA0120, 8, 4, true⟩
def LPE_TRC_TRIG_kind : Fld := ⟨0xA0120, 12, 3, true⟩
def LPE_TRC_TRIG_pre : Fld := ⟨0xA0120, 16, 14, true⟩
def LPE_TRC_LVL_lvl : Fld := ⟨0xA0124, 0, 32, true⟩
def LPE_TRC_CTL_arm : Fld := ⟨0xA0128, 0, 1, true⟩
def LPE_TRC_CTL_abort : Fld := ⟨0xA0128, 1, 1, true⟩
def LPE_TRC_STAT_state : Fld := ⟨0xA012C, 0, 2, true⟩
def LPE_TRC_STAT_count : Fld := ⟨0xA012C, 2, 15, true⟩
def KPR_STAT_act : Fld := ⟨0x10000, 0, 1, false⟩
def KPR_STAT_aadm : Fld := ⟨0x10000, 1, 1, false⟩
def KPR_STAT_badm : Fld := ⟨0x10000, 2, 1, false⟩
def KPR_STAT_ablk : Fld := ⟨0x10000, 3, 1, false⟩
def KPR_STAT_bblk : Fld := ⟨0x10000, 4, 1, false⟩
def KPR_STAT_nolane : Fld := ⟨0x10000, 5, 1, false⟩
def KPR_STAT_mirok : Fld := ⟨0x10000, 6, 1, false⟩
def KPR_STAT_swp : Fld := ⟨0x10000, 7, 1, false⟩
def KPR_STAT_cause : Fld := ⟨0x10000, 8, 8, false⟩
def KPR_CFG_loopb : Fld := ⟨0x10004, 0, 8, false⟩
def KPR_CFG_hold : Fld := ⟨0x10004, 8, 1, false⟩
def KPR_CFG_pref : Fld := ⟨0x10004, 9, 1, false⟩
def KPR_CFG_metb : Fld := ⟨0x10004, 16, 16, false⟩
def KPR_HLTHA_seq : Fld := ⟨0x10010, 0, 16, false⟩
def KPR_HLTHA_health : Fld := ⟨0x10010, 16, 16, false⟩
def KPR_HLTHB_seq : Fld := ⟨0x10014, 0, 16, false⟩
def KPR_HLTHB_health : Fld := ⟨0x10014, 16, 16, false⟩
def KPR_CNT0_miss : Fld := ⟨0x10020, 0, 16, false⟩
def KPR_CNT0_cmp : Fld := ⟨0x10020, 16, 16, false⟩
def KPR_CNT1_takeov : Fld := ⟨0x10024, 0, 8, false⟩
def KPR_CNT1_mirmiss : Fld := ⟨0x10024, 8, 8, false⟩
def KPR_CNT1_mtcx : Fld := ⟨0x10024, 16, 16, false⟩
def KPR_MTCD_d : Fld := ⟨0x10028, 0, 16, false⟩
def KPR_CNT_CLR_clr : Fld := ⟨0x1002C, 0, 1, false⟩
def NET_RING_CFG_num : Fld := ⟨0xC0100, 0, 10, false⟩
def NET_RING_CFG_prio : Fld := ⟨0xC0100, 12, 4, false⟩
def NET_RING_CFG_en : Fld := ⟨0xC0100, 16, 1, false⟩
def NET_RING_CFG_role : Fld := ⟨0xC0100, 17, 2, false⟩
def NET_RING_PEER_partner : Fld := ⟨0xC0104, 0, 10, false⟩
def NET_RING_PEER_arb : Fld := ⟨0xC0104, 16, 10, false⟩
def NET_RING_STAT_wa : Fld := ⟨0xC0108, 0, 1, false⟩
def NET_RING_STAT_wb : Fld := ⟨0xC0108, 1, 1, false⟩
def NET_RING_STAT_closed : Fld := ⟨0xC0108, 2, 1, false⟩
def NET_RING_STAT_master : Fld := ⟨0xC0108, 3, 1, false⟩
def NET_RING_STAT_granted : Fld := ⟨0xC0108, 4, 1, false⟩
def NET_RING_STAT_mnum : Fld := ⟨0xC0108, 16, 10, false⟩
def NET_RING_RTT_rtt : Fld := ⟨0xC010C, 0, 16, false⟩
def NET_RING_RTT_nmod : Fld := ⟨0xC010C, 16, 10, false⟩
def NET_RING_CNT_hdr : Fld := ⟨0xC0110, 0, 16, false⟩
def NET_RING_CNT_gap : Fld := ⟨0xC0110, 16, 16, false⟩
def NET_PRP_CNT_wlan : Fld := ⟨0xC0200, 0, 16, false⟩
def NET_PRP_CNT_miss : Fld := ⟨0xC0200, 16, 16, false⟩
def TMB_CFG_srcsel : Fld := ⟨0x30000, 0, 2, false⟩
def TMB_CFG_policy : Fld := ⟨0x30000, 2, 1, false⟩
def TMB_CFG_slew : Fld := ⟨0x30000, 3, 8, false⟩
def TMB_CFG_maxstep : Fld := ⟨0x30000, 11, 8, false⟩
def TMB_CTL_accept : Fld := ⟨0x30004, 0, 1, true⟩
def TMB_STAT_state : Fld := ⟨0x30008, 0, 2, true⟩
def TMB_STAT_src : Fld := ⟨0x30008, 2, 4, true⟩
def TMB_STAT_slew : Fld := ⟨0x30008, 6, 1, true⟩
def TMB_STAT_steppend : Fld := ⟨0x30008, 7, 1, true⟩
def TMB_STAT_big : Fld := ⟨0x30008, 8, 1, true⟩
def TMB_STAT_aln : Fld := ⟨0x30008, 9, 1, true⟩
def TMB_STAT_hsec : Fld := ⟨0x30008, 16, 16, true⟩
def TMB_MTCL_mtcl : Fld := ⟨0x30010, 0, 32, true⟩
def TMB_MTCH_mtch : Fld := ⟨0x30014, 0, 32, true⟩
def TMB_LTSL_s : Fld := ⟨0x30018, 0, 32, true⟩
def TMB_LTSH_s : Fld := ⟨0x3001C, 0, 32, true⟩
def TMB_LTNS_ns : Fld := ⟨0x30020, 0, 30, true⟩
def TMB_THETA_theta : Fld := ⟨0x30024, 0, 32, true⟩
def TMB_RATEL_rate : Fld := ⟨0x30028, 0, 32, true⟩
def TMB_RATEH_rate : Fld := ⟨0x3002C, 0, 32, true⟩
def TMB_CNT_steps : Fld := ⟨0x30030, 0, 8, true⟩
def TMB_CNT_holds : Fld := ⟨0x30030, 8, 8, true⟩
def TMB_CNT_rlim : Fld := ⟨0x30030, 16, 16, true⟩
def TMB_CNT_CLR_clr : Fld := ⟨0x30034, 0, 1, true⟩
def TMB_PTPn_CFG_en (n : Nat) : Fld := ⟨0x30100 + n * 0x10, 0, 1, false⟩
def TMB_PTPn_CFG_prof (n : Nat) : Fld := ⟨0x30100 + n * 0x10, 1, 2, false⟩
def TMB_PTPn_CFG_udp (n : Nat) : Fld := ⟨0x30100 + n * 0x10, 3, 1, false⟩
def TMB_PTPn_CFG_dom (n : Nat) : Fld := ⟨0x30100 + n * 0x10, 4, 8, false⟩
def TMB_PTPn_CFG_mo (n : Nat) : Fld := ⟨0x30100 + n * 0x10, 12, 1, false⟩
def TMB_PTPn_ASYM_asym (n : Nat) : Fld := ⟨0x30104 + n * 0x10, 0, 32, false⟩
def TMB_PTPn_STAT_pst (n : Nat) : Fld := ⟨0x30108 + n * 0x10, 0, 4, true⟩
def TMB_PTPn_STAT_mpd (n : Nat) : Fld := ⟨0x30108 + n * 0x10, 8, 24, true⟩
def TMB_TPn_CFG_mode (n : Nat) : Fld := ⟨0x30200 + n * 0x20, 0, 2, false⟩
def TMB_TPn_CFG_pol (n : Nat) : Fld := ⟨0x30200 + n * 0x20, 2, 1, false⟩
def TMB_TPn_CFG_free (n : Nat) : Fld := ⟨0x30200 + n * 0x20, 3, 1, false⟩
def TMB_TPn_T0L_s (n : Nat) : Fld := ⟨0x30204 + n * 0x20, 0, 32, false⟩
def TMB_TPn_T0H_s (n : Nat) : Fld := ⟨0x30208 + n * 0x20, 0, 32, false⟩
def TMB_TPn_T0NS_ns (n : Nat) : Fld := ⟨0x3020C + n * 0x20, 0, 30, false⟩
def TMB_TPn_PERL_per (n : Nat) : Fld := ⟨0x30210 + n * 0x20, 0, 32, false⟩
def TMB_TPn_PERH_per (n : Nat) : Fld := ⟨0x30214 + n * 0x20, 0, 32, false⟩
def TMB_TPn_WID_w (n : Nat) : Fld := ⟨0x30218 + n * 0x20, 0, 30, false⟩
def TMB_TPn_STAT_level (n : Nat) : Fld := ⟨0x3021C + n * 0x20, 0, 1, true⟩
def TMB_TPn_STAT_run (n : Nat) : Fld := ⟨0x3021C + n * 0x20, 1, 1, true⟩
def TMB_TPn_STAT_late (n : Nat) : Fld := ⟨0x3021C + n * 0x20, 2, 1, true⟩
def TMB_TPn_STAT_shadow (n : Nat) : Fld := ⟨0x3021C + n * 0x20, 3, 1, true⟩
def TMB_TPn_STAT_owed (n : Nat) : Fld := ⟨0x3021C + n * 0x20, 4, 12, true⟩
def TMB_TPn_STAT_latecnt (n : Nat) : Fld := ⟨0x3021C + n * 0x20, 16, 16, true⟩
def TMB_TCn_CFG_edge (n : Nat) : Fld := ⟨0x30300 + n * 0x20, 0, 2, false⟩
def TMB_TCn_CFG_post (n : Nat) : Fld := ⟨0x30300 + n * 0x20, 2, 1, false⟩
def TMB_TCn_MTCL_v (n : Nat) : Fld := ⟨0x30304 + n * 0x20, 0, 32, true⟩
def TMB_TCn_MTCH_v (n : Nat) : Fld := ⟨0x30308 + n * 0x20, 0, 32, true⟩
def TMB_TCn_TSL_v (n : Nat) : Fld := ⟨0x3030C + n * 0x20, 0, 32, true⟩
def TMB_TCn_TSH_v (n : Nat) : Fld := ⟨0x30310 + n * 0x20, 0, 32, true⟩
def TMB_TCn_TNS_ns (n : Nat) : Fld := ⟨0x30314 + n * 0x20, 0, 30, true⟩
def TMB_TCn_TNS_rise (n : Nat) : Fld := ⟨0x30314 + n * 0x20, 30, 1, true⟩
def TMB_TCn_TNS_valid (n : Nat) : Fld := ⟨0x30314 + n * 0x20, 31, 1, true⟩
def TMB_TCn_STAT_cnt (n : Nat) : Fld := ⟨0x30318 + n * 0x20, 0, 5, true⟩
def TMB_TCn_STAT_ovf (n : Nat) : Fld := ⟨0x30318 + n * 0x20, 16, 16, true⟩
def RTC_TIME_sec : Fld := ⟨0x40000, 0, 7, false⟩
def RTC_TIME_min : Fld := ⟨0x40000, 8, 7, false⟩
def RTC_TIME_hour : Fld := ⟨0x40000, 16, 6, false⟩
def RTC_WTIME_sec : Fld := ⟨0x40010, 0, 7, false⟩
def RTC_WTIME_min : Fld := ⟨0x40010, 8, 7, false⟩
def RTC_WTIME_hour : Fld := ⟨0x40010, 16, 6, false⟩
def RTC_DATE_day : Fld := ⟨0x40004, 0, 6, false⟩
def RTC_DATE_mon : Fld := ⟨0x40004, 8, 5, false⟩
def RTC_DATE_wday : Fld := ⟨0x40004, 16, 3, false⟩
def RTC_WDATE_day : Fld := ⟨0x40014, 0, 6, false⟩
def RTC_WDATE_mon : Fld := ⟨0x40014, 8, 5, false⟩
def RTC_WDATE_wday : Fld := ⟨0x40014, 16, 3, false⟩
def RTC_YEAR_year : Fld := ⟨0x40008, 0, 16, false⟩
def RTC_WYEAR_year : Fld := ⟨0x40018, 0, 16, false⟩
def RTC_SUBS_subs : Fld := ⟨0x4000C, 0, 15, false⟩
def RTC_WCTL_set : Fld := ⟨0x4001C, 0, 1, false⟩
def RTC_SHIFT_n : Fld := ⟨0x40020, 0, 15, false⟩
def RTC_SHIFT_ret : Fld := ⟨0x40020, 15, 1, false⟩
def RTC_SHIFT_go : Fld := ⟨0x40020, 16, 1, false⟩
def RTC_SHIFT_busy : Fld := ⟨0x40020, 17, 1, false⟩
def RTC_STATUS_badwrite : Fld := ⟨0x40024, 0, 1, false⟩
def RTC_STATUS_oscfail : Fld := ⟨0x40024, 1, 1, false⟩
def RTC_STATUS_roll : Fld := ⟨0x40024, 2, 1, false⟩
def RTC_STATUS_a0 : Fld := ⟨0x40024, 3, 1, false⟩
def RTC_STATUS_a1 : Fld := ⟨0x40024, 4, 1, false⟩
def RTC_STATUS_a0late : Fld := ⟨0x40024, 5, 1, false⟩
def RTC_STATUS_a1late : Fld := ⟨0x40024, 6, 1, false⟩
def RTC_STATUS_trk : Fld := ⟨0x40024, 7, 1, false⟩
def RTC_ALMn_TIME_t (n : Nat) : Fld := ⟨0x40030 + n * 0x10, 0, 32, false⟩
def RTC_ALMn_DATE_day (n : Nat) : Fld := ⟨0x40034 + n * 0x10, 0, 6, false⟩
def RTC_ALMn_DATE_mon (n : Nat) : Fld := ⟨0x40034 + n * 0x10, 8, 5, false⟩
def RTC_ALMn_DATE_year (n : Nat) : Fld := ⟨0x40034 + n * 0x10, 16, 16, false⟩
def RTC_ALMn_CTL_en (n : Nat) : Fld := ⟨0x40038 + n * 0x10, 0, 1, false⟩
def RTC_ALMn_CTL_mask (n : Nat) : Fld := ⟨0x40038 + n * 0x10, 1, 6, false⟩
def RTC_ALMn_CTL_wake (n : Nat) : Fld := ⟨0x40038 + n * 0x10, 7, 1, false⟩
def RTC_ALMn_CTL_cross (n : Nat) : Fld := ⟨0x40038 + n * 0x10, 8, 8, false⟩
def RTC_TRIM_trim : Fld := ⟨0x40050, 0, 10, false⟩
def RTC_TRIM_temp : Fld := ⟨0x40050, 16, 8, false⟩
def RTC_CFG_track : Fld := ⟨0x40054, 0, 1, false⟩
def RTC_CFG_comp : Fld := ⟨0x40054, 1, 1, false⟩
def RTC_UTCOFS_ofs : Fld := ⟨0x40058, 0, 8, false⟩
def RTC_UTCOFS_valid : Fld := ⟨0x40058, 8, 1, false⟩
def HRI_EP_CFG_station : Fld := ⟨0xB0000, 0, 1, true⟩
def HRI_STAT_ready : Fld := ⟨0xB0004, 0, 1, true⟩
def HRI_STAT_lane : Fld := ⟨0xB0004, 1, 1, true⟩
def HRI_STAT_active : Fld := ⟨0xB0004, 2, 1, true⟩
def HRI_SYS_CFG_vec : Fld := ⟨0xB0008, 0, 6, true⟩
def HRI_SYS_STAT_role : Fld := ⟨0xB000C, 0, 1, true⟩
def HRI_SYS_STAT_kprlost : Fld := ⟨0xB000C, 1, 1, true⟩
def HRI_SYS_STAT_alarm : Fld := ⟨0xB000C, 2, 1, true⟩
def HRI_SYS_STAT_authreq : Fld := ⟨0xB000C, 3, 1, true⟩
def HRI_SYS_STAT_authchg : Fld := ⟨0xB000C, 4, 1, true⟩
def HRI_SYS_STAT_reject : Fld := ⟨0xB000C, 5, 1, true⟩
def HRI_SYS_STAT_ready : Fld := ⟨0xB000C, 6, 1, true⟩
def HRI_AUTH_STAT_holder : Fld := ⟨0xB0010, 0, 3, false⟩
def HRI_AUTH_STAT_hv : Fld := ⟨0xB0010, 3, 1, false⟩
def HRI_AUTH_STAT_xfer : Fld := ⟨0xB0010, 4, 1, false⟩
def HRI_AUTH_STAT_to : Fld := ⟨0xB0010, 5, 3, false⟩
def HRI_AUTH_STAT_req : Fld := ⟨0xB0010, 8, 1, false⟩
def HRI_AUTH_STAT_rqs : Fld := ⟨0xB0010, 9, 3, false⟩
def HRI_AUTH_STAT_xp : Fld := ⟨0xB0010, 12, 1, false⟩
def HRI_AUTH_VER_ver : Fld := ⟨0xB0014, 0, 32, false⟩
def HRI_AUTH_CFG_tmo : Fld := ⟨0xB0018, 0, 6, false⟩
def HRI_AUTH_CFG_sten : Fld := ⟨0xB0018, 8, 8, false⟩
def HRI_AUTH_CFG_xmax : Fld := ⟨0xB0018, 16, 8, false⟩
def HRI_NET_CFG_port : Fld := ⟨0xB001C, 0, 16, false⟩
def HRI_NETSTn_ip (n : Nat) : Fld := ⟨0xB0020 + n * 0x4, 0, 32, false⟩
def HRI_CNT_badbell : Fld := ⟨0xB0038, 0, 16, true⟩
def HRI_CNT_reject : Fld := ⟨0xB0038, 16, 16, true⟩
def HRI_CNT_CLR_clr : Fld := ⟨0xB003C, 0, 1, true⟩
def HRI_RGn_BASEL_base (n : Nat) : Fld := ⟨0xB1000 + n * 0x40, 6, 26, true⟩
def HRI_RGn_BASEH_base (n : Nat) : Fld := ⟨0xB1004 + n * 0x40, 0, 32, true⟩
def HRI_RGn_CFG_en (n : Nat) : Fld := ⟨0xB1008 + n * 0x40, 0, 1, true⟩
def HRI_RGn_CFG_kind (n : Nat) : Fld := ⟨0xB1008 + n * 0x40, 1, 2, true⟩
def HRI_RGn_CFG_lsz (n : Nat) : Fld := ⟨0xB1008 + n * 0x40, 4, 5, true⟩
def HRI_RGn_CFG_cring (n : Nat) : Fld := ⟨0xB1008 + n * 0x40, 9, 6, true⟩
def HRI_RGn_CFG_vec (n : Nat) : Fld := ⟨0xB1008 + n * 0x40, 16, 6, true⟩
def HRI_RGn_CFG_ie (n : Nat) : Fld := ⟨0xB1008 + n * 0x40, 22, 1, true⟩
def HRI_RGn_CFG_sclass (n : Nat) : Fld := ⟨0xB1008 + n * 0x40, 24, 8, true⟩
def HRI_RGn_MOD_cnt (n : Nat) : Fld := ⟨0xB100C + n * 0x40, 0, 8, true⟩
def HRI_RGn_MOD_usec (n : Nat) : Fld := ⟨0xB100C + n * 0x40, 8, 16, true⟩
def HRI_RGn_DBASEL_dbase (n : Nat) : Fld := ⟨0xB1010 + n * 0x40, 12, 20, true⟩
def HRI_RGn_DBASEH_dbase (n : Nat) : Fld := ⟨0xB1014 + n * 0x40, 0, 32, true⟩
def HRI_RGn_DSIZE_pages (n : Nat) : Fld := ⟨0xB1018 + n * 0x40, 0, 16, true⟩
def HRI_RGn_PTR_idx (n : Nat) : Fld := ⟨0xB101C + n * 0x40, 0, 16, true⟩
def HRI_RGn_PTR_ph (n : Nat) : Fld := ⟨0xB101C + n * 0x40, 16, 1, true⟩
def HRI_RGn_HOST_idx (n : Nat) : Fld := ⟨0xB1020 + n * 0x40, 0, 16, true⟩
def HRI_RGn_STAT_state (n : Nat) : Fld := ⟨0xB1024 + n * 0x40, 0, 2, true⟩
def HRI_RGn_STAT_err (n : Nat) : Fld := ⟨0xB1024 + n * 0x40, 4, 4, true⟩
def HRI_RGn_STAT_lost (n : Nat) : Fld := ⟨0xB1024 + n * 0x40, 16, 16, true⟩
def MBC_Cn_CFG_en (n : Nat) : Fld := ⟨0xD0000 + n * 0x20, 0, 1, false⟩
def MBC_Cn_CFG_fd (n : Nat) : Fld := ⟨0xD0000 + n * 0x20, 1, 1, false⟩
def MBC_Cn_CFG_tsmp (n : Nat) : Fld := ⟨0xD0000 + n * 0x20, 2, 1, false⟩
def MBC_Cn_CFG_autorec (n : Nat) : Fld := ⟨0xD0000 + n * 0x20, 3, 1, false⟩
def MBC_Cn_NBT_brp (n : Nat) : Fld := ⟨0xD0004 + n * 0x20, 0, 5, false⟩
def MBC_Cn_NBT_ts1 (n : Nat) : Fld := ⟨0xD0004 + n * 0x20, 5, 8, false⟩
def MBC_Cn_NBT_ts2 (n : Nat) : Fld := ⟨0xD0004 + n * 0x20, 13, 7, false⟩
def MBC_Cn_NBT_sjw (n : Nat) : Fld := ⟨0xD0004 + n * 0x20, 20, 7, false⟩
def MBC_Cn_DBT_brp (n : Nat) : Fld := ⟨0xD0008 + n * 0x20, 0, 5, false⟩
def MBC_Cn_DBT_ts1 (n : Nat) : Fld := ⟨0xD0008 + n * 0x20, 5, 5, false⟩
def MBC_Cn_DBT_ts2 (n : Nat) : Fld := ⟨0xD0008 + n * 0x20, 10, 4, false⟩
def MBC_Cn_DBT_sjw (n : Nat) : Fld := ⟨0xD0008 + n * 0x20, 14, 4, false⟩
def MBC_Cn_DBT_tdco (n : Nat) : Fld := ⟨0xD0008 + n * 0x20, 18, 7, false⟩
def MBC_Cn_STAT_state (n : Nat) : Fld := ⟨0xD000C + n * 0x20, 0, 2, false⟩
def MBC_Cn_STAT_tec (n : Nat) : Fld := ⟨0xD000C + n * 0x20, 8, 8, false⟩
def MBC_Cn_STAT_rec (n : Nat) : Fld := ⟨0xD000C + n * 0x20, 16, 8, false⟩
def MBC_Cn_STAT_cfgerr (n : Nat) : Fld := ⟨0xD000C + n * 0x20, 24, 4, false⟩
def MBC_Cn_CNT0_err (n : Nat) : Fld := ⟨0xD0010 + n * 0x20, 0, 16, false⟩
def MBC_Cn_CNT0_arbl (n : Nat) : Fld := ⟨0xD0010 + n * 0x20, 16, 16, false⟩
def MBC_Cn_CNT1_aband (n : Nat) : Fld := ⟨0xD0014 + n * 0x20, 0, 16, false⟩
def MBC_Cn_CNT1_busoff (n : Nat) : Fld := ⟨0xD0014 + n * 0x20, 16, 8, false⟩
def MBC_Cn_CNT1_ovr (n : Nat) : Fld := ⟨0xD0014 + n * 0x20, 24, 8, false⟩
def MBC_Cn_CTL_recover (n : Nat) : Fld := ⟨0xD0018 + n * 0x20, 0, 1, false⟩
def MBC_Cn_CTL_clr (n : Nat) : Fld := ⟨0xD0018 + n * 0x20, 1, 1, false⟩
def MBC_JOY_CFG_tmo : Fld := ⟨0xD0100, 0, 7, false⟩
def MBC_JOY_seq : Fld := ⟨0xD0104, 0, 8, false⟩
def MBC_JOY_code : Fld := ⟨0xD0104, 8, 8, false⟩
def MBC_JOY_dv : Fld := ⟨0xD0104, 16, 1, false⟩
def MBC_JOY_lost : Fld := ⟨0xD0104, 17, 1, false⟩
def MBC_JOY_rej : Fld := ⟨0xD0104, 24, 8, false⟩
def MBC_OBJk_STAT_kind (n : Nat) : Fld := ⟨0xD1000 + n * 0x10, 0, 3, false⟩
def MBC_OBJk_STAT_pend (n : Nat) : Fld := ⟨0xD1000 + n * 0x10, 3, 1, false⟩
def MBC_OBJk_STAT_new (n : Nat) : Fld := ⟨0xD1000 + n * 0x10, 4, 1, false⟩
def MBC_OBJk_STAT_ovr (n : Nat) : Fld := ⟨0xD1000 + n * 0x10, 5, 1, false⟩
def MBC_OBJk_STAT_aband (n : Nat) : Fld := ⟨0xD1000 + n * 0x10, 6, 1, false⟩
def MBC_OBJk_STAT_sat (n : Nat) : Fld := ⟨0xD1000 + n * 0x10, 7, 1, false⟩
def MBC_OBJk_STAT_skip (n : Nat) : Fld := ⟨0xD1000 + n * 0x10, 8, 1, false⟩
def MBC_OBJk_STAT_fdf (n : Nat) : Fld := ⟨0xD1000 + n * 0x10, 9, 1, false⟩
def MBC_OBJk_STAT_len (n : Nat) : Fld := ⟨0xD1000 + n * 0x10, 16, 7, false⟩
def MBC_OBJk_TS_ts (n : Nat) : Fld := ⟨0xD1004 + n * 0x10, 0, 32, false⟩
def MBC_OBJk_ID_id (n : Nat) : Fld := ⟨0xD1008 + n * 0x10, 0, 29, false⟩
def MBC_OBJk_ID_ide (n : Nat) : Fld := ⟨0xD1008 + n * 0x10, 29, 1, false⟩
def MBC_OBJk_CTL_txreq (n : Nat) : Fld := ⟨0xD100C + n * 0x10, 0, 1, true⟩
def MBC_OBJk_CTL_abort (n : Nat) : Fld := ⟨0xD100C + n * 0x10, 1, 1, true⟩
def SER_Pn_CFG_en (n : Nat) : Fld := ⟨0xE0000 + n * 0x10, 0, 1, false⟩
def SER_Pn_CFG_baud (n : Nat) : Fld := ⟨0xE0000 + n * 0x10, 1, 2, false⟩
def SER_Pn_CFG_nocs (n : Nat) : Fld := ⟨0xE0000 + n * 0x10, 3, 1, false⟩
def SER_Pn_STAT_act (n : Nat) : Fld := ⟨0xE0004 + n * 0x10, 0, 1, true⟩
def SER_Pn_STAT_brk (n : Nat) : Fld := ⟨0xE0004 + n * 0x10, 1, 1, true⟩
def SER_Pn_CNT_cserr (n : Nat) : Fld := ⟨0xE0008 + n * 0x10, 0, 16, true⟩
def SER_Pn_CNT_frerr (n : Nat) : Fld := ⟨0xE0008 + n * 0x10, 16, 8, true⟩
def SER_Pn_CNT_long (n : Nat) : Fld := ⟨0xE0008 + n * 0x10, 24, 8, true⟩
def SER_NET_CFG_grp : Fld := ⟨0xE0100, 0, 16, false⟩
def SER_CNT_CLR_clr : Fld := ⟨0xE0104, 0, 1, true⟩
def SER_ITk_STAT_valid (n : Nat) : Fld := ⟨0xE0400 + n * 0x8, 0, 1, true⟩
def SER_ITk_STAT_stat (n : Nat) : Fld := ⟨0xE0400 + n * 0x8, 1, 1, true⟩
def SER_ITk_STAT_age (n : Nat) : Fld := ⟨0xE0400 + n * 0x8, 16, 16, true⟩
def SER_ITk_VAL_v (n : Nat) : Fld := ⟨0xE0404 + n * 0x8, 0, 32, true⟩
def SAF_STAT_state : Fld := ⟨0xF0000, 0, 2, false⟩
def SAF_STAT_chx : Fld := ⟨0xF0000, 2, 1, false⟩
def SAF_STAT_chy : Fld := ⟨0xF0000, 3, 1, false⟩
def SAF_STAT_rqhold : Fld := ⟨0xF0000, 4, 1, false⟩
def SAF_STAT_nolane : Fld := ⟨0xF0000, 5, 1, false⟩
def SAF_CFG_err : Fld := ⟨0xF0004, 0, 8, false⟩
def SAF_CFG_act : Fld := ⟨0xF0004, 8, 1, false⟩
def SAF_CFG_busy : Fld := ⟨0xF0004, 9, 1, false⟩
def SAF_CFG_IDL_id : Fld := ⟨0xF0008, 0, 32, false⟩
def SAF_CFG_IDH_id : Fld := ⟨0xF000C, 0, 32, false⟩
def SAF_CFG_REV_rev : Fld := ⟨0xF0010, 0, 32, false⟩
def SAF_CFG_DIG_dig : Fld := ⟨0xF0014, 0, 32, false⟩
def SAF_IN_lvl : Fld := ⟨0xF0020, 0, 16, false⟩
def SAF_IN_flt : Fld := ⟨0xF0020, 16, 16, false⟩
def SAF_OUT_on : Fld := ⟨0xF0024, 0, 8, false⟩
def SAF_OUT_lock : Fld := ⟨0xF0024, 8, 8, false⟩
def SAF_OUT_req : Fld := ⟨0xF0024, 16, 8, false⟩
def SAF_OUT_nopt : Fld := ⟨0xF0024, 24, 8, false⟩
def SAF_FLT_code : Fld := ⟨0xF0028, 0, 8, false⟩
def SAF_FLT_res : Fld := ⟨0xF0028, 8, 8, false⟩
def SAF_CNT_trips : Fld := ⟨0xF002C, 0, 16, false⟩
def SAF_CNT_faults : Fld := ⟨0xF002C, 16, 16, false⟩
def SAF_FNn_state (n : Nat) : Fld := ⟨0xF0040 + n * 0x4, 0, 3, false⟩
def SAF_FNn_kind (n : Nat) : Fld := ⟨0xF0040 + n * 0x4, 4, 3, false⟩
def SAF_FNn_rem (n : Nat) : Fld := ⟨0xF0040 + n * 0x4, 16, 9, false⟩
def REC_CFG_n : Fld := ⟨0x50000, 0, 5, false⟩
def REC_STAT_split : Fld := ⟨0x50004, 0, 1, false⟩
def REC_STAT_full : Fld := ⟨0x50004, 1, 1, false⟩
def REC_STAT_osmax : Fld := ⟨0x50004, 2, 1, false⟩
def REC_STAT_pcmax : Fld := ⟨0x50004, 3, 1, false⟩
def REC_STAT_almdrop : Fld := ⟨0x50004, 4, 1, false⟩
def REC_STAT_wslot : Fld := ⟨0x50004, 16, 15, false⟩
def REC_SEQ_seq : Fld := ⟨0x50008, 0, 32, false⟩
def REC_OVF_ovf : Fld := ⟨0x5000C, 0, 32, false⟩
def REC_OPSEC_s : Fld := ⟨0x50010, 0, 32, false⟩
def REC_PWRCYC_c : Fld := ⟨0x50014, 0, 32, false⟩
def REC_CNT_drop : Fld := ⟨0x50018, 0, 16, false⟩
def REC_CNT_suppr : Fld := ⟨0x50018, 16, 16, false⟩
def REC_RDIDX_idx : Fld := ⟨0x50020, 0, 15, true⟩
def REC_WINw_v (n : Nat) : Fld := ⟨0x50040 + n * 0x4, 0, 32, true⟩
def REC_CLR_key : Fld := ⟨0x50060, 0, 16, false⟩
def REC_CLR_cpl : Fld := ⟨0x50060, 16, 16, false⟩
def TND_STAT_bpatrol : Fld := ⟨0x100000, 0, 1, true⟩
def TND_STAT_blsram : Fld := ⟨0x100000, 1, 1, true⟩
def TND_STAT_bssram : Fld := ⟨0x100000, 2, 1, true⟩
def TND_STAT_bfsram : Fld := ⟨0x100000, 3, 1, true⟩
def TND_STAT_bflash : Fld := ⟨0x100000, 4, 1, true⟩
def TND_STAT_bcal : Fld := ⟨0x100000, 5, 1, true⟩
def TND_STAT_cerate : Fld := ⟨0x100000, 8, 1, true⟩
def TND_STAT_flashlow : Fld := ⟨0x100000, 9, 1, true⟩
def TND_STAT_oscdiff : Fld := ⟨0x100000, 10, 1, true⟩
def TND_STAT_patrol : Fld := ⟨0x100000, 16, 10, true⟩
def TND_ECC_dram : Fld := ⟨0x100004, 0, 16, true⟩
def TND_ECC_sram : Fld := ⟨0x100004, 16, 16, true⟩
def TND_DRAM_retired : Fld := ⟨0x100008, 0, 16, true⟩
def TND_FLASH_spare : Fld := ⟨0x10000C, 0, 10, true⟩
def TND_FLASH_retired : Fld := ⟨0x10000C, 16, 16, true⟩
def TND_MRAM_repair : Fld := ⟨0x100010, 0, 16, false⟩
def TND_MRAM_failed : Fld := ⟨0x100010, 16, 8, false⟩
def TND_MRAM_lost : Fld := ⟨0x100010, 24, 8, false⟩
def TND_CNT_CLR_clr : Fld := ⟨0x100014, 0, 1, true⟩
def PWR_STAT_dom : Fld := ⟨0x20000, 0, 12, false⟩
def PWR_STAT_sup1 : Fld := ⟨0x20000, 12, 1, false⟩
def PWR_STAT_sup2 : Fld := ⟨0x20000, 13, 1, false⟩
def PWR_STAT_bkplow : Fld := ⟨0x20000, 14, 1, false⟩
def PWR_STAT_mstuck : Fld := ⟨0x20000, 15, 1, false⟩
def PWR_STAT_cause : Fld := ⟨0x20000, 16, 8, false⟩
def PWR_STAT_awipe : Fld := ⟨0x20000, 24, 1, false⟩
def PWR_STAT_bwipe : Fld := ⟨0x20000, 25, 1, false⟩
def PWR_STAT_rtcwake : Fld := ⟨0x20000, 26, 1, false⟩
def PWR_STAT_laneoff : Fld := ⟨0x20000, 27, 1, false⟩
def PWR_CFG_spread : Fld := ⟨0x20004, 0, 2, false⟩
def PWR_SUP_v1 : Fld := ⟨0x20008, 0, 16, false⟩
def PWR_SUP_v2 : Fld := ⟨0x20008, 16, 16, false⟩
def PWR_BKP_v : Fld := ⟨0x2000C, 0, 16, false⟩
def PWR_CNT_suplost : Fld := ⟨0x20010, 0, 8, false⟩
def PWR_CNT_mrst : Fld := ⟨0x20010, 8, 8, false⟩
def PWR_CNT_stuck : Fld := ⟨0x20010, 16, 8, false⟩
def PWR_CNT_lanepc : Fld := ⟨0x20010, 24, 8, false⟩
def UPD_LCS_state : Fld := ⟨0x110000, 0, 3, false⟩
def UPD_LCS_target : Fld := ⟨0x110000, 3, 3, false⟩
def UPD_LCS_chg : Fld := ⟨0x110000, 6, 1, false⟩
def UPD_LCS_seal : Fld := ⟨0x110000, 7, 1, false⟩
def UPD_LCS_wipe : Fld := ⟨0x110000, 8, 8, false⟩
def UPD_LCS_count : Fld := ⟨0x110000, 16, 16, false⟩
def UPD_DIGn_dig (n : Nat) : Fld := ⟨0x110004 + n * 0x4, 0, 32, false⟩
def UPD_CMTn_cmt (n : Nat) : Fld := ⟨0x110014 + n * 0x4, 0, 32, false⟩
def UPD_SLOTn_maj (n : Nat) : Fld := ⟨0x110024 + n * 0x4, 0, 8, true⟩
def UPD_SLOTn_min (n : Nat) : Fld := ⟨0x110024 + n * 0x4, 8, 8, true⟩
def UPD_SLOTn_st (n : Nat) : Fld := ⟨0x110024 + n * 0x4, 16, 3, true⟩
def UPD_SLOTn_conf (n : Nat) : Fld := ⟨0x110024 + n * 0x4, 19, 1, true⟩
def UPD_SLOTn_err (n : Nat) : Fld := ⟨0x110024 + n * 0x4, 24, 8, true⟩
def UPD_SEQ_step : Fld := ⟨0x110034, 0, 4, false⟩
def UPD_SEQ_kind : Fld := ⟨0x110034, 4, 2, false⟩
def UPD_SEQ_lane1 : Fld := ⟨0x110034, 6, 1, false⟩
def UPD_SEQ_rb : Fld := ⟨0x110034, 7, 1, false⟩
def UPD_SEQ_cyc : Fld := ⟨0x110034, 8, 6, false⟩
def UPD_SEQ_left : Fld := ⟨0x110034, 16, 11, false⟩
def UPD_TL_t : Fld := ⟨0x110038, 0, 32, false⟩
def UPD_TH_t : Fld := ⟨0x11003C, 0, 32, false⟩
def JX_ID_id : Fld := ⟨0x00000, 0, 32, false⟩
def JX_REV_fwmin : Fld := ⟨0x00004, 0, 8, true⟩
def JX_REV_fwmaj : Fld := ⟨0x00004, 8, 8, true⟩
def JX_REV_hwmin : Fld := ⟨0x00004, 16, 8, true⟩
def JX_REV_hwmaj : Fld := ⟨0x00004, 24, 8, true⟩
def JX_SNL_sn : Fld := ⟨0x00008, 0, 32, false⟩
def JX_SNH_sn : Fld := ⟨0x0000C, 0, 32, false⟩

end Reg

end Sys2Proof.Machine
end

