-- ==== Sys2Proof/Machine/State.lean ====
section
/-!
DEFINITION. The state of the block: one structure per unit the spec describes, the two lanes, and the queue of waiting commands.
Every register field lives in the register file `regs` (log entry 4); the structures hold what the registers do not show.
-/

namespace Sys2Proof.Machine

/-- Power and reset phase of a lane (R459, R467, R470): unpowered, held in reset, BASE powered with its DRAM being wiped, ready. -/
inductive LanePh where
  | off | rst | wiping | ready
  deriving DecidableEq, Repr

/-- A cycle set (R23, R25), in milliseconds. -/
structure CycSet where
  period : Nat
  xwin : Nat
  intake : Nat
  fusion : Nat
  assembly : Nat
  deadline : Nat
  mirror : Nat
  deriving DecidableEq, Repr

/-- The default cycle set (R23). -/
def CycSet.dflt : CycSet := ⟨100, 2, 5, 35, 40, 85, 88⟩

/-- The cycle (R17-R29): the next epoch, the epoch in progress and whether one has come since reset, the set in force, the set
the cycle in progress began under, the pending set with its epoch and the epoch of the old grid it replaced (R26), a phase step
waiting for the next epoch (R309), and the stages still open. -/
structure CycSt where
  nextE : Time := 0#64
  e : Time := 0#64
  begun : Bool := false
  set : CycSet := CycSet.dflt
  cur : CycSet := CycSet.dflt
  pend : Option (CycSet × Time) := none
  gridE : Time := 0#64
  phaseStep : Option Nat := none
  slewTo : Option Nat := none
  intakeOpen : Bool := false
  fusionOpen : Bool := false
  published : Bool := false
  mirrorOpen : Bool := false
  deriving DecidableEq, Repr

/-- Interpolation table (R59). -/
structure Table where
  ny : Nat
  xs : List F64
  ys : List F64
  vals : List F64
  deriving DecidableEq, Repr

/-- MMAP entry (R60). -/
structure MEnt where
  cls : Nat
  sub : Nat
  index : Nat
  dflt : F64
  deriving DecidableEq, Repr

/-- SMAP entry (R61). -/
structure SEnt where
  id : Word
  dflt : F64
  deriving DecidableEq, Repr

/-- OUTMAP entry (R62). -/
structure OEnt where
  code : Nat
  stage : Nat
  index : Nat
  scale : F64
  deriving DecidableEq, Repr

/-- The content of a verified model package (R55-R62, R72, R80). -/
structure PkgData where
  id : BitVec 64
  rev : Word
  dig : List Byte
  n : Nat
  nPrimal : Nat
  fWords : Nat
  kSlots : Nat
  budget : Nat
  stages : Nat
  scen : Nat
  param : List F64
  tables : List Table
  mmap : List MEnt
  smap : List SEnt
  prog : List (BitVec 64)
  sched : List (BitVec 128)
  fact : Nat
  solve : Nat
  rfn : Nat
  pool : List Nat
  kpat : List (Nat × Nat)
  outmap : List OEnt
  shift : List Nat
  xinit : List F64
  deriving DecidableEq, Repr

/-- One extractor of a network package (R167). -/
structure ExtData where
  index : Nat
  kind : Nat
  cost : Nat
  inH : Nat := 32
  inW : Nat := 32
  outH : Nat := 32
  outW : Nat := 32
  inCell : F32 := 0#32
  outCell : F32 := 0#32
  outX0 : F32 := 0#32
  outY0 : F32 := 0#32
  deriving DecidableEq, Repr

/-- The content of a verified network package (R166). -/
structure NetData where
  id : BitVec 64
  rev : Word
  dig : List Byte
  ext : List ExtData
  deriving DecidableEq, Repr

/-- A package bank of a lane (R85): the blocks stored (number, bytes), whether the load is complete and waits for verification,
whether it waits for re-verification (R64, R92), whether it becomes ACTIVE at the next epoch (R91), and the verified content. Its state code is in the bank register. -/
structure Bank where
  blocks : List (Nat × List Byte) := []
  complete : Bool := false
  reverify : Bool := false
  actNext : Bool := false
  model : Option PkgData := none
  net : Option NetData := none
  deriving DecidableEq, Repr

/-- What the iteration controller waits for (R96): nothing, FACT, the first SOLVE, refinement of it, the second SOLVE,
refinement of it, or the completion of the iteration. -/
inductive CtlPh where
  | idle | fact | solve1 | ref1 | solve2 | ref2 | finish
  deriving DecidableEq, Repr

/-- The condition a cycle's solve ended with (R117). -/
inductive Cond where
  | optimal | capped | ditr | shifted | mfault
  deriving DecidableEq, Repr

/-- The solver's configuration as in force since the last epoch (R123): iteration cap, pivot limit, shift limit, acceptance and
convergence tolerances, regularisation exponents. -/
structure SlvCfg where
  itcap : Nat := 12
  pivlim : Nat := 32
  shiftmax : Nat := 5
  accept : F32 := 0x3A83126F#32
  tolp : F32 := 0x358637BD#32
  told : F32 := 0x358637BD#32
  tolmu : F32 := 0x322BCC77#32
  rp : Nat := 32
  rd : Nat := 32
  deriving DecidableEq, Repr

/-- The figures of the latest completed iterate (R94, R109, R110): V9-V12, the scaled residuals and complementarity, whether the largest
multiplier of a hard bound passes 2^60 × (1 + |V4|), and its index. -/
structure IterRes where
  v9 : List F64
  v10 : List F64
  v11 : List F64
  v12 : List F64
  rhoP : F64
  rhoD : F64
  mu : F64
  huge : Bool
  mulIdx : Nat
  deriving DecidableEq, Repr

/-- The solver of a lane (R67-R71, R94, R96-R122): assembler registers and program counter; the measurement and setpoint
vectors with validity, and the instant that the metrology values of the snapshot are referred to (R230); image, vectors (key 16384·k + i for Vk[i]) and factor region; the schedule segment in progress, the
window since the last BAR and what of it is executed; the controller's phase and figures, with its working store: the predictor
direction in four parts, the corrector's right-hand side, σ and the step lengths of the primal and multiplier parts; the held
solution and dispatch state. -/
structure SlvSt where
  asmRun : Bool := false
  asmDone : Bool := false
  asmT0 : Time := 0#64
  fr : Sparse F64 := []
  ar : Sparse Word := []
  q : Bool := false
  pc : Nat := 0
  steps : Nat := 0
  asmFault : Nat := 0
  bound : Option Nat := none
  mvec : List (F64 × Bool) := []
  mAt : Option Time := none
  svec : List (F64 × Bool) := []
  image : Sparse F64 := []
  vecs : Sparse F64 := []
  bndClr : Bool := false
  factor : Sparse F64 := []
  seg : Nat := 0
  win : Nat := 0
  done : List Nat := []
  signs : Sparse Bool := []
  solving : Bool := false
  ph : CtlPh := .idle
  k : Nat := 0
  iters : Nat := 0
  r : Nat := 0
  retried : Bool := false
  aff : List (List F64) := []
  rhs : List F64 := []
  sigma : F64 := 0#64
  stepP : F64 := 0#64
  stepD : F64 := 0#64
  nrepl : Nat := 0
  ninert : Nat := 0
  mxRepl : Nat := 0
  mxInert : Nat := 0
  mxRef : Nat := 0
  tested : Bool := false
  mu : F64 := 0#64
  brk : Option Nat := none
  refSteps : Nat := 0
  solHold : List F64 := []
  d0 : F64 := 0#64
  dmax : F64 := 0#64
  rhoP : F64 := 0#64
  rhoD : F64 := 0#64
  latest : Option IterRes := none
  infRun : Nat := 0
  cond : Option Cond := none
  fRepl : Bool := false
  fIllc : Bool := false
  fRetry : Bool := false
  fItfail : Bool := false
  fLate : Bool := false
  fRej : Bool := false
  fAsmf : Bool := false
  coldAtE : Bool := true
  t0 : Option Time := none
  t1 : Option Time := none
  sol : Option Solution := none
  newPkg : Bool := false
  disp : Dispatch := {}
  prior : Option AllocRec := none
  shcnt : Nat := 0
  solCyc : Word := 0#32
  tkov : Bool := false
  deriving DecidableEq, Repr

/-- A complete frame of a stream (R158, R160): port stamp, the time it is placed at (ns of local time), whether the stream was weighted
down, and the payloads of its packets in order. -/
structure Frame where
  stamp : Time
  tm : Int
  dw : Bool
  pkts : List (List Byte)
  deriving DecidableEq, Repr

/-- A stream's frame being assembled (R158): counter, port stamp, packets received, sensor time; the counter of the frame closed last, whose
trailing packets open no new one; the complete frames that wait,
and the one taken into a cycle with that cycle's epoch; its clock estimator (R159) with recent misalignments or stamps, and since when the
conditions of R160 hold or have ceased. -/
structure StrSt where
  open' : Bool := false
  counter : Nat := 0
  stamp : Time := 0#64
  got : List (Nat × List Byte) := []
  tSens : Option Int := none
  lastCtr : Option Nat := none
  ready : List Frame := []
  placed : Option (Time × Frame) := none
  o : Int := 0
  d : Int := 0
  lastA : Option Time := none
  mis : List (Time × Int) := []
  bad : Option Time := none
  good : Option Time := none
  calm : Option Time := none
  deriving DecidableEq, Repr

/-- The last value of a reference slot (R155-R157): stamp of arrival or validity, position or heading values, and their
standard deviations; `usedE` is the epoch at which it was last taken. -/
structure RefIn where
  stamp : Time
  kind : Nat
  x : F64
  y : F64
  sx : F32
  sy : F32
  deriving DecidableEq, Repr

/-- Fusion of a lane (R155-R186): streams, reference inputs waiting and latched, the motion data latched (gyro rate, roll, pitch, heave,
wind angle and speed), record, filter, grade state, grids with their
origin (in units of 256 cells), the keyframe a takeover starts from, the last keyframe made or mirrored (R185, R377), cycles left under the
takeover cap, cycles since start. -/
structure FusSt where
  run : Bool := false
  strs : Sparse StrSt := []
  refIn : List (Nat × RefIn) := []
  latched : List (Nat × RefIn) := []
  motion : List (Option F64) := []
  items : List F64 := []
  filter : Option Filt := none
  grd : GradeSt := {}
  prevGrid : Sparse (BitVec 16) := []
  curGrid : Sparse (BitVec 16) := []
  orgX : Int := 0
  orgY : Int := 0
  hasPrev : Bool := false
  key : Option (Sparse (BitVec 16) × Int × Int) := none
  lastKey : Option (Sparse (BitVec 16) × Int × Int) := none
  keyCnt : Nat := 0
  tkLeft : Nat := 0
  prov : Option Datum := none
  autojoy : Bool := false
  deriving DecidableEq, Repr

/-- Mirroring in a lane (R291-R295): items held aside for the SEAL with their cycle; items whose frames are arriving, by type (the
sections so far); whether a FUSION item was adopted since fusion started; the last adopted cycle; misses in a row; whether one
complete set and the loop states have come; as Active, whether the last set was sent complete. -/
structure MirSt where
  held : List MirItem := []
  heldCyc : Word := 0#32
  cur : List (Nat × ItemSecs) := []
  fusAdopted : Bool := false
  adoptedCyc : Option Word := none
  missRun : Nat := 0
  oneSet : Bool := false
  loopsIn : Bool := false
  sent : Bool := false
  deriving DecidableEq, Repr

/-- What a sample writes to a slot's output register (R257, R273) with what readers of the slot take beside it (R60): the sample's
instant, setpoint, measurement, output, and whether a limit was in force. -/
structure LoopOut where
  inst : Time
  w : F64
  y : F64
  u : F64
  sat : Bool
  deriving DecidableEq, Repr

/-- One loop slot of a lane (R258-R277): law states; output, held setpoint, manual output and pre-limit output; the instant of the
last sample computed or dropped; the mode HOLD returns to; the mode of the last sample (2 when no preset is due); the last measurement; the
instant of the last sample computed. `hist` keeps the states of the samples of the last 2 ms (R276), newest first; `outs` the outputs written, newest first. -/
structure LoopSt where
  i : F64 := 0#64
  x1 : F64 := 0#64
  x2 : F64 := 0#64
  dPrev : F64 := 0#64
  ePrev : F64 := 0#64
  yPrev : F64 := 0#64
  u : F64 := 0#64
  w : F64 := 0#64
  man : F64 := 0#64
  v : F64 := 0#64
  inst : Option Time := none
  prevMode : Nat := 2
  from' : Nat := 0
  lastY : F64 := 0#64
  done : Option Time := none
  hist : List LoopMir := []
  outs : List LoopOut := []
  deriving DecidableEq, Repr

/-- Trace capture of a lane (R279): samples of the enabled channels with their instants (latest first), samples seen per channel
for the decimation, and the trigger slot's node, hi and lo, and mode at its last sample. -/
structure TraceSt where
  chans : List (Nat × List (Time × F32)) := []
  counts : List (Nat × Nat) := []
  lastNode : Option F64 := none
  lastSat : Option (Bool × Bool) := none
  lastMode : Option Nat := none
  deriving DecidableEq, Repr

/-- Loop engine of a lane: slots, trace, and as Standby the loop commands of the adopted authority state not yet applied (ticket,
slot, command, earliest instant; R268); the instant the engine last started (R272), and the place in the order of R256 of the sample
computed last: instant, chain level, period, slot; the instant of the states sent last to the Standby (R276). -/
structure LpeSt where
  slots : Sparse LoopSt := []
  trace : TraceSt := {}
  cmds : List (Nat × Nat × LoopCmd × Time) := []
  start : Time := 0#64
  last : Option (Time × Nat × Nat × Nat) := none
  sentAt : Option Time := none
  deriving DecidableEq, Repr

/-- One ring's state beyond its registers (R354-R360): completions waiting for space, entries and time not yet signalled, the
data area's write offset and used pieces, lost records not yet reported, the stream sequence. -/
structure RingSt where
  waitQ : List (BitVec 512) := []
  unsig : Nat := 0
  oldest : Time := 0#64
  dofs : Nat := 0
  used : List (Nat × Nat) := []
  lost : Nat := 0
  sseq : Word := 0#32
  deriving DecidableEq, Repr

/-- A posted dispatch value (R375): acceptance instant, value, life in ms, valid. The post before the latest epoch and the one
after it are told apart by their instants. -/
structure DispVal where
  tAcc : Time
  val : F64
  life : Nat
  valid : Bool
  deriving DecidableEq, Repr

/-- A snapshot of a fusion grid waiting for the next blend (R377). -/
structure GridWait where
  info : OrdInfo
  prev : Bool
  addr : BitVec 64
  deriving DecidableEq, Repr

/-- Endpoint and rings of a lane (R352-R361): the ring whose turn comes first (R358); and the posted values of the lane (R375): dispatch
values by identifier. -/
structure HriSt where
  turn : Nat := 0
  rings : Sparse RingSt := []
  disp : List (Nat × List DispVal) := []
  gridWait : List GridWait := []
  deriving DecidableEq, Repr

/-- Sources of events (R336): the Keeper, the safety island (source 8), timebase, RTC and wake controller, the appender (source 32), a block of a
lane, a network or bus block, and a host source number. -/
inductive Src where
  | keeper | safety | timebase | rtc | wake | appender | lane (l : Lane) (blk : Nat) | bus (blk : Nat) | host (n : BitVec 10)
  deriving DecidableEq, Repr

/-- An event on its way to the recorder (R434, R435): stamp, counters at the event, data, source, code, alarm flags. -/
structure Event where
  stamp : Time
  opsec : Word
  pwrcyc : Word
  data : BitVec 64
  src : Src
  code : BitVec 16
  alm : Bool
  clr : Bool
  deriving DecidableEq, Repr

/-- A source group's queue of at most 256 records (R434), the records dropped since the last accepted (R444). -/
structure EvQueue where
  q : List Event := []
  dropped : Nat := 0
  deriving DecidableEq, Repr

/-- The event recorder (R434-R447): slots by number (256 bits each, word w at bits 32w+31..32w), records since the wipe or
clear, the next sequence number, the split size in force, counts per source and code in the present MTC second, and the
suppressed counts; whether the run has its first anchor; the two MRAM slots of operating seconds and power-cycle count, and whether slot 1
was written last (R437). -/
structure RecSt where
  slots : Sparse (BitVec 256) := []
  q : Nat := 0
  next : Nat := 0
  n : Nat := 4096
  counts : List (Src × BitVec 16 × Nat × Nat) := []
  queues : List EvQueue := [{}, {}, {}, {}, {}, {}]
  anchored : Bool := false
  cnt0 : Word × Word := (0#32, 0#32)
  cnt1 : Word × Word := (0#32, 0#32)
  cntLast : Bool := false
  deriving DecidableEq, Repr

/-- The Keeper's view of one lane (R282-R289, R301, R463): whether a watch word has come since reset, seq of the last, a valid one in
this slot, slots missed in a row; declared failed; pub bit and whether it toggled in this cycle; adm bit and whether admission has
timed out; MTC samples within bound in a row; when its lane reset is due; when its start began and when it was ready; passed through
lane reset since failing; power cycle: when restored last, when due to be restored, left unpowered; the last reports. -/
structure KprLane where
  known : Bool := false
  seq : BitVec 16 := 0#16
  valid : Bool := false
  missRun : Nat := 0
  failed : Bool := false
  pub : Bool := false
  pubSeen : Bool := false
  adm : Bool := false
  admFail : Bool := false
  okRun : Nat := 0
  resetDue : Option Time := none
  readyAt : Option Time := none
  returning : Bool := false
  fpwrAt : Option Time := none
  offAt : Option Time := none
  offForGood : Bool := false
  loopAt : Option Time := none
  loopRep : List (Nat × Time × F64) := []
  metAt : Option Time := none
  metRep : List (Nat × Nat × BitVec 64) := []
  deriving DecidableEq, Repr

/-- The Keeper (R281-R302): whether it runs, the role lines, when the lanes' start began and whether the preferred lane's 5 s have
passed, its view of the lanes, runs of MTC excess and of loop disagreements per slot, the epochs whose cycles have the publication
bounds of a takeover and of a grant, the time of the last mirror-link frame, the epoch of an owed takeover publication, the sequence
number of the recorder when the mirror window opened. -/
structure KprSt where
  up : Bool := true
  role : Option Lane := none
  tStart : Time := 0#64
  late : Bool := false
  la : KprLane := {}
  lb : KprLane := {}
  mtcRun : Nat := 0
  cmpRuns : Sparse Nat := []
  tkE : Option Time := none
  grantE : Option Time := none
  linkAt : Time := 0#64
  owed : Option Time := none
  recOpen : Word := 0#32
  deriving DecidableEq, Repr

/-- What a lane holds of the Keeper (R286) and of its own health (R283): the role of the last Keeper word and its instant; its fatal
bits; sequence and health vector of the last watch word; pub bit; adm latched; die above its warning temperature; the die is off by its protection. -/
structure LaneHealth where
  kword : Option Lane := none
  kwordAt : Time := 0#64
  fatal : BitVec 16 := 0#16
  seq : BitVec 16 := 0#16
  vec : BitVec 16 := 0#16
  pub : Bool := false
  adm : Bool := false
  dieWarn : Bool := false
  deriving DecidableEq, Repr

/-- A node of the PRP node table (R305): when it was heard last, and the frames whose copy on the other LAN has not come, with the
LAN they came by (true: LAN B) and their instant. -/
structure PrpNode where
  heard : Time
  recent : List (BitVec 16 × Bool × Time)
  deriving DecidableEq, Repr

/-- Delivery window of a ring source (R308): highest sequence delivered, and a mask of the 64 below it. -/
structure RingSrc where
  hi : Word
  mask : BitVec 64
  last : Time
  deriving DecidableEq, Repr

/-- The networks of the module (R305-R316): the PRP node table and the trailer's sequence of the module address and of each
lane's own; ring sources heard, own sequence; the last
SYNC taken, the master's priority, whether this module's cycle set differs from its; rank, number of modules at the last
recomputation; the last PROBE with the ports it returned on; term and the module held to have the active part (0x3FF: as
configured), whether a release is in force, when arbiter, partner, active and standby module were last heard, the standby module's
number, whether the active module has an Active lane; the module-mirror set held and the cycle of the last adopted; GRANT frames still to send, whom they name as
losing and the instant of the decision; module-mirror items that wait for the end of the exchange window, and those whose frames are arriving. -/
structure NetSt where
  nodes : List (BitVec 48 × PrpNode) := []
  prpSeq : BitVec 16 := 0#16
  prpA : BitVec 16 := 0#16
  prpB : BitVec 16 := 0#16
  srcs : List (Nat × RingSrc) := []
  seq : Word := 0#32
  lastSync : Option Time := none
  masterPrio : Nat := 15
  mismatch : Bool := false
  rank : Option Nat := none
  nRanked : Nat := 1
  toMaster : Bool := false
  probed : Bool := false
  probeSeq : Word := 0#32
  probeAt : Time := 0#64
  probeWa : Bool := false
  probeWb : Bool := false
  term : Word := 0#32
  actNum : Nat := 0x3FF
  released : Bool := false
  arbHeard : Option Time := none
  partnerHeard : Option Time := none
  actHeard : Option Time := none
  actHasLane : Bool := true
  stbyHeard : Option Time := none
  stbyNum : Nat := 0x3FF
  lastMod : Option Word := none
  modHeld : List MirItem := []
  grantsLeft : Nat := 0
  grantLoser : Nat := 0
  grantAt : Time := 0#64
  modTx : List MirItem := []
  modCur : List (Nat × ItemSecs) := []
  exchFullDone : Bool := false
  deriving DecidableEq, Repr

/-- An order that waits for its effect and for the Standby's acknowledgement (R50, R89, R268, R302, R371): its ticket, where it
completes, its E_eff, the version that recorded its acceptance, whether that version suffices, the version after its effect. -/
structure Wait where
  tkt : Nat
  info : OrdInfo
  eEff : Time
  verAcc : Word
  byAcc : Bool
  verEff : Option Word
  deriving DecidableEq, Repr

/-- A lane image slot (R480): stored blocks, and the header facts of a verified image. Its state code is in UPD_SLOTn. -/
structure ImgSlot where
  blocks : List (Nat × List Byte) := []
  complete : Bool := false
  mirFmt : Nat := 0
  sec : Nat := 0
  deriving DecidableEq, Repr

/-- Wear of a lane's flash (R453): erases of each block and its reads since the last program, as far as the rules place them (log entry
103), and the retired blocks with the spare that took their place. -/
structure FlashSt where
  erase : Sparse Nat := []
  reads : Sparse Nat := []
  bad : List (Nat × Nat) := []
  deriving DecidableEq, Repr

/-- Life cycle and update (R473-R489): image slots (0, 1 of Lane A; 2, 3 of Lane B; 4, 5 of the Keeper); the slot each lane and the
Keeper runs from, and the slot the sequence activates; the earliest start of an order and the ns part of its T; when each lane and
the Keeper started the image to confirm; the step of a rollback; cycles counted toward confirmation, and whether the cycle in
progress keeps the conditions; since when the Keeper's words have been good; the lane to be made Active first (R489); the epoch of the
sequence's role swap; the transition log (R476); package kinds whose bank pointer has no good copy (R16, R88); MRST_N: masked, in
reset; a life-cycle wipe in progress; lanes off by their die protection; the public firmware keys of KPR ROM (R479, log entry 93);
the wear of both lanes' flash. -/
structure UpdSt where
  slots : Sparse ImgSlot := []
  runA : Nat := 0
  runB : Nat := 0
  runK : Nat := 0
  newA : Option Nat := none
  newB : Option Nat := none
  newK : Option Nat := none
  acceptAt : Time := 0#64
  tNs : Nat := 0
  startA : Option Time := none
  startB : Option Time := none
  startK : Option Time := none
  rbStep : Nat := 0
  cntA : Nat := 0
  cntB : Nat := 0
  okA : Bool := true
  okB : Bool := true
  kGood : Time := 0#64
  pref : Option Lane := none
  swapE : Option Time := none
  log : List (Nat × Nat × BitVec 56 × Word) := []
  ptrBad : List Bool := []
  masked : Bool := false
  inReset : Bool := false
  wiping : Bool := false
  hotA : Bool := false
  hotB : Bool := false
  romKeys : List (List Byte) := [Config.fwKey 0, Config.fwKey 1]
  flashA : FlashSt := {}
  flashB : FlashSt := {}
  deriving DecidableEq, Repr

/-- Parameters of local time (R322, R531): offset in units of 2^-32 ns, frequency term and slew term in units of 2^-48. -/
structure ClkPar where
  ofs : Int := 0
  f : Int := 0
  s : Int := 0
  deriving DecidableEq, Repr

/-- An observation of a time reference (R326, R327): its MTC, θ in ns, and the clock parameters θ was formed with. -/
structure ObsRec where
  m : Time
  theta : Int
  par : ClkPar
  deriving DecidableEq, Repr

/-- A time reference of a lane (R326, R327): the latest observations (newest first), whether it is qualified and since when, and for
GNSS the epochs and the snapshots in a row without a valid fix. -/
structure TimeRef where
  obs : List ObsRec := []
  qual : Bool := false
  qualAt : Time := 0#64
  miss : Nat := 0
  missSnap : Nat := 0
  deriving DecidableEq, Repr

/-- One capture (R341). -/
structure TcEnt where
  mtc : Time
  lt : Int
  rise : Bool
  deriving DecidableEq, Repr

/-- A time-pulse generator (R337-R340): what it read at its start, the next instant, the pulse in progress (its end is due at
an MTC instant), the earliest MTC start of a queued pulse, and the instants owed, oldest first, as runs (first instant in ns of
local time, number of instants one period apart). -/
structure TpGen where
  run : Bool := false
  stopping : Bool := false
  iso : Bool := false
  t0 : Int := 0
  per : Nat := 0
  wid : Nat := 0
  next : Option Int := none
  cur : Option (Int × Time) := none
  gapTo : Option Time := none
  owed : List (Int × Nat) := []
  late : Bool := false
  deriving DecidableEq, Repr

/-- A lane's timebase (R318-R331, R531) beyond its registers: clock parameters, whether the offset has been set since reset, the
references, the last observation the servo took, a pending step with its θ, a refused step, a permit, whether the
first step after FREE is still to come, the time link, generators, capture FIFOs, the instant of the last capture of each input, and the end
of a pulse its filter ignores. -/
structure TmbSt where
  clk : ClkPar := {}
  set : Bool := false
  locked : Bool := false
  ptp : TimeRef := {}
  gnss : TimeRef := {}
  prev : Option ObsRec := none
  pend : Option Int := none
  refused : Option Int := none
  permit : Bool := false
  first : Bool := true
  holdAt : Time := 0#64
  holdAcc : Nat := 0
  tps : Sparse TpGen := []
  tcs : Sparse (List TcEnt) := []
  tcLast : Sparse Time := []
  tcSkip : Sparse Time := []
  deriving DecidableEq, Repr

/-- A foreign-master record (R334): the data set last announced, the Announces counted, and when the last came. -/
structure Foreign where
  ann : PtpAnn
  n : Nat
  at' : Time
  deriving DecidableEq, Repr

/-- A PTP port in NIO (R331-R335): the last Sync (sequence, stamp, origin, correction, whether its Follow_Up is awaited), the
outstanding request (sequence, stamp) and response, the path delay, the foreign-master records, and when it began to listen. -/
structure PtpPort where
  sync : Option (BitVec 16 × Time × Int × Int × Bool) := none
  req : Option (BitVec 16 × Time) := none
  resp : Option (BitVec 16 × Time × Int × Int) := none
  mpd : Int := 0
  foreign : List Foreign := []
  heard : Time := 0#64
  deriving DecidableEq, Repr

/-- The PTP state held in NIO across a takeover (R334): ports and sequenceId counters (key 16·port + message kind). -/
structure PtpSt where
  ports : Sparse PtpPort := []
  seqs : Sparse (BitVec 16) := []
  deriving DecidableEq, Repr

/-- The RTC (R342-R348): calendar in units of 1/32,768 s since 2000-01-01 00:00:00, the tick residue of the trim, a write that
waits for a shift, the calendar second each alarm last fired at, the compensation
curve, the offset from local time (ns) at the last tracking, and the calendar the last read of RTC_TIME latched. -/
structure RtcSt where
  cal : Nat := 0
  trimAcc : Int := 0
  fired0 : Option Nat := none
  fired1 : Option Nat := none
  curve : List (Int × F64) := []
  snapReq : Bool := false
  err : Int := 0
  shifts : List (Nat × Bool) := []
  load : Option Nat := none
  seen : Nat := 0
  deriving DecidableEq, Repr

/-- An entry of a message object (R391). -/
structure ObjEnt where
  src : Nat
  ofs : Nat
  enc : Nat
  scale : F32
  deriving DecidableEq, Repr

/-- A message object's configuration (R391). -/
structure ObjCfg where
  kind : Nat := 0
  ide : Bool := false
  fd : Bool := false
  brs : Bool := false
  fmt : Bool := false
  id : BitVec 32 := 0#32
  mask : BitVec 32 := 0#32
  len : Nat := 0
  retry : Nat := 3
  dec : Nat := 1
  life : Nat := 0
  ents : List ObjEnt := []
  deriving DecidableEq, Repr

/-- A queued frame of a controller (R395): object, data, failures so far. -/
structure CanTx where
  k : Nat
  data : List Byte
  fails : Nat
  deriving DecidableEq, Repr

/-- The message buses (R385-R399) beyond their registers: objects, queued frames per controller, the stamp of each object's
received frames with their bytes, newest first, objects whose abandonment has been recorded since their last success, recoveries in
progress, loop decimation counts, station 7, the instant of each serial port's last character (R405), the controllers enabled with FD format
(R389), and the datagrams whose second copy has not come (R401). -/
structure MbcSt where
  objs : Sparse ObjCfg := []
  q : Sparse (List CanTx) := []
  rx : List (Nat × List (Time × List Byte)) := []
  abandRec : List Nat := []
  recov : List Nat := []
  dec : Sparse Nat := []
  joySeq : Option Byte := none
  joyAt : Time := 0#64
  joyConf : Bool := false
  joyOn : Bool := false
  heard : List (Nat × Time) := []
  fdOn : List Nat := []
  grams : List (BitVec 48 × BitVec 16 × Time) := []
  deriving DecidableEq, Repr

/-- A serial item (R402). -/
structure SerItem where
  src : Nat
  conv : Nat
  adr : List Byte
  fld : Nat
  stat : Nat
  statC : Byte
  c1 : Nat
  c1C : Byte
  c2 : Nat
  c2C : Byte
  life : Nat
  filt : List Byte
  scale : F64
  ofs : F64
  deriving DecidableEq, Repr

/-- What a matching sentence left of a serial item in a lane (R403): the value, the sentence's stamp, whether the item is valid from
it on, and the stamp of the value itself. -/
structure SerVal where
  val : F64
  stamp : Time
  valid : Bool
  took : Option Time
  deriving DecidableEq, Repr

/-- An input entry of the safety configuration (R429). -/
structure SafInp where
  kind : Nat
  src : Nat
  filt : Nat
  allow : Nat
  deriving DecidableEq, Repr

/-- A pair entry (R429). -/
structure SafPair where
  mode : Nat
  disc : Nat
  deriving DecidableEq, Repr

/-- An output entry (R429). -/
structure SafOutp where
  en : Bool
  req : Bool
  nopt : Bool
  edm : Nat
  deriving DecidableEq, Repr

/-- A function entry (R429). -/
structure SafFun where
  kind : Nat
  pairs : Byte
  imm : Byte
  dly : Byte
  delay : Nat
  rst : Nat
  deriving DecidableEq, Repr

/-- A safety configuration (R428). -/
structure SafCfg where
  id : BitVec 64
  rev : Word
  dig : Word
  wt : Nat
  pt : Nat
  owt : Nat
  opt : Nat
  lock : Nat
  inps : List SafInp
  pairs : List SafPair
  outs : List SafOutp
  funs : List SafFun
  deriving DecidableEq, Repr

/-- The state of one function beyond SAF_FNn (R419-R421): the end of a category 1 delay, the instant a light curtain's pair came
to RUN, the first hand's instant, whether both hands must be released first, whether it has run since start, and the pairs that
lock it out. -/
structure SafFn where
  due : Time := 0#64
  runAt : Option Time := none
  hand : Option Time := none
  rel : Bool := false
  ran : Bool := false
  lockPairs : List Nat := []
  deriving DecidableEq, Repr

/-- What one evaluation channel of the island holds beyond registers (R409): raw levels with the instants they changed at; per pair,
whether each input channel indicates run, whether each has indicated stop since both last ran, and since when they disagree; presses,
reset inputs that accept none and those whose RESETHELD has been raised; functions; instants the outputs last changed at; pairs with a
switch that reads above 5 V, pairs an EDM fault has locked out, and pairs that may turn on although EDM reads off (R418); inputs
whose last test pulse failed, and inputs that went off in the last pulse of another source, with that source; requests as driven, since
when, and faulty lines; the role last seen and the request hold. -/
structure SafCh where
  raw : BitVec 16 := 0#16
  rawAt : Sparse Time := []
  runA : Byte := 0#8
  runB : Byte := 0#8
  dropA : Byte := 0xFF#8
  dropB : Byte := 0xFF#8
  disAt : Sparse Time := []
  pressAt : Sparse Time := []
  noPress : BitVec 16 := 0xFFFF#16
  heldRep : BitVec 16 := 0#16
  fns : Sparse SafFn := []
  onAt : Sparse Time := []
  rbHi : Byte := 0#8
  edmLock : Byte := 0#8
  edmFree : Byte := 0#8
  tpBad : BitVec 16 := 0#16
  crs : List (Nat × Nat) := []
  reqRaw : Byte := 0#8
  reqAt : Sparse Time := []
  reqBad : Byte := 0#8
  roleSeen : Option Lane := none
  holdAt : Option Time := none
  deriving DecidableEq, Repr

/-- All that a channel holds: beyond registers, and as SAF_IN, SAF_OUT and the SAF_FN registers show it. -/
structure SafChan where
  core : SafCh
  inW : Word
  outW : Word
  fnW : List Word
  deriving DecidableEq, Repr

/-- The safety island (R406-R432) beyond its registers: what channel X holds, whose view the registers show, and what channel Y holds
where it differs (log entry 21); the configuration in force, the one being loaded and the stored one; cycles the channels have
disagreed; the next pulse of each test source and of each output switch (R413, R417), and pairs whose next pulse comes as they turn on
(R427). -/
structure SafSt extends SafCh where
  cfg : Option SafCfg := none
  load : Option (List Byte) := none
  stored : List Byte := []
  diff : Nat := 0
  y : Option SafChan := none
  tsDue : Sparse Time := []
  offDue : Sparse Time := []
  early : Byte := 0#8
  deriving DecidableEq, Repr

/-- Items written by CONFIG (R376): their bytes by code and index (key 65536·code + index), and each in the form its owner rule gives it. `slModes` is the persistent copy of each loop slot's mode (R11, R280, log entry 69). -/
structure CfgSt where
  raw : Sparse (List Byte) := []
  keys : Sparse (List Byte) := []
  streams : List (Nat × StreamCfg) := []
  refs : List (Nat × RefCfg) := []
  cals : List (Nat × ChanCal) := []
  points : List (Nat × PointCfg) := []
  loops : Sparse (List Byte) := []
  banks : Sparse (List F64) := []
  antenna : List F64 := []
  prio1 : Byte := 128#8
  prio2 : Byte := 128#8
  sers : List (Nat × SerItem) := []
  filter : Option (List F64) := none
  slModes : Sparse Nat := []
  deriving DecidableEq, Repr

/-- A parameter set of the tracking loops (R202), in hundredths of the table's units where it gives decimals: PLL bandwidth, order,
discriminator (1 four-quadrant), FLL bandwidth, DLL bandwidth, DLL discriminator, early-late spacing, coherent integration in
code periods (0: the default rule), C/N0 floor. -/
structure GnbPar where
  pllBw : Nat
  pllOrd : Nat
  pllDisc : Nat
  fllBw : Nat
  dllBw : Nat
  dllDisc : Nat
  spacing : Nat
  coh : Nat
  floor : Nat
  deriving DecidableEq, Repr

/-- A GNSS channel (R194-R197, R200-R203): signal, satellite and GLONASS k; state with the instants it was entered and TRACK was;
pin; rate words in force, those of the next accumulation boundary and of the one after it; the carrier oscillator's cycle count and
fraction, and the samples since PULLIN; the code oscillator's fraction, chip and code-period count; loop parameters in force, bit
synchronisation, and the memory of the loop filters; the six complex sums (very-early, early, prompt, late, very-late, data prompt, each in
phase and in quadrature), lock indicator and C/N0 of the last accumulation, since when they pass or fail their limits; continuity, slips
and whether one came since the last epoch; the carrier-smoothed pseudorange with the instant smoothing began and the carrier phase it last
used (R208); the last measurement fields (entry bytes 8-43). -/
structure GnbCh where
  sig : Nat := 0
  sat : Nat := 0
  k : Nat := 0
  st : Nat := 0
  tIn : Time := 0#64
  tTrk : Time := 0#64
  pin : Bool := false
  car : Word := 0#32
  cod : Word := 0#32
  next1 : Option (Word × Word) := none
  next2 : Option (Word × Word) := none
  carCyc : Word := 0#32
  carFrac : Word := 0#32
  smp : Nat := 0
  codFrac : Word := 0#32
  chip : Nat := 0
  per : Word := 0#32
  par : Option GnbPar := none
  sync : Bool := false
  loop : List F64 := []
  sums : List Int := []
  pli : F64 := 0#64
  cn0 : F64 := 0#64
  hi : Option Time := none
  lo : Option Time := none
  low : Option Time := none
  cont : Bool := false
  slips : Byte := 0#8
  slipped : Bool := false
  smo : Option (Time × F64 × F64) := none
  last : List Byte := []
  deriving DecidableEq, Repr

/-- Navigation data of a satellite and kind (R198): issue and bytes. -/
structure NavRec where
  sys : Nat
  sat : Nat
  kind : Nat
  issue : Nat
  bytes : List Byte
  deriving DecidableEq, Repr

/-- GNSS of a lane (R188-R213): channels; parameter sets written by signal (key 1000 + code) or channel; navigation data in use and
those accepted since the last epoch; per band the place in the blind search; the posted position; the last valid fix with its epoch; the
heading with the channels of its fixed ambiguities; whether the sample clock changed lanes since the last record; the snapshot: the
instant its interval counts from, whether IFEN is asserted for the next epoch, the capture in progress and the one being processed
(capture epochs), the residuals latched at the capture epoch, and the samples captured per port. -/
structure GnbSt where
  chs : Sparse GnbCh := []
  pars : List (Nat × GnbPar) := []
  nav : List NavRec := []
  navNew : List NavRec := []
  seekL1 : Nat := 0
  seekL5 : Nat := 0
  pos : Option (F64 × F64 × F64 × F32) := none
  fix : Option (FixRes × Time) := none
  hdg : Option F64 := none
  amb : List (Nat × Nat) := []
  clkSw : Bool := false
  snapRef : Option Time := none
  ifen : Bool := false
  cap : Option Time := none
  proc : Option Time := none
  snapR : List Nat := []
  snap : List (Nat × List Byte) := []
  deriving DecidableEq, Repr

/-- An acquisition port of a lane (R219-R222, R234): the last 58 line bits (oldest at bit 0), the sequence expected next, runs of
good and bad frames, the head identity gathered since lock with a mask of its nibbles, whether a head status was received since lock, since
when the port is LOCKED with a ready head and no fault; the MCLK edge of the next tick and the ticks received since lock (R224), and which of
the last 1,873 ticks came in a bad frame (bit 0 the latest, R223). -/
structure ApSt where
  scr : BitVec 58 := 0#58
  seq : Option Nat := none
  good : Nat := 0
  bad : Nat := 0
  idn : BitVec 64 := 0#64
  idMask : BitVec 16 := 0#16
  seen : Bool := false
  okAt : Option Time := none
  tick : Option Int := none
  fill : Nat := 0
  badT : BitVec 1873 := 0#1873
  deriving DecidableEq, Repr

/-- An output of the sinc³ decimator (R223, R225, R228): the instant its window is centred on in units of 31.25 µs, its weighted count of
ones (0 to 625³), whether it repeats an earlier output. -/
structure SincOut where
  k : Int
  v : Nat
  sub : Bool
  deriving DecidableEq, Repr

/-- A modulator stream (R223, R228): its last 1,873 bits (bit 0 the latest), the last output whose window held no tick of a bad frame, and
the outputs held for samples to come, oldest first. -/
structure Strm where
  win : BitVec 1873 := 0#1873
  good : Option Nat := none
  outs : List SincOut := []
  deriving DecidableEq, Repr

/-- A sample of an AC point (R236): its instantaneous power and reactive power, its voltages and its currents. -/
structure PtSample where
  p : F64
  q : F64
  v : List F64
  i : List F64
  deriving DecidableEq, Repr

/-- Sums of the present range-match window (R233): samples, and sums of u, y, u², u·y, where u is raw_L times the high-range full scale and
y the calibrated high-range value. -/
structure FitSum where
  n : Nat := 0
  u : Dy := ⟨0, 0⟩
  y : Dy := ⟨0, 0⟩
  uu : Dy := ⟨0, 0⟩
  uy : Dy := ⟨0, 0⟩
  deriving DecidableEq, Repr

/-- A channel of a lane's metrology (R228, R231-R234): both streams; the memories of the integrator chains of an air-core coil; since
when its samples are valid and the spans in which they were before, latest first; the match constants in force when they are not those of the configuration, the gain last fitted
and the sums of the present window; and what the present second has shown: low-range and high-range over-range, substitution. -/
structure MetCh where
  lo : Strm := {}
  hi : Strm := {}
  memH : List F64 := []
  memL : List F64 := []
  from' : Option Time := none
  spans : List (Time × Time) := []
  fitS : FitSum := {}
  ab : Option (F64 × F64) := none
  fit : Option F64 := none
  ovl : Bool := false
  clip : Bool := false
  subst : Bool := false
  deriving DecidableEq, Repr

/-- A measurement point of a lane (R237-R246): registers of codes 0x00-0x0A in units of 2^-32 (modulo 2^96), wrap counts of codes
0x00-0x08, the referred instant a gap began at, what the present second has shown, the interval's opening reading, carry and
last closed boundary (ns of local time), and the window values of the last sample (p, q, s, voltages, currents, f). -/
structure MetPt where
  tot : Sparse Nat := []
  wraps : Sparse Nat := []
  gapAt : Option Time := none
  secGap : Bool := false
  secSubst : Bool := false
  secFreq : Bool := false
  openR : Nat := 0
  carry : Nat := 0
  closed : Option Int := none
  vals : List F64 := []
  deriving DecidableEq, Repr

/-- A pulse generator (R248, R249): R0 in units of 2^-32, pulses emitted, end of the pulse in progress, start and end of the last
one. -/
structure MetPo where
  r0 : Nat := 0
  ne : Nat := 0
  busy : Option Time := none
  start : Option Time := none
  fin : Option Time := none
  deriving DecidableEq, Repr

/-- Metrology of a lane (R214-R252): ports, channels, points, pulse generators, the last samples of AC points (latest first, R236); whether its registers are loaded (R244); the
referred instant of the last completed sample; match constants to load (channel, a_L, b_L, instant). -/
structure MetSt where
  aps : Sparse ApSt := []
  chs : Sparse MetCh := []
  pts : Sparse MetPt := []
  pos : Sparse MetPo := []
  wins : Sparse (List PtSample) := []
  loaded : Bool := false
  last : Option Time := none
  due : List (Nat × F64 × F64 × Time) := []
  deriving DecidableEq, Repr

/-- A billing slot of AO MRAM (R243, R250): the MTC and sequence number it carries, points with their gap seconds, generators. -/
structure MetSlot where
  mtc : Time
  seq : Nat
  pts : Sparse MetPt
  gaps : List (Nat × Nat)
  pos : Sparse MetPo
  deriving DecidableEq, Repr

/-- The Tender of a lane (R450, R452, R454): correctable DRAM errors of the present hour by 64 MiB region, in all, those of SRAM, whether
TND_CE was recorded in this hour, the counts of the last whole hour, the correctable addresses of the last 24 h with their instants,
pages retired, whether a limit was passed in this hour, and the last reference comparison in ppb. -/
structure TndSt where
  region : List (Nat × Nat) := []
  dram : Nat := 0
  sram : Nat := 0
  ceRec : Bool := false
  lastDram : Nat := 0
  lastSram : Nat := 0
  addrs : List (Nat × Time) := []
  pages : List Nat := []
  excess : Bool := false
  ppb : Int := 0
  deriving DecidableEq, Repr

/-- One compute lane (R12, R35): its phase; the fast PLLs the cycle has stopped (R28) and the spread code each of cores, feature engine and
solver started with (R465); its units. -/
structure LaneSt where
  ph : LanePh := .off
  pllOff : List Engine := []
  spread : Nat × Nat × Nat := (2, 2, 2)
  tmb : TmbSt := {}
  slv : SlvSt := {}
  bank0 : Bank := {}
  bank1 : Bank := {}
  nbank0 : Bank := {}
  nbank1 : Bank := {}
  fus : FusSt := {}
  mir : MirSt := {}
  lpe : LpeSt := {}
  hri : HriSt := {}
  gnb : GnbSt := {}
  met : MetSt := {}
  health : LaneHealth := {}
  tnd : TndSt := {}
  ser : List (Nat × List SerVal) := []
  deriving DecidableEq, Repr

/-- What a command put on a port of the module: the completion of an order (R364), a stream record (R379), an interrupt (R360),
bytes written to host memory, a CAN frame, a PTP message (its correctionField in 2^-16 ns; over UDP with checksum 0), a ring frame, a Keeper word, a watch word, a mirror-link frame, a
clock word, a gratuitous ARP or supervision frame, a network datagram, or edges of a pulse, time-pulse or safety pin. -/
inductive Emit where
  | complete (i : OrdInfo) (code detail : Nat)
  | stream (l : Lane) (kind : Nat) (words : List (BitVec 64))
  | msix (l : Lane) (vec : Nat)
  | dma (l : Lane) (addr : BitVec 64) (bytes : List Byte)
  | can (c k : Nat) (data : List Byte)
  | ptp (port kind dom : Nat) (udp : Bool) (seq : BitVec 16) (ts corr : Int) (dat : List Nat)
  | ring (port : Bool) (typ : Nat) (hdr : BitVec 256) (payload : List Byte)
  | keeper (l : Lane) (role : Option Lane)
  | watch (l : Lane) (w : BitVec 64)
  | mirror (i : MirItem) (frames : List (List Byte))
  | ack (ver cyc : Word)
  | arp (l : Lane) (mac : BitVec 48) (ip : Word) (seq : BitVec 16)
  | prpSup (src : BitVec 48) (seq : BitVec 16)
  | ringItem (i : MirItem) (frames : List (Bool × BitVec 256 × List Byte))
  | dgram (st port : Nat) (seq : BitVec 16) (bytes : List Byte)
  | pin (name idx : Nat) (on : Bool)
  deriving DecidableEq, Repr

/-- Faults. The block has no instruction that can stop it with a fault: an error the spec describes is an effect on the state, an event
or a completion code (log entry 5). -/
inductive Fault where
  /-- Raised by no command (safe: nothing is claimed of a fault). -/
  | unreachable
  deriving DecidableEq, Repr

/-- Refusals. -/
inductive Refusal where
  /-- A command that has no meaning yet: raised by the dispatch only, by name (safe). -/
  | notModelled (mnemonic : String)
  deriving DecidableEq, Repr

/-- The state of the block: the commands that wait, first in, first out; the instant of the last command; what it put on the ports; whether
the module is out of reset with a supply; the register file (log entry 4); the two lanes; the cycle; the solver configuration in force; the
authority state of the Active lane and the copy the Standby adopted; orders that wait for their completion, with the counters of tickets
and of free vectors; the version the Standby acknowledged last; the sequence of datagrams sent; what is under way on the mirror link and the sequence of its last frame;
configuration; Keeper; networks, with the descriptors of accepted datagrams and the port each station sent from; recorder; update; PTP;
RTC; IF port enables; the modulator clocks driven; the time-pulse outputs as driven; the two billing slots; the pulse outputs as driven; message buses; safety island; the recorded reference offset;
alarms that stand, by code and instance. -/
structure State where
  pending : List Instr := []
  now : Time := 0#64
  out : List Emit := []
  up : Bool := true
  regs : Sparse Word := []
  la : LaneSt := {}
  lb : LaneSt := {}
  cyc : CycSt := {}
  slvCfg : SlvCfg := {}
  auth : Auth := {}
  authMir : Auth := {}
  waits : List Wait := []
  tkt : Nat := 0
  fresh : Nat := 0
  ackVer : Word := 0#32
  dgSeq : Word := 0#32
  mirTx : List MirItem := []
  linkSeq : BitVec 16 := 0#16
  cfg : CfgSt := {}
  kpr : KprSt := {}
  net : NetSt := {}
  netPend : List (Nat × Nat × Time × Nat) := []
  netPort : List (Nat × Nat) := []
  rec' : RecSt := {}
  upd : UpdSt := {}
  ptp : PtpSt := {}
  rtc : RtcSt := {}
  ifen : BitVec 4 := 0#4
  mclk : BitVec 24 := 0#24
  tpOut : BitVec 4 := 0#4
  met0 : Option MetSlot := none
  met1 : Option MetSlot := none
  poOut : BitVec 8 := 0#8
  mbc : MbcSt := {}
  saf : SafSt := {}
  oscRec : Option Int := none
  alarms : List (Nat × Nat) := []
  deriving DecidableEq, Repr

/-- A lane right after module reset: unpowered; both its billing slots were found good (R243, R244). -/
def LaneSt.reset : LaneSt :=
  { pllOff := [.fen, .slv], met := { loaded := true }, bank0 := { reverify := true }, bank1 := { reverify := true },
    nbank0 := { reverify := true }, nbank1 := { reverify := true } }

/-- Registers that do not read their table value after the first power-up: supplies present, cause, domains AO, KPR, SAF and NIO on and
both wipes due (R470); the recorder after its first two records (R443, R438); the delivered images (R480), spares whole (R453), Lane B's
number (R352). Log entry 46 names the values the spec does not give. -/
def resetRegs : Sparse Word :=
  [(0x20000, 0x0301300F#32), (0x20008, 0x5DC05DC0#32), (0x2000C, 0x00000BB8#32), (0x50004, 0x00020001#32), (0x50008, 0x00000001#32),
   (0x50014, 0x00000001#32), (0x11002C, 0x000B0004#32), (0x110000C, 0x000003E8#32), (0x1110024, 0x000B0004#32),
   (0x20B0004, 0x00000002#32), (0x210000C, 0x000003E8#32), (0x2110024, 0x000B0004#32)]

/-- The records a delivered module holds after its first power-up (R443): REC_LCCHG from 0xFF to Blank, then REC_START with cause 1
and the calendar at its start. -/
def resetSlots : Sparse (BitVec 256) :=
  [(0, 0x0004002000000000000000FF0000000000000000000000000000000000000000#256),
   (1, 0x0001002000010100000020010000000100000000000000000000000000000001#256)]

/-- The machine right after reset: the delivered module at the end of its first power-up reset (R468, R470), in Lay-up (R48), with both
lanes about to be powered, no command waiting, and the first epoch at MTC 0 (R17). -/
def State.reset : State :=
  { regs := resetRegs, la := LaneSt.reset, lb := LaneSt.reset, rec' := { slots := resetSlots, q := 2, next := 2 },
    upd := { slots := [(0, { mirFmt := 1 }), (2, { mirFmt := 1 })] } }


end Sys2Proof.Machine
end

