-- ==== Sys2Proof/Machine/Ops.lean ====
section
/-!
DEFINITION. The named operations: fields of the register file, the lanes, events and alarms, module time, byte strings and
checks, and how a command runs.
-/

namespace Sys2Proof.Machine

/-! Byte strings and checks. -/

/-- Little-endian number of a byte string (R5). -/
def leNat : List Byte → Nat
  | [] => 0
  | b :: bs => b.toNat + 256 * leNat bs

/-- The `n` little-endian bytes of a number. -/
def leBytes : Nat → Nat → List Byte
  | 0, _ => []
  | n + 1, v => BitVec.ofNat 8 v :: leBytes n (v / 256)

/-- `n` bytes from offset `o`. -/
def slice (bs : List Byte) (o n : Nat) : List Byte := (bs.drop o).take n

/-- The little-endian number of `n` bytes at offset `o`. -/
def leAt (bs : List Byte) (o n : Nat) : Nat := leNat (slice bs o n)

/-- `k` steps of the reflected CRC-32C register. -/
def crcBits : Nat → BitVec 32 → BitVec 32
  | 0, r => r
  | k + 1, r => crcBits k (if r.getLsbD 0 then (r >>> 1) ^^^ 0x82F63B78#32 else r >>> 1)

/-- CRC-32C register over a byte string. -/
def crcRun (r : BitVec 32) : List Byte → BitVec 32
  | [] => r
  | b :: bs => crcRun (crcBits 8 (r ^^^ b.setWidth 32)) bs

/-- CRC-32C of a byte string (R363): initial value and final inversion all ones. -/
def crc32c (bs : List Byte) : BitVec 32 := crcRun 0xFFFFFFFF#32 bs ^^^ 0xFFFFFFFF#32

/-- Bit `i` of a number. -/
def bit (v i : Nat) : Bool := v.testBit i

/-- Number in a range. -/
def within (lo hi v : Nat) : Bool := decide (lo ≤ v) && decide (v ≤ hi)

/-- 1 for true, 0 for false. -/
def b2n (b : Bool) : Nat := if b then 1 else 0

/-- A signed number as the low `w` bits of its two's complement, saturated to the field. -/
def satInt (w : Nat) (v : Int) : Nat :=
  let hi : Int := 2 ^ (w - 1)
  let v := if v < -hi then -hi else if hi - 1 < v then hi - 1 else v
  (v % (2 ^ w : Int)).toNat

/-- The bytes of stored blocks (R65, R376): block after block, those beyond the others' numbers last. -/
def joinBlocks (bl : List (Nat × List Byte)) : List Byte :=
  ((List.range bl.length).map (fun k => ((bl.find? (fun p => p.1 == k)).map (·.2)).getD [])).flatten
    ++ ((bl.filter (fun p => decide (bl.length ≤ p.1))).map (·.2)).flatten

/-- The signed reading of a `w`-bit field. -/
def sgn (w v : Nat) : Int := if v % 2 ^ w < 2 ^ (w - 1) then (v % 2 ^ w : Nat) else (v % 2 ^ w : Nat) - (2 ^ w : Nat)

/-- Replace the element at an index. -/
def listSet {α : Type} : List α → Nat → α → List α
  | [], _, _ => []
  | _ :: l, 0, v => v :: l
  | x :: l, n + 1, v => x :: listSet l n v

/-- Set a key of an association list. -/
def alSet {α : Type} (l : List (Nat × α)) (k : Nat) (v : α) : List (Nat × α) :=
  (k, v) :: l.filter (fun p => p.1 ≠ k)

/-- Remove a key of an association list. -/
def alDel {α : Type} (l : List (Nat × α)) (k : Nat) : List (Nat × α) := l.filter (fun p => p.1 ≠ k)

/-- Read a key of an association list. -/
def alGet {α : Type} (l : List (Nat × α)) (k : Nat) : Option α := (l.find? (fun p => p.1 == k)).map (·.2)

/-- How long past values of a source are kept: longer than the longest period of a loop slot (R254), so that a sample computed late
still finds the value that stood at its instant. -/
def histSpan : Nat := 11000000000

/-! Module time. -/

/-- Nanoseconds from `b` to `a`, a modular difference (R320, R53). -/
def since (a b : Time) : Nat := (a - b).toNat

/-- Whether instant `a` is at or after `b`: the modular difference is below half the range (R53). -/
def atOrAfter (a b : Time) : Bool := decide (since a b < 2 ^ 63)

/-- A later instant. -/
def plus (a : Time) (n : Nat) : Time := a + BitVec.ofNat 64 n

/-- The first tick of the 125 MHz timebase at or after an instant (R318, R319). -/
def tickAt (a : Time) : Time := plus a ((8 - a.toNat % 8) % 8)

/-- One millisecond in nanoseconds. -/
def ms : Nat := 1000000

/-- One second in nanoseconds. -/
def sec : Nat := 1000000000

/-- A history, newest first, without what is older than the span: the newest of those still stays. -/
def trimOld {α : Type} (stamp : α → Time) (now : Time) : List α → List α
  | [] => []
  | x :: xs => if since now (stamp x) ≤ histSpan then x :: trimOld stamp now xs else [x]

/-- The newest entry of a history at or before an instant. -/
def latestAt {α : Type} (stamp : α → Time) (t : Time) (xs : List α) : Option α := xs.find? (fun x => atOrAfter t (stamp x))

/-- The newest entry of a history strictly before an instant (R20). -/
def latestBefore {α : Type} (stamp : α → Time) (t : Time) (xs : List α) : Option α :=
  xs.find? (fun x => atOrAfter t (stamp x) && t != stamp x)

/-! The register file. -/

/-- Span of one copy of the register space in the keys of `regs`. -/
def laneSpan : Nat := 0x1000000

/-- Value of a register that holds what the first module reset leaves (R11). -/
def regDef (k : Nat) : Word := regDflt (k % laneSpan)

/-- Key of a field's register, in the copy of a lane where each lane has its own (R495). -/
def Fld.key (f : Fld) (l : Lane) : Nat := if f.perLane then f.off + laneSpan * (1 + l.idx) else f.off

/-- Read of a whole register by key. -/
def rdK (s : State) (k : Nat) : Word := Sparse.get regDef s.regs k

/-- Write of a whole register by key. -/
def wrK (k : Nat) (v : Word) (s : State) : State := { s with regs := Sparse.set regDef s.regs k v }

/-- Field of a word. -/
def fieldOf (v : Word) (lsb w : Nat) : Nat := v.toNat / 2 ^ lsb % 2 ^ w

/-- A word with a field replaced. -/
def withField (v : Word) (lsb w x : Nat) : Word :=
  BitVec.ofNat 32 (v.toNat - fieldOf v lsb w * 2 ^ lsb + x % 2 ^ w * 2 ^ lsb)

/-- Value of a field (of lane `l`, where each lane has its own). -/
def getF (s : State) (f : Fld) (l : Lane := .a) : Nat := fieldOf (rdK s (f.key l)) f.lsb f.w

/-- A one-bit field as a Bool. -/
def getB (s : State) (f : Fld) (l : Lane := .a) : Bool := getF s f l == 1

/-- Set a field. -/
def setF (f : Fld) (x : Nat) (l : Lane) (s : State) : State :=
  wrK (f.key l) (withField (rdK s (f.key l)) f.lsb f.w x) s

/-- Set a one-bit field. -/
def setB (f : Fld) (x : Bool) (l : Lane) (s : State) : State := setF f (b2n x) l s

/-- Count up a field that sticks at its maximum (R52). -/
def incF (f : Fld) (l : Lane) (s : State) (n : Nat := 1) : State :=
  setF f (min (getF s f l + n) (2 ^ f.w - 1)) l s

/-- Count up a field that wraps. -/
def wrapF (f : Fld) (l : Lane) (s : State) : State := setF f (getF s f l + 1) l s

/-- A field in both lanes' copies. -/
def setF2 (f : Fld) (x : Nat) (s : State) : State := setF f x .b (setF f x .a s)

/-- Clear a whole register of a lane. -/
def clrK (off : Nat) (l : Lane) (s : State) : State := wrK (off + laneSpan * (1 + l.idx)) 0#32 s

/-- Clear a field of `n` registers `stride` apart. -/
def clrEach (f : Nat → Fld) (l : Lane) : Nat → State → State
  | 0, s => s
  | n + 1, s => clrEach f l n (setF (f n) 0 l s)

/-! Lanes. -/

/-- The state of a lane. -/
def State.lane (s : State) : Lane → LaneSt
  | .a => s.la
  | .b => s.lb

/-- Replace the state of a lane. -/
def State.setLane (s : State) (l : Lane) (v : LaneSt) : State :=
  match l with
  | .a => { s with la := v }
  | .b => { s with lb := v }

/-- Change the state of a lane. -/
def onLane (l : Lane) (f : LaneSt → LaneSt) (s : State) : State := s.setLane l (f (s.lane l))

/-- The Active lane: the lane the role lines name (R288). -/
def active (s : State) : Option Lane := s.kpr.role

/-- Whether a lane is the Active one. -/
def isActive (s : State) (l : Lane) : Bool := s.kpr.role == some l

/-- Whether a lane is out of reset with its DRAM wiped (R470), so that it runs its start sequence or more. -/
def ready (s : State) (l : Lane) : Bool := (s.lane l).ph == .ready

/-- Whether the Keeper has blocked a lane (R289). -/
def blocked (s : State) (l : Lane) : Bool :=
  match l with
  | .a => getB s Reg.KPR_STAT_ablk
  | .b => getB s Reg.KPR_STAT_bblk

/-- Whether a lane's endpoint is shut (R353): from the instant the Keeper blocks the lane until the lane is ready again after its
reset. A lane that is ready again is served while it waits for admission, so that its packages can be loaded (R91). -/
def shut (s : State) (l : Lane) : Bool :=
  !ready s l || (match l with
    | .a => s.kpr.la.failed
    | .b => s.kpr.lb.failed)

/-- Whether the Keeper has admitted a lane (R301). -/
def admitted (s : State) (l : Lane) : Bool :=
  match l with
  | .a => getB s Reg.KPR_STAT_aadm
  | .b => getB s Reg.KPR_STAT_badm

/-- The Standby lane, while one is admitted (R295). -/
def standby (s : State) : Option Lane :=
  match active s with
  | some l => if admitted s l.other && ready s l.other && !blocked s l.other then some l.other else none
  | none => none

/-- Own number on the ring (R317). -/
def ringNum (s : State) : Nat := getF s Reg.NET_RING_CFG_num

/-- Whether the module keeps its output paths released (R313, R314): a standby module that has not been granted the active part, or
an active module that has given it up. -/
def outReleased (s : State) : Bool :=
  match getF s Reg.NET_RING_CFG_role with
  | 1 => s.net.released
  | 2 => decide (s.net.actNum ≠ ringNum s) || s.net.released
  | _ => false

/-- NET_RING_STAT.granted (R317): a module of a pair holds the active part. -/
def showPart (s : State) : State :=
  setB Reg.NET_RING_STAT_granted ((getF s Reg.NET_RING_CFG_role == 1 || getF s Reg.NET_RING_CFG_role == 2) && !outReleased s) .a s

/-- Apply to both lanes, Lane A first. -/
def bothLanes (f : Lane → State → State) (s : State) : State := f .b (f .a s)

/-- Apply to the lanes that are ready. -/
def readyLanes (f : Lane → State → State) : State → State :=
  bothLanes (fun l s => if ready s l then f l s else s)

/-- Apply `f` for each number of a list. -/
def forEach {α : Type} (f : α → State → State) : List α → State → State
  | [], s => s
  | x :: xs, s => forEach f xs (f x s)

/-- Apply `f` when a condition holds. -/
def when (c : Bool) (f : State → State) (s : State) : State := if c then f s else s

/-- Put something on a port. -/
def emit (e : Emit) (s : State) : State := { s with out := s.out ++ [e] }

/-- A frame leaves on both LANs with the next number of the trailer of its source address (R305): the module address, or a lane's own. -/
def prpSend (src : Option Lane) (e : BitVec 16 → Emit) (s : State) : State :=
  match src with
  | none => emit (e (s.net.prpSeq + 1#16)) { s with net := { s.net with prpSeq := s.net.prpSeq + 1#16 } }
  | some .a => emit (e (s.net.prpA + 1#16)) { s with net := { s.net with prpA := s.net.prpA + 1#16 } }
  | some .b => emit (e (s.net.prpB + 1#16)) { s with net := { s.net with prpB := s.net.prpB + 1#16 } }

/-! Events and alarms. -/

/-- The source group (R434) of a source: its queue. -/
def Src.group : Src → Nat
  | .keeper => 0
  | .safety => 0
  | .timebase => 1
  | .rtc => 1
  | .wake => 1
  | .appender => 1
  | .lane .a _ => 2
  | .lane .b _ => 3
  | .bus _ => 4
  | .host _ => 5

/-- Hand an event to its source group's queue (R434): a queue holds 256 records; a record that finds it full is dropped and
counted, and the next one accepted is preceded by REC_DROP (R444). -/
def pushEvent (e : Event) (s : State) : State :=
  let g := e.src.group
  let q := s.rec'.queues.getD g {}
  if q.q.length < 256 then
    let pre : List Event := if q.dropped = 0 then [] else
      [{ e with data := BitVec.ofNat 64 (min q.dropped (2 ^ 32 - 1)), src := .appender,
                code := BitVec.ofNat 16 Ev.REC_DROP, alm := false, clr := false }]
    { s with rec' := { s.rec' with queues := listSet s.rec'.queues g ⟨q.q ++ pre ++ [e], 0⟩ } }
  else
    let s1 := { s with rec' := { s.rec' with queues := listSet s.rec'.queues g ⟨q.q, q.dropped + 1⟩ } }
    when (e.alm || e.clr) (setF Reg.REC_STAT_almdrop 1 .a) (incF Reg.REC_CNT_drop .a s1)

/-- An event record of the module stamped at an instant (R336, R435): its counters are those at the event (R437). -/
def raiseAt (stamp : Time) (src : Src) (code data : Nat) (alm clr : Bool) (s : State) : State :=
  pushEvent ⟨stamp, rdK s Reg.REC_OPSEC, rdK s Reg.REC_PWRCYC, BitVec.ofNat 64 data, src, BitVec.ofNat 16 code, alm, clr⟩ s

/-- An event record of the module, stamped now. -/
def raise (src : Src) (code data : Nat) (s : State) : State := raiseAt s.now src code data false false s

/-- Key of a word of an endpoint's BAR4 (R352): the MSI-X table from 0x0000, the pending-bit array from 0x1000. It stands beside the
lane's registers, at offsets the register map does not list; NIO holds it, so a lane reset leaves it (R353). -/
def msixKey (l : Lane) (o : Nat) : Nat := 0xB8000 + o + laneSpan * (1 + l.idx)

/-- Key of the word of the pending-bit array that holds a vector. -/
def pbaKey (l : Lane) (v : Nat) : Nat := msixKey l (0x1000 + v / 32 % 2 * 4)

/-- Whether a vector's entry in the MSI-X table lets it out. Bit 0 of its fourth word masks it, set until host software clears it (log entry
89); the word is kept with that bit inverted. -/
def vecOpen (s : State) (l : Lane) (v : Nat) : Bool := bit (rdK s (msixKey l (16 * v + 12))).toNat 0

/-- Raise a vector of an endpoint (R360): a masked one is marked in the pending-bit array. -/
def raiseVec (l : Lane) (v : Nat) (s : State) : State :=
  if vecOpen s l v then emit (.msix l v) s
  else wrK (pbaKey l v) (rdK s (pbaKey l v) ||| BitVec.ofNat 32 (2 ^ (v % 32))) s

/-- Set a bit of HRI_SYS_STAT of a lane's endpoint, which raises the system vector when the bit becomes set (R361). A lane that
is shut sets none (R353). -/
def sysStat (f : Fld) (l : Lane) (s : State) : State :=
  if getB s f l || shut s l then s else raiseVec l (getF s Reg.HRI_SYS_CFG_vec l) (setF f 1 l s)

/-- Raise an alarm (R530): a record with flag alm, once until it is cleared (log entry 15); HRI_SYS_STAT.alarm of both lanes is
set. `key` tells the instances of one code apart. -/
def raiseAlarm (src : Src) (code key data : Nat) (s : State) : State :=
  if s.alarms.contains (code, key) then s
  else
    bothLanes (sysStat Reg.HRI_SYS_STAT_alarm)
      { raiseAt s.now src code data true false s with alarms := s.alarms ++ [(code, key)] }

/-- Clear an alarm that is raised (R530): a record with flag almclr. -/
def clearAlarm (src : Src) (code key data : Nat) (s : State) : State :=
  if s.alarms.contains (code, key) then
    { raiseAt s.now src code data false true s with alarms := s.alarms.filter (· ≠ (code, key)) }
  else s

/-- The block of a lane as a source of events. -/
def laneSrc (l : Lane) (blk : Nat) : Src := .lane l blk

/-- The source of an alarm's records where the lane that raised it is no more (R530): the owner of its code, Lane A of a lane's blocks. -/
def alarmSrc (code : Nat) : Src :=
  match code / 256 with
  | 0 => .appender
  | 2 => if code == Ev.KPR_LOST || code == Ev.KPR_MIRROR then laneSrc .a 1 else .keeper
  | 3 => .wake
  | 4 => .timebase
  | 5 => .rtc
  | 13 => .bus 12
  | 14 => .bus 13
  | 15 => .bus 14
  | 16 => .safety
  | n => laneSrc .a (n - 1)

/-- Alarms end with the state they stood for: each by a record of its code with flag almclr (R530), whose data name the instance. -/
def endAlarms (p : Nat → Bool) (s : State) : State :=
  forEach (fun a => clearAlarm (alarmSrc a.1) a.1 a.2 a.2) (s.alarms.filter (fun a => p a.1)) s

/-! Wear of the flash (R453). -/

/-- The wear of a lane's flash. -/
def flashOf (s : State) : Lane → FlashSt
  | .a => s.upd.flashA
  | .b => s.upd.flashB

/-- Change the wear of a lane's flash. -/
def onFlash (l : Lane) (f : FlashSt → FlashSt) (s : State) : State :=
  match l with
  | .a => { s with upd := { s.upd with flashA := f s.upd.flashA } }
  | .b => { s with upd := { s.upd with flashB := f s.upd.flashB } }

/-- Counts of blocks start at 0. -/
def noCount (_ : Nat) : Nat := 0

/-- A block is erased and programmed: its reads count anew. -/
def flashWrite (b : Nat) (f : FlashSt) : FlashSt :=
  { f with erase := Sparse.set noCount f.erase b (Sparse.get noCount f.erase b + 1), reads := Sparse.erase f.reads b }

/-- A block is read. -/
def flashRead (b : Nat) (f : FlashSt) : FlashSt := { f with reads := Sparse.set noCount f.reads b (Sparse.get noCount f.reads b + 1) }

/-! How a command runs. -/

/-- The state as a command at instant `t` finds it: time has come to `t`, and the ports are silent. -/
def begin' (t : Time) (s : State) : State := { s with now := t, out := [] }

/-- Run a command at instant `t` whether or not the module is out of reset. -/
def runAny (t : Time) (s : State) (f : State → State) : Host.Outcome State Fault Refusal := .next (f (begin' t s))

/-- Run a command at instant `t`; a module in reset or without supply does nothing. -/
def run (t : Time) (s : State) (f : State → State) : Host.Outcome State Fault Refusal :=
  .next (if s.up then f (begin' t s) else begin' t s)

/-- Run a command of a lane: a lane that is not ready does nothing. -/
def runLane (t : Time) (l : Lane) (s : State) (f : State → State) : Host.Outcome State Fault Refusal :=
  run t s (fun s => if ready s l then f s else s)

end Sys2Proof.Machine
end

