-- ==== Sys2Proof/Machine/Rings.lean ====
section
/-!
DEFINITION. Rings and interrupts of an endpoint (R354-R361, R379): indices, entries written to host memory, interrupt
moderation, and stream records.
-/

namespace Sys2Proof.Machine

/-- Whether a ring is enabled and in service (R355). -/
def ringOn (s : State) (l : Lane) (n : Nat) : Bool :=
  decide (n < 64) && getB s (Reg.HRI_RGn_CFG_en n) l && decide (getF s (Reg.HRI_RGn_STAT_state n) l ≠ 3)

/-- Entries of a ring (R354). -/
def ringSize (s : State) (l : Lane) (n : Nat) : Nat := 2 ^ getF s (Reg.HRI_RGn_CFG_lsz n) l

/-- Base address of a ring. -/
def ringBase (s : State) (l : Lane) (n : Nat) : Nat :=
  (rdK s (Reg.HRI_RGn_BASEL n + laneSpan * (1 + l.idx))).toNat + 2 ^ 32 * (rdK s (Reg.HRI_RGn_BASEH n + laneSpan * (1 + l.idx))).toNat

/-- Base address of a stream ring's data area. -/
def ringDBase (s : State) (l : Lane) (n : Nat) : Nat :=
  (rdK s (Reg.HRI_RGn_DBASEL n + laneSpan * (1 + l.idx))).toNat +
    2 ^ 32 * (rdK s (Reg.HRI_RGn_DBASEH n + laneSpan * (1 + l.idx))).toNat

/-- Whether a ring the module writes is full (R356). -/
def ringFull (s : State) (l : Lane) (n : Nat) : Bool :=
  decide ((getF s (Reg.HRI_RGn_PTR_idx n) l + 1) % ringSize s l n = getF s (Reg.HRI_RGn_HOST_idx n) l)

/-- Unlisted rings' state. -/
def ringDef (_ : Nat) : RingSt := {}

/-- A ring's state beyond its registers. -/
def ringSt (s : State) (l : Lane) (n : Nat) : RingSt := Sparse.get ringDef (s.lane l).hri.rings n

/-- Change a ring's state. -/
def onRing (l : Lane) (n : Nat) (f : RingSt → RingSt) : State → State :=
  onLane l (fun a => { a with hri := { a.hri with rings := Sparse.set ringDef a.hri.rings n (f (Sparse.get ringDef a.hri.rings n)) } })

/-- Signal an entry just written (R360): the vector is raised when HRI_RGn_MOD.cnt entries are not yet signalled (0: at every
entry); otherwise the oldest of them starts the wait that INTERRUPT_MODERATION ends. A blocked lane's endpoint raises none (R353). -/
def signalEntry (l : Lane) (n : Nat) (s : State) : State :=
  if getB s (Reg.HRI_RGn_CFG_ie n) l && !shut s l then
    let u := (ringSt s l n).unsig + 1
    if max 1 (getF s (Reg.HRI_RGn_MOD_cnt n) l) ≤ u then
      raiseVec l (getF s (Reg.HRI_RGn_CFG_vec n) l) (onRing l n (fun r => { r with unsig := 0 }) s)
    else onRing l n (fun r => { r with unsig := u, oldest := if u = 1 then s.now else r.oldest }) s
  else s

/-- Write one 64-byte entry at the module's index of a ring (R356, R359): `mk` makes it from the phase; the index advances and
the phase inverts on each later pass. -/
def pushEntry (l : Lane) (n : Nat) (mk : Bool → List Byte) (s : State) : State :=
  let i := getF s (Reg.HRI_RGn_PTR_idx n) l
  let ph := getB s (Reg.HRI_RGn_PTR_ph n) l
  let s1 := emit (.dma l (BitVec.ofNat 64 (ringBase s l n + 64 * i)) (mk ph)) s
  let i' := (i + 1) % ringSize s l n
  let s2 := setF (Reg.HRI_RGn_PTR_idx n) i' l s1
  signalEntry l n (setB (Reg.HRI_RGn_PTR_ph n) (if i' = 0 then !ph else ph) l s2)

/-- The first number below a bound that passes a test, counting up from `n - fuel`. -/
def firstBelow (n : Nat) (p : Nat → Bool) : Nat → Option Nat
  | 0 => none
  | fuel + 1 => if p (n - (fuel + 1)) then some (n - (fuel + 1)) else firstBelow n p fuel

/-- The enabled stream ring of a lane that carries a class (R354: at most one). -/
def streamRing (s : State) (l : Lane) (cls : Nat) : Option Nat :=
  firstBelow 64 (fun n => ringOn s l n && getF s (Reg.HRI_RGn_CFG_kind n) l == 2 && getF s (Reg.HRI_RGn_CFG_sclass n) l == cls) 64

/-- Whether a piece of a data area meets none of the used pieces. -/
def pieceFree (used : List (Nat × Nat)) (o len : Nat) : Bool :=
  used.all (fun p => decide (p.2 = 0) || decide (o + len ≤ p.1) || decide (p.1 + p.2 ≤ o))

/-- Where a long record goes in the data area (R379): at the next 64-byte-aligned offset, or at 0 when it does not fit before
the end; none where space lacks. -/
def pieceAt (s : State) (l : Lane) (n len : Nat) : Option Nat :=
  let size := 4096 * getF s (Reg.HRI_RGn_DSIZE_pages n) l
  let o := ((ringSt s l n).dofs + 63) / 64 * 64
  let o := if o + len ≤ size then o else 0
  if o + len ≤ size && pieceFree (ringSt s l n).used o len then some o else none

/-- A stream entry (R379). -/
def streamEntry (cls typ flags seq : Nat) (stamp : Time) (ofs len lost : Nat) (rec' : List Byte) (ph : Bool) : List Byte :=
  [BitVec.ofNat 8 cls, BitVec.ofNat 8 typ] ++ leBytes 2 (b2n ph + (if len ≤ 32 then 2 else 0) + flags) ++ leBytes 4 seq
    ++ leBytes 8 stamp.toNat ++ leBytes 4 ofs ++ leBytes 4 len ++ leBytes 4 (crc32c rec').toNat ++ leBytes 4 lost
    ++ (if len ≤ 32 then rec' ++ List.replicate (32 - len) 0#8 else List.replicate 32 0#8)

/-- Deliver a record on the stream ring of its class of a lane (R379, R380): written whole or dropped and counted. Flag bit 2
marks what the Standby wrote. A blocked lane writes no ring entries (R353). -/
def streamRec (l : Lane) (cls typ : Nat) (stamp : Time) (rec' : List Byte) (s : State) : State :=
  match if shut s l then none else streamRing s l cls with
  | none => s
  | some n =>
    let r := ringSt s l n
    let len := rec'.length
    let place := if len ≤ 32 then some 0 else pieceAt s l n len
    match ringFull s l n, place with
    | false, some o =>
      let fl := if isActive s l then 0 else 4
      let s1 := if len ≤ 32 then s else emit (.dma l (BitVec.ofNat 64 (ringDBase s l n + o)) rec') s
      let s2 := pushEntry l n (streamEntry cls typ fl r.sseq.toNat stamp (if len ≤ 32 then 0 else o) len r.lost rec') s1
      onRing l n (fun r => { r with sseq := r.sseq + 1#32, lost := 0,
                                    dofs := if len ≤ 32 then r.dofs else o + len,
                                    used := r.used ++ [if len ≤ 32 then (0, 0) else (o, len)] }) s2
    | _, _ => incF (Reg.HRI_RGn_STAT_lost n) l
        (onRing l n (fun r => { r with lost := min (r.lost + 1) (2 ^ 32 - 1) }) s)

end Sys2Proof.Machine
end

