-- ==== Sys2Proof/Machine/Bus.lean ====
section
/-!
DEFINITION. The message buses (R385-R405): CAN FD controllers, message objects, field encodings, serial sentences and network
datagrams. Station 7 is in Link. The transmission of a frame is one command at the instant of its start, so no frame is ever between
its start and its end (log entry 90).
-/

namespace Sys2Proof.Machine

/-! Message objects and encodings. -/

/-- Unlisted objects are off. -/
def objDef (_ : Nat) : ObjCfg := {}

/-- An object's configuration. -/
def objCfg (s : State) (k : Nat) : ObjCfg := Sparse.get objDef s.mbc.objs k

/-- Bytes of an encoding (R392). -/
def encLen (enc : Nat) : Nat :=
  match enc with
  | 1 => 1 | 2 => 1 | 3 => 2 | 4 => 2 | 5 => 4 | 6 => 4 | 7 => 4 | 8 => 8 | _ => 0

/-- An exact value rounded to binary32; a zero takes the sign `neg`. -/
def dyTo32 (neg : Bool) (d : Dy) : F32 :=
  let (q, e) := roundBin 24 (-149) d.m.natAbs d.e false
  BitVec.ofNat 32 (packBin 24 8 (if d.m = 0 then neg else decide (d.m < 0)) q e)

/-- Range of an integer encoding. -/
def encRange (enc : Nat) : Int × Int :=
  match enc with
  | 1 => (-128, 127) | 2 => (0, 255) | 3 => (-32768, 32767) | 4 => (0, 65535)
  | 5 => (-2147483648, 2147483647) | _ => (0, 4294967295)

/-- A physical value encoded (R392): bytes, and whether the result saturated or was not finite. -/
def encodeVal (enc : Nat) (scale : F32) (v : F64) : List Byte × Bool :=
  let sc := F64.of32 scale
  if !F64.isFin v || !F64.isFin sc then (List.replicate (encLen enc) 0#8, true)
  else
    let p := (F64.val sc).mul (F64.val v)
    if enc = 7 then
      let r := dyTo32 (F64.sign sc != F64.sign v) p
      if r.toNat / 2 ^ 23 % 256 = 255 then (List.replicate 4 0#8, true) else (leBytes 4 r.toNat, false)
    else if enc = 8 then
      let r := F64.ofDy (F64.sign sc != F64.sign v) p
      if F64.isFin r then (leBytes 8 r.toNat, false) else (List.replicate 8 0#8, true)
    else
      let r := p.roundAway
      let (lo, hi) := encRange enc
      let c := max lo (min hi r)
      (leBytes (encLen enc) (c % (2 ^ (8 * encLen enc) : Nat)).toNat, decide (c ≠ r))

/-- The raw value of a received field as an exact pattern (R392). -/
def decodeRaw (enc : Nat) (bs : List Byte) : F64 :=
  let n := leNat bs
  match enc with
  | 1 => F64.ofInt (sgn 8 n) | 2 => F64.ofInt n | 3 => F64.ofInt (sgn 16 n) | 4 => F64.ofInt n
  | 5 => F64.ofInt (sgn 32 n) | 6 => F64.ofInt n | 7 => F64.of32 (BitVec.ofNat 32 n) | _ => BitVec.ofNat 64 n

/-- A receive field read at an instant (R394): physical value and stamp, while the frame that `pick` takes of those received is
within the object's life and long enough, and `sub` names one of its entries. -/
def canRead (pick : List (Time × List Byte) → Option (Time × List Byte)) (s : State) (k sub : Nat) (at' : Time) : Option (F64 × Time) :=
  let o := objCfg s k
  match o.ents.find? (fun e => e.ofs == sub), pick ((alGet s.mbc.rx k).getD []) with
  | some e, some (stamp, data) =>
    if o.kind = 1 && (o.life == 0 || decide (since at' stamp ≤ o.life * ms)) && decide (e.ofs + encLen e.enc ≤ data.length) then
      some (F64.div (decodeRaw e.enc (slice data e.ofs (encLen e.enc))) (F64.of32 e.scale), stamp)
    else none
  | _, _ => none

/-- A receive field as a loop reads it (R259): from the latest frame at or before the instant. -/
def canField (s : State) (k sub : Nat) (at' : Time) : Option (F64 × Time) := canRead (latestAt (·.1) at') s k sub at'

/-- A receive field as a cycle latches it (R20): from the latest frame strictly before the epoch. -/
def canBefore (s : State) (k sub : Nat) (e : Time) : Option (F64 × Time) := canRead (latestBefore (·.1) e) s k sub e

/-! Controllers. -/

/-- Unlisted queues are empty. -/
def txDef (_ : Nat) : List CanTx := []

/-- A controller's queued frames. -/
def txQueue (s : State) (c : Nat) : List CanTx := Sparse.get txDef s.mbc.q c

/-- Replace a controller's queue. -/
def setTxQueue (c : Nat) (q : List CanTx) (s : State) : State := { s with mbc := { s.mbc with q := Sparse.set txDef s.mbc.q c q } }

/-- MTC bits [41:10] (R397). -/
def canStamp (t : Time) : Nat := t.toNat / 2 ^ 10 % 2 ^ 32

/-- An object's frame is abandoned (R395): flagged, counted, and recorded when it is the first since the object's last success. -/
def abandon (c k : Nat) (s : State) : State :=
  let s1 := incF (Reg.MBC_Cn_CNT1_aband c) .a (setF (Reg.MBC_OBJk_STAT_aband k) 1 .a (setF (Reg.MBC_OBJk_STAT_pend k) 0 .a s))
  if s.mbc.abandRec.contains k then s1
  else raise (.bus 13) Ev.MBC_ABANDON k { s1 with mbc := { s1.mbc with abandRec := k :: s1.mbc.abandRec } }

/-- Whether a controller takes part in a frame that does or does not use FD format or bit rate switching: as MBC_Cn_CFG.fd stood when it was
enabled (R389, R404). -/
def fdOk (s : State) (c : Nat) (fd : Bool) : Bool := !fd || s.mbc.fdOn.contains c

/-- Queue a frame (R395): a controller that is off takes none; in bus-off it is not queued and counts as abandoned (R390); a new
frame of an object replaces its predecessor. A controller that allows no FD format or bit rate switching (R404) takes no frame of an
object that has them (log entry 90). While no lane is Active, or the module's outputs are released, none is accepted
(R290, R313). -/
def queueFrame (k : Nat) (data : List Byte) (s : State) : State :=
  let c := k / 128
  if !getB s (Reg.MBC_Cn_CFG_en c) || (active s).isNone || outReleased s || !fdOk s c ((objCfg s k).fd || (objCfg s k).brs) then s
  else if getF s (Reg.MBC_Cn_STAT_state c) = 2 then abandon c k s
  else setF (Reg.MBC_OBJk_STAT_pend k) 1 .a
    (setTxQueue c ((txQueue s c).filter (fun f => f.k ≠ k) ++ [⟨k, data, 0⟩]) s)

/-- The frame a controller sends next: lowest identifier, then lowest object number (R395). -/
def txHead (s : State) : List CanTx → Option CanTx
  | [] => none
  | f :: fs =>
    match txHead s fs with
    | none => some f
    | some g =>
      let a := (objCfg s f.k).id.toNat
      let b := (objCfg s g.k).id.toNat
      if a < b || (a == b && decide (f.k < g.k)) then some f else some g

/-- A recovery that was started for a controller ends. -/
def endRecover (c : Nat) (s : State) : State := { s with mbc := { s.mbc with recov := s.mbc.recov.filter (· ≠ c) } }

/-- Enter bus-off (R390): recorded and counted; queued frames are abandoned; no recovery has been started for it. -/
def busOff (c : Nat) (s : State) : State :=
  let q := txQueue s c
  forEach (fun f => abandon c f.k) q
    (setTxQueue c [] (raise (.bus 13) Ev.MBC_BUSOFF c
      (incF (Reg.MBC_Cn_CNT1_busoff c) .a (setF (Reg.MBC_Cn_STAT_state c) 2 .a (endRecover c s)))))

/-- State of a controller from its error counters (R390): error-passive above 127, bus-off when the transmit counter passes 255. -/
def errState (c tec rc : Nat) (s : State) : State :=
  let s1 := setF (Reg.MBC_Cn_STAT_rec c) (min rc 255) .a (setF (Reg.MBC_Cn_STAT_tec c) (min tec 255) .a s)
  if 255 < tec then busOff c s1
  else setF (Reg.MBC_Cn_STAT_state c) (if 127 < tec || 127 < rc then 1 else 0) .a s1

/-- A controller takes part in bus traffic: enabled and not in bus-off. -/
def canLive (s : State) (c : Nat) : Bool :=
  decide (c < 4) && getB s (Reg.MBC_Cn_CFG_en c) && decide (getF s (Reg.MBC_Cn_STAT_state c) < 2)

/-- A receive counter after a frame received without error (R390): one less; from above 127 to a value ISO 11898-1 leaves open
between 119 and 127 (log entry 19). -/
def recDown (r : Nat) : Nat := if 127 < r then 119 + (Config.openVal 19 r).toNat % 9 else r - 1

/-- Receive kinds of objects (R391): kind 1, and the order and demand objects of station 7. -/
def rxKind (k : Nat) : Bool := k == 1 || k == 5 || k == 6

/-- Whether a frame meets a receive object (R393): kind 1, or the order and demand objects of station 7 (R391). -/
def objTakes (o : ObjCfg) (f : CanFrame) : Bool :=
  rxKind o.kind && o.ide == f.ide && decide (f.id.setWidth 32 &&& o.mask = o.id &&& o.mask) && (!o.fmt || o.fd == f.fd)

/-- The lowest-numbered receive object of a controller that takes a frame. -/
def objFor (s : State) (c : Nat) (f : CanFrame) : Option Nat :=
  firstBelow 128 (fun o => objTakes (objCfg s (128 * c + o)) f) 128 |>.map (fun o => 128 * c + o)

/-- Write a received frame's bytes into its object's data window, which is module-wide (R404). -/
def setWindow (k : Nat) (bs : List Byte) : Nat → State → State
  | 0, s => s
  | n + 1, s => wrK (0xD8000 + k * 0x40 + n * 4) (BitVec.ofNat 32 (leAt bs (4 * n) 4)) (setWindow k bs n s)

/-- Bytes of an object's data window of a lane. -/
def getWindow (s : State) (k : Nat) (l : Lane) : Nat → List Byte
  | 0 => []
  | n + 1 => getWindow s k l n ++ leBytes 4 (rdK s (0xD8000 + k * 0x40 + n * 4 + laneSpan * (1 + l.idx))).toNat

/-- Last frame of an object: stamp, format and length (R397, R404). -/
def objLast (k : Nat) (fd : Bool) (len : Nat) (s : State) : State :=
  setF (Reg.MBC_OBJk_STAT_len k) len .a (setB (Reg.MBC_OBJk_STAT_fdf k) fd .a (setF (Reg.MBC_OBJk_TS_ts k) (canStamp s.now) .a s))

/-- The receive object a frame is for: none for a remote frame (R385), for an FD frame on a controller that does not allow the format
(R404, log entry 90), or for one that meets none. -/
def frameObj (s : State) (c : Nat) (f : CanFrame) : Option Nat := if f.rtr || !fdOk s c f.fd then none else objFor s c f

/-- A frame received without error (R390, R393): the receive error counter falls, and the object the frame meets stores it. -/
def canStore (c : Nat) (f : CanFrame) (s : State) : State :=
  let s := errState c (getF s (Reg.MBC_Cn_STAT_tec c)) (recDown (getF s (Reg.MBC_Cn_STAT_rec c))) s
  match frameObj s c f with
  | none => s
  | some k =>
    let s1 := if getB s (Reg.MBC_OBJk_STAT_new k) then
        incF (Reg.MBC_Cn_CNT1_ovr c) .a (setF (Reg.MBC_OBJk_STAT_ovr k) 1 .a s) else s
    let s2 := setF (Reg.MBC_OBJk_ID_id k) f.id.toNat .a (setB (Reg.MBC_OBJk_ID_ide k) f.ide .a
      (setF (Reg.MBC_OBJk_STAT_new k) 1 .a (objLast k f.fd f.data.length s1)))
    let s3 := setWindow k f.data 16 s2
    { s3 with mbc := { s3.mbc with rx := alSet s3.mbc.rx k (trimOld (·.1) s.now ((s.now, f.data) :: (alGet s3.mbc.rx k).getD [])) } }

/-- CAN_TX_COMPLETE (R395): the frame the controller sends next is transmitted; it is stamped (R397), and a success ends the
object's run of abandonments. -/
def execCanTxComplete (t : Time) (c k : Nat) (s : State) : Host.Outcome State Fault Refusal :=
  run t s (fun s =>
    match if canLive s c then txHead s (txQueue s c) else none with
    | none => s
    | some f =>
      if f.k ≠ k then s
      else
        let o := objCfg s k
        let s1 := errState c (getF s (Reg.MBC_Cn_STAT_tec c) - 1) (getF s (Reg.MBC_Cn_STAT_rec c)) s
        let s2 := setF (Reg.MBC_OBJk_STAT_pend k) 0 .a (objLast k o.fd f.data.length
          (setTxQueue c ((txQueue s c).filter (fun g => g.k ≠ k)) s1))
        emit (.can c k f.data) { s2 with mbc := { s2.mbc with abandRec := s2.mbc.abandRec.filter (· ≠ k) } })

/-- How an error of a transmitter moves its transmit error counter (R390): by 8, but not for an acknowledge error that an error-passive
controller alone sees, nor for a stuff error during arbitration (ISO 11898-1, log entry 19). -/
def tecStep (s : State) (c : Nat) (x : TxFault) : Nat :=
  match x with
  | .ack => if getF s (Reg.MBC_Cn_STAT_state c) = 1 then 0 else 8
  | .stuff => 0
  | _ => 8

/-- CAN_TX_FAILURE (R395): the frame the controller sends next lost arbitration or met an error; counted, retried, and abandoned after
1 + retry limit failures. An error moves the transmit error counter and may lead to bus-off (R390). -/
def execCanTxFailure (t : Time) (c k : Nat) (x : TxFault) (s : State) : Host.Outcome State Fault Refusal :=
  run t s (fun s =>
    match if canLive s c then (txHead s (txQueue s c)).filter (fun f => f.k == k) else none with
    | none => s
    | some f =>
      let q := txQueue s c
      let gone := decide ((objCfg s k).retry + 1 ≤ f.fails + 1)
      let s1 := if gone then abandon c k (setTxQueue c (q.filter (fun g => g.k ≠ k)) s)
        else setTxQueue c (q.map (fun g => if g.k = k then { g with fails := g.fails + 1 } else g)) s
      if x = .arb then incF (Reg.MBC_Cn_CNT0_arbl c) .a s1
      else errState c (getF s (Reg.MBC_Cn_STAT_tec c) + tecStep s c x) (getF s (Reg.MBC_Cn_STAT_rec c)) (incF (Reg.MBC_Cn_CNT0_err c) .a s1))

/-- CAN_BUS_ERROR (R390): an error detected while receiving: counted, and the receive error counter rises by 1, or by 8 in the
cases ISO 11898-1 names (`eight`). -/
def execCanBusError (t : Time) (c : Nat) (eight : Bool) (s : State) : Host.Outcome State Fault Refusal :=
  run t s (fun s =>
    if canLive s c then
      errState c (getF s (Reg.MBC_Cn_STAT_tec c)) (getF s (Reg.MBC_Cn_STAT_rec c) + if eight then 8 else 1)
        (incF (Reg.MBC_Cn_CNT0_err c) .a s)
    else s)

/-- BUS_OFF_RECOVERY (R390): 128 occurrences of 11 recessive bits end bus-off, with automatic recovery or once recovery has been
started. -/
def execBusOffRecovery (t : Time) (c : Nat) (s : State) : Host.Outcome State Fault Refusal :=
  run t s (fun s =>
    if decide (c < 4) && getF s (Reg.MBC_Cn_STAT_state c) == 2 && (getB s (Reg.MBC_Cn_CFG_autorec c) || s.mbc.recov.contains c) then
      raise (.bus 13) Ev.MBC_BUSON c (setF (Reg.MBC_Cn_STAT_state c) 0 .a (setF (Reg.MBC_Cn_STAT_tec c) 0 .a
        (setF (Reg.MBC_Cn_STAT_rec c) 0 .a (endRecover c s))))
    else s)

/-- The effect of MBC_Cn_CTL.recover (R390). -/
def canRecoverOp (c : Nat) (s : State) : State :=
  if getF s (Reg.MBC_Cn_STAT_state c) = 2 && !s.mbc.recov.contains c then { s with mbc := { s.mbc with recov := c :: s.mbc.recov } } else s

/-- The effect of MBC_Cn_CTL.clr (R404). -/
def canClear (c : Nat) (s : State) : State := wrK (Reg.MBC_Cn_CNT1 c) 0#32 (wrK (Reg.MBC_Cn_CNT0 c) 0#32 s)

/-- Result of the checks of R389 on a controller's settings: 0 when all pass. -/
def canCfgErr (s : State) (c : Nat) : Nat :=
  let g (f : Nat → Fld) := getF s (f c) + 1
  let nt := g Reg.MBC_Cn_NBT_brp * (1 + g Reg.MBC_Cn_NBT_ts1 + g Reg.MBC_Cn_NBT_ts2)
  let dt := g Reg.MBC_Cn_DBT_brp * (1 + g Reg.MBC_Cn_DBT_ts1 + g Reg.MBC_Cn_DBT_ts2)
  if g Reg.MBC_Cn_NBT_ts1 < 2 || g Reg.MBC_Cn_NBT_ts2 < g Reg.MBC_Cn_NBT_sjw || g Reg.MBC_Cn_DBT_ts2 < g Reg.MBC_Cn_DBT_sjw then 1
  else if nt < 80 then 2
  else if dt < 16 || nt < dt then 3
  else if getB s (Reg.MBC_Cn_CFG_tsmp c) && (nt < 320 || g Reg.MBC_Cn_NBT_ts1 < 3) then 4
  else 0

/-- The effect of MBC_Cn_CFG.en from 0 to 1 (R389): timing and format are taken as they stand. -/
def canEnableOp (c : Nat) (s : State) : State :=
  let e := canCfgErr s c
  let off := s.mbc.fdOn.filter (· ≠ c)
  let s1 := setF (Reg.MBC_Cn_STAT_cfgerr c) e .a
    { s with mbc := { s.mbc with fdOn := if getB s (Reg.MBC_Cn_CFG_fd c) then c :: off else off } }
  if e = 0 then
    setF (Reg.MBC_Cn_STAT_state c) 0 .a (setF (Reg.MBC_Cn_STAT_tec c) 0 .a (setF (Reg.MBC_Cn_STAT_rec c) 0 .a s1))
  else raise (.bus 13) Ev.MBCCFG (Reg.MBC_Cn_CFG c + 2 ^ 32 * e) (setF (Reg.MBC_Cn_CFG_en c) 0 .a s1)

/-- The effect of MBC_Cn_CFG.en from 1 to 0: the controller is disabled and its queued frames go. -/
def canDisableOp (c : Nat) (s : State) : State :=
  forEach (fun f => setF (Reg.MBC_OBJk_STAT_pend f.k) 0 .a) (txQueue s c)
    (setTxQueue c [] (setF (Reg.MBC_Cn_STAT_state c) 3 .a (endRecover c s)))

/-- The controllers that the configuration keeps enabled start with the module, as by a write of en (R389, R404, log entry 90). -/
def canStart (s : State) : State := forEach (fun c s => when (getB s (Reg.MBC_Cn_CFG_en c)) (canEnableOp c) s) (List.range 4) s

/-- The effect of MBC_OBJk_CTL.txreq (R395): only through the endpoint of the lane the role lines name; the payload is that lane's
data window. -/
def txreqOp (ep : Lane) (k : Nat) (s : State) : State :=
  let o := objCfg s k
  if isActive s ep && o.kind == 2 then queueFrame k ((getWindow s k ep 16).take o.len) s else s

/-- The effect of MBC_OBJk_CTL.abort (R404): a queued frame is removed. -/
def txAbortOp (ep : Lane) (k : Nat) (s : State) : State :=
  if isActive s ep then
    setF (Reg.MBC_OBJk_STAT_pend k) 0 .a (setTxQueue (k / 128) ((txQueue s (k / 128)).filter (fun f => f.k ≠ k)) s)
  else s

/-- Put bytes into a payload at an offset. -/
def putBytes (p : List Byte) (o : Nat) (bs : List Byte) : List Byte := p.take o ++ bs ++ p.drop (o + bs.length)

/-- The payload of a packed object (R396): `val` gives a field's value, none when it is not valid; the pseudo fields are the cycle
count and the status byte. None when any entry is not valid. -/
def packPayload (val : Nat → Option F64) (cyc stat : Nat) : List ObjEnt → List Byte → Bool → Option (List Byte × Bool)
  | [], p, sat => some (p, sat)
  | e :: es, p, sat =>
    if e.src = 0xF000 then packPayload val cyc stat es (putBytes p e.ofs (leBytes (encLen e.enc) cyc)) sat
    else if e.src = 0xF001 then packPayload val cyc stat es (putBytes p e.ofs (leBytes (encLen e.enc) stat)) sat
    else
      match val e.src with
      | none => none
      | some v =>
        let (bs, x) := encodeVal e.enc e.scale v
        packPayload val cyc stat es (putBytes p e.ofs bs) (sat || x)

/-- Queue every packed object at a publication (R395, R396). -/
def packAll (val : Nat → Option F64) (cyc stat : Nat) : List (Nat × ObjCfg) → State → State
  | [], s => s
  | (k, o) :: os, s =>
    let s1 :=
      if o.kind = 3 then
        match packPayload val cyc stat o.ents (List.replicate o.len 0#8) false with
        | none => setF (Reg.MBC_OBJk_STAT_skip k) 1 .a s
        | some (p, sat) => queueFrame k p (setB (Reg.MBC_OBJk_STAT_sat k) sat .a (setF (Reg.MBC_OBJk_STAT_skip k) 0 .a s))
      else s
    packAll val cyc stat os s1

/-- Unlisted decimation counts. -/
def decDef (_ : Nat) : Nat := 0

/-- Loop transmit objects of a slot (R395): every dec-th output of the first entry's slot is queued, from the output registers the
role lines select (`out`). -/
def loopTx (out : Nat → F64) (slot : Nat) : List (Nat × ObjCfg) → State → State
  | [], s => s
  | (k, o) :: os, s =>
    let s1 :=
      match o.kind, o.ents with
      | 4, e0 :: _ =>
        if e0.src ≠ slot then s
        else
          let n := Sparse.get decDef s.mbc.dec k + 1
          if n < o.dec then { s with mbc := { s.mbc with dec := Sparse.set decDef s.mbc.dec k n } }
          else
            let s2 := { s with mbc := { s.mbc with dec := Sparse.set decDef s.mbc.dec k 0 } }
            match packPayload (fun c => some (out c)) 0 0 o.ents (List.replicate o.len 0#8) false with
            | none => s2
            | some (p, sat) => queueFrame k p (setB (Reg.MBC_OBJk_STAT_sat k) sat .a s2)
      | _, _ => s
    loopTx out slot os s1

/-! Serial ports and sentences (R400-R403). -/

/-- Split a byte string at a separator. -/
def splitAt' (sep : Byte) : List Byte → List (List Byte)
  | [] => [[]]
  | b :: bs =>
    if b = sep then [] :: splitAt' sep bs
    else match splitAt' sep bs with
      | [] => [[b]]
      | f :: fs => (b :: f) :: fs

/-- Skip a tag block in front of a sentence (R400): everything up to its closing backslash. -/
def skipTag (bs : List Byte) : List Byte :=
  match bs with
  | 0x5C#8 :: r => (r.dropWhile (· ≠ 0x5C#8)).drop 1
  | _ => bs

/-- Value of a hexadecimal digit in ASCII. -/
def hexVal (b : Byte) : Option Nat :=
  let n := b.toNat
  if 48 ≤ n ∧ n ≤ 57 then some (n - 48) else if 65 ≤ n ∧ n ≤ 70 then some (n - 55) else if 97 ≤ n ∧ n ≤ 102 then some (n - 87) else none

/-- What the check of a sentence finds (R400). -/
inductive SenChk where
  | good (fields : List (List Byte)) | badSum | tooLong | notOne
  deriving DecidableEq, Repr

/-- Check a sentence (R400): it starts with "$" or "!", ends with CR LF, has at most 82 characters and a valid "*hh" checksum;
with `nocs` a sentence without a checksum field is accepted too. The fields are separated by commas. -/
def checkSentence (nocs : Bool) (bs : List Byte) : SenChk :=
  match skipTag bs with
  | [] => .notOne
  | b0 :: r =>
    if b0 ≠ 0x24#8 && b0 ≠ 0x21#8 then .notOne
    else if 82 < r.length + 1 || r.drop (r.length - 2) ≠ [0x0D#8, 0x0A#8] then .tooLong
    else
      let body := r.take (r.length - 2)
      let txt := body.takeWhile (· ≠ 0x2A#8)
      let sum := txt.foldl (· ^^^ ·) 0#8
      match body.drop txt.length with
      | [_, h, l] =>
        match hexVal h, hexVal l with
        | some x, some y => if sum.toNat = 16 * x + y then .good (splitAt' 0x2C#8 txt) else .badSum
        | _, _ => .badSum
      | [] => if nocs then .good (splitAt' 0x2C#8 txt) else .badSum
      | _ => .badSum

/-- A decimal number: sign, digits without the point, number of digits after it; none when malformed. -/
def decimal (bs : List Byte) : Option (Bool × Nat × Nat) :=
  let (neg, r) := match bs with
    | 0x2D#8 :: r => (true, r)
    | 0x2B#8 :: r => (false, r)
    | r => (false, r)
  let ok := r.all (fun b => (48 ≤ b.toNat && b.toNat ≤ 57) || b == 0x2E#8) && (r.filter (· == 0x2E#8)).length ≤ 1
    && (r.filter (· ≠ 0x2E#8)).length ≠ 0
  let frac := ((r.dropWhile (· ≠ 0x2E#8)).drop 1).length
  let n := (r.filter (· ≠ 0x2E#8)).foldl (fun a b => 10 * a + (b.toNat - 48)) 0
  if ok then some (neg, n, frac) else none

/-- The number a field stands for under a conversion (R402): decimal, or degrees from ddmm.mmm with the hemisphere in the next
field, to the nearest binary64. -/
def convert (conv : Nat) (f next : List Byte) : Option F64 :=
  match decimal f with
  | none => none
  | some (neg, n, k) =>
    if conv = 1 then some (F64.ratio (if neg then -(n : Int) else n) (10 ^ k))
    else
      let minus := next == [0x53#8] || next == [0x57#8]
      let deg := n / 10 ^ k / 100
      let minNum := n - deg * 100 * 10 ^ k
      let v : Int := (deg * 60 * 10 ^ k + minNum : Nat)
      some (F64.ratio (if minus != neg then -v else v) (60 * 10 ^ k))

/-- An address matches a sentence's first field (R402): "--" stands for any talker; the entry is padded with zeros. -/
def adrMatch (adr f : List Byte) : Bool :=
  let a := adr.takeWhile (· ≠ 0#8)
  if a.take 2 = [0x2D#8, 0x2D#8] then f.drop 2 == a.drop 2 && decide (2 ≤ f.length) else f == a

/-- A field holds exactly the character required; field 0 requires none. -/
def fieldIs (fs : List (List Byte)) (n : Nat) (c : Byte) : Bool := n == 0 || fs.getD n [] == [c]

/-- Whether a sentence is for an item (R403): address, source and both conditions. -/
def itemTakes (it : SerItem) (src : Nat) (tagSrc : List Byte) (fs : List (List Byte)) : Bool :=
  it.src == src && adrMatch it.adr (fs.headD []) && fieldIs fs it.c1 it.c1C && fieldIs fs it.c2 it.c2C
    && (decide (src ≠ 8) || it.filt.all (· == 0#8) || it.filt.takeWhile (· ≠ 0#8) == tagSrc)

/-- What a matching sentence does to an item in a lane (R403): status not matched, value field empty, or a new value. -/
def itemUpdate (k : Nat) (it : SerItem) (fs : List (List Byte)) (l : Lane) (s : State) : State :=
  let stOk := fieldIs fs it.stat it.statC
  let hist := (alGet (s.lane l).ser k).getD []
  let old := hist.head?.getD ⟨0#64, s.now, false, none⟩
  let put (v : SerVal) (s : State) : State :=
    onLane l (fun a => { a with ser := alSet a.ser k (trimOld SerVal.stamp s.now (v :: hist)) }) s
  let s0 := setB (Reg.SER_ITk_STAT_stat k) (!stOk) l s
  match if stOk then convert it.conv (fs.getD it.fld []) (fs.getD (it.fld + 1) []) else none with
  | none => setF (Reg.SER_ITk_STAT_valid k) 0 l (put { old with stamp := s.now, valid := false } s0)
  | some x =>
    let v := F64.add (F64.mul x it.scale) it.ofs
    setF (Reg.SER_ITk_VAL_v k) (F64.to32 v).toNat l
      (setF (Reg.SER_ITk_STAT_age k) 0 l (setF (Reg.SER_ITk_STAT_valid k) 1 l (put ⟨v, s.now, true, some s.now⟩ s0)))

/-- A sentence updates every item it is for, in both lanes. -/
def sentence (src : Nat) (tagSrc : List Byte) (fs : List (List Byte)) (s : State) : State :=
  forEach (fun (p : Nat × SerItem) s => if itemTakes p.2 src tagSrc fs then readyLanes (itemUpdate p.1 p.2 fs) s else s) s.cfg.sers s

/-- The value of an item a reader takes at an instant (R403): valid by the sentence that `pick` takes, and within its life. -/
def serRead (pick : List SerVal → Option SerVal) (s : State) (l : Lane) (k : Nat) (at' : Time) : Option (F64 × Time) :=
  match alGet s.cfg.sers k, pick ((alGet (s.lane l).ser k).getD []) with
  | some it, some v => if v.valid && decide (since at' v.stamp ≤ it.life * 100 * ms) then some (v.val, v.stamp) else none
  | _, _ => none

/-- An item as a loop reads it (R259): by the latest sentence at or before the instant. -/
def serValue (s : State) (l : Lane) (k : Nat) (at' : Time) : Option (F64 × Time) := serRead (latestAt SerVal.stamp at') s l k at'

/-- An item as a cycle latches it (R20): by the latest sentence strictly before the epoch. -/
def serBefore (s : State) (l : Lane) (k : Nat) (e : Time) : Option (F64 × Time) := serRead (latestBefore SerVal.stamp e) s l k e

/-- Characters arrive at a serial port (R405): its act bit, and the instant it counts from. -/
def portHeard (n : Nat) (s : State) : State :=
  readyLanes (fun l => setF (Reg.SER_Pn_STAT_act n) 1 l) { s with mbc := { s.mbc with heard := alSet s.mbc.heard n s.now } }

/-- Characters with a framing error, counted in both lanes (R405). -/
def portFramed (n fr : Nat) (s : State) : State :=
  readyLanes (fun l s => setF (Reg.SER_Pn_CNT_frerr n) (min (getF s (Reg.SER_Pn_CNT_frerr n) l + fr) 255) l s) s

/-- SERIAL_SENTENCE (R400, R403, R405): checked and counted by the port, then taken by the items; one with a framing error is not
accepted. The command's instant is the start bit of the first character. -/
def execSerialSentence (t : Time) (n fr : Nat) (ch : List Byte) (s : State) : Host.Outcome State Fault Refusal :=
  run t s (fun s =>
    if decide (8 ≤ n) || !getB s (Reg.SER_Pn_CFG_en n) then s
    else
      let s := portHeard n s
      if fr ≠ 0 then portFramed n fr s
      else match checkSentence (getB s (Reg.SER_Pn_CFG_nocs n)) ch with
      | .good fs => sentence n [] fs s
      | .badSum => readyLanes (incF (Reg.SER_Pn_CNT_cserr n)) s
      | .tooLong => readyLanes (incF (Reg.SER_Pn_CNT_long n)) s
      | .notOne => s)

/-- The source parameter "s:" of a tag block (R401). -/
def tagSource (tag : List Byte) : List Byte :=
  match ((splitAt' 0x2C#8 (tag.takeWhile (· ≠ 0x2A#8))).find? (fun p => p.take 2 == [0x73#8, 0x3A#8])) with
  | some p => p.drop 2
  | none => []

/-- The sentences of a datagram in turn (R401), each with the tag block in front of it; what follows the last line feed is none. -/
def datagramLines : List (List Byte) → State → State
  | [], s => s
  | [_], s => s
  | ln :: ls, s =>
    let tag := match ln with
      | 0x5C#8 :: r => r.takeWhile (· ≠ 0x5C#8)
      | _ => []
    let s1 := match checkSentence false (ln ++ [0x0A#8]) with
      | .good fs => sentence 8 (tagSource tag) fs s
      | _ => s
    datagramLines ls s1

/-- How long a frame's second copy is waited for (R305). -/
def copyNs : Nat := 60 * sec

/-- Duplicate discard of a datagram (R305, R401): whether it is the second copy of one taken before, by source address and trailer sequence,
and the state that knows of it. A frame without a trailer has no copy. -/
def secondCopy (rct : Option (BitVec 48 × BitVec 16)) (s : State) : Bool × State :=
  match rct with
  | none => (false, s)
  | some x =>
    let live := s.mbc.grams.filter (fun g => decide (since s.now g.2.2 < copyNs))
    let is (g : BitVec 48 × BitVec 16 × Time) : Bool := g.1 == x.1 && g.2.1 == x.2
    if live.any is then (true, { s with mbc := { s.mbc with grams := live.filter (fun g => !is g) } })
    else (false, { s with mbc := { s.mbc with grams := live ++ [(x.1, x.2, s.now)] } })

/-- SENTENCE_DATAGRAM (R305, R401): a datagram with the "UdPbC" header on an enabled transmission group; its second copy is discarded. `rct` holds
the source address and the trailer's sequence, none for a frame without one. -/
def execSentenceDatagram (t : Time) (grp : Nat) (rct : Option (BitVec 48 × BitVec 16)) (payload : List Byte) (s : State) :
    Host.Outcome State Fault Refusal :=
  run t s (fun s =>
    let (dup, s) := secondCopy rct s
    if dup then s
    else if decide (grp < 16) && bit (getF s Reg.SER_NET_CFG_grp) grp && payload.take 5 == [0x55#8, 0x64#8, 0x50#8, 0x62#8, 0x43#8] then
      datagramLines (splitAt' 0x0A#8 (payload.drop 6)) s
    else s)

/-- SERIAL_LINE_BREAK (R405): the line has been at space for 1 s or more, or has returned. -/
def execSerialLineBreak (t : Time) (n : Nat) (brk : Bool) (s : State) : Host.Outcome State Fault Refusal :=
  run t s (fun s => if n < 8 then readyLanes (setB (Reg.SER_Pn_STAT_brk n) brk) s else s)

/-- SER_CNT_CLR's effect (R405). -/
def serCntClear (l : Lane) (s : State) : State :=
  clrEach Reg.SER_Pn_CNT_long l 8 (clrEach Reg.SER_Pn_CNT_frerr l 8 (clrEach Reg.SER_Pn_CNT_cserr l 8 s))

end Sys2Proof.Machine
end

