-- ==== Sys2Proof/Machine/TimeBase.lean ====
section
/-!
DEFINITION. The timebase (R318-R335, R349, R350, R531): local time, the time link, references and states, the servo, steps, PTP,
time pulses and captures.
-/

namespace Sys2Proof.Machine

/-! Local time (R322, R323). -/

/-- n ppm in units of 2^-48. -/
def ppm (n : Nat) : Int := (n * 2 ^ 48 / 1000000 : Nat)

/-- Limit of the rate, ±500 ppm (R322). -/
def rateMax : Int := 140737488355

/-- The rate: frequency and slew terms summed and clamped (R323, R531). -/
def rateOf (c : ClkPar) : Int :=
  let r := c.f + c.s
  if rateMax < r then rateMax else if r < -rateMax then -rateMax else r

/-- m × rate in units of 2^-32 ns, truncated (R322). -/
def rateProd (m : Nat) (r : Int) : Int := m * r / 2 ^ 16

/-- Local time in units of 2^-32 ns at an MTC value (R322). -/
def ltFrac (c : ClkPar) (m : Time) : Int := c.ofs + m.toNat * 2 ^ 32 + rateProd m.toNat (rateOf c)

/-- Local time in ns at an MTC value (R322). -/
def ltNs (c : ClkPar) (m : Time) : Int := ltFrac c m / 2 ^ 32

/-- Change a lane's timebase. -/
def onTmb (l : Lane) (f : TmbSt → TmbSt) : State → State := onLane l (fun a => { a with tmb := f a.tmb })

/-- Local time a lane reads at an instant: 0 before its offset is set (R328). -/
def ltAt (s : State) (l : Lane) (m : Time) : Int :=
  let b := (s.lane l).tmb
  if b.set then ltNs b.clk m else 0

/-- The part of a local time below 1 ns, in 2^-16 ns (R333). -/
def ltSub (s : State) (l : Lane) (m : Time) : Int :=
  if (s.lane l).tmb.set then ltFrac (s.lane l).tmb.clk m % 2 ^ 32 / 2 ^ 16 else 0

/-- Whole seconds of a local time. -/
def ltSec (x : Int) : Nat := (x / sec).toNat

/-- The lane whose local time the module uses: the Active one. -/
def timeLane (s : State) : Lane := (active s).getD .a

/-- The rate registers of a lane. -/
def showRate (l : Lane) (s : State) : State :=
  let b := (s.lane l).tmb
  let r := (rateOf b.clk % 2 ^ 48).toNat
  setB Reg.TMB_STAT_slew (decide (b.clk.s ≠ 0)) l
    (wrK (Reg.TMB_RATEH + laneSpan * (1 + l.idx)) (BitVec.ofNat 32 (r / 2 ^ 32))
      (wrK (Reg.TMB_RATEL + laneSpan * (1 + l.idx)) (BitVec.ofNat 32 r) s))

/-- Set the servo's two terms (R531); offset changes with them so that local time does not step (R323). A demand outside the
range is clamped and recorded. -/
def setTerms (l : Lane) (f sl : Int) (s : State) : State :=
  let b := (s.lane l).tmb
  let c1 : ClkPar := { b.clk with f := f, s := sl }
  let m := s.now.toNat
  let c2 := { c1 with ofs := b.clk.ofs + rateProd m (rateOf b.clk) - rateProd m (rateOf c1) }
  let s1 := showRate l (onTmb l (fun b => { b with clk := c2 }) s)
  when (decide (rateMax < f + sl) || decide (f + sl < -rateMax))
    (fun s => raise .timebase Ev.TMB_RATELIM (satInt 32 ((f + sl) * 1000000000 / 2 ^ 48)) (incF Reg.TMB_CNT_rlim l s)) s1

/-! Steps (R329, R330). -/

/-- Leave a refused step behind: the flag and the alarm clear (log entry 20). -/
def dropBig (l : Lane) (s : State) : State :=
  if ((s.lane l).tmb.refused).isSome then
    clearAlarm .timebase Ev.TMB_BIGSTEP 0 0 (setF Reg.TMB_STAT_big 0 l (onTmb l (fun b => { b with refused := none }) s))
  else s

/-- A step waits for its second boundary (R329). -/
def pendStep (l : Lane) (th : Int) (s : State) : State :=
  setF Reg.TMB_STAT_steppend 1 l (onTmb l (fun b => { b with pend := some th }) s)

/-- A REC_ANCHOR record (R438): local-time seconds at the record's MTC. -/
def recAnchor (s : State) : State :=
  raise .appender Ev.REC_ANCHOR (ltSec (ltAt s (timeLane s) s.now)) { s with rec' := { s.rec' with anchored := true } }

/-- Accumulated time in HOLDOVER in TMB_STAT.hsec (R327). -/
def showHold (l : Lane) (s : State) : State :=
  let b := (s.lane l).tmb
  let n := b.holdAcc + (if getF s Reg.TMB_STAT_state l == 2 then since s.now b.holdAt else 0)
  setF Reg.TMB_STAT_hsec (min (n / sec) 0xFFFF) l s

/-! Time pulses (R337-R340). -/

/-- Unlisted generators. -/
def tpDef (_ : Nat) : TpGen := {}

/-- A generator of a lane. -/
def tpGen (s : State) (l : Lane) (n : Nat) : TpGen := Sparse.get tpDef (s.lane l).tmb.tps n

/-- Number of instants owed. -/
def owedCount (q : List (Int × Nat)) : Nat := (q.map (·.2)).sum

/-- Set a generator and its status register. -/
def setTp (l : Lane) (n : Nat) (g : TpGen) (s : State) : State :=
  let s1 := onTmb l (fun b => { b with tps := Sparse.set tpDef b.tps n g }) s
  setF (Reg.TMB_TPn_STAT_owed n) (min (owedCount g.owed) 0xFFF) l
    (setB (Reg.TMB_TPn_STAT_shadow n) (!isActive s l) l
      (setB (Reg.TMB_TPn_STAT_late n) g.late l
        (setB (Reg.TMB_TPn_STAT_run n) g.run l (setB (Reg.TMB_TPn_STAT_level n) g.cur.isSome l s1))))

/-- First instant of a generator at or after a local time (R338). -/
def tpFirst (g : TpGen) (lt : Int) : Option Int :=
  if lt ≤ g.t0 then some g.t0
  else if g.iso && decide (0 < g.per) then some (g.t0 + (lt - g.t0 + g.per - 1) / g.per * g.per)
  else none

/-- Start a generator: it reads T0, period and width; a pulse in progress keeps its full width (R337). -/
def tpStartGen (l : Lane) (n : Nat) (s : State) : State :=
  let rd (o : Nat) : Nat := (rdK s o).toNat
  let t0 : Int := ((rd (Reg.TMB_TPn_T0L n) + 2 ^ 32 * rd (Reg.TMB_TPn_T0H n)) * sec + getF s (Reg.TMB_TPn_T0NS_ns n) : Nat)
  let per := rd (Reg.TMB_TPn_PERL n) + 2 ^ 32 * (rd (Reg.TMB_TPn_PERH n) % 256)
  let g : TpGen := { run := true, iso := decide (getF s (Reg.TMB_TPn_CFG_mode n) = 2), t0 := t0, per := per,
                     wid := getF s (Reg.TMB_TPn_WID_w n), cur := (tpGen s l n).cur, late := (tpGen s l n).late }
  setTp l n { g with next := tpFirst g (ltAt s l s.now) } s

/-- Stop a generator: a pulse in progress keeps its full width (R337). -/
def tpStopGen (l : Lane) (n : Nat) (s : State) : State :=
  let g := tpGen s l n
  setTp l n (if g.cur.isSome then { g with stopping := true, owed := [], next := none } else {}) s

/-- A running generator takes its next instant anew (R338). -/
def tpRetake (l : Lane) (n : Nat) (s : State) : State :=
  let g := tpGen s l n
  if g.run then setTp l n { g with next := tpFirst g (ltAt s l s.now) } s else s

/-- Whether a generator emits: outside FREE, or with TMB_TPn_CFG.free as soon as local time is set (R328, R338). -/
def tpEmits (s : State) (l : Lane) (n : Nat) : Bool :=
  decide (getF s Reg.TMB_STAT_state l ≠ 0) || (getB s (Reg.TMB_TPn_CFG_free n) && (s.lane l).tmb.set)

/-- Instants from `next` that are at or below a bound: how many, and the instant after them. -/
def tpDue (g : TpGen) (bound : Int) : Nat × Option Int :=
  match g.next with
  | none => (0, none)
  | some i =>
    if bound < i then (0, some i)
    else if g.iso && decide (0 < g.per) then
      let c := (bound - i) / g.per + 1
      (c.toNat, some (i + c * g.per))
    else (1, none)

/-- Queue the instants that have fallen due while owed pulses remain (R340). -/
def tpQueue (g : TpGen) (lt : Int) : TpGen :=
  match g.next, tpDue g lt with
  | some i, (c + 1, nx) => { g with owed := g.owed ++ [(i, c + 1)], next := nx }
  | _, _ => g

/-- Take the first owed instant. -/
def tpPop (per : Nat) : List (Int × Nat) → Option (Int × List (Int × Nat))
  | [] => none
  | (i, c) :: q => some (i, if c ≤ 1 then q else (i + per, c - 1) :: q)

/-- Put a level on a time-pulse output. -/
def tpPin (n : Nat) (v : Bool) (s : State) : State :=
  if s.tpOut.getLsbD n == v then s else emit (.pin 1 n v) { s with tpOut := s.tpOut ^^^ BitVec.ofNat 4 (2 ^ n) }

/-- The level NIO puts on the time-pulse outputs: that of the generator of the lane the role lines name, with the polarity (R288, R338,
R350); with no Active lane, and while the outputs are released, the inactive level (R290, R313). -/
def tpDrive (s : State) : State :=
  forEach (fun n s =>
    let on := match active s with
      | some l => (tpGen s l n).cur.isSome && !outReleased s
      | none => false
    tpPin n (on != getB s (Reg.TMB_TPn_CFG_pol n)) s) (List.range 4) s

/-- A generator's instant is reached: the pulse starts; owed pulses go first, in instant order, and are LATE (R337, R340). -/
def tpPulse (n : Nat) (l : Lane) (s : State) : State :=
  let g := tpGen s l n
  let lt := ltAt s l s.now
  if !g.run || g.stopping || g.cur.isSome || !tpEmits s l n then s
  else if g.owed.isEmpty then
    match g.next with
    | none => s
    | some i =>
      if lt < i then s
      else tpDrive (setTp l n { g with cur := some (i, plus s.now g.wid), late := false, gapTo := none,
                                       next := if g.iso then some (i + g.per) else none } s)
  else
    let g := tpQueue g lt
    match g.gapTo with
    | some t => if atOrAfter s.now t then tpLate g s else setTp l n g s
    | none => tpLate g s
where
  tpLate (g : TpGen) (s : State) : State :=
    match tpPop g.per g.owed with
    | none => s
    | some (i, q) =>
      incF (Reg.TMB_TPn_STAT_latecnt n) l
        (tpDrive (setTp l n { g with cur := some (i, plus s.now g.wid), late := true, owed := q } s))

/-- A pulse reaches its width and ends; after a LATE pulse the next owed one starts w later (R340). -/
def tpEnd (n : Nat) (l : Lane) (s : State) : State :=
  let g := tpGen s l n
  match g.cur with
  | none => s
  | some (_, due) =>
    if !atOrAfter s.now due then s
    else
      let g1 := { g with cur := none }
      tpDrive (setTp l n
        (if g.stopping then {}
          else if g.late then { tpQueue g1 (ltAt s l s.now) with gapTo := some (plus s.now g.wid) } else g1) s)

/-- The crossed-time rule at a step (R339): instants a forward step passes are owed one LATE pulse each. -/
def tpStep (l : Lane) (new : Int) (n : Nat) (s : State) : State :=
  let g := tpGen s l n
  if !g.run || g.stopping || !tpEmits s l n then s
  else
    match g.next, tpDue g (new - 1) with
    | some i, (c + 1, nx) =>
      when (isActive s l) (raise .timebase Ev.TMB_LATE (n + 2 ^ 32 * min (c + 1) (2 ^ 32 - 1)))
        (setTp l n { g with owed := g.owed ++ [(i, c + 1)], next := nx } s)
    | _, _ => s

/-! References and states (R326, R327). -/

/-- The two references in the order of TMB_CFG.srcsel: true stands for PTP. -/
def srcOrder (s : State) : List Bool :=
  match getF s Reg.TMB_CFG_srcsel with
  | 0 => [true, false]
  | 1 => [false, true]
  | 2 => [true]
  | _ => [false]

/-- A lane's record of a reference. -/
def refOf (b : TmbSt) (p : Bool) : TimeRef := if p then b.ptp else b.gnss

/-- Change a lane's record of a reference. -/
def onRef (l : Lane) (p : Bool) (f : TimeRef → TimeRef) : State → State :=
  onTmb l (fun b => if p then { b with ptp := f b.ptp } else { b with gnss := f b.gnss })

/-- The port in state SLAVE, lowest first (R326). -/
def slavePort (s : State) : Option Nat := firstBelow 8 (fun n => getF s (Reg.TMB_PTPn_STAT_pst n) == 9) 8

/-- TMB_STAT.src of a reference. -/
def srcCode (s : State) (p : Bool) : Nat := if p then (slavePort s).getD 0xF else 8

/-- Enter SYNC (R327); leaving HOLDOVER is recorded, the first SYNC of a run writes REC_ANCHOR (R438), and generators that wait
in FREE take their next instant (R338). -/
def enterSync (l : Lane) (src : Nat) (s : State) : State :=
  let old := getF s Reg.TMB_STAT_state l
  let held := since s.now (s.lane l).tmb.holdAt
  let s1 := setF Reg.TMB_STAT_src src l (setF Reg.TMB_STAT_state 1 l s)
  let s2 := if old = 2 then
      showHold l (raise .timebase Ev.TMB_HOLDEND (src + 2 ^ 32 * (held / sec))
        (onTmb l (fun b => { b with holdAcc := b.holdAcc + held }) s1))
    else if old = 0 then forEach (tpRetake l) [0, 1, 2, 3] s1 else s1
  when (!s2.rec'.anchored) recAnchor s2

/-- The change of local time the servo made between two observations, slews and steps included, in units of 2^-32 ns (R531): what local
time advanced beyond MTC and the frequency term. -/
def servoChange (o o' : ObsRec) : Int :=
  let d := since o'.m o.m
  ltFrac o'.par o'.m - ltFrac o.par o.m - (d : Int) * 2 ^ 32 - rateProd d o'.par.f

/-- The frequency error y_k between two observations in units of 2^-48 (R531). -/
def freqErr (o o' : ObsRec) : Int := ((o'.theta - o.theta) * 2 ^ 32 + servoChange o o') * 2 ^ 16 / (since o'.m o.m : Nat)

/-- The servo notes an observation it takes. -/
def noteObs (l : Lane) (m : Time) (th : Int) (s : State) : State :=
  onTmb l (fun b => { b with prev := some ⟨m, th, b.clk⟩ }) s

/-- Correct an observed θ (R329, R531); the Bool says whether the correction is applied or waits (false: refused as too large). -/
def correct (l : Lane) (m : Time) (th : Int) (s : State) : State × Bool :=
  let b := (s.lane l).tmb
  let f := if b.first then 0 else
    match b.prev with
    | some o => if m = o.m then b.clk.f else b.clk.f + freqErr o ⟨m, th, b.clk⟩ / 8
    | none => b.clk.f
  let big := decide (1000 ≤ th.natAbs)
  let slew (lim : Int) : Int := max (-lim) (min lim (th * 2 ^ 48 / 8000000000))
  let done (sl : Int) (s : State) : State := setTerms l f sl (noteObs l m th s)
  if b.pend.isSome then (done 0 s, true)
  else if b.first then (pendStep l th (done 0 s), true)
  else if !big then (dropBig l (done (slew (ppm 10)) s), true)
  else if !getB s Reg.TMB_CFG_policy then (dropBig l (done (slew (ppm (getF s Reg.TMB_CFG_slew))) s), true)
  else if getF s Reg.TMB_CFG_maxstep * sec < th.natAbs then
    (raiseAlarm .timebase Ev.TMB_BIGSTEP 0 (satInt 32 (th / sec))
      (setF Reg.TMB_STAT_big 1 l (onTmb l (fun b => { b with refused := some th })
        (if getF s Reg.TMB_STAT_state l = 1 then done 0 s else s))), false)
  else (dropBig l (pendStep l th (done 0 s)), true)

/-- The latest three observations of a reference lie within 1 µs of each other, each corrected by the changes made to local time
after the first of them (R327). -/
def consistent : List ObsRec → Bool
  | o3 :: o2 :: o1 :: _ =>
    let c (o : ObsRec) : Int := o.theta + ltNs o.par o.m - ltNs o1.par o.m
    let hi := max (c o1) (max (c o2) (c o3))
    let lo := min (c o1) (min (c o2) (c o3))
    decide (hi - lo ≤ 1000)
  | _ => false

/-- An observation of a reference in a lane (R326, R327, R531): it may qualify the reference; in the Active lane the servo acts on
the selected reference, and the first qualification after FREE enters SYNC with a step. The Standby's servo runs in shadow: it notes the
observations of the selected reference and applies nothing (R325). -/
def observe (l : Lane) (p : Bool) (m : Time) (th : Int) (s : State) : State :=
  let b := (s.lane l).tmb
  let o := (⟨m, th, b.clk⟩ :: (refOf b p).obs).take 3
  let s1 := setF Reg.TMB_THETA_theta (satInt 32 th) l (onRef l p (fun r => { r with obs := o, miss := 0, missSnap := 0 }) s)
  let s2 := if (refOf b p).qual || !consistent o then s1 else onRef l p (fun r => { r with qual := true, qualAt := s.now }) s1
  let q := (refOf (s2.lane l).tmb p).qual
  if !q || !(srcOrder s).contains p || !b.set then s2
  else if !isActive s l then
    when (getF s Reg.TMB_STAT_state l == 1 && getF s Reg.TMB_STAT_src l == srcCode s p) (noteObs l m th) s2
  else
    match getF s Reg.TMB_STAT_state l with
    | 0 => enterSync l (srcCode s2 p) (correct l m th s2).1
    | 1 => if getF s Reg.TMB_STAT_src l = srcCode s p then (correct l m th s2).1 else s2
    | _ => s2

/-- A reference is lost in a lane (R326): it must qualify again; the timebase moves to the other if that one is qualified, and
otherwise enters HOLDOVER with the slew removed (R327). `code` is its TMB_STAT.src. -/
def refLost (l : Lane) (p : Bool) (code : Nat) (s : State) : State :=
  let s1 := onRef l p (fun _ => {}) s
  let b := (s1.lane l).tmb
  if getF s Reg.TMB_STAT_state l ≠ 1 || getF s Reg.TMB_STAT_src l ≠ code then s1
  else if !isActive s l then onTmb l (fun b => { b with prev := none }) s1
  else
    let s2 := dropBig l (onTmb l (fun b => { b with prev := none }) s1)
    if (refOf b (!p)).qual && (srcOrder s).contains (!p) then setF Reg.TMB_STAT_src (srcCode s (!p)) l s2
    else
      raise .timebase Ev.TMB_HOLD code
        (incF Reg.TMB_CNT_holds l
          (setF Reg.TMB_STAT_src 0xF l (setF Reg.TMB_STAT_state 2 l (setF Reg.TMB_STAT_steppend 0 l
            (onTmb l (fun b => { b with holdAt := s.now, pend := none }) (setTerms l b.clk.f 0 s2))))))

/-! Commands of the clock. -/

/-- CLOCK_WORD (R324): the Standby adopts the Active lane's word; its generators take their next instant anew where that first leaves FREE
(R338). A word whose pair fails is discarded and recorded (R349). -/
def execClockWord (t : Time) (l : Lane) (pairOk : Bool) (s : State) : Host.Outcome State Fault Refusal :=
  runLane t l s (fun s =>
    match active s with
    | none => s
    | some act =>
      if act = l then s
      else if !pairOk then raise .timebase Ev.TMB_CLKWD 0 s
      else
        let b := (s.lane act).tmb
        let frees := getF s Reg.TMB_STAT_state l == 0 && getF s Reg.TMB_STAT_state act != 0
        when frees (forEach (tpRetake l) [0, 1, 2, 3]) (showRate l (setF Reg.TMB_STAT_steppend (getF s Reg.TMB_STAT_steppend act) l
          (setF Reg.TMB_STAT_src (getF s Reg.TMB_STAT_src act) l (setF Reg.TMB_STAT_state (getF s Reg.TMB_STAT_state act) l
            (onTmb l (fun c => { c with clk := b.clk, set := b.set, pend := b.pend, first := b.first, holdAt := b.holdAt,
                                        holdAcc := b.holdAcc }) s))))))

/-- The generators of a lane whose timebase has locked: those of the Active lane, which run on the same local time (R325); with no other
lane Active, generators that are on start (R337). -/
def tpJoin (l : Lane) (n : Nat) (s : State) : State :=
  if getF s (Reg.TMB_TPn_CFG_mode n) = 0 || (tpGen s l n).run then s
  else
    match active s with
    | some act => if act = l then tpStartGen l n s else setTp l n (tpGen s act n) s
    | none => tpStartGen l n s

/-- TIMEBASE_PLL_LOCK (R319): the lane's MTC is loaded and its tick locked; its generators run again. -/
def execTimebasePllLock (t : Time) (l : Lane) (s : State) : Host.Outcome State Fault Refusal :=
  run t s (fun s =>
    forEach (tpJoin l) [0, 1, 2, 3] (setF Reg.TMB_STAT_aln 1 l (onTmb l (fun b => { b with locked := true }) s)))

/-- TICK_MARKER_LOSS (R349): the Standby's timebase free-runs on its own reference. -/
def execTickMarkerLoss (t : Time) (l : Lane) (s : State) : Host.Outcome State Fault Refusal :=
  runLane t l s (fun s =>
    if isActive s l then s else setF Reg.TMB_STAT_aln 0 l (onTmb l (fun b => { b with locked := false }) s))

/-- GNSS_REFERENCE_LOSS (R326): 3 epochs, or 2 snapshots in Lay-up, have passed without a valid fix. -/
def execGnssReferenceLoss (t : Time) (l : Lane) (s : State) : Host.Outcome State Fault Refusal :=
  runLane t l s (fun s =>
    let r := (s.lane l).tmb.gnss
    if (if getF s Reg.JX_MODE_mode = 0 then decide (2 ≤ r.missSnap) else decide (3 ≤ r.miss)) then refLost l false 8 s else s)

/-- PTP_SYNC_TIMEOUT (R326): the SLAVE port has received no Sync for 3 of its intervals. -/
def execPtpSyncTimeout (t : Time) (n : Nat) (s : State) : Host.Outcome State Fault Refusal :=
  run t s (fun s => if slavePort s = some n then readyLanes (fun l => refLost l true n) s else s)

/-- The reference HOLDOVER returns to: the first in order that has been qualified for 10 s (R327). -/
def holdoverRef (s : State) (l : Lane) : Option Bool :=
  (srcOrder s).find? (fun p => (refOf (s.lane l).tmb p).qual && decide (10 * sec ≤ since s.now (refOf (s.lane l).tmb p).qualAt))

/-- HOLDOVER_EXIT (R327): a reference qualified for 10 s returns the timebase to SYNC, corrected by R329; a step above maxstep
leaves it in HOLDOVER. -/
def execHoldoverExit (t : Time) (l : Lane) (s : State) : Host.Outcome State Fault Refusal :=
  runLane t l s (fun s =>
    if !isActive s l || getF s Reg.TMB_STAT_state l ≠ 2 then s
    else
      match holdoverRef s l with
      | none => s
      | some p =>
        match (refOf (s.lane l).tmb p).obs with
        | [] => s
        | o :: _ =>
          let (s1, ok) := correct l o.m o.theta s
          if ok then enterSync l (srcCode s p) s1 else s1)

/-- STEP_ACCEPT's effect (R329): the refused step is permitted at the next second boundary. -/
def acceptStep (l : Lane) (s : State) : State :=
  match (s.lane l).tmb.refused, (s.lane l).tmb.pend with
  | some th, none => if isActive s l then pendStep l th s else s
  | _, _ => s

/-- A step is due in a lane: local time has reached a whole second since the tick before (R319, R330). -/
def stepDue (s : State) (l : Lane) : Bool :=
  let c := (s.lane l).tmb.clk
  decide (ltNs c (s.now - 8#64) / sec < ltNs c s.now / sec) || decide (ltNs c s.now % sec = 0)

/-- Apply a lane's pending step (R330, R531): offset changes by θ, the slew term becomes 0; generators follow the crossed-time
rule; the Active lane records it. -/
def applyStep (l : Lane) (s : State) : State :=
  match (s.lane l).tmb.pend with
  | none => s
  | some th =>
    if !stepDue s l then s
    else
      let f := if (s.lane l).tmb.first then 0 else (s.lane l).tmb.clk.f
      let src := if getF s Reg.TMB_STAT_src l = 0xF then
          (match holdoverRef s l with | some p => srcCode s p | none => 0xF) else getF s Reg.TMB_STAT_src l
      let s1 := setTerms l f 0 s
      let whole := ltSec (ltAt s1 l s.now)
      let s2 := setF Reg.TMB_STAT_steppend 0 l
        (onTmb l (fun b => { b with clk := { b.clk with ofs := b.clk.ofs + th * 2 ^ 32 }, pend := none, first := false }) s1)
      let s3 := forEach (tpStep l (ltAt s2 l s.now)) [0, 1, 2, 3] s2
      let s4 := incF Reg.TMB_CNT_steps l (dropBig l s3)
      if isActive s l then
        let s5 := raise .timebase Ev.TMB_STEP (whole % 2 ^ 32 + 2 ^ 32 * satInt 32 (th / 1000)) s4
        recAnchor (if getF s5 Reg.TMB_STAT_state l = 2 then enterSync l src s5 else s5)
      else s4

/-- TMB_MTCL_READ (R321): MTC at the tick and the local time at that tick are latched. -/
def execTmbMtclRead (t : Time) (ep : Lane) (s : State) : Host.Outcome State Fault Refusal :=
  runLane t ep s (fun s =>
    let m := s.now - BitVec.ofNat 64 (s.now.toNat % 8)
    let x := ltAt s ep m
    let k (o : Nat) := o + laneSpan * (1 + ep.idx)
    wrK (k Reg.TMB_LTNS) (BitVec.ofNat 32 (x % sec).toNat)
      (wrK (k Reg.TMB_LTSH) (BitVec.ofNat 32 (ltSec x / 2 ^ 32))
        (wrK (k Reg.TMB_LTSL) (BitVec.ofNat 32 (ltSec x))
          (wrK (k Reg.TMB_MTCH) (BitVec.ofNat 32 (m.toNat / 2 ^ 32))
            (wrK (k Reg.TMB_MTCL) (BitVec.ofNat 32 m.toNat) (showHold ep s))))))

/-- TP_PULSE_START (R337). -/
def execTpPulseStart (t : Time) (n : Nat) (s : State) : Host.Outcome State Fault Refusal :=
  run t s (fun s => if n < 4 then readyLanes (tpPulse n) s else s)

/-- TP_PULSE_END (R340). -/
def execTpPulseEnd (t : Time) (n : Nat) (s : State) : Host.Outcome State Fault Refusal :=
  run t s (fun s => if n < 4 then readyLanes (tpEnd n) s else s)

/-- The effect of a write of TMB_TPn_CFG (R337): off to a mode starts the generators, a mode to off stops them; the output follows
the polarity. -/
def tpModeChange (n old new : Nat) (s : State) : State :=
  tpDrive
    (if old = 0 && new ≠ 0 then readyLanes (fun l => tpStartGen l n) s
      else if old ≠ 0 && new = 0 then readyLanes (fun l => tpStopGen l n) s
      else s)

/-! Time capture (R341). -/

/-- Unlisted FIFOs are empty. -/
def tcDef (_ : Nat) : List TcEnt := []

/-- Instant of the previous capture, where there is none. -/
def tcLastDef (_ : Nat) : Time := 0#64

/-- The record of a capture on stream class 0x16 (R380). -/
def tcRecord (n : Nat) (e : TcEnt) : List Byte :=
  [BitVec.ofNat 8 n, if e.rise then 1#8 else 2#8, 0#8, 0#8] ++ leBytes 4 (e.lt % sec).toNat ++ leBytes 8 e.mtc.toNat
    ++ leBytes 8 (ltSec e.lt) ++ leBytes 8 0

/-- A capture in one lane: a lost one counts as overflow. -/
def tcCapture (n : Nat) (rise : Bool) (l : Lane) (s : State) : State :=
  let b := (s.lane l).tmb
  let fifo := Sparse.get tcDef b.tcs n
  let seen := getF s (Reg.TMB_TCn_STAT_cnt n) l ≠ 0 || Sparse.get tcLastDef b.tcLast n ≠ 0#64
  if seen && decide (since s.now (Sparse.get tcLastDef b.tcLast n) < 100) then incF (Reg.TMB_TCn_STAT_ovf n) l s
  else
    let s1 := onTmb l (fun b => { b with tcLast := Sparse.set tcLastDef b.tcLast n s.now }) s
    if 16 ≤ fifo.length then incF (Reg.TMB_TCn_STAT_ovf n) l s1
    else
      let e : TcEnt := ⟨s.now, ltAt s l s.now, rise⟩
      let s2 := setF (Reg.TMB_TCn_STAT_cnt n) (fifo.length + 1) l
        (onTmb l (fun b => { b with tcs := Sparse.set tcDef b.tcs n (fifo ++ [e]) }) s1)
      when (getB s (Reg.TMB_TCn_CFG_post n) && isActive s l) (streamRec l 0x16 0 s.now (tcRecord n e)) s2

/-- An edge at a lane's input filter (R341): the edges of a pulse shorter than 50 ns are ignored, another that TMB_TCn_CFG.edge selects is
captured. `held` is how long the input then keeps its level, in ns. -/
def tcFilter (n : Nat) (rise : Bool) (held : Nat) (l : Lane) (s : State) : State :=
  let q := (s.lane l).tmb.tcSkip
  let skip (q : Sparse Time) : State := onTmb l (fun b => { b with tcSkip := q }) s
  if (q.find? (fun p => p.1 == n)).any (fun p => p.2 == s.now) then skip (Sparse.erase q n)
  else if held < 50 then skip (Sparse.insert q n (plus s.now held))
  else when (bit (getF s (Reg.TMB_TCn_CFG_edge n)) (if rise then 0 else 1)) (tcCapture n rise l) s

/-- TC_EDGE (R341): each lane captures an edge with its own MTC. -/
def execTcEdge (t : Time) (n : Nat) (rise : Bool) (held : Nat) (s : State) : Host.Outcome State Fault Refusal :=
  run t s (fun s => when (decide (n < 8)) (readyLanes (tcFilter n rise held)) s)

/-- TC_FIFO_READ (R341): the oldest entry is taken and presented; with none, valid reads 0. -/
def execTcFifoRead (t : Time) (ep : Lane) (n : Nat) (s : State) : Host.Outcome State Fault Refusal :=
  runLane t ep s (fun s =>
    if n < 8 then
      match Sparse.get tcDef (s.lane ep).tmb.tcs n with
      | [] => setF (Reg.TMB_TCn_TNS_valid n) 0 ep s
      | e :: q =>
        let k (o : Nat) := o + laneSpan * (1 + ep.idx)
        setF (Reg.TMB_TCn_STAT_cnt n) q.length ep
          (setF (Reg.TMB_TCn_TNS_valid n) 1 ep (setB (Reg.TMB_TCn_TNS_rise n) e.rise ep
            (setF (Reg.TMB_TCn_TNS_ns n) (e.lt % sec).toNat ep
              (wrK (k (Reg.TMB_TCn_TSH n)) (BitVec.ofNat 32 (ltSec e.lt / 2 ^ 32))
                (wrK (k (Reg.TMB_TCn_TSL n)) (BitVec.ofNat 32 (ltSec e.lt))
                  (wrK (k (Reg.TMB_TCn_MTCH n)) (BitVec.ofNat 32 (e.mtc.toNat / 2 ^ 32))
                    (wrK (k (Reg.TMB_TCn_MTCL n)) (BitVec.ofNat 32 e.mtc.toNat)
                      (onTmb ep (fun b => { b with tcs := Sparse.set tcDef b.tcs n q }) s))))))))
    else s)

/-- TMB_CNT_CLR's effect (R350). -/
def tmbCntClear (l : Lane) (s : State) : State :=
  clrEach Reg.TMB_TCn_STAT_ovf l 8 (clrEach Reg.TMB_TPn_STAT_latecnt l 4 (clrK Reg.TMB_CNT l s))

end Sys2Proof.Machine
end

