-- ==== Sys2Proof/Machine/Grid.lean ====
section
/-!
DEFINITION. The grid of epochs (R17, R21, R26, R309) and the power domains of the modes (R41).
-/

namespace Sys2Proof.Machine

/-- First instant at or after `t` on the grid of period `p` and phase `ph` (R17). -/
def gridFrom (p ph t : Nat) : Nat := if t ≤ ph then ph else ph + (t - ph + p - 1) / p * p

/-- Period in ns. -/
def CycSet.ns (c : CycSet) : Nat := c.period * ms

/-- The set in force from the next epoch on: the pending one from its epoch (R26). -/
def setFrom (s : State) : CycSet :=
  match s.cyc.pend with
  | some (c, e) => if atOrAfter s.cyc.nextE e then c else s.cyc.set
  | none => s.cyc.set

/-- The epoch after the next: one period later, or on the stepped grid, at least one period later (R309). -/
def epochAfterNext (s : State) : Time :=
  let p := (setFrom s).ns
  match s.cyc.phaseStep with
  | some ph => BitVec.ofNat 64 (gridFrom p ph (s.cyc.nextE.toNat + p))
  | none => plus s.cyc.nextE p

/-- Number, from the next one, of the first epoch at or after an instant. -/
def epochIdx (s : State) (t : Time) : Nat :=
  let e1 := epochAfterNext s
  let p := (setFrom s).ns
  if atOrAfter s.cyc.nextE t then 0
  else if atOrAfter e1 t then 1
  else if p = 0 then 1
  else 1 + (since t e1 + p - 1) / p

/-- The least MTC value whose local time reaches `lt` (R322). -/
def mtcReaching (c : ClkPar) (lt : Int) : Time :=
  let m0 := ((lt * 2 ^ 32 - c.ofs) * 2 ^ 16 / (2 ^ 48 + rateOf c)).toNat
  match [m0 - 1, m0, m0 + 1, m0 + 2].find? (fun m => decide (lt ≤ ltNs c (BitVec.ofNat 64 m))) with
  | some m => BitVec.ofNat 64 m
  | none => BitVec.ofNat 64 m0

/-- Modes by their code (R51). -/
def modeCode : Mode → Nat
  | .layup => 0
  | .transit => 1
  | .approach => 2
  | .berth => 3
  | .joystick => 4

/-- The mode of a code. -/
def modeOf : Nat → Option Mode
  | 0 => some .layup
  | 1 => some .transit
  | 2 => some .approach
  | 3 => some .berth
  | 4 => some .joystick
  | _ => none

/-- The mode in force. -/
def modeNow (s : State) : Mode := (modeOf (getF s Reg.JX_MODE_mode)).getD .layup

/-- Go over to a phase (R309): a step in Lay-up and Transit, a slew in other modes. -/
def takePhase (ph : Nat) (s : State) : State :=
  if ph = (rdK s Reg.JX_CYC_PHASE).toNat then { s with cyc := { s.cyc with phaseStep := none, slewTo := none } }
  else if modeNow s == .layup || modeNow s == .transit then { s with cyc := { s.cyc with phaseStep := some ph, slewTo := none } }
  else { s with cyc := { s.cyc with slewTo := some ph, phaseStep := none } }

/-! Fast PLLs (R28, R465). -/

/-- The spread code of an engine's PLL as it starts. -/
def setSpread (e : Engine) (v : Nat) (x : Nat × Nat × Nat) : Nat × Nat × Nat :=
  match e with
  | .cores => (v, x.2.1, x.2.2)
  | .fen => (x.1, v, x.2.2)
  | .slv => (x.1, x.2.1, v)

/-- Stop an engine's fast PLL in a lane. -/
def stopPll (e : Engine) (l : Lane) : State → State :=
  onLane l (fun a => { a with pllOff := a.pllOff.filter (· != e) ++ [e] })

/-- Start an engine's fast PLL, if it is stopped, with the spread then configured (R465). -/
def startPll (e : Engine) (l : Lane) (s : State) : State :=
  if (s.lane l).pllOff.contains e then
    onLane l (fun a => { a with pllOff := a.pllOff.filter (· != e), spread := setSpread e (getF s Reg.PWR_CFG_spread) a.spread }) s
  else s

/-- The feature engine and solver clocks of a lane that is not the Active one are held stopped (R38, R41). -/
def holdClocks (l : Lane) (s : State) : State :=
  when (!isActive s l) (fun s => stopPll .slv l (stopPll .fen l s)) s

/-- Whether fusion runs in a mode (R40). -/
def fusionRuns (m : Mode) (warm : Bool) : Bool :=
  match m with
  | .layup => false
  | .transit => warm
  | _ => true

/-- Domains of one lane a mode needs beside BASE (R41), as bits SLV, FEN, GNB; Lay-up needs none (GNB by snapshot only). -/
def modeDoms (m : Mode) (warm : Bool) : Nat :=
  match m with
  | .layup => 0
  | _ => 0b101 + (if fusionRuns m warm then 0b010 else 0)

/-- Bit of a lane's BASE domain in PWR_STAT.dom. -/
def domBit (l : Lane) : Nat := 4 + 4 * l.idx

/-- Whether domain bit `i` is powered. -/
def domOn (s : State) (i : Nat) : Bool := bit (getF s Reg.PWR_STAT_dom) i

/-- Switch domain bits on. -/
def domSet (mask : Nat) (s : State) : State := setF Reg.PWR_STAT_dom (getF s Reg.PWR_STAT_dom ||| mask) .a s

/-- Switch domain bits off. -/
def domClr (mask : Nat) (s : State) : State :=
  setF Reg.PWR_STAT_dom (getF s Reg.PWR_STAT_dom - (getF s Reg.PWR_STAT_dom &&& mask)) .a s

/-- Power up, in each lane whose BASE is on, the domains a mode needs (R44, R460). -/
def powerFor (m : Mode) (warm : Bool) : State → State :=
  bothLanes (fun l s => if domOn s (domBit l) then domSet (modeDoms m warm * 2 ^ (domBit l + 1)) s else s)

end Sys2Proof.Machine
end

