-- ==== Sys2Proof/Machine/Wire.lean ====
section
/-!
DEFINITION. What travels between lanes and modules as bytes: the items of the mirrored set (R291, R293), the frames of the mirror link (R292),
the SEAL (R294), and the headers and pieces of the Ramjor ring (R307, R310, R312). The layouts the spec does not give are free functions of the
item (log entry 98).
-/

namespace Sys2Proof.Machine

/-! Addresses (R306). -/

/-- The MAC and IP address of a source of the module: a lane's own, or the module address. -/
def macOf : Option Lane → BitVec 48
  | some l => Config.laneMac l.idx
  | none => Config.modMac
def ipOf : Option Lane → Word
  | some l => Config.laneIp l.idx
  | none => Config.modIp

/-! Items (R291, R293). -/

/-- Whether bytes are the complement of others. -/
def complOf (a b : List Byte) : Bool := b == a.map (~~~ ·)

/-- The SOLUTION item's content (R293): its header and V9 to V12; without a solution n is 0. -/
def solutionBytes (w : Word) (x : Option Solution) : List Byte :=
  let y : Solution := x.getD ⟨0#64, w, 0, 0#64, [], [], [], []⟩
  let vec (v : List F64) : List Byte := v.flatMap (fun a => leBytes 8 a.toNat)
  leBytes 8 y.e.toNat ++ leBytes 4 w.toNat ++ leBytes 4 (~~~w).toNat ++ leBytes 4 y.v9.length ++ leBytes 1 y.bank ++ leBytes 3 0
    ++ leBytes 8 y.dig.toNat ++ List.replicate 32 0#8 ++ vec y.v9 ++ vec y.v10 ++ vec y.v11 ++ vec y.v12

/-- The bytes of an item: those its complement covers, and the keyframe of FUSION, which it does not cover (R291). -/
def itemParts : MirItem → List Byte × List Byte
  | .solution w x => (solutionBytes w x, [])
  | .fusion f => (Config.itemBytes 0 (.fusion { f with key := none }), if f.key.isSome then Config.itemBytes 1 (.fusion f) else [])
  | it => (Config.itemBytes 0 it, [])

/-- The sections an item is sent with. -/
def itemSecs (it : MirItem) : ItemSecs := ⟨(itemParts it).1, (itemParts it).1.map (~~~ ·), (itemParts it).2⟩

/-- All bytes of an item. -/
def secsAll (x : ItemSecs) : List Byte := x.main ++ x.cpl ++ x.tail

/-- Bytes in pieces of `k`; the fuel is their number. -/
def chunks (k : Nat) : Nat → List Byte → List (List Byte)
  | 0, _ => []
  | n + 1, bs => if bs.isEmpty then [] else bs.take k :: chunks k n (bs.drop k)

/-- A piece of an item: whether it lies in the complement section, its offset in the item, its bytes. -/
structure Piece where
  cpl : Bool
  ofs : Nat
  pay : List Byte
  deriving DecidableEq, Repr

/-- The pieces of an item, at most `k` bytes each; none spans two sections. -/
def piecesOf (k : Nat) (it : MirItem) : List Piece :=
  let x := itemSecs it
  let sec (b : Bool) (o : Nat) (bs : List Byte) : List Piece := (chunks k bs.length bs).zipIdx.map (fun p => ⟨b, o + k * p.2, p.1⟩)
  sec false 0 x.main ++ sec true x.main.length x.cpl ++ sec false (x.main.length + x.cpl.length) x.tail

/-- Bytes 0-15 of the frame that carries piece `i` of `n` (R292). -/
def pieceHdr (typ n i : Nat) (cyc : Word) (seq : BitVec 16) (p : Piece) : List Byte :=
  leBytes 2 typ ++ leBytes 2 (b2n (i == 0) + 2 * b2n (i + 1 == n) + 4 * b2n p.cpl) ++ leBytes 4 cyc.toNat ++ leBytes 4 p.ofs
    ++ leBytes 2 p.pay.length ++ leBytes 2 seq.toNat

/-- The frames of an item on the mirror link (R292), without the gap: header, payload padded with 0, CRC-32C. The sequence goes on from `seq`. -/
def itemFrames (cyc : Word) (seq : BitVec 16) (it : MirItem) : List (List Byte) :=
  let ps := piecesOf 256 it
  ps.zipIdx.map (fun p =>
    let b := pieceHdr it.code ps.length p.2 cyc (seq + BitVec.ofNat 16 (p.2 + 1)) p.1 ++ p.1.pay
      ++ List.replicate (256 - p.1.pay.length) 0#8
    b ++ leBytes 4 (crc32c b).toNat)

/-- What the SEAL lists of an item (R291): type, length, CRC-32C. -/
def sealEnt (it : MirItem) : SealEnt := ⟨it.code, (secsAll (itemSecs it)).length, crc32c (secsAll (itemSecs it))⟩

/-- Whether every item a SEAL lists is held with its length and CRC-32C (R294). -/
def sealMet (es : List SealEnt) (held : List MirItem) : Bool := es.all (fun e => held.any (fun i => sealEnt i == e))

/-! Reception (R292, R294). -/

/-- Fields of a frame's bytes. -/
def frTyp (f : List Byte) : Nat := leAt f 0 2
def frFirst (f : List Byte) : Bool := bit (leAt f 2 2) 0
def frLast (f : List Byte) : Bool := bit (leAt f 2 2) 1
def frCpl (f : List Byte) : Bool := bit (leAt f 2 2) 2
def frCyc (f : List Byte) : Word := BitVec.ofNat 32 (leAt f 4 4)
def frOfs (f : List Byte) : Nat := leAt f 8 4
def frPay (f : List Byte) : List Byte := slice f 16 (leAt f 12 2)

/-- Whether a frame's CRC-32C checks. -/
def frCrcOk (f : List Byte) : Bool := leAt f 272 4 == (crc32c (f.take 272)).toNat

/-- The sections of an item after a frame of it: an item starts with its first frame, and its offsets leave no gap. -/
def joined (cur : List (Nat × ItemSecs)) (f : List Byte) : Option ItemSecs :=
  let old : Option ItemSecs := if frFirst f then some {} else alGet cur (frTyp f)
  match old with
  | none => none
  | some x =>
    if frOfs f ≠ (secsAll x).length then none
    else if frCpl f then some { x with cpl := x.cpl ++ frPay f }
    else if x.cpl.isEmpty then some { x with main := x.main ++ frPay f }
    else some { x with tail := x.tail ++ frPay f }

/-- The first item under way that has a type and these bytes, and what is under way after it: those of its type sent before it were lost. -/
def takeFlight (c : Nat) (bs : List Byte) : List MirItem → Option (MirItem × List MirItem)
  | [] => none
  | i :: is =>
    if i.code = c then (if secsAll (itemSecs i) = bs then some (i, is) else takeFlight c bs is)
    else (takeFlight c bs is).map (fun r => (r.1, i :: r.2))

/-! Ring headers and pieces (R307, R310, R312). -/

/-- Other modules of the ring: those heard in the last 20 s (R310). -/
def members (s : State) : List Nat :=
  (s.net.srcs.filter (fun p => decide (since s.now p.2.last < 20 * sec))).map (·.1)

/-- Modules of the ring, this one included. -/
def ringCount (s : State) : Nat := (members s).length + 1

/-- A header (R307) with its complement. -/
def mkHdr (s : State) (typ dest hops flags : Nat) (wb : Bool) (seq : Word) : BitVec 256 :=
  let lo := 1 + 2 ^ 8 * typ + 2 ^ 16 * (ringNum s + 2 ^ 15 * b2n wb) + 2 ^ 32 * seq.toNat
  BitVec.ofNat 256 (lo + 2 ^ 64 * dest + 2 ^ 80 * hops + 2 ^ 88 * flags + 2 ^ 96 * (rdK s Reg.JX_CYC_COUNT).toNat
    + 2 ^ 128 * s.now.toNat + 2 ^ 192 * (2 ^ 64 - 1 - lo))

/-- The ports of the ring whose link is up: WA, then WB. -/
def ringPorts (s : State) : List Bool :=
  [false, true].filter (fun wb => if wb then getB s Reg.NET_RING_STAT_wb else getB s Reg.NET_RING_STAT_wa)

/-- The payloads of an item's MIRROR frames (R312): pieces of 1,440 bytes, each behind the 16 bytes that a frame of the link begins with
(log entry 98). -/
def modulePays (cyc : Word) (it : MirItem) : List (List Byte) :=
  let ps := piecesOf 1440 it
  ps.zipIdx.map (fun p => pieceHdr it.code ps.length p.2 cyc (BitVec.ofNat 16 p.2) p.1 ++ p.1.pay)

/-- The MIRROR frames of an item, sent on every port whose link is up: port, header, payload. -/
def moduleFrames (s : State) (dest : Nat) (it : MirItem) : List (Bool × BitVec 256 × List Byte) :=
  (modulePays (rdK s Reg.JX_CYC_COUNT) it).zipIdx.flatMap (fun p =>
    (ringPorts s).map (fun wb => (wb, mkHdr s 3 dest (ringCount s) 1 wb (s.net.seq + BitVec.ofNat 32 (p.2 + 1)), p.1)))

end Sys2Proof.Machine
end

