-- ==== Sys2Proof/Machine/Orders.lean ====
section
/-!
DEFINITION. Descriptors and the authority state (R358, R362-R373, R383): arrival, the checks in their order, completion
entries, the authority state with its version, pending orders, and the wait for the Standby's acknowledgement (R50, R295).
-/

namespace Sys2Proof.Machine

/-! Completion codes (R365). -/

namespace Code

def ACCEPTED : Nat := 0x00
def CONFLICT : Nat := 0x01
def TRANSITION : Nat := 0x02
def SUPERSEDED : Nat := 0x03
def NOT_READY : Nat := 0x04
def STATE : Nat := 0x05
def MISMATCH : Nat := 0x06
def CANCELLED : Nat := 0x07
def TOO_LATE : Nat := 0x08
def REFUSED : Nat := 0x09
def BUSY : Nat := 0x0A
def BUDGET : Nat := 0x0B
def ERR : Nat := 0x0C
def BADPAIR : Nat := 0x10
def BADCRC : Nat := 0x11
def BADCLASS : Nat := 0x12
def ROLE : Nat := 0x13
def EXPERT : Nat := 0x14
def LIFECYCLE : Nat := 0x15
def BUFFER : Nat := 0x16
def RANGE : Nat := 0x17

end Code

/-- What an operation answers: a completion with its code, detail, 16-byte result, whether the buffer was written, and E_eff; or
a completion that comes later. -/
inductive Reply where
  | done (code detail : Nat) (res : List Byte) (buf : Bool)
  | later
  deriving DecidableEq, Repr

/-- A completion with a code alone. -/
def Reply.code (c : Nat) : Reply := .done c 0 [] false

/-- A completion with a code and a detail. -/
def Reply.codeD (c d : Nat) : Reply := .done c d [] false

/-- The HRI block of the Active lane as a source. -/
def hriSrc (s : State) : Src := laneSrc (timeLane s) 11

/-- The record of the end of an expert session (R378). -/
def expertEnds (s : State) : State :=
  raise (hriSrc s) Ev.HRI_EXPERT (2 ^ 8 * s.auth.holder.getD 0 + (if getF s Reg.UPD_LCS_state == 3 then 2 ^ 11 else 0)) s

/-! Completions (R364). -/

/-- A completion entry with phase 0. -/
def completionEntry (ver : Word) (info : OrdInfo) (code detail : Nat) (done eEff : Time) (res : List Byte) (buf : Bool) :
    List Byte :=
  let cd := leBytes 2 code ++ leBytes 2 detail
  let ring := match info.path with
    | .pcie _ n => n
    | _ => 0xFFFF
  [0x20#8, info.cls] ++ leBytes 2 (if buf then 2 else 0) ++ leBytes 4 info.tag.toNat ++ cd ++ cd.map (~~~ ·)
    ++ leBytes 2 ring ++ leBytes 2 info.index ++ leBytes 4 ver.toNat ++ leBytes 8 info.tAcc.toNat ++ leBytes 8 done.toNat
    ++ leBytes 8 eEff.toNat ++ (res ++ List.replicate 16 0#8).take 16

/-- An entry with its phase bit set as the ring requires (R359). -/
def withPhase (e : List Byte) (ph : Bool) : List Byte := if ph then listSet e 2 (e.getD 2 0#8 ||| 1#8) else e

/-- Write an entry to a completion ring of a lane: a full ring makes it wait (R358). -/
def putCompletion (l : Lane) (c : Nat) (e : List Byte) (s : State) : State :=
  if !ringOn s l c || getF s (Reg.HRI_RGn_CFG_kind c) l ≠ 1 then s
  else if ringFull s l c || !(ringSt s l c).waitQ.isEmpty then
    onRing l c (fun r => { r with waitQ := r.waitQ ++ [BitVec.ofNat 512 (leNat e)] }) s
  else pushEntry l c (withPhase e) s

/-- A datagram of the module to a station (R383): one completion entry. -/
def stationDgram (st port : Nat) (e : List Byte) (s : State) : State :=
  prpSend none (fun q => .dgram st port q ([0x4A#8, 0x43#8, 1#8, 1#8] ++ leBytes 4 s.dgSeq.toNat ++ e)) { s with dgSeq := s.dgSeq + 1#32 }

/-- The reply object of station 7 (R391, R398). -/
def joyReply (s : State) : Option Nat := (s.mbc.objs.find? (fun p => p.2.kind == 7)).map (·.1)

/-- The reply frame of station 7 (R398). -/
def joyFrame (s : State) (tag : Word) (code : Nat) : List Byte :=
  let op := tag.toNat % 256
  let sq := tag.toNat / 256 % 256
  let h := getF s Reg.HRI_AUTH_STAT_holder + (if getB s Reg.HRI_AUTH_STAT_hv then 8 else 0)
  let b := [BitVec.ofNat 8 op, BitVec.ofNat 8 sq, BitVec.ofNat 8 code, BitVec.ofNat 8 h]
  b ++ b.map (~~~ ·)

/-- The endpoint lane a completion is written on: the one the descriptor came by, or the Active one when that lane is no longer
in service (R366 and the cases of ch. 11). -/
def completionLane (s : State) (ep : Lane) : Lane :=
  if !shut s ep then ep else timeLane s

/-- The completion ring an order answers to on a lane's endpoint: the one its submission ring named when it was accepted (R355), or, where
another endpoint answers for it, the one the same ring names there. -/
def answerRing (s : State) (info : OrdInfo) (ep l : Lane) (n : Nat) : Nat :=
  if l = ep then info.port else getF s (Reg.HRI_RGn_CFG_cring n) l

/-- Complete an order with the authority version after it (R364): quiet orders write no ACCEPTED completion (R362). -/
def completeAt (ver : Word) (info : OrdInfo) (code detail : Nat) (eEff : Time) (res : List Byte) (buf : Bool) (s : State) : State :=
  let s1 := emit (.complete info code detail) s
  let e := completionEntry ver info code detail s.now eEff res buf
  match info.path with
  | .pcie ep n =>
    if info.quiet && code == Code.ACCEPTED then s1
    else
      let l := completionLane s ep
      putCompletion l (answerRing s info ep l n) e s1
  | .net st => if info.quiet && code == Code.ACCEPTED then s1 else stationDgram st info.port e s1
  | .can =>
    match joyReply s with
    | some k => queueFrame k (joyFrame s info.tag code) (setF Reg.MBC_JOY_code code .a s1)
    | none => setF Reg.MBC_JOY_code code .a s1

/-- Complete an order that ends now: the version after it is the present one. -/
def complete (info : OrdInfo) (code detail : Nat) (eEff : Time) (res : List Byte) (buf : Bool) (s : State) : State :=
  completeAt (rdK s Reg.HRI_AUTH_VER) info code detail eEff res buf s

/-! The authority state (R369). -/

/-- HRI_AUTH_STAT and HRI_AUTH_VER. -/
def showAuthStat (s : State) : State :=
  let u := s.auth
  setF Reg.HRI_AUTH_STAT_holder (u.holder.getD 0) .a
    (setB Reg.HRI_AUTH_STAT_hv u.holder.isSome .a
      (setB Reg.HRI_AUTH_STAT_xfer u.xfer.isSome .a
        (setF Reg.HRI_AUTH_STAT_to ((u.xfer.map (·.dest)).getD 0) .a
          (setB Reg.HRI_AUTH_STAT_req u.req.isSome .a
            (setF Reg.HRI_AUTH_STAT_rqs ((u.req.map (·.stn)).getD 0) .a
              (setB Reg.HRI_AUTH_STAT_xp (u.expert.isSome || getF s Reg.UPD_LCS_state == 3) .a
                (wrK Reg.HRI_AUTH_VER u.ver s)))))))

/-- The pending mode with its warm value. -/
def pendingMode (u : Auth) : Option (Mode × Bool) :=
  u.orders.reverse.findSome? (fun o => match o.val with
    | .mode m w => some (m, w)
    | _ => none)

/-- Domains of a lane that are to be powered beside BASE (R41, R44, R211): those of the mode in force and of a pending one, and GNB while a
snapshot of Lay-up is captured or processed. -/
def needDoms (s : State) (l : Lane) : Nat :=
  let g := (s.lane l).gnb
  modeDoms (modeNow s) (getB s Reg.JX_MODE_warm) ||| ((pendingMode s.auth).map (fun x => modeDoms x.1 x.2)).getD 0
    ||| (if g.cap.isSome || g.proc.isSome then 4 else 0)

/-- JX_MODE.pend, pmode and pwarm (R51), and KPR_STAT.swp (R317). -/
def showPending (s : State) : State :=
  let m := pendingMode s.auth
  let sw := s.auth.orders.any (fun o => match o.val with
    | .swap _ => true
    | _ => false)
  setB Reg.KPR_STAT_swp sw .a
    (setB Reg.JX_MODE_pend m.isSome .a
      (setF Reg.JX_MODE_pmode ((m.map (fun x => modeCode x.1)).getD 0) .a
        (setB Reg.JX_MODE_pwarm ((m.map (·.2)).getD false) .a s)))

/-- Whether an arm of a package kind names a bank. -/
def armed (u : Auth) (net : Bool) (k : Nat) : Bool :=
  u.orders.any (fun o => match o.val with
    | .arm n b _ => n == net && b == k
    | _ => false)

/-- State field of a package bank of a lane (R85): EMPTY 0, LOADING 1, VERIFIED 2, ARMED 3, ACTIVE 4, FAILED 5. -/
def bankFld (net : Bool) (k : Nat) : Fld :=
  match net, k with
  | false, 0 => Reg.SLV_PKG_BANK_st0
  | false, _ => Reg.SLV_PKG_BANK_st1
  | true, 0 => Reg.FUS_NPKG_BANK_st0
  | true, _ => Reg.FUS_NPKG_BANK_st1

/-- A lane's banks follow the arms of an authority state (R85, R91): a bank an arm names is ARMED, one that no arm names any more
is VERIFIED. -/
def armSync (l : Lane) (u : Auth) : State → State :=
  forEach (fun p s =>
    let f := bankFld p.1 p.2
    if getF s f l = 3 && !armed u p.1 p.2 then setF f 2 l s
    else if getF s f l = 2 && armed u p.1 p.2 then setF f 3 l s
    else s) [(false, 0), (false, 1), (true, 0), (true, 1)]

/-- Identifiers of the joystick demand setpoints (R139). -/
def joyIds : List Nat := [0x00010010, 0x00010011, 0x00010012]

/-- MBC_JOY.dv: demand setpoints are in force (R398). -/
def showJoy (s : State) : State := setB Reg.MBC_JOY_dv (s.auth.sps.any (fun p => joyIds.contains p.1.toNat)) .a s

/-- What the registers show of the authority state. -/
def showAuth (s : State) : State :=
  let s1 := showJoy (showPending (showAuthStat s))
  match active s with
  | some l => armSync l s.auth s1
  | none => s1

/-- The Keeper's view of a lane. -/
def kprLane (s : State) : Lane → KprLane
  | .a => s.kpr.la
  | .b => s.kpr.lb

/-- Whether the Active lane sends mirror-link frames (R295): to an admitted Standby, or to a returning lane. -/
def linkSends (s : State) : Bool :=
  match active s with
  | none => false
  | some l =>
    let o := l.other
    ready s o && ((admitted s o && !blocked s o) ||
      (getB s Reg.TMB_STAT_aln o && (!(kprLane s o).failed || (kprLane s o).returning)))

/-- Send an item over the mirror link. -/
def sendItem (it : MirItem) (s : State) : State :=
  if linkSends s then
    let fs := itemFrames (rdK s Reg.JX_CYC_COUNT) s.linkSeq it
    emit (.mirror it fs) { s with mirTx := s.mirTx ++ [it], linkSeq := s.linkSeq + BitVec.ofNat 16 fs.length }
  else s

/-- Start of the exchange window of the cycle in progress (R310): its last xwin. -/
def winStart (s : State) : Time := s.cyc.nextE - BitVec.ofNat 64 (s.cyc.cur.xwin * ms)

/-- Whether the exchange window is open. -/
def winOpen (s : State) : Bool := atOrAfter s.now (winStart s) && !atOrAfter s.now s.cyc.nextE

/-- Send the MIRROR frames of an item to the standby module (R312), on the ports whose link is up. -/
def emitModule (it : MirItem) (s : State) : State :=
  emit (.ringItem it (moduleFrames s (getF s Reg.NET_RING_PEER_partner) it))
    { s with net := { s.net with seq := s.net.seq + BitVec.ofNat 32 (modulePays 0#32 it).length } }

/-- The active module of a pair sends an item of its mirrored set to the standby module, outside the exchange window (R312): inside it the item
waits for the epoch. -/
def sendModule (it : MirItem) (s : State) : State :=
  if getF s Reg.NET_RING_CFG_role = 1 && getB s Reg.NET_RING_CFG_en && !outReleased s then
    if winOpen s then { s with net := { s.net with modTx := s.net.modTx ++ [it] } }
    else emitModule it s
  else s

/-- The items that waited for the end of the exchange window leave (R312). -/
def flushModule (s : State) : State :=
  forEach emitModule s.net.modTx { s with net := { s.net with modTx := [] } }

/-- A change of the authority state (R369): the version rises by 1, both endpoints show it (R361), and it is mirrored at once
(R291, R312). -/
def authChange (f : Auth → Auth) (s : State) : State :=
  let u := { f s.auth with ver := s.auth.ver + 1#32 }
  bothLanes (sysStat Reg.HRI_SYS_STAT_authchg) (sendModule (.authority u) (sendItem (.authority u) (showAuth { s with auth := u })))

/-- Version `v` is at or before `w`. -/
def verReached (w v : Word) : Bool := decide ((w - v).toNat < 2 ^ 31)

/-- Whether a waiting order that has taken effect is acknowledged (R50): at once while no Standby is admitted (R295). -/
def acked (s : State) (w : Wait) : Bool :=
  match w.verEff with
  | none => false
  | some v => (standby s).isNone || verReached s.ackVer v || (w.byAcc && verReached s.ackVer w.verAcc)

/-- Complete ACCEPTED every waiting order that has taken effect and is acknowledged (R50), with the version in which it took effect. -/
def sweepList : List Wait → State → State
  | [], s => s
  | w :: ws, s =>
    sweepList ws (if acked s w then
      completeAt (w.verEff.getD s.auth.ver) w.info Code.ACCEPTED 0 w.eEff [] false { s with waits := s.waits.filter (fun x => x.tkt ≠ w.tkt) } else s)

/-- Complete what can complete. -/
def sweep (s : State) : State := sweepList s.waits s

/-- Complete a waiting order by its ticket with a code. -/
def finish (tkt code detail : Nat) (s : State) : State :=
  match s.waits.find? (fun w => w.tkt == tkt) with
  | some w => complete w.info code detail w.eEff [] false { s with waits := s.waits.filter (fun x => x.tkt ≠ tkt) }
  | none => s

/-- Mark a waiting order as having taken effect at an instant, in the version now in force. -/
def effected (tkt : Nat) (e : Time) (s : State) : State :=
  { s with waits := s.waits.map (fun w => if w.tkt = tkt then { w with eEff := e, verEff := some s.auth.ver } else w) }

/-- Give a ticket to an order that waits: its acceptance stands in version `ver`. -/
def newWait (info : OrdInfo) (byAcc : Bool) (ver : Word) (s : State) : State :=
  { s with waits := s.waits ++ [⟨s.tkt, info, 0#64, ver, byAcc, none⟩], tkt := s.tkt + 1 }

/-! Pending orders (R370). -/

/-- Instant of the epoch of an index. -/
def epochOf (s : State) (n : Nat) : Time :=
  match n with
  | 0 => s.cyc.nextE
  | n + 1 => plus (epochAfterNext s) (n * (setFrom s).ns)

/-- TAI nanoseconds of an arm's T. -/
def taiNs (t : Nat × Nat) : Int := (t.1 * 1000000000 + t.2 : Nat)

/-- Index of the epoch a pending order waits for: for an arm with T, also the first whose local time reaches T (R87). -/
def dueIdx (s : State) (v : OrdVal) (earliest : Time) : Nat :=
  match v with
  | .arm _ _ (some x) =>
    max (epochIdx s earliest) (epochIdx s (mtcReaching (s.lane (timeLane s)).tmb.clk (taiNs x)))
  | _ => epochIdx s earliest

/-- Whether a pending order takes effect at an epoch. -/
def isDue (s : State) (e : Time) (o : PendOrd) : Bool :=
  atOrAfter e o.earliest &&
    match o.val with
    | .arm _ _ (some x) => decide (taiNs x ≤ ltAt s (timeLane s) e)
    | .loop _ _ => false
    | _ => true

/-- Orders that complete on the acknowledgement of their acceptance once they have taken effect (R50, R89, R268). -/
def ordByAcc : OrdVal → Bool
  | .mode _ _ => true
  | .arm _ _ _ => true
  | .loop _ _ => true
  | _ => false

/-- Event HRI_CONFLICT (R370). -/
def conflict (st cls op : Nat) (s : State) : State := raise (hriSrc s) Ev.HRI_CONFLICT (st + 2 ^ 8 * cls + 2 ^ 16 * op) s

/-- Class and operation of an order by what it sets, for HRI_CONFLICT. -/
def ordClsOp : OrdVal → Nat × Nat
  | .mode _ _ => (1, 1)
  | .sp _ _ => (1, 2)
  | .arm _ _ _ => (1, 3)
  | .loop _ (.mode _) => (1, 5)
  | .loop _ (.man _) => (1, 6)
  | .loop _ (.sp _) => (1, 7)
  | .loop _ (.bank _) => (1, 8)
  | .trust (some _) => (1, 9)
  | .trust none => (1, 10)
  | .datum _ => (1, 11)
  | .swap _ => (1, 12)
  | .release => (2, 4)

/-- Drop a pending order, completing it with a code; the state before an arm is given back by `undo`. -/
def dropOrder (p : PendOrd) (code : Nat) (s : State) : State :=
  finish p.tkt code 0 { s with auth := { s.auth with orders := s.auth.orders.filter (fun x => x.tkt ≠ p.tkt) } }

/-- Whether an order sets one of the items that R370 lists: a role swap and a release set none. -/
def setsItem : OrdVal → Bool
  | .swap _ => false
  | .release => false
  | _ => true

/-- Whether a pending order of another station contradicts a new one (R370). -/
def contradicts (s : State) (st : Nat) (v : OrdVal) (earliest : Time) (p : PendOrd) : Bool :=
  setsItem v && p.stn != st && p.val.item == v.item && p.val != v && dueIdx s p.val p.earliest == dueIdx s v earliest

/-- Whether a pending order stands against a contradicting one accepted at `t` by station `st` (R370 rule 2). -/
def stands (p : PendOrd) (t : Time) (st : Nat) : Bool :=
  if p.tAcc = t then decide (p.stn < st) else atOrAfter t p.tAcc

/-- A package arm: it replaces the pending one whoever gave it, since at most one bank is ARMED (R85, R91). -/
def isArm : OrdVal → Bool
  | .arm _ _ _ => true
  | _ => false

/-- Put an order into the authority state (R370): a contradicting earlier one makes it complete CONFLICT, a later one gives way;
the station's own earlier order on the item, and any earlier arm, is SUPERSEDED. `after` makes what else acceptance changes. `info` none: no
completion is ever sent (R398). -/
def placeOrder (info : Option OrdInfo) (st : Nat) (t : Time) (v : OrdVal) (earliest : Time) (after : State → State) (s : State) :
    State × Reply :=
  let co := ordClsOp v
  if s.auth.orders.any (fun p => contradicts s st v earliest p && stands p t st) then
    (conflict st co.1 co.2 s, .code Code.CONFLICT)
  else
    let lose := s.auth.orders.filter (contradicts s st v earliest)
    let s1 := forEach (fun p s => dropOrder p Code.CONFLICT (conflict p.stn (ordClsOp p.val).1 (ordClsOp p.val).2 s)) lose s
    let own := s1.auth.orders.filter (fun p => (p.stn == st || isArm v) && p.val.item == v.item)
    let s2 := forEach (fun p s => dropOrder p Code.SUPERSEDED s) own s1
    let k := s2.tkt
    let s3 := authChange (fun u => { u with orders := u.orders ++ [⟨v, st, t, earliest, k⟩] }) (after s2)
    (match info with
     | some i => newWait i (ordByAcc v) s3.auth.ver s3
     | none => { s3 with tkt := s3.tkt + 1 }, .later)

/-! Arrival and checks (R358, R363). -/

/-- Number of `n` body bytes at an offset. -/
def bodyN (o : Order) (off n : Nat) : Nat := o.body.toNat / 2 ^ (8 * off) % 2 ^ (8 * n)

/-- A body pair of `n` bytes: the field at `a`, its complement at `b`. -/
def bodyPair (o : Order) (a b n : Nat) : Bool := bodyN o a n + bodyN o b n == 2 ^ (8 * n) - 1 && bodyN o a n &&& bodyN o b n == 0

/-- A binary64 body value. -/
def bodyF (o : Order) (off : Nat) : F64 := BitVec.ofNat 64 (bodyN o off 8)

/-- Bits of the body outside the fields an operation uses are 0 (R362); fields are (first bit, bits). -/
def bodyClean (o : Order) (used : List (Nat × Nat)) : Bool :=
  o.body &&& ~~~(used.foldl (fun m r => m ||| BitVec.ofNat 320 ((2 ^ r.2 - 1) * 2 ^ r.1)) 0#320) == 0#320

/-- Bytes 0-7 of a descriptor. -/
def orderHead (o : Order) : BitVec 64 := o.tag ++ o.flags ++ o.op ++ o.cls

/-- The first failing check of pair, CRC and class (R363). -/
def headErr (o : Order) (cls op : Nat) (used : List (Nat × Nat)) : Option Nat :=
  if o.cpl ≠ ~~~(orderHead o) then some Code.BADPAIR
  else if crc32c (leBytes 40 o.body.toNat) ≠ o.crc then some Code.BADCRC
  else if o.cls.toNat ≠ cls || o.op.toNat ≠ op || o.flags >>> 1 ≠ 0#16 || o.rsv ≠ 0#32 || !bodyClean o used then
    some Code.BADCLASS
  else none

/-- Station of a path (R369). -/
def stationOf (s : State) : Path → Nat
  | .pcie ep _ => getF s Reg.HRI_EP_CFG_station ep
  | .net n => n
  | .can => 7

/-- Whether a class and operation are accepted from a path (R368, R373, R377, R482). -/
def pathOk (s : State) (o : Order) (cls op : Nat) : Bool :=
  match o.path with
  | .pcie ep _ => isActive s ep || !(cls == 1 || cls == 2 || cls == 5 || (cls == 6 && op == 3))
  | .net _ => (cls == 1 && decide (op < 0x0E)) || cls == 2 || (cls == 3 && (op == 1 || op == 2 || op == 5))
  | .can => (cls == 1 && ((op == 1 && bodyN o 0 1 == 4) || (op == 2 && joyIds.contains (bodyN o 0 4))))
      || (cls == 2 && (op == 1 || op == 4 || op == 5))

/-- Whether the expert level is open (R378). -/
def expertOpen (s : State) : Bool := getF s Reg.UPD_LCS_state == 3 || s.auth.expert.isSome

/-- Whether a station is enabled (R369). -/
def stationEn (s : State) (st : Nat) : Bool := bit (getF s Reg.HRI_AUTH_CFG_sten) st

/-- Whether a station may give an order (R370, R371, R376, R378, R482), enabled as it is. -/
def mayOrder (s : State) (st cls op : Nat) : Bool :=
  match cls with
  | 1 => if within 0x0E 0x11 op then s.auth.holder.isNone || s.auth.holder == some st
    else s.auth.holder == some st || (s.auth.xfer.map (·.dest)) == some st
  | 2 => op == 1 || s.auth.holder == some st
  | 5 => s.auth.holder.isNone || s.auth.holder == some st
  | 7 => getF s Reg.UPD_LCS_state == 3 || s.auth.holder == some st
  | _ => true

/-- The completion ring of a submission ring is full, so that the ring is not served (R358). -/
def answersFull (s : State) (ep : Lane) (n : Nat) : Bool :=
  let c := getF s (Reg.HRI_RGn_CFG_cring n) ep
  ringOn s ep c && (ringFull s ep c || !(ringSt s ep c).waitQ.isEmpty)

/-- Whether a submission ring has a descriptor that is not yet fetched. -/
def hasDescr (s : State) (ep : Lane) (n : Nat) : Bool :=
  ringOn s ep n && getF s (Reg.HRI_RGn_CFG_kind n) ep == 0
    && getF s (Reg.HRI_RGn_PTR_idx n) ep != getF s (Reg.HRI_RGn_HOST_idx n) ep

/-- The submission ring whose turn it is (R358): round-robin, from the one after the ring served last. -/
def nextRing (s : State) (ep : Lane) : Option Nat :=
  ((List.range 64).map (fun i => ((s.lane ep).hri.turn + i) % 64)).find? (fun n => hasDescr s ep n && !answersFull s ep n)

/-- A descriptor that reaches the module: its completion information, and the state with it taken from its ring or datagram. The rings are
served in turn; a submission ring whose completion ring is full is STALLED and not served (R358); where there is no descriptor to
take, none. -/
def arrive (o : Order) (s : State) : Option OrdInfo × State :=
  let mk (st idx : Nat) (t : Time) (port : Nat) : OrdInfo := ⟨o.path, o.cls, o.tag, o.flags.getLsbD 0, idx, t, st, port⟩
  if getF s Reg.UPD_LCS_state == 4 then (none, s)
  else
    match o.path with
    | .pcie ep n =>
      let i := getF s (Reg.HRI_RGn_PTR_idx n) ep
      if shut s ep || !hasDescr s ep n then (none, s)
      else if answersFull s ep n then (none, setF (Reg.HRI_RGn_STAT_state n) 2 ep s)
      else if nextRing s ep ≠ some n then (none, s)
      else
        (some (mk (getF s Reg.HRI_EP_CFG_station ep) i s.now (getF s (Reg.HRI_RGn_CFG_cring n) ep)),
         setF (Reg.HRI_RGn_STAT_state n) 1 ep (setF (Reg.HRI_RGn_PTR_idx n) ((i + 1) % ringSize s ep n) ep
           (onLane ep (fun a => { a with hri := { a.hri with turn := (n + 1) % 64 } }) s)))
    | .net st =>
      match s.netPend.find? (fun p => p.1 == st && decide (0 < p.2.1)), active s with
      | some p, some _ =>
        (some (mk st 0 p.2.2.1 p.2.2.2),
         { s with netPend := (s.netPend.map (fun q => if q = p then (q.1, q.2.1 - 1, q.2.2) else q)).filter
                    (fun q => decide (0 < q.2.1)) })
      | _, _ => (none, s)
    | .can => if (active s).isSome then (some (mk 7 0 s.now 0), s) else (none, s)

/-- The lane whose endpoint counts a descriptor of a path. -/
def orderLane (s : State) : Path → Lane
  | .pcie ep _ => ep
  | _ => timeLane s

/-- Count a descriptor or datagram rejected for format or source (R363, R384). -/
def countReject (l : Lane) (s : State) : State := sysStat Reg.HRI_SYS_STAT_reject l (incF Reg.HRI_CNT_reject l s)

/-- A sign of life of a station (R372). -/
def signOfLife (st : Nat) (s : State) : State :=
  if s.auth.holder = some st then { s with auth := { s.auth with lastSign := s.now } } else s

/-- The first failing check of path, life cycle, level and authority (R363); `lcBad` says whether the operation is configuration
refused while Operational. -/
def rightErr (s : State) (o : Order) (st cls op : Nat) (lcBad : Bool) : Option Nat :=
  if !pathOk s o cls op then some Code.ROLE
  else if lcBad && getF s Reg.UPD_LCS_state == 2 then some Code.LIFECYCLE
  else if cls == 7 && !expertOpen s then some Code.EXPERT
  else if !stationEn s st || !mayOrder s st cls op then some Code.CONFLICT
  else none

/-- Answer a descriptor with the reply of its operation. -/
def answer (info : OrdInfo) (r : State × Reply) : State :=
  match r.2 with
  | .done code detail res buf => complete info code detail 0#64 res buf r.1
  | .later => sweep r.1

/-- Whether a reply is an acceptance. -/
def Reply.good : Reply → Bool
  | .done c _ _ _ => c == 0
  | .later => true

/-- Event JX_CPLFAIL for a descriptor key field at an offset of the descriptor (R16, R530). -/
def pairFail (s : State) (off : Nat) : State := raise (hriSrc s) Ev.JX_CPLFAIL (1 + 2 ^ 32 * off) s

/-- The failures of format or path (R363): they count in HRI_CNT.reject. -/
def isReject (c : Nat) : Bool := [Code.BADPAIR, Code.BADCRC, Code.BADCLASS, Code.ROLE].contains c

/-- Answer a descriptor on a path; a failure of format or path is counted as a reject. -/
def answerAt (l : Lane) (info : OrdInfo) (r : State × Reply) : State :=
  answer info (match r.2 with
    | .done c _ _ _ => (when (isReject c) (countReject l) r.1, r.2)
    | .later => r)

/-- Serve an accepted descriptor: the checks in their order, each with its code (R363), then the operation. `pairs` are the body
pairs: offset of the field, of its complement, bytes. -/
def serveTaken (info : OrdInfo) (o : Order) (cls op : Nat) (used : List (Nat × Nat)) (pairs : List (Nat × Nat × Nat))
    (lcBad : Bool) (act : OrdInfo → State → State × Reply) (s : State) : State :=
  let l := orderLane s o.path
  match headErr o cls op used with
  | some c => answerAt l info (when (c == Code.BADPAIR) (fun s => pairFail s 0) s, .code c)
  | none =>
    match rightErr s o info.station cls op lcBad with
    | some c => answerAt l info (when (c == Code.CONFLICT) (conflict info.station cls op) s, .code c)
    | none =>
      match pairs.find? (fun p => !bodyPair o p.1 p.2.1 p.2.2) with
      | some p => answerAt l info (pairFail s (24 + p.1), .code Code.BADPAIR)
      | none =>
        let r := act info s
        answerAt l info (if r.2.good then (signOfLife info.station r.1, r.2) else r)

/-- Take a descriptor and serve it (R358, R363). -/
def serve (o : Order) (cls op : Nat) (used : List (Nat × Nat)) (pairs : List (Nat × Nat × Nat)) (lcBad : Bool)
    (act : OrdInfo → State → State × Reply) (s : State) : State :=
  match arrive o s with
  | (none, s1) => s1
  | (some info, s1) => serveTaken info o cls op used pairs lcBad act s1

end Sys2Proof.Machine
end

