-- ==== Sys2Proof/Machine/Commands.lean ====
section
/-!
DEFINITION. The COMMAND operations on the authority state (R374): mode, setpoint, package arm, trusted reference, datum and role
swap. Their effects come at an epoch.
-/

namespace Sys2Proof.Machine

/-- A bank of a lane: model or network, 0 or 1. -/
def bankOf (a : LaneSt) (net : Bool) (k : Nat) : Bank :=
  match net, k with
  | false, 0 => a.bank0
  | false, _ => a.bank1
  | true, 0 => a.nbank0
  | true, _ => a.nbank1

/-- Change a bank of a lane. -/
def onBank (l : Lane) (net : Bool) (k : Nat) (f : Bank → Bank) : State → State :=
  onLane l (fun a =>
    match net, k with
    | false, 0 => { a with bank0 := f a.bank0 }
    | false, _ => { a with bank1 := f a.bank1 }
    | true, 0 => { a with nbank0 := f a.nbank0 }
    | true, _ => { a with nbank1 := f a.nbank1 })

/-- Digest of a bank's verified content. -/
def bankDig (b : Bank) : List Byte :=
  match b.model, b.net with
  | some p, _ => p.dig
  | none, some p => p.dig
  | none, none => []

/-- The bank that is ACTIVE in a lane, of a package kind. -/
def activeBank (s : State) (l : Lane) (net : Bool) : Option Nat :=
  if getF s (bankFld net 0) l = 4 then some 0 else if getF s (bankFld net 1) l = 4 then some 1 else none

/-- Whether a lane verifies banks of a kind. -/
def verifying (s : State) (l : Lane) (net : Bool) : Bool :=
  getB s (if net then Reg.FUS_NPKG_BANK_verif else Reg.SLV_PKG_BANK_verif) l

/-- Show a bank error of a lane. -/
def bankErr (l : Lane) (net : Bool) (k err : Nat) (s : State) : State :=
  if net then setF Reg.FUS_NPKG_BANK_errbank k l (setF Reg.FUS_NPKG_BANK_err err l s)
  else setF Reg.SLV_PKG_BANK_errbank k l (setF Reg.SLV_PKG_BANK_err err l s)

/-- Whether a value is finite. -/
def finite (x : F64) : Bool := x.toNat / 2 ^ 52 % 2 ^ 11 != 2047

/-- Whether a transition is one of R43. -/
def transitionOk (frm to' : Mode) (warm : Bool) : Bool :=
  match frm, to' with
  | .layup, .layup => true
  | .layup, .transit => true
  | .layup, _ => false
  | .transit, .layup => true
  | .transit, .transit => true
  | .transit, .approach => warm
  | .transit, .berth => false
  | .transit, .joystick => true
  | .approach, .layup => false
  | .approach, _ => true
  | .berth, .layup => false
  | .berth, _ => true
  | .joystick, .layup => false
  | .joystick, _ => true

/-- What refuses a mode order (R43, R49, R92, R171, R533): none when it is accepted. -/
def modeRefused (s : State) (m : Mode) (warm : Bool) : Option Nat :=
  if getF s Reg.UPD_LCS_state == 0 && m != .layup then some Code.STATE
  else if !transitionOk (modeNow s) m (getB s Reg.JX_MODE_warm) then some Code.TRANSITION
  else if m == .layup then none
  else
    match active s with
    | none => some Code.NOT_READY
    | some l =>
      if verifying s l false || (activeBank s l false).isNone then some Code.NOT_READY
      else if fusionRuns m warm && (verifying s l true || (activeBank s l true).isNone || s.cfg.filter.isNone) then
        some Code.NOT_READY
      else none

/-- MODE's operation (R44, R49, R374). -/
def doMode (o : Order) (info : OrdInfo) (s : State) : State × Reply :=
  let warm := bodyN o 1 1 == 1
  match modeOf (bodyN o 0 1) with
  | none => (s, .code Code.RANGE)
  | some m =>
    if 1 < bodyN o 1 1 || (warm && m != .transit) then (s, .code Code.RANGE)
    else
      match modeRefused s m warm with
      | some c => (s, .code c)
      | none => placeOrder (some info) info.station info.tAcc (.mode m warm) (plus info.tAcc (20 * ms)) (powerFor m warm) s

/-- MODE (R374): takes effect at the first epoch at least 20 ms after acceptance (R44). -/
def execMode (t : Time) (o : Order) (s : State) : Host.Outcome State Fault Refusal :=
  run t s (serve o 1 1 [(0, 16), (32, 32)] [(0, 4, 4)] false (doMode o))

/-- SETPOINT's operation: the value is not checked when the setpoint is withdrawn. -/
def doSetpoint (o : Order) (info : OrdInfo) (s : State) : State × Reply :=
  let wd := bodyN o 24 1 == 1
  if !wd && !finite (bodyF o 8) then (s, .code Code.RANGE)
  else
    placeOrder (some info) info.station info.tAcc
      (.sp (BitVec.ofNat 32 (bodyN o 0 4)) (if wd then none else some (bodyF o 8))) (plus info.tAcc (5 * ms)) id s

/-- SETPOINT (R374): in force from the first epoch at least 5 ms after acceptance. -/
def execSetpoint (t : Time) (o : Order) (s : State) : Host.Outcome State Fault Refusal :=
  run t s (serve o 1 2 [(0, 192), (192, 1)] [(0, 4, 4), (8, 16, 8)] false (doSetpoint o))

/-- Cost of the extractors the streams name, with registration and filter, in µs (R171). -/
def netCost (s : State) (n : NetData) : Nat :=
  6000 + ((n.ext.filter (fun e => s.cfg.streams.any (fun c => c.2.extractor == e.index))).map (·.cost)).sum

/-- What refuses an arm (R87, R171, R481): completion code and err. -/
def armRefused (s : State) (l : Lane) (net : Bool) (k : Nat) : Option (Nat × Nat) :=
  let st := getF s (bankFld net k) l
  let m := modeNow s
  let usable (x : Nat) : Bool := x == 2 || x == 3
  let excess := match (bankOf (s.lane l) net k).net with
    | some n => net && decide ((s.cyc.set.fusion - s.cyc.set.intake) * 1000 < netCost s n)
    | none => false
  if getF s Reg.UPD_SEQ_step ≠ 0 then some (Code.STATE, 0)
  else if net && !(m == .layup || m == .transit || m == .joystick) then some (Code.STATE, 0)
  else if !usable st then some (Code.STATE, 0x12)
  else
    match standby s with
    | some o =>
      if !usable (getF s (bankFld net k) o) || bankDig (bankOf (s.lane o) net k) != bankDig (bankOf (s.lane l) net k) then
        some (Code.MISMATCH, 0x11)
      else if excess then some (Code.BUDGET, 0x13) else none
    | none => if excess then some (Code.BUDGET, 0x13) else none

/-- ARM's operation (R87). T given as a bit pattern that is no finite binary64 is refused as R374 has it; no count of seconds comes near one
(log entry 102). -/
def doArm (o : Order) (info : OrdInfo) (s : State) : State × Reply :=
  let kind := bodyN o 0 1
  let bank := bodyN o 1 1
  let given := bodyN o 2 1
  if 1 < kind || 1 < bank || 1 < given || (given == 1 && (decide (1000000000 ≤ bodyN o 16 4) || !finite (bodyF o 8))) then
    (s, .code Code.RANGE)
  else
    match active s with
    | none => (s, .code Code.STATE)
    | some l =>
      match armRefused s l (kind == 1) bank with
      | some (c, e) => (if e = 0 then s else bankErr l (kind == 1) bank e s, .codeD c e)
      | none =>
        placeOrder (some info) info.station info.tAcc
          (.arm (kind == 1) bank (if given == 1 then some (bodyN o 8 8, bodyN o 16 4) else none)) (plus info.tAcc (20 * ms)) id s

/-- ARM (R87, R171). -/
def execArm (t : Time) (o : Order) (s : State) : Host.Outcome State Fault Refusal :=
  run t s (serve o 1 3 [(0, 24), (32, 32), (64, 96)] [(0, 4, 4)] false (doArm o))

/-- Complete an order that changed the authority state at once: it waits for the acknowledgement of that version (R50). -/
def doneNow (info : OrdInfo) (s : State) : State × Reply :=
  let k := s.tkt
  (effected k 0#64 (newWait info false s.auth.ver s), .later)

/-- DISARM's operation (R91): a disarm later than 20 ms before the swap is too late; with no arm pending it changes nothing. -/
def doDisarm (o : Order) (info : OrdInfo) (s : State) : State × Reply :=
  if 1 < bodyN o 0 4 then (s, .code Code.RANGE)
  else
    let net := bodyN o 0 4 == 1
    let arms := s.auth.orders.filter (fun p => match p.val with
      | .arm n _ _ => n == net
      | _ => false)
    let late := arms.any (fun p => !atOrAfter (epochOf s (dueIdx s p.val p.earliest)) (plus info.tAcc (20 * ms)))
    if late then (s, .code Code.TOO_LATE)
    else if arms.isEmpty then (s, .code Code.ACCEPTED)
    else doneNow info (authChange id (forEach (fun p s => dropOrder p Code.CANCELLED s) arms s))

/-- DISARM (R91). -/
def execDisarm (t : Time) (o : Order) (s : State) : Host.Outcome State Fault Refusal :=
  run t s (serve o 1 4 [(0, 64)] [(0, 4, 4)] false (doDisarm o))

/-- TRUST's operation (R180): the name takes effect at the first epoch at least 20 ms after acceptance. -/
def doTrust (o : Order) (info : OrdInfo) (s : State) : State × Reply :=
  if 15 < bodyN o 0 4 then (s, .code Code.RANGE)
  else placeOrder (some info) info.station info.tAcc (.trust (some (bodyN o 0 4))) (plus info.tAcc (20 * ms)) id s

/-- TRUST (R180). -/
def execTrust (t : Time) (o : Order) (s : State) : Host.Outcome State Fault Refusal :=
  run t s (serve o 1 9 [(0, 64)] [(0, 4, 4)] false (doTrust o))

/-- TRUSTCLR's operation (R180). -/
def doTrustclr (info : OrdInfo) (s : State) : State × Reply :=
  placeOrder (some info) info.station info.tAcc (.trust none) (plus info.tAcc (20 * ms)) id s

/-- TRUSTCLR (R180). -/
def execTrustclr (t : Time) (o : Order) (s : State) : Host.Outcome State Fault Refusal :=
  run t s (serve o 1 10 [] [] false doTrustclr)

/-- DATUM's operation (R162): accepted only in Transit and Joystick. -/
def doDatum (o : Order) (info : OrdInfo) (s : State) : State × Reply :=
  let d : Datum := ⟨bodyF o 0, bodyF o 8, bodyF o 16, bodyF o 24⟩
  let m := modeNow s
  if !(finite d.lat && finite d.lon && finite d.hgt && finite d.azi) then (s, .code Code.RANGE)
  else if !(m == .transit || m == .joystick) then (s, .code Code.STATE)
  else placeOrder (some info) info.station info.tAcc (.datum d) (plus info.tAcc (20 * ms)) id s

/-- DATUM (R162). -/
def execDatum (t : Time) (o : Order) (s : State) : Host.Outcome State Fault Refusal :=
  run t s (serve o 1 11 [(0, 256)] [] false (doDatum o))

/-- SWAP's operation (R302): pending until an epoch at which it can take effect. -/
def doSwap (info : OrdInfo) (s : State) : State × Reply :=
  placeOrder (some info) info.station info.tAcc (.swap 0) (plus info.tAcc (20 * ms)) id s

/-- SWAP (R302). -/
def execSwap (t : Time) (o : Order) (s : State) : Host.Outcome State Fault Refusal :=
  run t s (serve o 1 12 [] [] false doSwap)

/-! AUTHORITY operations (R371, R372, R378). -/

/-- Tell a network holder of a request by a completion-form datagram (R371). -/
def tellHolder (st : Nat) (s : State) : State :=
  match s.auth.holder with
  | some h =>
    if 2 ≤ h && h < 7 then
      stationDgram h ((alGet s.netPort h).getD 0) (completionEntry s.auth.ver ⟨.net h, 2#8, 0#32, false, 0, s.now, h, (alGet s.netPort h).getD 0⟩ Ev.HRI_AUTHREQ st s.now 0#64 [] false) s
    else s
  | none => s

/-- REQUEST's operation (R371): with no holder a transfer starts at acceptance; only one request may be pending. -/
def doRequest (info : OrdInfo) (s : State) : State × Reply :=
  let st := info.station
  if s.auth.holder = some st then (s, .code Code.ACCEPTED)
  else if s.auth.req.isSome || s.auth.xfer.isSome then (s, .code Code.BUSY)
  else
    let k := s.tkt
    if s.auth.holder.isNone then
      let s1 := authChange (fun u => { u with xfer := some ⟨st, info.tAcc, [k]⟩ }) s
      (newWait info false s1.auth.ver s1, .later)
    else
      let s1 := authChange (fun u => { u with req := some ⟨st, info.tAcc, k⟩ }) s
      let s2 := bothLanes (sysStat Reg.HRI_SYS_STAT_authreq) (raise (hriSrc s) Ev.HRI_AUTHREQ st s1)
      (newWait info false s1.auth.ver (tellHolder st s2), .later)

/-- REQUEST (R371). -/
def execRequest (t : Time) (o : Order) (s : State) : Host.Outcome State Fault Refusal :=
  run t s (serve o 2 1 [] [] false doRequest)

/-- GRANT's operation (R371 step 2): the transfer starts at the grant's acceptance. -/
def doGrant (o : Order) (info : OrdInfo) (s : State) : State × Reply :=
  if 7 < bodyN o 0 1 then (s, .code Code.RANGE)
  else
    match s.auth.req with
    | some q =>
      if q.stn = bodyN o 0 1 then
        let k := s.tkt
        let s1 := authChange (fun u => { u with req := none, xfer := some ⟨q.stn, info.tAcc, [q.tkt, k]⟩ }) s
        (newWait info false s1.auth.ver s1, .later)
      else (s, .code Code.STATE)
    | none => (s, .code Code.STATE)

/-- GRANT (R371). -/
def execGrant (t : Time) (o : Order) (s : State) : Host.Outcome State Fault Refusal :=
  run t s (serve o 2 2 [(0, 8)] [] false (doGrant o))

/-- DENY's operation (R371 step 2'): the request completes REFUSED, detail 1. -/
def doDeny (o : Order) (info : OrdInfo) (s : State) : State × Reply :=
  if 7 < bodyN o 0 1 then (s, .code Code.RANGE)
  else
    match s.auth.req with
    | some q =>
      if q.stn = bodyN o 0 1 then
        doneNow info (authChange (fun u => { u with req := none }) (finish q.tkt Code.REFUSED 1 s))
      else (s, .code Code.STATE)
    | none => (s, .code Code.STATE)

/-- DENY (R371). -/
def execDeny (t : Time) (o : Order) (s : State) : Host.Outcome State Fault Refusal :=
  run t s (serve o 2 3 [(0, 8)] [] false (doDeny o))

/-- RELEASE's operation (R371): no holder from the next epoch. -/
def doRelease (info : OrdInfo) (s : State) : State × Reply :=
  placeOrder (some info) info.station info.tAcc .release (plus info.tAcc 1) id s

/-- RELEASE (R371). -/
def execRelease (t : Time) (o : Order) (s : State) : Host.Outcome State Fault Refusal :=
  run t s (serve o 2 4 [] [] false doRelease)

/-- KEEPALIVE (R372): a sign of life of the holder. -/
def execKeepalive (t : Time) (o : Order) (s : State) : Host.Outcome State Fault Refusal :=
  run t s (serve o 2 5 [] [] false (fun _ s => (s, .code Code.ACCEPTED)))

/-- Close an expert session (R378): recorded. -/
def closeExpert (s : State) : State :=
  if s.auth.expert.isSome then authChange (fun u => { u with expert := none }) (expertEnds s) else s

/-- EXPERT_ON's operation (R378): the level opens for xmax minutes. -/
def doExpertOn (info : OrdInfo) (s : State) : State × Reply :=
  let s1 := if s.auth.expert.isSome then s
    else raise (hriSrc s) Ev.HRI_EXPERT (1 + 2 ^ 8 * info.station + (if getF s Reg.UPD_LCS_state == 3 then 2 ^ 11 else 0)) s
  (authChange (fun u => { u with expert := some s.now }) s1, .code Code.ACCEPTED)

/-- EXPERT_ON (R378). -/
def execExpertOn (t : Time) (o : Order) (s : State) : Host.Outcome State Fault Refusal :=
  run t s (serve o 2 6 [] [] false doExpertOn)

/-- EXPERT_OFF (R378). -/
def execExpertOff (t : Time) (o : Order) (s : State) : Host.Outcome State Fault Refusal :=
  run t s (serve o 2 7 [] [] false (fun _ s => (closeExpert s, .code Code.ACCEPTED)))

/-- AUTHORITY_REQUEST_TIMEOUT (R371): a request pending for 60 s completes REFUSED, detail 2. -/
def execAuthorityRequestTimeout (t : Time) (s : State) : Host.Outcome State Fault Refusal :=
  run t s (fun s =>
    match s.auth.req, active s with
    | some q, some _ =>
      if 60 * sec ≤ since s.now q.tReq then
        authChange (fun u => { u with req := none }) (finish q.tkt Code.REFUSED 2 s)
      else s
    | _, _ => s)

/-- HOLDER_SILENCE (R372): with a request pending and no sign of life of the holder for tmo, the module grants the request. -/
def execHolderSilence (t : Time) (s : State) : Host.Outcome State Fault Refusal :=
  run t s (fun s =>
    match s.auth.req, s.auth.holder, active s with
    | some q, some h, some _ =>
      if getF s Reg.HRI_AUTH_CFG_tmo * sec ≤ since s.now s.auth.lastSign then
        authChange (fun u => { u with req := none, xfer := some ⟨q.stn, s.now, [q.tkt]⟩ })
          (raise (hriSrc s) Ev.HRI_FORFEIT (h + 2 ^ 8 * q.stn) s)
      else s
    | _, _, _ => s)

/-- EXPERT_SESSION_TIMEOUT (R378): a session of the holder ends after xmax minutes. -/
def execExpertSessionTimeout (t : Time) (s : State) : Host.Outcome State Fault Refusal :=
  run t s (fun s =>
    match s.auth.expert with
    | some t0 => if getF s Reg.HRI_AUTH_CFG_xmax * 60 * sec ≤ since s.now t0 then closeExpert s else s
    | none => s)

end Sys2Proof.Machine
end

