-- ==== Sys2Proof/Machine/Calendar.lean ====
section
/-!
DEFINITION. The real-time clock (R342-R348, R351): calendar, writes, shifts, alarms, compensation and tracking. The crystal ticks
counted since the previous RTC command are that command's operand `k` (log entry 18).
-/

namespace Sys2Proof.Machine

/-! The calendar (R342). -/

/-- Crystal ticks in a second. -/
def rtcHz : Nat := 32768

/-- Days of the calendar's range, 2000-01-01 to 2199-12-31. -/
def calDays : Nat := 73049

/-- Length of the calendar in crystal ticks. -/
def calSpan : Nat := calDays * 86400 * rtcHz

/-- Leap year (R342). -/
def leap (y : Nat) : Bool := (y % 4 == 0 && y % 100 != 0) || y % 400 == 0

/-- Length of a month. -/
def monthLen (y m : Nat) : Nat :=
  match m with
  | 1 => 31 | 2 => if leap y then 29 else 28 | 3 => 31 | 4 => 30 | 5 => 31 | 6 => 30
  | 7 => 31 | 8 => 31 | 9 => 30 | 10 => 31 | 11 => 30 | 12 => 31 | _ => 0

/-- Days from 2000-01-01 to the first of January of a year from 2000 on. -/
def yearDays (y : Nat) : Nat :=
  let n := y - 2000
  365 * n + (n + 3) / 4 - (if 2101 ≤ y then 1 else 0)

/-- Days of a year before the first of a month. -/
def monthDays (y : Nat) : Nat → Nat
  | 0 => 0
  | m + 1 => monthDays y m + monthLen y m

/-- Day number of a date, days since 2000-01-01. -/
def dayNum (y m d : Nat) : Nat := yearDays y + monthDays y m + (d - 1)

/-- The month and day of a day of the year, counting up from month 13 - fuel. -/
def findMonth (y : Nat) : Nat → Nat → Nat × Nat
  | 0, _ => (12, 31)
  | fuel + 1, r =>
    let m := 12 - fuel
    if r < monthLen y m then (m, r + 1) else findMonth y fuel (r - monthLen y m)

/-- The year of a day number: the estimate by mean length, corrected by one. -/
def findYear (n : Nat) : Nat :=
  let y := 2000 + n / 366
  let step (y : Nat) : Nat := if yearDays (y + 1) ≤ n then y + 1 else y
  step (step y)

/-- Year, month and day of a day number. -/
def dateOf (n : Nat) : Nat × Nat × Nat :=
  let y := findYear n
  let (m, d) := findMonth y 12 (n - yearDays y)
  (y, m, d)

/-- Two BCD digits of a number below 100. -/
def bcd2 (n : Nat) : Nat := n / 10 * 16 + n % 10

/-- Four BCD digits of a number below 10,000. -/
def bcd4 (n : Nat) : Nat := bcd2 (n / 100) * 256 + bcd2 (n % 100)

/-- The number two BCD digits stand for. -/
def ofBcd2 (n : Nat) : Nat := n / 16 % 16 * 10 + n % 16

/-- The number four BCD digits stand for. -/
def ofBcd4 (n : Nat) : Nat := ofBcd2 (n / 256 % 256) * 100 + ofBcd2 (n % 256)

/-- Every one of the low `k` nibbles is a decimal digit. -/
def nibblesOk : Nat → Nat → Bool
  | 0, _ => true
  | k + 1, v => decide (v % 16 ≤ 9) && nibblesOk k (v / 16)

/-- Calendar seconds since 2000-01-01. -/
def calSec (s : State) : Nat := s.rtc.cal / rtcHz

/-- TAI seconds since 1970 of the calendar. -/
def calTai (s : State) : Nat := calSec s + 946684800

/-- The calendar as RTC_SET and REC_START carry it: one BCD byte per field, seconds first, century last (R438, R530). -/
def calBytes (cal : Nat) : Nat :=
  let sd := cal / rtcHz % 86400
  let (y, m, d) := dateOf (cal / rtcHz / 86400)
  bcd2 (sd % 60) + 2 ^ 8 * bcd2 (sd / 60 % 60) + 2 ^ 16 * bcd2 (sd / 3600) + 2 ^ 24 * bcd2 d + 2 ^ 32 * bcd2 m
    + 2 ^ 40 * bcd2 (y % 100) + 2 ^ 48 * bcd2 (y / 100)

/-- RTC_TIME for a calendar (R351): seconds, minutes and hours. -/
def rtcTimeWord (c : Nat) : Word :=
  let sd := c / rtcHz % 86400
  BitVec.ofNat 32 (bcd2 (sd % 60) + 2 ^ 8 * bcd2 (sd / 60 % 60) + 2 ^ 16 * bcd2 (sd / 3600))

/-- RTC_DATE for a calendar (R351): day, month and weekday; 2000-01-01 was a Saturday. -/
def rtcDateWord (c : Nat) : Word :=
  let n := c / rtcHz / 86400
  let (_, m, d) := dateOf n
  BitVec.ofNat 32 (bcd2 d + 2 ^ 8 * bcd2 m + 2 ^ 16 * ((n + 5) % 7 + 1))

/-- RTC_YEAR for a calendar (R351). -/
def rtcYearWord (c : Nat) : Word := BitVec.ofNat 32 (bcd4 (dateOf (c / rtcHz / 86400)).1)

/-- The calendar registers (R343, R351): RTC_TIME shows the calendar; date, year and sub-second count stand as the last read of RTC_TIME
latched them. -/
def rtcRead (s : State) (off : Nat) : Word :=
  if off = Reg.RTC_TIME then rtcTimeWord s.rtc.cal
  else if off = Reg.RTC_DATE then rtcDateWord s.rtc.seen
  else if off = Reg.RTC_YEAR then rtcYearWord s.rtc.seen
  else BitVec.ofNat 32 (s.rtc.seen % rtcHz)

/-- A read of RTC_TIME latches the calendar of that tick (R343). -/
def latchCal (s : State) : State := { s with rtc := { s.rtc with seen := s.rtc.cal } }

/-- The alarms forget what they fired at: the calendar starts again (R342, R348). -/
def forgetFired (s : State) : State := { s with rtc := { s.rtc with fired0 := none, fired1 := none } }

/-- Set the calendar count; past the end it continues at its start, sets RTC_STATUS.roll (R342), and instants reached before do not count
against the alarms of the new run (R346). -/
def setRtc (c : Nat) (s : State) : State :=
  when (decide (calSpan ≤ c)) (fun s => forgetFired (setF Reg.RTC_STATUS_roll 1 .a s)) { s with rtc := { s.rtc with cal := c % calSpan } }

/-- The calendar counts `k` crystal ticks, with ticks added or masked evenly by the trim (R344, R345). -/
def rtcCount (k : Nat) (s : State) : State :=
  let trim : Int := if getB s Reg.RTC_CFG_comp then sgn 10 (getF s Reg.RTC_TRIM_trim) else 0
  let a := s.rtc.trimAcc + k * trim
  setRtc ((s.rtc.cal : Int) + k + a / 2 ^ 23).toNat { s with rtc := { s.rtc with trimAcc := a % 2 ^ 23 } }

/-! Alarms (R346). -/

/-- A mask bit of an alarm: 1 seconds, 2 minutes, 3 hours, 4 day, 5 month, 6 year; set, the field matches any value. -/
def almMask (s : State) (n i : Nat) : Bool := bit (getF s (Reg.RTC_ALMn_CTL_mask n)) (i - 1)

/-- The alarm's fields as numbers: second, minute, hour, day, month, year. -/
def almFields (s : State) (n : Nat) : Nat × Nat × Nat × Nat × Nat × Nat :=
  let t := (rdK s (Reg.RTC_ALMn_TIME n)).toNat
  (ofBcd2 (t % 128), ofBcd2 (t / 256 % 128), ofBcd2 (t / 65536 % 64),
    ofBcd2 (getF s (Reg.RTC_ALMn_DATE_day n)), ofBcd2 (getF s (Reg.RTC_ALMn_DATE_mon n)),
    ofBcd4 (getF s (Reg.RTC_ALMn_DATE_year n)))

/-- Whether a day matches the alarm's date fields. -/
def almDay (s : State) (n day : Nat) : Bool :=
  let (_, _, _, d, m, y) := almFields s n
  let (y', m', d') := dateOf day
  (almMask s n 4 || d == d') && (almMask s n 5 || m == m') && (almMask s n 6 || y == y')

/-- How many seconds of a day below `x` match the alarm's time fields. -/
def almTod (s : State) (n x : Nat) : Nat :=
  let (sc, mi, h, _, _, _) := almFields s n
  let below (masked : Bool) (f v : Nat) : Nat := if masked then v else b2n (decide (f < v))
  let hit (masked : Bool) (f v : Nat) : Bool := masked || f == v
  let cs := if almMask s n 1 then 60 else 1
  let cm := if almMask s n 2 then 60 else 1
  below (almMask s n 3) h (x / 3600) * cm * cs
    + (if hit (almMask s n 3) h (x / 3600) then
        below (almMask s n 2) mi (x / 60 % 60) * cs
          + (if hit (almMask s n 2) mi (x / 60 % 60) then below (almMask s n 1) sc (x % 60) else 0)
      else 0)

/-- Matching instants on `k` days from a day on. -/
def almDays (s : State) (n : Nat) : Nat → Nat → Nat
  | 0, _ => 0
  | k + 1, day => (if almDay s n day then almTod s n 86400 else 0) + almDays s n k (day + 1)

/-- Matching instants at calendar seconds from `a` to below `b`. -/
def almCount (s : State) (n a b : Nat) : Nat :=
  let part (day x : Nat) : Nat := if almDay s n day then almTod s n x else 0
  almDays s n (b / 86400 - a / 86400) (a / 86400) + part (b / 86400) (b % 86400) - part (a / 86400) (a % 86400)

/-- Status bit and late bit of an alarm. -/
def almBit (n : Nat) : Fld := if n = 0 then Reg.RTC_STATUS_a0 else Reg.RTC_STATUS_a1
def almLate (n : Nat) : Fld := if n = 0 then Reg.RTC_STATUS_a0late else Reg.RTC_STATUS_a1late

/-- The calendar second an alarm last fired at. -/
def firedAt (s : State) (n : Nat) : Option Nat := if n = 0 then s.rtc.fired0 else s.rtc.fired1

/-- An alarm fires (R346): its bit is set; with wake = 1 it starts the wake controller (R460): PWR_STAT.rtcwake and the alarm
cause of HRI_SYS_STAT are set, and in Lay-up a snapshot capture outside the interval is started. -/
def almFire (n : Nat) (late : Bool) (cross : Nat) (s : State) : State :=
  let sc := calSec s
  let s1 := { s with rtc := if n = 0 then { s.rtc with fired0 := some sc } else { s.rtc with fired1 := some sc } }
  let s2 := setB (almLate n) late .a (setF (almBit n) 1 .a s1)
  let s3 := if late then setF (Reg.RTC_ALMn_CTL_cross n) (min cross 0xFF) .a s2 else s2
  if getB s (Reg.RTC_ALMn_CTL_wake n) then
    let s4 := bothLanes (sysStat Reg.HRI_SYS_STAT_alarm) (setF Reg.PWR_STAT_rtcwake 1 .a s3)
    when (decide (getF s Reg.JX_MODE_mode = 0)) (fun s => { s with rtc := { s.rtc with snapReq := true } }) s4
  else s3

/-- The crossed-time rule of an alarm at a forward move from calendar second `a` to the present one: it fires once, late, with
the number of matches crossed (R346). A match at or before the last one fired does not count. -/
def almCross (a n : Nat) (s : State) : State :=
  let b := calSec s
  let a := match firedAt s n with | some x => max a x | none => a
  if !getB s (Reg.RTC_ALMn_CTL_en n) || b ≤ a then s
  else
    let c := almCount s n (a + 1) (b + 1)
    if c = 0 then s else almFire n true c s

/-! Writes and shifts (R343, R344). -/

/-- A date is possible: month 01-12, day of that month in that year. -/
def dateOk (y m d : Nat) : Bool := decide (1 ≤ m) && decide (m ≤ 12) && decide (1 ≤ d) && decide (d ≤ monthLen y m)

/-- The staged calendar passes R343. -/
def stagedOk (s : State) : Bool :=
  let g (f : Fld) := getF s f
  nibblesOk 2 (g Reg.RTC_WTIME_sec) && nibblesOk 2 (g Reg.RTC_WTIME_min) && nibblesOk 2 (g Reg.RTC_WTIME_hour)
    && nibblesOk 2 (g Reg.RTC_WDATE_day) && nibblesOk 2 (g Reg.RTC_WDATE_mon) && nibblesOk 4 (g Reg.RTC_WYEAR_year)
    && decide (ofBcd2 (g Reg.RTC_WTIME_sec) ≤ 59) && decide (ofBcd2 (g Reg.RTC_WTIME_min) ≤ 59)
    && decide (ofBcd2 (g Reg.RTC_WTIME_hour) ≤ 23)
    && decide (2000 ≤ ofBcd4 (g Reg.RTC_WYEAR_year)) && decide (ofBcd4 (g Reg.RTC_WYEAR_year) ≤ 2199)
    && dateOk (ofBcd4 (g Reg.RTC_WYEAR_year)) (ofBcd2 (g Reg.RTC_WDATE_mon)) (ofBcd2 (g Reg.RTC_WDATE_day))

/-- The staged calendar in crystal ticks. -/
def stagedCal (s : State) : Nat :=
  let g (f : Fld) := getF s f
  (dayNum (ofBcd4 (g Reg.RTC_WYEAR_year)) (ofBcd2 (g Reg.RTC_WDATE_mon)) (ofBcd2 (g Reg.RTC_WDATE_day)) * 86400
    + ofBcd2 (g Reg.RTC_WTIME_hour) * 3600 + ofBcd2 (g Reg.RTC_WTIME_min) * 60 + ofBcd2 (g Reg.RTC_WTIME_sec)) * rtcHz

/-- A staged calendar that RTC_WCTL.set accepted loads: sub-second count 0, old and new recorded; alarms follow a forward move (R343,
R346). -/
def calLoad (c : Nat) (s : State) : State :=
  let old := s.rtc.cal
  let s1 := setRtc c s
  let s2 := raise .rtc Ev.RTC_SET (calBytes s1.rtc.cal + 2 ^ 56) (raise .rtc Ev.RTC_SET (calBytes old) s1)
  almCross (old / rtcHz) 1 (almCross (old / rtcHz) 0 s2)

/-- A sub-second shift (R344): an advance adds to the count and may carry the calendar past alarms; a retard subtracts. -/
def calShift (n : Nat) (retard : Bool) (s : State) : State :=
  let old := s.rtc.cal
  if retard then setRtc ((old + calSpan - n) % calSpan) s
  else
    let s1 := setRtc (old + n) s
    almCross (old / rtcHz) 1 (almCross (old / rtcHz) 0 s1)

/-- What waits for a crystal tick: the shifts in their order, then a calendar write (R343, R344, R349). -/
def calDue (s : State) : State :=
  let s1 := setF Reg.RTC_SHIFT_busy 0 .a { s with rtc := { s.rtc with shifts := [], load := none } }
  let s2 := forEach (fun x s => calShift x.1 x.2 s) s.rtc.shifts s1
  match s.rtc.load with
  | some c => calLoad c s2
  | none => s2

/-- `k` crystal ticks: the first serves what waits for it. -/
def rtcTicks (k : Nat) (s : State) : State :=
  if k = 0 || (s.rtc.shifts.isEmpty && s.rtc.load.isNone) then rtcCount k s
  else rtcCount (k - 1) (calDue (rtcCount 1 s))

/-- The effect of RTC_WCTL.set (R343): validate; an accepted calendar loads at the next tick. -/
def calSet (s : State) : State :=
  if stagedOk s then { s with rtc := { s.rtc with load := some (stagedCal s) } }
  else raise .rtc Ev.RTC_BADWR 0 (setF Reg.RTC_STATUS_badwrite 1 .a s)

/-- A shift is ordered (R344): it is applied at the next tick, and RTC_SHIFT.busy is set until then. -/
def calOrder (n : Nat) (retard : Bool) (s : State) : State :=
  setF Reg.RTC_SHIFT_busy 1 .a { s with rtc := { s.rtc with shifts := s.rtc.shifts ++ [(n, retard)] } }

/-! Commands of the calendar. -/

/-- RTC_ALARM (R346): the calendar has reached an instant that matches; one at or before the last one fired does not fire again. -/
def execRtcAlarm (t : Time) (n k : Nat) (s : State) : Host.Outcome State Fault Refusal :=
  runAny t s (fun s =>
    let s := rtcTicks k s
    let sc := calSec s
    let again := match firedAt s n with | some x => decide (sc ≤ x) | none => false
    if decide (n < 2) && getB s (Reg.RTC_ALMn_CTL_en n) && !again && decide (almCount s n sc (sc + 1) = 1) then
      almFire n false 0 s
    else s)

/-- CALENDAR_ROLLOVER (R342): the calendar passes 2199 into 2000. -/
def execCalendarRollover (t : Time) (k : Nat) (s : State) : Host.Outcome State Fault Refusal := runAny t s (rtcTicks k)

/-- An exact value times 2^23 / 10^6, divided by `den`, to the nearest integer: ppm to units of 2^-23. -/
def ppmUnits (d : Dy) (den : Nat) : Int :=
  let p : Int := d.m * 2 ^ 23 * 2 ^ d.e.toNat
  let q : Int := (den * 1000000 * 2 ^ (-d.e).toNat : Nat)
  (2 * p + q) / (2 * q)

/-- Interpolate the compensation curve (R345): temperature in °C, correction in ppm; the ends hold beyond it. The result is
rounded to units of 2^-23. Where none is written the curve is the factory's (R472), whose points the spec does not give (log entry 94). -/
def curveAt (x : Int) : List (Int × F64) → Int
  | [] => sgn 64 (Config.openVal 345 (x + 128).toNat).toNat
  | [(_, c)] => ppmUnits (F64.val c) 1
  | (x0, c0) :: (x1, c1) :: rest =>
    if x ≤ x0 then ppmUnits (F64.val c0) 1
    else if x ≤ x1 && x0 < x1 then
      ppmUnits (((F64.val c0).mul (Dy.ofInt (x1 - x))).add ((F64.val c1).mul (Dy.ofInt (x - x0)))) (x1 - x0).toNat
    else curveAt x ((x1, c1) :: rest)

/-- RTC_COMPENSATION (R345): the temperature is read and the trim taken from the curve, within ±511 units. -/
def execRtcCompensation (t : Time) (temp : BitVec 8) (k : Nat) (s : State) : Host.Outcome State Fault Refusal :=
  runAny t s (fun s =>
    let s := rtcTicks k s
    if getB s Reg.RTC_CFG_comp then
      let c := max (-511) (min 511 (curveAt (sgn 8 temp.toNat) s.rtc.curve))
      setF Reg.RTC_TRIM_temp temp.toNat .a (setF Reg.RTC_TRIM_trim (satInt 10 c) .a s)
    else s)

/-- RTC_TRACKING (R347): in SYNC with RTC_CFG.track, the calendar is compared with local time and shifted, or the offset
recorded. -/
def execRtcTracking (t : Time) (k : Nat) (s : State) : Host.Outcome State Fault Refusal :=
  run t s (fun s =>
    let s := rtcTicks k s
    let l := timeLane s
    let on := getF s Reg.TMB_STAT_state l == 1 && getB s Reg.RTC_CFG_track && (active s).isSome
    let s := setB Reg.RTC_STATUS_trk on .a s
    if !on then s
    else
      let e : Int := ((calTai s * rtcHz + s.rtc.cal % rtcHz) * sec / rtcHz : Nat) - ltAt s l s.now
      let a := e.natAbs
      let s := { s with rtc := { s.rtc with err := e } }
      if a < ms then s
      else if a < sec then calOrder (min 32767 ((a * rtcHz * 2 + sec) / (2 * sec))) (decide (0 < e)) s
      else raise .rtc Ev.RTC_OFFSET (satInt 32 (e / ms)) s)

/-- RTC_FIRST_SECOND (R328): at the first second tick after MTC starts, local time is set equal to the calendar in TAI. -/
def execRtcFirstSecond (t : Time) (k : Nat) (s : State) : Host.Outcome State Fault Refusal :=
  run t s (fun s =>
    let s := rtcTicks k s
    if s.rtc.cal % rtcHz ≠ 0 then s
    else
      bothLanes (fun l s =>
        let b := (s.lane l).tmb
        let led := match active s with
          | some act => decide (act ≠ l) && (s.lane act).tmb.set && decide (getF s Reg.TMB_STAT_state act ≠ 0)
          | none => false
        if b.set || led then s
        else
          let o : Int := ((calTai s * sec : Nat) - (s.now.toNat : Int)) * 2 ^ 32
          forEach (tpRetake l) [0, 1, 2, 3] (onTmb l (fun b => { b with clk := ⟨o, 0, 0⟩, set := true }) s)) s)

end Sys2Proof.Machine
end

