-- ==== Sys2Proof/Machine/Crypto.lean ====
section
/-!
DEFINITION. The cryptography the spec names (R63): SHA-384 (FIPS 180-4) and the verification of an ECDSA signature over P-384
(FIPS 186-4), on natural numbers (log entry 7).
-/

namespace Sys2Proof.Machine

/-! SHA-384. -/

/-- A 64-bit word rotated right. -/
def ror64 (x n : Nat) : Nat := (x >>> n ||| x <<< (64 - n)) % 2 ^ 64

/-- The largest number whose `k`-th power is at most `x`, found from bit `n` − 1 down above the bits already in `r`. -/
def rootBits (k x : Nat) : Nat → Nat → Nat
  | 0, r => r
  | n + 1, r => rootBits k x n (if (r + 2 ^ n) ^ k ≤ x then r + 2 ^ n else r)

/-- The first 64 bits of the fraction of the `k`-th root of a number below 512. -/
def rootFrac (k p : Nat) : Nat := rootBits k (p * 2 ^ (64 * k)) 70 0 % 2 ^ 64

/-- The first 80 primes, those up to 409: each has no divisor from 2 to 20 but itself. -/
def primes : List Nat := (List.range 410).filter (fun n => decide (2 ≤ n) && (List.range 19).all (fun d => n == d + 2 || n % (d + 2) != 0))

/-- The round constants (FIPS 180-4, 4.2.3): from the cube roots of the first 80 primes. -/
def shaK : List Nat := primes.map (rootFrac 3)

/-- The initial hash value of SHA-384 (FIPS 180-4, 5.3.4): from the square roots of the 9th to the 16th prime. -/
def shaInit : List Nat := ((primes.drop 8).take 8).map (rootFrac 2)

/-- One round: the eight working variables, the round constant and the word of the message schedule. -/
def shaRound (v : List Nat) (k w : Nat) : List Nat :=
  match v with
  | [a, b, c, d, e, f, g, h] =>
    let t1 := (h + (ror64 e 14 ^^^ ror64 e 18 ^^^ ror64 e 41) + ((e &&& f) ^^^ ((2 ^ 64 - 1 - e) &&& g)) + k + w) % 2 ^ 64
    let t2 := ((ror64 a 28 ^^^ ror64 a 34 ^^^ ror64 a 39) + ((a &&& b) ^^^ (a &&& c) ^^^ (b &&& c))) % 2 ^ 64
    [(t1 + t2) % 2 ^ 64, a, b, c, (d + t1) % 2 ^ 64, e, f, g]
  | _ => v

/-- The word of the schedule that follows sixteen others. -/
def shaNext (w : List Nat) : Nat :=
  let x := w.getD 1 0
  let y := w.getD 14 0
  ((ror64 y 19 ^^^ ror64 y 61 ^^^ (y >>> 6)) + w.getD 9 0 + (ror64 x 1 ^^^ ror64 x 8 ^^^ (x >>> 7)) + w.getD 0 0) % 2 ^ 64

/-- The rounds of a block from the sixteen words next in the schedule. -/
def shaRounds : List Nat → List Nat → List Nat → List Nat
  | [], _, v => v
  | k :: ks, w, v => shaRounds ks (w.drop 1 ++ [shaNext w]) (shaRound v k (w.headD 0))

/-- Big-endian number of a byte string. -/
def beNat (bs : List Byte) : Nat := bs.foldl (fun a b => 256 * a + b.toNat) 0

/-- The `n` big-endian bytes of a number. -/
def beBytes (n v : Nat) : List Byte := (leBytes n v).reverse

/-- The hash after `n` blocks of a padded message. -/
def shaBlocks : Nat → List Byte → List Nat → List Nat
  | 0, _, h => h
  | n + 1, m, h =>
    let w := (List.range 16).map (fun j => beNat (slice m (8 * j) 8))
    shaBlocks n (m.drop 128) (List.zipWith (fun x y => (x + y) % 2 ^ 64) h (shaRounds shaK w h))

/-- SHA-384 of a byte string: 48 bytes. -/
def sha (bs : List Byte) : List Byte :=
  let m := bs ++ [0x80#8] ++ List.replicate ((239 - bs.length % 128) % 128) 0#8 ++ beBytes 16 (8 * bs.length)
  ((shaBlocks (m.length / 128) m shaInit).map (beBytes 8)).flatten.take 48

/-! P-384. -/

/-- The prime of the field, the order of the base point, and the constant b of the curve y² = x³ − 3x + b. -/
def p384 : Nat := 0xfffffffffffffffffffffffffffffffffffffffffffffffffffffffffffffffeffffffff0000000000000000ffffffff
def n384 : Nat := 0xffffffffffffffffffffffffffffffffffffffffffffffffc7634d81f4372ddf581a0db248b0a77aecec196accc52973
def b384 : Nat := 0xb3312fa7e23ee7e4988e056be3f82d19181d9c6efe8141120314088f5013875ac656398d8a2ed19d2a85c8edd3ec2aef

/-- A point in Jacobian coordinates; z = 0 is the point at infinity. -/
structure Jac where
  x : Nat
  y : Nat
  z : Nat
  deriving DecidableEq, Repr

/-- The base point. -/
def base384 : Jac :=
  ⟨0xaa87ca22be8b05378eb1c71ef320ad746e1d3b628ba79b9859f741e082542a385502f25dbf55296c3a545e3872760ab7,
   0x3617de4a96262c6f5d9e98bf9292dc29f8f41dbd289a147ce9da3113b5f0b8c00a60b1ce1d7e819d7a431d7c90ea0e5f, 1⟩

/-- Product and difference in the field. -/
def fMul (a b : Nat) : Nat := a * b % p384
def fSub (a b : Nat) : Nat := (a + (p384 - b % p384)) % p384

/-- Twice a point. -/
def jacDbl (q : Jac) : Jac :=
  let d := fMul q.z q.z
  let g := fMul q.y q.y
  let b := fMul q.x g
  let a := 3 * fMul (fSub q.x d) (q.x + d) % p384
  let x := fSub (fMul a a) (8 * b)
  ⟨x, fSub (fMul a (fSub (4 * b) x)) (8 * fMul g g), 2 * fMul q.y q.z % p384⟩

/-- Sum of two points. -/
def jacAdd (q r : Jac) : Jac :=
  if q.z = 0 then r
  else if r.z = 0 then q
  else
    let z1 := fMul q.z q.z
    let z2 := fMul r.z r.z
    let u1 := fMul q.x z2
    let u2 := fMul r.x z1
    let s1 := fMul q.y (fMul r.z z2)
    let s2 := fMul r.y (fMul q.z z1)
    if u1 = u2 then (if s1 = s2 then jacDbl q else ⟨1, 1, 0⟩)
    else
      let h := fSub u2 u1
      let t := fSub s2 s1
      let hh := fMul h h
      let hhh := fMul h hh
      let v := fMul u1 hh
      let x := fSub (fSub (fMul t t) hhh) (2 * v)
      ⟨x, fSub (fMul t (fSub v x)) (fMul s1 hhh), fMul h (fMul q.z r.z)⟩

/-- a·G + b·Q from the lowest `n` bits of both numbers; `s` is G + Q. -/
def jacSum (g q s : Jac) (a b : Nat) : Nat → Jac → Jac
  | 0, r => r
  | n + 1, r =>
    let d := jacDbl r
    jacSum g q s a b n
      (if a.testBit n then jacAdd d (if b.testBit n then s else g) else if b.testBit n then jacAdd d q else d)

/-- Power modulo a number, from the lowest `n` bits of the exponent. -/
def powMod (m x e : Nat) : Nat → Nat → Nat
  | 0, r => r
  | n + 1, r => powMod m x e n (if e.testBit n then r * r % m * x % m else r * r % m)

/-- Whether a 97-byte string is an uncompressed point of the curve. -/
def onCurve (k : List Byte) : Bool :=
  let x := beNat (slice k 1 48)
  let y := beNat (slice k 49 48)
  k.length == 97 && k.headD 0#8 == 4#8 && decide (x < p384) && decide (y < p384)
    && fMul y y == (fMul x (fMul x x) + (p384 - 3) * x + b384) % p384

/-- Whether an ECDSA signature (r, s) of a digest verifies under a public key. -/
def ecdsaOk (key dig : List Byte) (r s : Nat) : Bool :=
  let w := powMod n384 s (n384 - 2) 384 1
  let q : Jac := ⟨beNat (slice key 1 48), beNat (slice key 49 48), 1⟩
  let c := jacSum base384 q (jacAdd base384 q) (beNat dig * w % n384) (r * w % n384) 384 ⟨1, 1, 0⟩
  let zz := fMul c.z c.z
  onCurve key && decide (0 < r) && decide (r < n384) && decide (0 < s) && decide (s < n384) && decide (c.z ≠ 0)
    && (fMul r zz == c.x || (decide (r + n384 < p384) && fMul (r + n384) zz == c.x))

/-- Whether the signature block at an offset signs the bytes before it under a key (R63). -/
def sigVerifies (key bs : List Byte) (sig : Nat) : Bool :=
  ecdsaOk key (sha (bs.take sig)) (beNat (slice bs (sig + 0x10) 48)) (beNat (slice bs (sig + 0x40) 48))

end Sys2Proof.Machine
end

