-- ==== Sys2Proof/Machine/Island.lean ====
section
/-!
DEFINITION. The safety island (R406-R433): inputs, pairs, functions, outputs, requests, faults, resets, configuration and start.
The registers show channel X; channel Y is the same evaluation over the image it reads itself, kept where it differs (log entry 21).
-/

namespace Sys2Proof.Machine

/-! Configuration in force. -/

/-- Entry of input `i`. -/
def safInp (c : SafCfg) (i : Nat) : SafInp := c.inps.getD i ⟨0, 0xFF, 1, 0⟩

/-- No entry at all. -/
def noCfg : SafCfg := ⟨0#64, 0#32, 0#32, 0, 0, 0, 0, 0, [], [], [], []⟩

/-- Entry of pair `k`. -/
def safPair (c : SafCfg) (k : Nat) : SafPair := c.pairs.getD k ⟨0, 10⟩

/-- Entry of output `k`. -/
def safOutp (c : SafCfg) (k : Nat) : SafOutp := c.outs.getD k ⟨false, false, false, 0xFF⟩

/-- Entry of function `f`. -/
def safFun (c : SafCfg) (f : Nat) : SafFun := c.funs.getD f ⟨0, 0#8, 0#8, 0#8, 0, 0xFF⟩

/-- Numbers 0-7 and 0-15. -/
def n8 : List Nat := [0, 1, 2, 3, 4, 5, 6, 7]
def n16 : List Nat := [0, 1, 2, 3, 4, 5, 6, 7, 8, 9, 10, 11, 12, 13, 14, 15]

/-- Change the island. -/
def onSaf (f : SafSt → SafSt) (s : State) : State := { s with saf := f s.saf }

/-- Unlisted functions. -/
def fnDef (_ : Nat) : SafFn := {}

/-- Unlisted instants. -/
def timeDef (_ : Nat) : Time := 0#64

/-- Function `f` beyond its register. -/
def safFn (s : State) (f : Nat) : SafFn := Sparse.get fnDef s.saf.fns f

/-- Change function `f`. -/
def onFn (f : Nat) (g : SafFn → SafFn) : State → State :=
  onSaf (fun a => { a with fns := Sparse.set fnDef a.fns f (g (Sparse.get fnDef a.fns f)) })

/-- A bit of a vector set or cleared. -/
def putBit {w : Nat} (v : BitVec w) (i : Nat) (b : Bool) : BitVec w :=
  if b then v ||| BitVec.ofNat w (2 ^ i) else v &&& ~~~BitVec.ofNat w (2 ^ i)

/-- State of function `f`: 0 UNUSED, 1 RUN, 2 STOPPING, 3 STOPPED, 4 READY, 5 LOCKOUT. -/
def fnState (s : State) (f : Nat) : Nat := getF s (Reg.SAF_FNn_state f)

/-- Set the state of function `f`. -/
def setFn (f st : Nat) (s : State) : State := setF (Reg.SAF_FNn_state f) st .a s

/-- Output pair `k` is commanded on. -/
def outOn (s : State) (k : Nat) : Bool := bit (getF s Reg.SAF_OUT_on) k

/-- Output pair `k` is in lockout. -/
def outLocked (s : State) (k : Nat) : Bool := bit (getF s Reg.SAF_OUT_lock) k

/-- Input `i` is in lockout. -/
def inLocked (s : State) (i : Nat) : Bool := bit (getF s Reg.SAF_IN_flt) i

/-- Filtered level of input `i`. -/
def inLvl (s : State) (i : Nat) : Bool := bit (getF s Reg.SAF_IN_lvl) i

/-- A field with one bit replaced. -/
def setBitF (f : Fld) (i : Nat) (b : Bool) (s : State) : State :=
  setF f (putBit (BitVec.ofNat 32 (getF s f)) i b).toNat .a s

/-- The first pulses of the switches of a pair that turns on at an instant (R417, R427): A one period later and B half a period after
it, or both at once after a lockout. -/
def offDues (c : SafCfg) (early : Bool) (k : Nat) (now : Time) (m : Sparse Time) : Sparse Time :=
  let at' (n : Nat) : Time := if early then now else plus now (n * c.opt * ms / 2)
  Sparse.set timeDef (Sparse.set timeDef m (2 * k) (at' 2)) (2 * k + 1) (at' 3)

/-- A pair turns on: its pulses are scheduled, and its leave to ignore EDM ends (R418). -/
def turnOn (k : Nat) (now : Time) (a : SafSt) : SafSt :=
  { a with offDue := (a.cfg.map (fun c => offDues c (bit a.early.toNat k) k now a.offDue)).getD a.offDue,
           early := putBit a.early k false, edmFree := putBit a.edmFree k false }

/-- Command output pair `k` (R422): both switches. -/
def setOut (k : Nat) (b : Bool) (s : State) : State :=
  if outOn s k = b then s
  else emit (.pin 3 (2 * k + 1) b) (emit (.pin 3 (2 * k) b)
    (onSaf (fun a => { (if b then turnOn k s.now a else a) with onAt := Sparse.set timeDef a.onAt k s.now }) (setBitF Reg.SAF_OUT_on k b s)))

/-! The two channels (R409, R410). -/

/-- What the channel in view holds. -/
def chanOf (s : State) : SafChan := ⟨s.saf.toSafCh, rdK s Reg.SAF_IN, rdK s Reg.SAF_OUT, n16.map (fun f => rdK s (Reg.SAF_FNn f))⟩

/-- Put a channel in view. -/
def withChan (ch : SafChan) (s : State) : State :=
  forEach (fun f => wrK (Reg.SAF_FNn f) (ch.fnW.getD f 0#32)) n16
    (wrK Reg.SAF_OUT ch.outW (wrK Reg.SAF_IN ch.inW { s with saf := { s.saf with toSafCh := ch.core } }))

/-- What channel Y holds. -/
def chanY (s : State) : SafChan := s.saf.y.getD (chanOf s)

/-- A pin of a switch that channel Y drives (R409). -/
def pinOfY : Emit → Bool
  | .pin 3 i _ => i % 2 == 1
  | _ => false

/-- Both channels act: X by `f` and Y by `g`, which are the same work where `same` holds. Y drives the B switches; its records are X's. -/
def runBoth (f g : State → State) (same : Bool) (s : State) : State :=
  let a := f s
  if same && s.saf.y.isNone then a
  else
    let b := g (withChan (chanY s) s)
    onSaf (fun v => { v with y := if chanOf b = chanOf a then none else some (chanOf b) })
      { a with out := a.out.filter (fun e => !pinOfY e) ++ b.out.filter pinOfY }

/-- Both channels do the same. -/
def both (f : State → State) : State → State := runBoth f f true

/-- Function states of a channel. -/
def fnStates (ch : SafChan) : List Nat := ch.fnW.map (fun w => w.toNat % 8)

/-- The channels' filtered inputs, function states or output commands differ (R410). -/
def chansDiffer (s : State) : Bool :=
  match s.saf.y with
  | none => false
  | some ch =>
    let x := chanOf s
    decide (ch.inW.toNat % 2 ^ 16 ≠ x.inW.toNat % 2 ^ 16) || decide (fnStates ch ≠ fnStates x)
      || decide (ch.outW.toNat % 2 ^ 8 ≠ x.outW.toNat % 2 ^ 8)

/-! Faults and lockouts (R425). -/

/-- Record a fault: SAF_FAULT with code and resource, counted (R425). -/
def safFault (code res : Nat) (s : State) : State :=
  raise .safety Ev.SAF_FAULT (code + 2 ^ 8 * res)
    (incF Reg.SAF_CNT_faults .a (setF Reg.SAF_FLT_res res .a (setF Reg.SAF_FLT_code code .a s)))

/-- Whether function `f` names pair `k`. -/
def usesPair (c : SafCfg) (f k : Nat) : Bool := decide ((safFun c f).kind ≠ 0) && bit (safFun c f).pairs.toNat k

/-- Turn off every output a function names. -/
def dropOuts (mask : Nat) (s : State) : State := forEach (fun k s => if bit mask k then setOut k false s else s) n8 s

/-- Lock out every function that uses a pair: their outputs go off. -/
def lockPairFns (c : SafCfg) (k : Nat) (s : State) : State :=
  forEach (fun f s =>
    if usesPair c f k then
      let u := safFun c f
      dropOuts (u.imm ||| u.dly).toNat (setF (Reg.SAF_FNn_rem f) 0 .a
        (setFn f 5 (onFn f (fun a => { a with lockPairs := k :: a.lockPairs.filter (· ≠ k) }) s)))
    else s) n16 s

/-- A fault of a pair (DISCREP, PARTIAL). -/
def pairFault (c : SafCfg) (code k : Nat) (s : State) : State := lockPairFns c k (safFault code k s)

/-- Lock an input out, and with it every function of its pair. -/
def lockInput (c : SafCfg) (i : Nat) (s : State) : State :=
  let s1 := setBitF Reg.SAF_IN_flt i true s
  if (safInp c i).kind = 1 || (safInp c i).kind = 2 then lockPairFns c (i / 2) s1 else s1

/-- A fault of an input (TESTPULSE, CROSS): the input and every function of its pair are locked out. -/
def inputFault (c : SafCfg) (code i : Nat) (s : State) : State :=
  if inLocked s i then s else lockInput c i (safFault code i s)

/-- A fault of an output pair (OUTSTUCK, OUTSHORT, EDM). -/
def outFault (code k : Nat) (s : State) : State :=
  if outLocked s k then s
  else setOut k false (onSaf (fun a => { a with edmLock := putBit a.edmLock k (code == 7) }) (setBitF Reg.SAF_OUT_lock k true (safFault code k s)))

/-- Enter SAFE on an internal fault (R410): every output pair off until module reset. -/
def enterSafe (cause : Nat) (s : State) : State :=
  if getF s Reg.SAF_STAT_state = 3 then s
  else raise .safety Ev.SAF_SAFE cause (both (dropOuts 0xFF) (setF Reg.SAF_STAT_state 3 .a (safFault 0x10 cause s)))

/-! One cycle (R409). -/

/-- Inputs (R412): a level is taken once it has been stable for the filter time. -/
def safInputs (c : SafCfg) (img : BitVec 16) (s : State) : State :=
  let chg := img ^^^ s.saf.raw
  let at' := n16.foldl (fun m i => if bit chg.toNat i then Sparse.set timeDef m i s.now else m) s.saf.rawAt
  let s1 := onSaf (fun a => { a with raw := img, rawAt := at' }) s
  forEach (fun i s =>
    if (safInp c i).kind ≠ 0 && bit img.toNat i != inLvl s i
        && decide ((safInp c i).filt * ms ≤ since s.now (Sparse.get timeDef at' i)) then
      setBitF Reg.SAF_IN_lvl i (bit img.toNat i) s
    else s) n16 s1

/-- Whether channel A or B of pair `k` indicates run (R415). -/
def chanRun (c : SafCfg) (s : State) (k : Nat) (b : Bool) : Bool :=
  if b then (if (safPair c k).mode = 2 then !inLvl s (2 * k + 1) else inLvl s (2 * k + 1)) else inLvl s (2 * k)

/-- Whether pair `k` reads RUN: both channels indicate run. -/
def pairRun (s : State) (k : Nat) : Bool := bit s.saf.runA.toNat k && bit s.saf.runB.toNat k

/-- A pair of channels (R415): disagreement is timed, and a channel that returns to run while the other never indicated stop is
fault PARTIAL. -/
def safPairStep (c : SafCfg) (k : Nat) (s : State) : State :=
  if (safPair c k).mode = 0 then s
  else
    let a := chanRun c s k false
    let b := chanRun c s k true
    let a0 := bit s.saf.runA.toNat k
    let b0 := bit s.saf.runB.toNat k
    let dA := bit s.saf.dropA.toNat k || !a
    let dB := bit s.saf.dropB.toNat k || !b
    let part := (!a0 && a && b0 && b && !dB) || (!b0 && b && a0 && a && !dA)
    let s1 := onSaf (fun f => { f with runA := putBit f.runA k a, runB := putBit f.runB k b,
                                       dropA := putBit f.dropA k (dA && !(a && b)), dropB := putBit f.dropB k (dB && !(a && b)),
                                       disAt := if a = b then Sparse.erase f.disAt k
                                         else if a0 = b0 then Sparse.insert f.disAt k s.now else f.disAt }) s
    if part then pairFault c 2 k s1 else s1

/-- The pairs a function names all read RUN. -/
def allRun (c : SafCfg) (s : State) (f : Nat) : Bool := n8.all (fun k => !bit (safFun c f).pairs.toNat k || pairRun s k)

/-- The first pair of a function that reads STOP. -/
def stopPair (c : SafCfg) (s : State) (f : Nat) : Option Nat := n8.find? (fun k => bit (safFun c f).pairs.toNat k && !pairRun s k)

/-- A function trips (R419): recorded and counted; category 1 goes to STOPPING for its delay, the others to STOPPED. -/
def trip (c : SafCfg) (f k : Nat) (s : State) : State :=
  let u := safFun c f
  let s1 := raise .safety Ev.SAF_TRIP (f + 2 ^ 8 * k) (incF Reg.SAF_CNT_trips .a s)
  if u.kind = 2 then
    setF (Reg.SAF_FNn_rem f) u.delay .a (setFn f 2 (onFn f (fun a => { a with due := plus s.now (u.delay * 100 * ms) }) s1))
  else setFn f 3 s1

/-- A function waits for its own reset input; guard doors and light curtains may name none. -/
def ownReset (c : SafCfg) (f : Nat) : Bool := decide ((safFun c f).rst < 16)

/-- The light curtain's pair has read RUN for 100 ms (R419). -/
def curtainOk (s : State) (f : Nat) : Bool :=
  match (safFn s f).runAt with
  | some t => decide (100 * ms ≤ since s.now t)
  | none => false

/-- Evaluate a two-hand function (R421). -/
def twoHand (c : SafCfg) (f : Nat) (s : State) : State :=
  let a := safFn s f
  match n8.filter (fun k => bit (safFun c f).pairs.toNat k) with
  | [p, q] =>
    let x := pairRun s p
    let y := pairRun s q
    if fnState s f = 1 then
      if x && y then s else trip c f (if x then q else p) (onFn f (fun a => { a with rel := true, hand := none }) s)
    else if fnState s f = 5 then s
    else if a.rel then (if !x && !y then onFn f (fun a => { a with rel := false, hand := none }) s else s)
    else if x && y then
      let d := match a.hand with | some t => since s.now t | none => 0
      if d ≤ 500 * ms then setFn f 1 (onFn f (fun a => { a with hand := none, ran := true }) s)
      else raise .safety Ev.SAF_2HLATE (f + 2 ^ 16 * min (d / ms) 0xFFFF) (onFn f (fun a => { a with rel := true, hand := none }) s)
    else if x || y then (if a.hand.isNone then onFn f (fun a => { a with hand := some s.now }) s else s)
    else onFn f (fun a => { a with hand := none }) s
  | _ => s

/-- Evaluate a function (R419, R420). -/
def safFnStep (c : SafCfg) (f : Nat) (s : State) : State :=
  let u := safFun c f
  if u.kind = 0 then s
  else if u.kind = 4 then twoHand c f s
  else
    let ok := allRun c s f
    let s := if u.kind = 5 then
        onFn f (fun a => { a with runAt := if ok then (if a.runAt.isSome then a.runAt else some s.now) else none }) s else s
    match fnState s f with
    | 1 => if ok then s else trip c f ((stopPair c s f).getD 0) s
    | 2 => setF (Reg.SAF_FNn_rem f) ((since (safFn s f).due s.now + 100 * ms - 1) / (100 * ms)) .a s
    | 3 =>
      if !ok || (u.kind == 5 && !curtainOk s f) then s
      else if ownReset c f then setFn f 4 s
      else setFn f 1 (onFn f (fun a => { a with ran := true }) s)
    | 4 => if !ok && (safFn s f).ran then setFn f 3 s else s
    | _ => s

/-! Resets (R426, R427). -/

/-- Whether the cause of an input's lockout is gone: its last test pulse passed, and it stayed on in the last pulse of every other
source. -/
def inputClean (s : State) (i : Nat) : Bool := !bit s.saf.tpBad.toNat i && s.saf.crs.all (fun p => p.1 != i)

/-- The EDM input of a pair, if it names one, reads on (R418). -/
def edmOn (c : SafCfg) (s : State) (k : Nat) : Bool :=
  let e := (safOutp c k).edm
  decide (16 ≤ e) || inLvl s e

/-- Whether the cause of an output pair's lockout is gone: no switch of the pair, which is off, reads above 5 V, and after an EDM fault
its EDM input reads on (R417, R418). -/
def outClean (c : SafCfg) (s : State) (k : Nat) : Bool :=
  !bit s.saf.rbHi.toNat k && (!bit s.saf.edmLock.toNat k || edmOn c s k)

/-- Unlock output pair `k` by a lockout reset: its EDM input need not read on before it turns on again (R418), and it is pulsed as it
does (R427). -/
def unlockOut (k : Nat) (s : State) : State :=
  setBitF Reg.SAF_OUT_lock k false
    (onSaf (fun a => { a with edmLock := putBit a.edmLock k false, edmFree := putBit a.edmFree k true, early := putBit a.early k true }) s)

/-- Clear every lockout whose cause is gone at this instant (R427): functions go to READY, output pairs unlock. Both hands of a
two-hand function must be released first (R421). -/
def clearLockouts (c : SafCfg) (s : State) : State :=
  let s1 := forEach (fun i s => if inLocked s i && inputClean s i then setBitF Reg.SAF_IN_flt i false s else s) n16 s
  let s2 := forEach (fun k s => if outLocked s k && outClean c s k then unlockOut k s else s) n8 s1
  forEach (fun f s =>
    if fnState s f = 5 then
      let rest := (safFn s f).lockPairs.filter (fun k =>
        (bit s.saf.runA.toNat k != bit s.saf.runB.toNat k) || inLocked s (2 * k) || inLocked s (2 * k + 1))
      let s := onFn f (fun a => { a with lockPairs := rest }) s
      if rest.isEmpty then
        setFn f 4 (onFn f (fun a => { a with rel := (safFun c f).kind == 4 || a.rel }) s)
      else s
    else s) n16 s2

/-- The lockouts and function states, compared across a press. -/
def lockSig (s : State) : Nat × Nat × List Nat := (getF s Reg.SAF_IN_flt, getF s Reg.SAF_OUT_lock, n16.map (fnState s))

/-- Some lockout is latched. -/
def anyLockout (s : State) : Bool :=
  decide (getF s Reg.SAF_IN_flt ≠ 0) || decide (getF s Reg.SAF_OUT_lock ≠ 0) || n16.any (fun f => fnState s f == 5)

/-- The functions a valid press on input `i` restarts (R419, R432): those in READY with all pairs RUN whose reset input it is,
and, when it is the lockout reset input, those without a reset input, at start and after a lockout (log entry 91). -/
def restarts (c : SafCfg) (s : State) (i f : Nat) : Bool :=
  let u := safFun c f
  fnState s f == 4 && allRun c s f && decide (u.kind ≠ 4) && decide (u.kind ≠ 0)
    && (u.rst == i || (i == c.lock && !ownReset c f))

/-- A valid press on input `i` (R426, R427): on the lockout reset input it clears the lockouts whose cause is gone and then
restarts nothing; otherwise it restarts the functions that wait for it. A press that does something is recorded. -/
def press (c : SafCfg) (i : Nat) (s : State) : State :=
  let s1 := if i = c.lock && anyLockout s then clearLockouts c s else s
  let cleared := i == c.lock && decide (lockSig s1 ≠ lockSig s)
  let fs := if cleared then [] else n16.filter (restarts c s i)
  if cleared || !fs.isEmpty then
    raise .safety Ev.SAF_RESET i (forEach (fun f s => setFn f 1 (onFn f (fun a => { a with ran := true }) s)) fs s1)
  else s1

/-- Reset input `i` has been seen off: its raw level has been off for its filter time (R412, R426). -/
def seenOff (c : SafCfg) (s : State) (i : Nat) : Bool :=
  !bit s.saf.raw.toNat i && decide ((safInp c i).filt * ms ≤ since s.now (Sparse.get timeDef s.saf.rawAt i))

/-- A reset input in one cycle (R426): a press counts when it lasted 100 ms to 5 s and ends in a release. An input that is on at start
counts as held: it is timed, but its release is no press, and it counts as held until it has been seen off. An input in lockout is held
too. -/
def safReset (c : SafCfg) (i : Nat) (s : State) : State :=
  if (safInp c i).kind ≠ 3 then s
  else if inLocked s i then onSaf (fun a => { a with noPress := putBit a.noPress i true, pressAt := Sparse.erase a.pressAt i }) s
  else if inLvl s i then
    if bit s.saf.heldRep.toNat i || (s.saf.pressAt.find? (fun p => p.1 == i)).isSome then s
    else onSaf (fun a => { a with pressAt := Sparse.insert a.pressAt i s.now }) s
  else
    let s1 := onSaf (fun a => { a with noPress := if seenOff c s i then putBit a.noPress i false else a.noPress, heldRep := putBit a.heldRep i false,
                                       pressAt := Sparse.erase a.pressAt i }) s
    match s.saf.pressAt.find? (fun p => p.1 == i) with
    | some (_, t) =>
      let d := since s.now t
      if !bit s.saf.noPress.toNat i && decide (100 * ms ≤ d) && decide (d ≤ 5000 * ms) then press c i s1 else s1
    | none => s1

/-! Requests (R423). -/

/-- Setpoint value 1.0. -/
def reqOn (s : State) (k : Nat) : Bool :=
  s.auth.sps.any (fun p => decide (p.1.toNat = 0x30000 + k) && F64.eq p.2 F64.one)

/-- Request lines in one cycle: the Active lane drives them; a line whose wires are not complementary reads off and is recorded;
with no lane named every request reads off; a move of the role lines starts the hold of 20 ms. -/
def safRequests (bad : Byte) (s : State) : State :=
  let role := s.kpr.role
  let moved := decide (role ≠ s.saf.roleSeen)
  let new := n8.foldl (fun (v : Byte) k => putBit v k (role.isSome && reqOn s k && !bit bad.toNat k)) 0#8
  let chg := new ^^^ s.saf.reqRaw
  let at' := n8.foldl (fun m k => if bit chg.toNat k then Sparse.set timeDef m k s.now else m) s.saf.reqAt
  let s1 := forEach (fun k s => if bit bad.toNat k && !bit s.saf.reqBad.toNat k then raise .safety Ev.SAF_REQPAIR k s else s) n8 s
  let s2 := onSaf (fun a => { a with reqRaw := new, reqAt := at', reqBad := bad, roleSeen := role,
                                     holdAt := if moved then some s.now else a.holdAt }) s1
  let s3 := setB Reg.SAF_STAT_nolane role.isNone .a (when moved (setF Reg.SAF_STAT_rqhold 1 .a) s2)
  let off := if role.isNone then 0xFF else bad.toNat
  setF Reg.SAF_OUT_req (getF s3 Reg.SAF_OUT_req - (getF s3 Reg.SAF_OUT_req &&& off)) .a s3

/-! Outputs (R422). -/

/-- A pair may be on as far as its functions allow: those naming it in the immediate mask in RUN, in the delayed mask in RUN or
STOPPING. -/
def fnsAllow (c : SafCfg) (s : State) (k : Nat) : Bool :=
  n16.all (fun f =>
    let u := safFun c f
    decide (u.kind = 0) || ((!bit u.imm.toNat k || fnState s f == 1) && (!bit u.dly.toNat k || fnState s f == 1 || fnState s f == 2)))

/-- Some function names the pair. -/
def fnNames (c : SafCfg) (k : Nat) : Bool :=
  n16.any (fun f => decide ((safFun c f).kind ≠ 0) && bit ((safFun c f).imm ||| (safFun c f).dly).toNat k)

/-- The output rule (R422): what output pair `k` is commanded. The EDM condition holds the pair off until its EDM reads on
(R418). -/
def outWanted (c : SafCfg) (s : State) (k : Nat) : Bool :=
  let o := safOutp c k
  let req := bit (getF s Reg.SAF_OUT_req) k
  getF s Reg.SAF_STAT_state == 2 && o.en && !outLocked s k && fnsAllow c s k && (fnNames c k || o.req)
    && (outOn s k || bit s.saf.edmFree.toNat k || edmOn c s k) && (!o.req || req)

/-- What the switches of pair `k` are commanded and since when (R409): A by channel X, B by channel Y. -/
def swCmd (s : State) (k : Nat) : (Bool × Time) × (Bool × Time) :=
  let x := (outOn s k, Sparse.get timeDef s.saf.onAt k)
  (x, (s.saf.y.map (fun ch => (bit ch.outW.toNat k, Sparse.get timeDef ch.core.onAt k))).getD x)

/-- The fault a switch's readback shows (R417): below 5 V while on is OUTSHORT, above 5 V while off is OUTSTUCK, once the switch has had
1 ms. -/
def swFault (now : Time) (sw : Bool × Time) (high : Bool) : Option Nat :=
  if decide (since now sw.2 < ms) || sw.1 == high then none else some (if sw.1 then 6 else 5)

/-- Readbacks of a pair (R417). -/
def safReadback (cmd : Nat → (Bool × Time) × (Bool × Time)) (a b : Byte) (k : Nat) (s : State) : State :=
  match (swFault s.now (cmd k).1 (bit a.toNat k)).or (swFault s.now (cmd k).2 (bit b.toNat k)) with
  | some e => outFault e k s
  | none => s

/-- A channel's cycle in RUN over the image it reads, in order: inputs, pairs, requests, functions, resets, outputs. -/
def safCycle (c : SafCfg) (x : SafIn) (cmd : Nat → (Bool × Time) × (Bool × Time)) (s : State) : State :=
  let s1 := onSaf (fun a => { a with rbHi := x.rdA ||| x.rdB }) (safInputs c x.si s)
  let s2 := forEach (safReadback cmd x.rdA x.rdB) n8 s1
  let s3 := forEach (safPairStep c) n8 s2
  let s4 := safRequests x.rqBad s3
  let s5 := forEach (safFnStep c) n16 s4
  let s6 := forEach (safReset c) n16 s5
  forEach (fun k s => setOut k (outWanted c s k) s) n8 s6

/-- A channel's cycle outside RUN (R409, R423): inputs, readbacks and request lines are read all the same. Without a configuration no
input has a filter, and only its raw level is held (log entry 91). -/
def safWatch (x : SafIn) (cmd : Nat → (Bool × Time) × (Bool × Time)) (s : State) : State :=
  let s1 := onSaf (fun a => { a with rbHi := x.rdA ||| x.rdB }) (safInputs (s.saf.cfg.getD noCfg) x.si s)
  safRequests x.rqBad (forEach (safReadback cmd x.rdA x.rdB) n8 s1)

/-- Whether the two channels' images differ (R410). -/
def imagesDiffer (x y : SafIn) : Bool :=
  decide (x.si ≠ y.si) || decide (x.rdA ≠ y.rdA) || decide (x.rdB ≠ y.rdB) || decide (x.rqBad ≠ y.rqBad)

/-- SAFETY_CYCLE (R409, R410): the channels compare; a disagreement in 3 consecutive cycles, a bad oscillator or a bad supply is
an internal fault in every state; in RUN every function is evaluated and every output driven. -/
def execSafetyCycle (t : Time) (x y : SafIn) (s : State) : Host.Outcome State Fault Refusal :=
  run t s (fun s =>
    let st := getF s Reg.SAF_STAT_state
    let d := if imagesDiffer x y || chansDiffer s then s.saf.diff + 1 else 0
    let s := onSaf (fun a => { a with diff := d }) s
    if st ≠ 3 && decide (3 ≤ d) then enterSafe 1 s
    else if st ≠ 3 && (x.oscBad || y.oscBad) then enterSafe 4 s
    else if st ≠ 3 && (x.supBad || y.supBad) then enterSafe 5 s
    else
      match (if st = 2 then s.saf.cfg else none) with
      | some c => runBoth (safCycle c x (swCmd s)) (safCycle c y (swCmd s)) (decide (x = y)) s
      | none => runBoth (safWatch x (swCmd s)) (safWatch y (swCmd s)) (decide (x = y)) s)

/-- Run a command of the island in RUN with its configuration. -/
def safRun (t : Time) (s : State) (f : SafCfg → State → State) : Host.Outcome State Fault Refusal :=
  run t s (fun s =>
    match s.saf.cfg with
    | some c => if getF s Reg.SAF_STAT_state = 2 then f c s else s
    | none => s)

/-- Whether an input is checked at test pulses (R413, R414): it names a source. -/
def pulsed (c : SafCfg) (i : Nat) : Bool := decide ((safInp c i).kind ≠ 0) && decide ((safInp c i).kind ≠ 2) && decide ((safInp c i).src < 8)

/-- An input of another source goes off during a source's pulse (R413). -/
def crossed (c : SafCfg) (src : Nat) (lvl : BitVec 16) (s : State) (i : Nat) : Bool :=
  pulsed c i && decide ((safInp c i).src ≠ src) && bit s.saf.raw.toNat i && !bit lvl.toNat i

/-- The checks of a source's pulse (R413, R425): TESTPULSE and CROSS; the other inputs a CROSS involves are those of the pulsed source.
A CROSS stands until a pulse of the same source leaves the input on. -/
def pulseChecks (c : SafCfg) (src : Nat) (lvl : BitVec 16) (s : State) : State :=
  let hits := n16.filter (crossed c src lvl s)
  let hit := !hits.isEmpty
  let s := onSaf (fun a => { a with crs := hits.map (fun i => (i, src)) ++ a.crs.filter (fun p => p.2 != src) }) s
  forEach (fun i s =>
    if !pulsed c i then s
    else if (safInp c i).src = src then
      let s1 := onSaf (fun a => { a with tpBad := putBit a.tpBad i (bit lvl.toNat i || hit) }) s
      if bit lvl.toNat i then inputFault c 3 i s1 else if hit && !inLocked s i then lockInput c i s1 else s1
    else if crossed c src lvl s i then inputFault c 4 i s
    else s) n16 s

/-- TEST_PULSE (R413): while a source is off, an input of it that stays on is TESTPULSE; an input of another source that goes off
is CROSS. `lvl` holds the raw levels during the pulse. A source pulses once every period, at its offset. -/
def execTestPulse (t : Time) (src : Nat) (lvl : BitVec 16) (s : State) : Host.Outcome State Fault Refusal :=
  safRun t s (fun c s =>
    let due := Sparse.get timeDef s.saf.tsDue src
    if decide (8 ≤ src) || !atOrAfter s.now due then s
    else
      both (pulseChecks c src lvl) (emit (.pin 4 src true) (emit (.pin 4 src false)
        (onSaf (fun a => { a with tsDue := Sparse.set timeDef a.tsDue src (plus due (c.pt * ms)) }) s))))

/-- The pulse of a switch after the one due (R417, R427): a period later, or two after the pair turned on when that one came in place of
the first. -/
def nextOff (c : SafCfg) (b : Bool) (on due : Time) : Time :=
  if due = on then plus on ((4 + b2n b) * c.opt * ms / 2) else plus due (c.opt * ms)

/-- OUTPUT_OFF_PULSE (R417): a switch that is on is pulsed off once every period; a readback not below 5 V by the pulse's end is
OUTSTUCK. Pairs with pulse testing disabled are not pulsed. -/
def execOutputOffPulse (t : Time) (k : Nat) (b below : Bool) (s : State) : Host.Outcome State Fault Refusal :=
  safRun t s (fun c s =>
    let sw := if b then (swCmd s k).2 else (swCmd s k).1
    let due := Sparse.get timeDef s.saf.offDue (2 * k + b2n b)
    if decide (8 ≤ k) || !sw.1 || (safOutp c k).nopt || !atOrAfter s.now due then s
    else
      let s1 := emit (.pin 3 (2 * k + b2n b) false)
        (onSaf (fun a => { a with offDue := Sparse.set timeDef a.offDue (2 * k + b2n b) (nextOff c b sw.2 due) }) s)
      if below then emit (.pin 3 (2 * k + b2n b) true) s1 else both (outFault 5 k) s1)

/-- A pair whose channels have disagreed for longer than its discrepancy time (R415): one fault for each disagreement. -/
def discrepancy (c : SafCfg) (k : Nat) (s : State) : State :=
  match s.saf.disAt.find? (fun p => p.1 == k) with
  | some (_, t0) =>
    if (safPair c k).disc * ms < since s.now t0 then pairFault c 1 k (onSaf (fun a => { a with disAt := Sparse.erase a.disAt k }) s) else s
  | none => s

/-- DISCREPANCY_TIMEOUT (R415). -/
def execDiscrepancyTimeout (t : Time) (k : Nat) (s : State) : Host.Outcome State Fault Refusal :=
  safRun t s (fun c => both (discrepancy c k))

/-- The end of a category 1 delay (R420): the delayed outputs go off; the function waits for its reset like any other stopped one. -/
def delayEnd (c : SafCfg) (f : Nat) (s : State) : State :=
  if decide (f < 16) && fnState s f == 2 && atOrAfter s.now (safFn s f).due then
    let s1 := setF (Reg.SAF_FNn_rem f) 0 .a (setFn f (if allRun c s f then 4 else 3) s)
    forEach (fun k s => if bit (safFun c f).dly.toNat k then setOut k false s else s) n8 s1
  else s

/-- CATEGORY1_DELAY_END (R420). -/
def execCategory1DelayEnd (t : Time) (f : Nat) (s : State) : Host.Outcome State Fault Refusal :=
  safRun t s (fun c => both (delayEnd c f))

/-- A reset input on for more than 5 s raises RESETHELD and accepts nothing until it has been seen off (R426). -/
def resetHeld (c : SafCfg) (i : Nat) (s : State) : State :=
  match s.saf.pressAt.find? (fun p => p.1 == i) with
  | some (_, t0) =>
    if (safInp c i).kind = 3 && decide (5000 * ms ≤ since s.now t0) then
      safFault 8 i (onSaf (fun a => { a with noPress := putBit a.noPress i true, heldRep := putBit a.heldRep i true,
                                             pressAt := Sparse.erase a.pressAt i }) s)
    else s
  | none => s

/-- RESET_HELD (R426). -/
def execResetHeld (t : Time) (i : Nat) (s : State) : Host.Outcome State Fault Refusal :=
  safRun t s (fun c => both (resetHeld c i))

/-- The EDM input of a pair has not followed it within 300 ms (R418). -/
def edmCheck (c : SafCfg) (k : Nat) (s : State) : State :=
  let e := (safOutp c k).edm
  if decide (k < 8) && decide (e < 16) && decide (300 * ms ≤ since s.now (Sparse.get timeDef s.saf.onAt k))
      && inLvl s e == outOn s k then outFault 7 k s
  else s

/-- EDM_TIMEOUT (R418). -/
def execEdmTimeout (t : Time) (k : Nat) (s : State) : Host.Outcome State Fault Refusal :=
  safRun t s (fun c => both (edmCheck c k))

/-- A change of a request line stable for 5 ms takes effect, unless the hold after a role change is in force (R423). -/
def requestStable (k : Nat) (s : State) : State :=
  if decide (k < 8) && !getB s Reg.SAF_STAT_rqhold && decide (5 * ms ≤ since s.now (Sparse.get timeDef s.saf.reqAt k)) then
    setBitF Reg.SAF_OUT_req k (bit s.saf.reqRaw.toNat k) s
  else s

/-- REQUEST_STABLE (R423). -/
def execRequestStable (t : Time) (k : Nat) (s : State) : Host.Outcome State Fault Refusal := run t s (both (requestStable k))

/-- 20 ms after the role lines moved the requests follow their lines again (R423). -/
def requestHoldEnd (s : State) : State :=
  match s.saf.holdAt with
  | some t0 =>
    if 20 * ms ≤ since s.now t0 then setF Reg.SAF_STAT_rqhold 0 .a (onSaf (fun a => { a with holdAt := none }) s) else s
  | none => s

/-- REQUEST_HOLD_END (R423). -/
def execRequestHoldEnd (t : Time) (s : State) : Host.Outcome State Fault Refusal := run t s (both requestHoldEnd)

/-- OUTPUT_SHORT_TRIP (R416): a switch above 1.0 A for 50 µs switches off with OUTSHORT. -/
def execOutputShortTrip (t : Time) (k : Nat) (b : Bool) (s : State) : Host.Outcome State Fault Refusal :=
  safRun t s (fun _ s => if decide (k < 8) && (if b then (swCmd s k).2.1 else (swCmd s k).1.1) then emit (.pin 3 (2 * k + b2n b) false) (both (outFault 6 k) s) else s)

/-- ROM_CHECK (R410): a checksum error is an internal fault. -/
def execRomCheck (t : Time) (ok : Bool) (s : State) : Host.Outcome State Fault Refusal :=
  run t s (fun s => if ok then s else enterSafe 2 s)

/-- RAM_TEST (R410): a failure is an internal fault. -/
def execRamTest (t : Time) (ok : Bool) (s : State) : Host.Outcome State Fault Refusal :=
  run t s (fun s => if ok then s else enterSafe 3 s)

/-! Configuration and start (R428-R432). -/

/-- The keys of the enabled key slots that hold one (R64). -/
def keysOn (s : State) : List (List Byte) :=
  [0, 1].filterMap (fun i =>
    let k := Sparse.get (fun _ => ([] : List Byte)) s.cfg.keys i
    if bit (rdK s Reg.SLV_PKG_KEY).toNat i && !k.isEmpty then some k else none)

/-- The enabled key that a signature block at an offset names by its identifier (R63, R64). -/
def sigKey (s : State) (bs : List Byte) (sig : Nat) : Option (List Byte) :=
  (keysOn s).find? (fun k => (sha k).take 8 == slice bs (sig + 8) 8)

/-- Read a safety configuration (R428, R429). -/
def parseSaf (bs : List Byte) : SafCfg :=
  let b (o : Nat) : Nat := leAt bs o 1
  { id := BitVec.ofNat 64 (leAt bs 0xC 8), rev := BitVec.ofNat 32 (leAt bs 0x14 4),
    dig := BitVec.ofNat 32 (leNat ((sha (bs.take 0x200)).take 4)),
    wt := leAt bs 0x20 2, pt := leAt bs 0x22 2, owt := leAt bs 0x24 2, opt := leAt bs 0x26 2, lock := b 0x28,
    inps := n16.map (fun i => ⟨b (0x40 + 4 * i), b (0x41 + 4 * i), b (0x42 + 4 * i), b (0x43 + 4 * i)⟩),
    pairs := n8.map (fun k => ⟨b (0x80 + 8 * k), leAt bs (0x82 + 8 * k) 2⟩),
    outs := n8.map (fun k => ⟨b (0xC0 + 8 * k) == 1, b (0xC1 + 8 * k) == 1, bit (b (0xC2 + 8 * k)) 0, b (0xC3 + 8 * k)⟩),
    funs := n16.map (fun f =>
      let o := 0x100 + 16 * f
      ⟨b o, BitVec.ofNat 8 (b (o + 1)), BitVec.ofNat 8 (b (o + 2)), BitVec.ofNat 8 (b (o + 3)), leAt bs (o + 4) 2, b (o + 6)⟩) }

/-- Every byte of a slice is zero. -/
def zeros (bs : List Byte) (o n : Nat) : Bool := (slice bs o n).all (· == 0#8)

/-- The reserved bytes of a safety configuration and of its signature block are zero (R63, R428, R429). -/
def safReserved (bs : List Byte) : Bool :=
  zeros bs 0x29 23 && n8.all (fun k => zeros bs (0x81 + 8 * k) 1 && zeros bs (0x84 + 8 * k) 4 && zeros bs (0xC4 + 8 * k) 4)
    && n16.all (fun f => zeros bs (0x107 + 16 * f) 9) && zeros bs 0x206 2 && zeros bs 0x270 144

/-- The on-off bytes of the output entries are 0 or 1, and no other flag is set (R429). -/
def outBytes (bs : List Byte) : Bool := n8.all (fun k => [0, 1, 2].all (fun o => decide (leAt bs (0xC0 + 8 * k + o) 1 ≤ 1)))

/-- Both inputs of pair `k` are of some of the kinds. -/
def pairKind (c : SafCfg) (k : Nat) (kinds : List Nat) : Bool :=
  kinds.contains (safInp c (2 * k)).kind && kinds.contains (safInp c (2 * k + 1)).kind

/-- The rules of code 0x05 on one input (R412-R414, R430). -/
def inpRule (c : SafCfg) (i : Nat) : Bool :=
  let e := safInp c i
  decide (e.kind = 0) ||
    (decide (e.kind ≤ 4) && decide (1 ≤ e.filt) && decide (e.filt ≤ 5) && decide (c.wt < e.filt * 1000)
      && (decide (e.src < 8) || e.src == 0xFF)
      && (if e.kind = 2 then e.src == 0xFF && decide (1 ≤ e.allow) && decide (e.allow ≤ 9) && decide (e.allow * 100 + 500 ≤ e.filt * 1000)
          else e.allow == 0))

/-- The rules of code 0x05 on one pair. -/
def pairRule (c : SafCfg) (k : Nat) : Bool :=
  let p := safPair c k
  decide (p.mode = 0) ||
    (decide (p.mode ≤ 2) && decide (10 ≤ p.disc) && decide (p.disc ≤ 3000)
      && (!((safInp c (2 * k)).kind == 2 || (safInp c (2 * k + 1)).kind == 2) || p.mode == 1))

/-- The rules of code 0x05 on one function (R419, R430). -/
def funRule (c : SafCfg) (f : Nat) : Bool :=
  let u := safFun c f
  let ks := n8.filter (fun k => bit u.pairs.toNat k)
  let rstOk := decide (u.rst = 0xFF) || (decide (u.rst < 16) && (safInp c u.rst).kind == 3)
  decide (u.kind = 0) ||
    (decide (u.kind ≤ 5) && !ks.isEmpty
      && ks.all (fun k => decide ((safPair c k).mode ≠ 0) && pairKind c k [1, 2])
      && rstOk
      && (if u.kind = 2 then decide (1 ≤ u.delay) && decide (u.delay ≤ 300) && decide (u.dly ≠ 0#8) else u.delay == 0)
      && (if u.kind = 1 || u.kind = 2 then decide (u.rst < 16) else true)
      && (if u.kind = 4 then ks.length == 2 && ks.all (fun k => (safPair c k).mode == 2) && u.rst == 0xFF else true)
      && (if u.kind = 5 then ks.length == 1 && ks.all (fun k => pairKind c k [2]) else true))

/-- The rules of code 0x05 on one output (R418, R430). -/
def outRule (c : SafCfg) (k : Nat) : Bool :=
  let o := safOutp c k
  (o.edm == 0xFF || (decide (o.edm < 16) && (!o.en || (safInp c o.edm).kind == 4))) && (!o.en || fnNames c k || o.req)

/-- The rules of code 0x05 (R430). -/
def safRules (c : SafCfg) : Bool :=
  decide (100 ≤ c.wt) && decide (c.wt ≤ 800) && decide (100 ≤ c.pt) && decide (c.pt ≤ 10000) && decide (100 ≤ c.owt)
    && decide (c.owt ≤ 800) && decide (100 ≤ c.opt) && decide (c.opt ≤ 10000) && decide (c.lock < 16)
    && (safInp c c.lock).kind == 3 && n16.all (inpRule c) && n8.all (pairRule c) && n16.all (funRule c) && n8.all (outRule c)

/-- The checks of R430 in order: 0 when all pass. -/
def safCheck (s : State) (bs : List Byte) : Nat :=
  if bs.length ≠ 768 || leAt bs 8 4 ≠ 768 then 1
  else if slice bs 0 4 ≠ [0x4A#8, 0x58#8, 0x53#8, 0x43#8] || leAt bs 4 2 ≠ 1 || !safReserved bs then 2
  else if (sigKey s bs 0x200).isNone then 3
  else if !((sigKey s bs 0x200).any (fun k => sigVerifies k bs 0x200)) || slice bs 0x200 4 ≠ [0x4A#8, 0x58#8, 0x53#8, 0x47#8] || leAt bs 0x204 2 ≠ 1 then 4
  else if !safRules (parseSaf bs) || !outBytes bs then 5
  else if getF s Reg.UPD_LCS_state = 2 then 6
  else 0

/-- The read view of the configuration in force (R433). -/
def showSafCfg (s : State) : State :=
  let wr (o : Nat) (v : Nat) := wrK o (BitVec.ofNat 32 v)
  match s.saf.cfg with
  | none => forEach (fun f => setF (Reg.SAF_FNn_kind f) 0 .a) n16 (setF Reg.SAF_OUT_nopt 0 .a
      (setF Reg.SAF_CFG_act 0 .a (wr Reg.SAF_CFG_DIG 0 (wr Reg.SAF_CFG_REV 0 (wr Reg.SAF_CFG_IDH 0 (wr Reg.SAF_CFG_IDL 0 s))))))
  | some c =>
    let s1 := setF Reg.SAF_CFG_act 1 .a (wr Reg.SAF_CFG_DIG c.dig.toNat (wr Reg.SAF_CFG_REV c.rev.toNat
      (wr Reg.SAF_CFG_IDH (c.id.toNat / 2 ^ 32) (wr Reg.SAF_CFG_IDL c.id.toNat s))))
    let s2 := forEach (fun k => setBitF Reg.SAF_OUT_nopt k (safOutp c k).nopt) n8 s1
    forEach (fun f => setF (Reg.SAF_FNn_kind f) (safFun c f).kind .a) n16 s2

/-- The first pulses of the test sources after an instant: source `k` at `k` eighths of the period (R413). -/
def tsDues (c : SafCfg) (now : Time) : Sparse Time :=
  n8.foldl (fun m k => Sparse.set timeDef m k (plus now (k * c.pt * ms / 8))) []

/-- The functions at their start: both hands of a two-hand function must be released first (R421, R432). -/
def fnsStart (c : SafCfg) : Sparse SafFn :=
  n16.foldl (fun m f => if (safFun c f).kind = 4 then Sparse.set fnDef m f { rel := true } else m) []

/-- Every function at its start: READY, two-hand functions STOPPED, unused ones UNUSED (R431, R432); reset inputs count as held until
they are seen off from now on, pairs are read anew, and every lockout ends. -/
def safStart (c : SafCfg) (s : State) : State :=
  let s1 := onSaf (fun a => { a with fns := fnsStart c, noPress := 0xFFFF#16, heldRep := 0#16, pressAt := [], tpBad := 0#16, crs := [], disAt := [],
                                     runA := 0#8, runB := 0#8,
                                     rawAt := n16.foldl (fun m i => if bit a.raw.toNat i == inLvl s i then Sparse.set timeDef m i s.now else m) a.rawAt,
                                     dropA := 0xFF#8, dropB := 0xFF#8, edmLock := 0#8,
                                     edmFree := n8.foldl (fun v k => if outLocked s k then putBit v k true else v) a.edmFree,
                                     tsDue := tsDues c s.now }) s
  let s2 := setF Reg.SAF_OUT_lock 0 .a (setF Reg.SAF_IN_flt 0 .a s1)
  forEach (fun f s => setF (Reg.SAF_FNn_rem f) 0 .a
    (setFn f (match (safFun c f).kind with | 0 => 0 | 4 => 3 | _ => 4) s)) n16 s2

/-- SAFETY_CONFIG_CHECK (R430, R431): both channels finish checking a loaded configuration; one that passes is activated at once:
outputs off, stored, functions at their start, lockouts cleared except SAFE, SAF_CFGACT recorded. An island that had none enters RUN, and
its alarm ends. -/
def execSafetyConfigCheck (t : Time) (s : State) : Host.Outcome State Fault Refusal :=
  run t s (fun s =>
    match s.saf.load with
    | none => s
    | some bs =>
      let e := safCheck s bs
      let s1 := setF Reg.SAF_CFG_busy 0 .a (setF Reg.SAF_CFG_err e .a (onSaf (fun a => { a with load := none }) s))
      if e ≠ 0 then s1
      else
        let c := parseSaf bs
        let s2 := onSaf (fun a => { a with cfg := some c, stored := bs }) s1
        let s3 := both (fun s => safStart c (showSafCfg (dropOuts 0xFF s))) s2
        let s4 := if getF s Reg.SAF_STAT_state = 1 then clearAlarm .safety Ev.SAF_NOCFG 0 0 (setF Reg.SAF_STAT_state 2 .a s3) else s3
        raise .safety Ev.SAF_CFGACT (c.rev.toNat + 2 ^ 32 * c.dig.toNat) (raise .safety Ev.SAF_CFGACT c.id.toNat s4))

/-- ISLAND_SELF_TEST (R432): a failed self-test enters SAFE; the stored configuration is read and checked again, and a failure
enters NOCFG with an alarm; otherwise the island enters RUN with every function at its start. -/
def execIslandSelfTest (t : Time) (xOk yOk pairOk : Bool) (s : State) : Host.Outcome State Fault Refusal :=
  run t s (fun s =>
    if getF s Reg.SAF_STAT_state ≠ 0 then s
    else
      let s1 := setB Reg.SAF_STAT_chy yOk .a (setB Reg.SAF_STAT_chx xOk .a s)
      if !xOk || !yOk then enterSafe 6 s1
      else
        let c0 := safCheck s1 s1.saf.stored
        let e := if !pairOk then 0x10 else if c0 = 6 then 0 else c0
        let s2 := setF Reg.SAF_CFG_err (if e = 0x10 then 0 else e) .a s1
        if e ≠ 0 then
          raiseAlarm .safety Ev.SAF_NOCFG 0 e
            (showSafCfg (onSaf (fun a => { a with cfg := none }) (setF Reg.SAF_STAT_state 1 .a s2)))
        else
          let c := parseSaf s2.saf.stored
          both (fun s => safStart c (showSafCfg s)) (onSaf (fun a => { a with cfg := some c }) (setF Reg.SAF_STAT_state 2 .a s2)))

end Sys2Proof.Machine
end

