-- ==== Sys2Proof/Machine/AsmCode.lean ====
section
/-!
DEFINITION. Encoding of the assembler's instructions (R72-R75) and the static checks of R79, and of the schedule's instructions
(R80-R82) with the static checks of R84.
-/

namespace Sys2Proof.Machine

/-! The assembler. -/

/-- Opcodes (R73). -/
inductive AsmOp where
  | fin | ldm | lds | ldp | itp | mad | fop | cmp | lda | loop | brq | sct | vst | bnd | rtl | sig
  deriving DecidableEq, Repr

/-- Number of an opcode. -/
def AsmOp.num : AsmOp → BitVec 4
  | .fin => 0x0#4
  | .ldm => 0x1#4
  | .lds => 0x2#4
  | .ldp => 0x3#4
  | .itp => 0x4#4
  | .mad => 0x5#4
  | .fop => 0x6#4
  | .cmp => 0x7#4
  | .lda => 0x8#4
  | .loop => 0x9#4
  | .brq => 0xA#4
  | .sct => 0xB#4
  | .vst => 0xC#4
  | .bnd => 0xD#4
  | .rtl => 0xE#4
  | .sig => 0xF#4

/-- The opcode of a number: every value is defined (R79). -/
def AsmOp.ofNum (v : BitVec 4) : AsmOp :=
  match v.toNat with
  | 0x0 => .fin
  | 0x1 => .ldm
  | 0x2 => .lds
  | 0x3 => .ldp
  | 0x4 => .itp
  | 0x5 => .mad
  | 0x6 => .fop
  | 0x7 => .cmp
  | 0x8 => .lda
  | 0x9 => .loop
  | 0xA => .brq
  | 0xB => .sct
  | 0xC => .vst
  | 0xD => .bnd
  | 0xE => .rtl
  | _ => .sig

/-- The 64-bit instruction of an opcode and its fields (R72). -/
def asmEncode (op : AsmOp) (i : AsmI) : BitVec 64 := op.num ++ i.d ++ i.a ++ i.b ++ i.c ++ i.x ++ i.m ++ i.imm

/-- Opcode and fields of a 64-bit instruction (R72). -/
def asmDecode (w : BitVec 64) : AsmOp × AsmI :=
  (AsmOp.ofNum (w.extractLsb' 60 4),
   { d := w.extractLsb' 55 5, a := w.extractLsb' 50 5, b := w.extractLsb' 45 5, c := w.extractLsb' 40 5,
     x := w.extractLsb' 36 4, m := w.extractLsb' 32 4, imm := w.extractLsb' 0 32 })

/-- Limits an assembler program is checked against (R79): counts of M, S, PARAM, tables, slots and indices, program length. -/
structure AsmLim where
  mCount : Nat
  sCount : Nat
  params : Nat
  tables : Nat
  slots : Nat
  n : Nat
  len : Nat
  deriving DecidableEq, Repr

/-- FOP sub-operations (R74) that read only Fa. -/
def fopUnary (c : Nat) : Bool := [6, 7, 8, 9, 10, 12, 13, 14].contains c

/-- The static checks of one instruction (R79). -/
def asmInstrOk (k : AsmLim) (w : BitVec 64) : Bool :=
  let (op, i) := asmDecode w
  let z (v : BitVec 5) : Bool := v == 0#5
  let m := i.m.toNat
  let imm := i.imm.toNat
  let cst (lim : Nat) : Bool := i.x != 0#4 || decide (imm < lim)
  let noX := i.x == 0#4
  match op with
  | .fin => z i.d && z i.a && z i.b && z i.c && noX && m == 0 && imm == 0
  | .ldm => z i.a && z i.b && z i.c && m == 0 && cst k.mCount
  | .lds => z i.a && z i.b && z i.c && m == 0 && cst k.sCount
  | .ldp => z i.a && z i.b && z i.c && m == 0 && cst k.params
  | .itp => z i.c && m == 0 && decide (imm < 4096) && cst k.tables
  | .mad => noX && imm == 0 && decide (m < 4)
  | .fop =>
    noX && m == 0 && decide (i.c.toNat < 16) &&
      (if i.c.toNat = 15 then z i.a && z i.b
       else imm == 0 && (!fopUnary i.c.toNat || z i.b) && (i.c.toNat != 14 || decide (i.a.toNat < 16)))
  | .cmp => z i.d && z i.c && noX && imm == 0 && decide (m ≤ 4) && (m != 4 || z i.b)
  | .lda => z i.b && z i.c && noX && decide (m < 2) && decide (i.d.toNat < 16) && (if m = 1 then decide (i.a.toNat < 16) else z i.a)
  | .loop => z i.d && z i.b && z i.c && noX && m == 0 && decide (i.a.toNat < 16) && !z i.a && decide (imm < k.len)
  | .brq => z i.d && z i.a && z i.b && z i.c && noX && decide (m < 4) && decide (imm < k.len)
  | .sct => z i.d && z i.b && z i.c && decide (m < 2) && cst k.slots
  | .vst => z i.d && z i.b && decide (i.c.toNat ≤ 4) && decide (m < 2) && cst k.n
  | .bnd => z i.c && decide (m < 2) && (m == 1 || z i.d) && cst k.n
  | .rtl => decide (m < 2) && (m == 1 || z i.d) && cst k.n
  | .sig => z i.d && z i.a && z i.b && z i.c && noX && decide (m < 2) && decide (imm < 2 ^ 16)

/-- ASMCHECK (R79): every instruction passes, and the last is END. -/
def asmCheck (k : AsmLim) (prog : List (BitVec 64)) : Bool :=
  prog.all (asmInstrOk k) &&
    (match prog.getLast? with
     | some w => (asmDecode w).1 == .fin
     | none => false)

/-! The elimination schedule. -/

/-- Schedule instructions with their fields (R82); lengths and counts are the true ones. -/
inductive SOp where
  | bar (kind : Nat)
  | pan (sb sld scol db dld dcol : Nat)
  | bld (dst src len : Nat) (zero : Bool)
  | dad (c cnt : Nat) (f0 f1 f2 : Bool)
  | gmt (m nn k ar br kc cr cc : Nat) (lower : Bool)
  | pvs (cnt c h : Nat) (mask : BitVec 64)
  | tsl (cnt c : Nat)
  | tsu (cnt c : Nat)
  | dsc (row cnt : Nat)
  | gmv (m k ar kc t : Nat) (tr pool : Bool)
  | sca (src p len : Nat) (zero : Bool)
  | rfn (f0 f1 f2 : Bool)
  deriving DecidableEq, Repr

/-- Flag bits [123:120]. -/
def flagBits (f0 f1 f2 : Bool) : Nat := b2n f0 + 2 * b2n f1 + 4 * b2n f2

/-- A 128-bit instruction from opcode, flags and fields (lowest bit, width, value); none when a value does not fit. -/
def sWord (op fl : Nat) (fs : List (Nat × Nat × Nat)) : Option (BitVec 128) :=
  if fs.all (fun f => decide (f.2.2 < 2 ^ f.2.1)) then
    some (BitVec.ofNat 128 ((fs.map (fun f => f.2.2 * 2 ^ f.1)).sum + fl * 2 ^ 120 + op * 2 ^ 124))
  else none

/-- Encoding of a count of at least 1 as count − 1; a count of 0 does not fit. -/
def less1 (n : Nat) : Nat := if n = 0 then 2 ^ 128 else n - 1

/-- Encoding of a schedule instruction (R82). -/
def sEncode : SOp → Option (BitVec 128)
  | .bar kind => sWord 0x0 0 [(116, 4, kind)]
  | .pan sb sld scol db dld dcol =>
    sWord 0x1 0 [(99, 21, sb), (85, 14, less1 sld), (71, 14, scol), (50, 21, db), (36, 14, less1 dld), (22, 14, dcol)]
  | .bld dst src len zero => sWord 0x2 (flagBits zero false false) [(99, 21, dst), (78, 21, src), (57, 21, less1 len)]
  | .dad c cnt f0 f1 f2 => sWord 0x3 (flagBits f0 f1 f2) [(106, 14, c), (92, 14, less1 cnt)]
  | .gmt m nn k ar br kc cr cc lower =>
    sWord 0x4 (flagBits lower false false)
      [(112, 8, less1 m), (104, 8, less1 nn), (96, 8, less1 k), (82, 14, ar), (68, 14, br), (54, 14, kc), (40, 14, cr),
       (26, 14, cc)]
  | .pvs cnt c h mask => sWord 0x5 0 [(114, 6, less1 cnt), (100, 14, c), (86, 14, h), (22, 64, mask.toNat)]
  | .tsl cnt c => sWord 0x6 0 [(114, 6, less1 cnt), (100, 14, c)]
  | .tsu cnt c => sWord 0x7 0 [(114, 6, less1 cnt), (100, 14, c)]
  | .dsc row cnt => sWord 0x8 0 [(106, 14, row), (92, 14, less1 cnt)]
  | .gmv m k ar kc t tr pool =>
    sWord 0x9 (flagBits tr pool false) [(112, 8, less1 m), (104, 8, less1 k), (90, 14, ar), (76, 14, kc), (55, 21, t)]
  | .sca src p len zero => sWord 0xA (flagBits zero false false) [(99, 21, src), (78, 21, p), (66, 12, less1 len)]
  | .rfn f0 f1 f2 => sWord 0xB (flagBits f0 f1 f2) []

/-- Fields of a 128-bit instruction, whatever its unlisted bits. -/
def sFields (w : BitVec 128) : Option SOp :=
  let f (lo wd : Nat) : Nat := w.toNat / 2 ^ lo % 2 ^ wd
  let fl (i : Nat) : Bool := w.getLsbD (120 + i)
  match f 124 4 with
  | 0x0 => some (.bar (f 116 4))
  | 0x1 => some (.pan (f 99 21) (f 85 14 + 1) (f 71 14) (f 50 21) (f 36 14 + 1) (f 22 14))
  | 0x2 => some (.bld (f 99 21) (f 78 21) (f 57 21 + 1) (fl 0))
  | 0x3 => some (.dad (f 106 14) (f 92 14 + 1) (fl 0) (fl 1) (fl 2))
  | 0x4 => some (.gmt (f 112 8 + 1) (f 104 8 + 1) (f 96 8 + 1) (f 82 14) (f 68 14) (f 54 14) (f 40 14) (f 26 14) (fl 0))
  | 0x5 => some (.pvs (f 114 6 + 1) (f 100 14) (f 86 14) (BitVec.ofNat 64 (f 22 64)))
  | 0x6 => some (.tsl (f 114 6 + 1) (f 100 14))
  | 0x7 => some (.tsu (f 114 6 + 1) (f 100 14))
  | 0x8 => some (.dsc (f 106 14) (f 92 14 + 1))
  | 0x9 => some (.gmv (f 112 8 + 1) (f 104 8 + 1) (f 90 14) (f 76 14) (f 55 21) (fl 0) (fl 1))
  | 0xA => some (.sca (f 99 21) (f 78 21) (f 66 12 + 1) (fl 0))
  | 0xB => some (.rfn (fl 0) (fl 1) (fl 2))
  | _ => none

/-- A schedule instruction read (R82): none for an undefined opcode or a non-zero unlisted bit. -/
def sDecode (w : BitVec 128) : Option SOp :=
  match sFields w with
  | some o => if sEncode o = some w then some o else none
  | none => none

/-- A panel context (R82): source base, leading dimension and first global column; destination the same. -/
structure Panel where
  sb : Nat
  sld : Nat
  scol : Nat
  db : Nat
  dld : Nat
  dcol : Nat
  deriving DecidableEq, Repr

/-- Limits a schedule is checked against (R84). -/
structure SLim where
  fWords : Nat
  slots : Nat
  n : Nat
  pool : List Nat
  deriving DecidableEq, Repr

/-- A block of rows and columns lies within a panel and the factor region. -/
def blockOk (fWords base ld r rows c cols : Nat) : Bool :=
  decide (r + rows ≤ ld) && decide (base + (c + cols - 1) * ld + (r + rows - 1) < fWords)

/-- Static check of one instruction of a segment (1 FACT, 2 SOLVE, 3 RFN) under a panel context (R84). An instruction that uses a vector may
stand only in a segment whose row of R81 has that vector: DAD reads V14, GMT reads V15, PVS writes V15, the solve instructions use V0.
The columns of a panel are those below n (log entry 73). -/
def sOpOk (k : SLim) (seg : Nat) (p : Option Panel) (o : SOp) : Bool :=
  let src (r rows c cols : Nat) : Bool :=
    match p with
    | some p => blockOk k.fWords p.sb p.sld r rows c cols && decide (p.scol + c + cols ≤ k.n)
    | none => false
  let dst (r rows c cols : Nat) : Bool :=
    match p with
    | some p => blockOk k.fWords p.db p.dld r rows c cols && decide (p.dcol + c + cols ≤ k.n)
    | none => false
  match o with
  | .bar kind => kind == 0 || kind == seg
  | .pan _ _ _ _ _ _ => true
  | .bld d s len zero => decide (d + len ≤ k.fWords) && (zero || decide (s + len ≤ k.slots))
  | .dad c cnt _ _ _ => seg != 2 && src c cnt c cnt
  | .gmt m nn kk ar br kc cr cc _ => seg != 3 && src ar m kc kk && src br nn kc kk && dst cr m cc nn
  | .pvs cnt c h _ => seg == 1 && src c (cnt + h) c cnt
  | .tsl cnt c => seg == 2 && src c cnt c cnt
  | .tsu cnt c => seg == 2 && src c cnt c cnt
  | .dsc row cnt => seg == 2 && decide (row + cnt ≤ k.n)
  | .gmv m kk ar kc t _ pool =>
    seg == 2 && src ar m kc kk &&
      (if pool then decide (t + m ≤ k.pool.length) && ((k.pool.drop t).take m).all (fun v => decide (v < k.n))
       else decide (t + m ≤ k.n))
  | .sca s pp len _ =>
    decide (s + len ≤ k.fWords) && decide (pp + len ≤ k.pool.length) &&
      ((k.pool.drop pp).take len).all (fun v => decide (v < k.fWords))
  | .rfn _ _ _ => seg == 3

/-- Panel context after an instruction. -/
def panelAfter (p : Option Panel) : SOp → Option Panel
  | .pan sb sld scol db dld dcol => some ⟨sb, sld, scol, db, dld, dcol⟩
  | _ => p

/-- A segment from its start to the BAR that ends it passes the checks. -/
def segmentOk (k : SLim) (seg : Nat) : Option Panel → List SOp → Bool
  | _, [] => false
  | p, o :: os => sOpOk k seg p o && (o == .bar seg || segmentOk k seg (panelAfter p o) os)

/-- The columns a segment pivots, each with its expected sign (R84). -/
def pivoted (seg : Nat) : Option Panel → List SOp → List (Nat × Bool)
  | _, [] => []
  | p, o :: os =>
    (match o, p with
     | .pvs cnt c _ mask, some q => (List.range cnt).map (fun j => (q.scol + c + j, mask.getLsbD j))
     | _, _ => []) ++ (if o == .bar seg then [] else pivoted seg (panelAfter p o) os)

/-- The expected-positive mask bits of a segment (R84): all of them, also those beyond the columns of their PVS (log entry 73). -/
def maskBits (seg : Nat) : List SOp → Nat
  | [] => 0
  | o :: os =>
    (match o with
     | .pvs _ _ _ mask => ((List.range 64).filter (fun j => mask.getLsbD j)).length
     | _ => 0) + (if o == .bar seg then 0 else maskBits seg os)

/-- SCHEDCHECK of a schedule (R84). -/
def schedCheck (k : SLim) (nPrimal : Nat) (sched : List (BitVec 128)) (fact solve rfn : Nat) : Bool :=
  let ops := sched.filterMap sDecode
  let cols := pivoted 1 none (ops.drop fact)
  sched.all (fun w => (sDecode w).isSome) && decide (fact < sched.length) && decide (solve < sched.length)
    && decide (rfn < sched.length)
    && segmentOk k 1 none (ops.drop fact) && segmentOk k 2 none (ops.drop solve) && segmentOk k 3 none (ops.drop rfn)
    && decide (cols.length = k.n) && (List.range k.n).all (fun i => cols.any (fun c => c.1 == i))
    && decide (maskBits 1 (ops.drop fact) = nPrimal)

end Sys2Proof.Machine
end

