-- ==== Sys2Proof/Machine/Package.lean ====
section
/-!
DEFINITION. Packages (R54-R66, R85-R92, R166, R167, R171): reading a package from its bytes, the verification checks in their
order, loading block by block, and the outcome of a verification.
-/

namespace Sys2Proof.Machine

/-- A used entry of the section table (R56). -/
structure Sect where
  typ : Nat
  flags : Nat
  off : Nat
  len : Nat
  crc : Nat
  deriving DecidableEq, Repr

/-- Entry `i` of the section table. -/
def sectAt (bs : List Byte) (i : Nat) : Sect :=
  let o := 0x100 + 16 * i
  ⟨leAt bs o 2, leAt bs (o + 2) 2, leAt bs (o + 4) 4, leAt bs (o + 8) 4, leAt bs (o + 12) 4⟩

/-- The used entries. -/
def sects (bs : List Byte) : List Sect := (List.range (leAt bs 0xC 2)).map (sectAt bs)

/-- Bytes of a section; empty when it is absent. -/
def sectBytes (bs : List Byte) (typ : Nat) : List Byte :=
  match (sects bs).find? (fun x => x.typ == typ) with
  | some x => slice bs x.off x.len
  | none => []

/-- The binary64 words of a byte string. -/
def words64 (bs : List Byte) : List F64 := (List.range (bs.length / 8)).map (fun i => BitVec.ofNat 64 (leAt bs (8 * i) 8))

/-- All bytes are 0. -/
def allZero (bs : List Byte) : Bool := bs.all (· == 0#8)

/-- Section types of a package kind with their largest length and whether they are required (R57, R166). -/
def sectTypes (net : Bool) (slots n : Nat) : List (Nat × Nat × Bool) :=
  if net then [(0x0101, 0x1000000, true), (0x0102, 0x4000000, true), (0x0103, 0x4000000, true), (0x000B, 0x10000, false)]
  else
    [(0x1, 0x100000, true), (0x2, 0x100000, false), (0x3, 16384 * 16, false), (0x4, 4096 * 16, false), (0x5, 32768 * 8, true),
     (0x6, 0x200000, true), (0x7, slots * 4, true), (0x8, 4096 * 16, true), (0x9, n * 4, true), (0xA, n * 8, true),
     (0xB, 0x10000, false)]

/-- The section table keeps R56 and R57: known types once each within their limits, flags 0, ascending and aligned, in bounds,
without overlap; unused entries zero; the required ones present. -/
def sectionsOk (net : Bool) (bs : List Byte) : Bool :=
  let ss := sects bs
  let types := sectTypes net (leAt bs 0x2C 4) (leAt bs 0x20 4)
  let fin := leAt bs 8 4 - 256
  let rec chain (lo : Nat) : List Sect → Bool
    | [] => true
    | x :: xs => decide (lo ≤ x.off) && decide (x.off % 64 = 0) && decide (x.off + x.len ≤ fin) && chain (x.off + x.len) xs
  chain 0x200 ss && ss.all (fun x => x.flags == 0 && types.any (fun t => t.1 == x.typ && decide (x.len ≤ t.2.1)))
    && decide ((ss.map (·.typ)).Nodup) && types.all (fun t => !t.2.2 || ss.any (fun x => x.typ == t.1))
    && allZero (slice bs (0x100 + 16 * ss.length) (16 * (16 - ss.length)))

/-- The header is well formed (R55, R166): magic, format, section count, reserved bytes, with the flag bits that R55 makes 0 (log
entry 73); and the signature block's magic and algorithm. -/
def headerOk (net : Bool) (bs : List Byte) : Bool :=
  let sig := leAt bs 8 4 - 256
  let z (o n : Nat) : Bool := allZero (slice bs o n)
  slice bs 0 4 == [0x4A#8, 0x58#8, if net then 0x4E#8 else 0x4D#8, 0x50#8] && leAt bs 4 2 == 1
    && decide (1 ≤ leAt bs 0xC 2) && decide (leAt bs 0xC 2 ≤ 16) && decide (leAt bs 0xE 2 < 2) && z 0x1E 2
    && (if net then z 0x22 0x26 && z 0x54 0xAC else z 0x37 1 && z 0x44 4 && z 0x54 0xAC)
    && slice bs sig 4 == [0x4A#8, 0x58#8, 0x53#8, 0x47#8] && leAt bs (sig + 4) 2 == 1

/-- Header fields in range and section lengths consistent with their counts (R55, R65 code 0x08). That n_primal is at most n and that
PARAM and ASM are whole words is the model's reading (log entry 73). -/
def limitsOk (net : Bool) (bs : List Byte) : Bool :=
  let l (typ : Nat) : Nat := (sectBytes bs typ).length
  if net then within 1 8 (leAt bs 0x20 2) && l 0x0101 == 64 * leAt bs 0x20 2
  else
    let n := leAt bs 0x20 4
    within 1 16384 n && decide (leAt bs 0x24 4 ≤ n) && within 1 2097152 (leAt bs 0x28 4) && within 1 262144 (leAt bs 0x2C 4)
      && within 1 16777215 (leAt bs 0x30 4) && within 1 60 (leAt bs 0x34 2) && decide (leAt bs 0x36 1 ≤ 8)
      && l 1 % 8 == 0 && l 5 % 8 == 0 && l 3 == 16 * leAt bs 0x38 4 && l 4 == 16 * leAt bs 0x3C 4 && l 8 == 16 * leAt bs 0x40 4
      && l 7 == 4 * leAt bs 0x2C 4 && l 9 == 4 * n && l 10 == 8 * n

/-- The tables of a package (R57, R59): none when its TABLE section breaks R59. -/
def readTables (pkg : List Byte) : Option (List Table) :=
  if !(sects pkg).any (fun x => x.typ == 2) then some []
  else
    let bs := sectBytes pkg 2
    let cnt := leAt bs 0 4
    let base := 4 + 16 * cnt
    let data := words64 (bs.drop base)
    let one (i : Nat) : Option Table :=
      let o := 4 + 16 * i
      let kind := leAt bs o 2
      let nx := leAt bs (o + 4) 2
      let ny := leAt bs (o + 6) 2
      let at' := leAt bs (o + 8) 4
      let xs := (data.drop at').take nx
      let ys := (data.drop (at' + nx)).take ny
      let vals := (data.drop (at' + nx + ny)).take (if kind = 2 then nx * ny else nx)
      let rec rise : List F64 → Bool
        | [] => true
        | [x] => finite x
        | x :: y :: r => finite x && F64.lt x y && rise (y :: r)
      if (kind == 1 || kind == 2) && leAt bs (o + 2) 2 == 0 && leAt bs (o + 12) 4 == 0 && within 2 1024 nx
          && (if kind = 2 then within 2 1024 ny else ny == 0)
          && decide (at' + nx + ny + (if kind = 2 then nx * ny else nx) ≤ data.length) && rise xs && rise ys
      then some ⟨ny, xs, ys, vals⟩ else none
    if within 1 4096 cnt && decide (base ≤ bs.length) then (List.range cnt).mapM one else none

/-- An MMAP entry (R60). -/
def readMEnt (bs : List Byte) (i : Nat) : MEnt :=
  ⟨leAt bs (16 * i) 2, leAt bs (16 * i + 2) 2, leAt bs (16 * i + 4) 4, BitVec.ofNat 64 (leAt bs (16 * i + 8) 8)⟩

/-- The static checks of an MMAP entry (R60). -/
def mentOk (e : MEnt) : Bool :=
  match e.cls with
  | 1 => e.sub == 0
  | 2 => decide (e.index ≤ 95)
  | 3 => decide (e.sub ≤ 3) && decide (e.index ≤ 255)
  | 4 => e.sub == 0
  | 5 => decide (e.sub ≤ 1)
  | 6 => decide (e.index ≤ 511)
  | 7 => e.sub == 0 && decide (e.index ≤ 191)
  | 8 => e.sub == 0 && decide (e.index ≤ 2)
  | _ => false

/-- Output field codes (R140): first code, how many, and whether the field is a drive field. -/
def fieldCodes : List (Nat × Nat × Bool) :=
  [(0x0100, 16, true), (0x0110, 16, true), (0x0120, 16, false), (0x0130, 16, false), (0x0140, 16, false), (0x0200, 16, true),
   (0x0210, 16, false), (0x0220, 8, true), (0x0228, 2, true), (0x0230, 4, true), (0x0238, 4, true), (0x0240, 4, false),
   (0x0248, 8, false), (0x0250, 2, true), (0x0258, 8, true), (0x0300, 8, false), (0x0400, 3, false), (0x0408, 3, false),
   (0x040C, 3, false), (0x0410, 1, false), (0x0418, 1, false)]

/-- Whether a code is one of R140. -/
def isField (c : Nat) : Bool := fieldCodes.any (fun f => decide (f.1 ≤ c) && decide (c < f.1 + f.2.1))

/-- Whether a code is a drive field. -/
def isDrive (c : Nat) : Bool := fieldCodes.any (fun f => f.2.2 && decide (f.1 ≤ c) && decide (c < f.1 + f.2.1))

/-- An OUTMAP entry (R62). -/
def readOEnt (bs : List Byte) (i : Nat) : OEnt :=
  ⟨leAt bs (16 * i) 2, leAt bs (16 * i + 2) 2, leAt bs (16 * i + 4) 4, BitVec.ofNat 64 (leAt bs (16 * i + 8) 8)⟩

/-- The content of a package, read without checks; `tabs` are its tables. -/
def readPkg (bs : List Byte) (tabs : List Table) : PkgData :=
  let n := leAt bs 0x20 4
  let sc := sectBytes bs 6
  let kp := sectBytes bs 7
  let sh := sectBytes bs 9
  { id := BitVec.ofNat 64 (leAt bs 0x10 8), rev := BitVec.ofNat 32 (leAt bs 0x18 4), dig := sha (bs.take (leAt bs 8 4 - 256)),
    n := n, nPrimal := leAt bs 0x24 4, fWords := leAt bs 0x28 4, kSlots := leAt bs 0x2C 4, budget := leAt bs 0x30 4,
    stages := leAt bs 0x34 2, scen := leAt bs 0x36 1, param := words64 (sectBytes bs 1), tables := tabs,
    mmap := (List.range (leAt bs 0x38 4)).map (readMEnt (sectBytes bs 3)),
    smap := (List.range (leAt bs 0x3C 4)).map (fun i =>
      let b := sectBytes bs 4
      ⟨BitVec.ofNat 32 (leAt b (16 * i) 4), BitVec.ofNat 64 (leAt b (16 * i + 8) 8)⟩),
    prog := words64 (sectBytes bs 5),
    sched := (List.range (leAt sc 0 4)).map (fun i => BitVec.ofNat 128 (leAt sc (64 + 16 * i) 16)),
    fact := leAt sc 4 4, solve := leAt sc 8 4, rfn := leAt sc 12 4,
    pool := (List.range (leAt sc 20 4)).map (fun i => leAt sc (leAt sc 16 4 + 4 * i) 4),
    kpat := (List.range (kp.length / 4)).map (fun i => (leAt kp (4 * i) 2, leAt kp (4 * i + 2) 2)),
    outmap := (List.range (leAt bs 0x40 4)).map (readOEnt (sectBytes bs 8)),
    shift := (List.range (sh.length / 4)).map (fun i => leAt sh (4 * i) 4), xinit := words64 (sectBytes bs 10) }

/-- ASMCHECK of a package (R79), against the table count that its TABLE section names. -/
def pkgAsmOk (bs : List Byte) (p : PkgData) : Bool :=
  asmCheck ⟨p.mmap.length, p.smap.length, p.param.length, leAt (sectBytes bs 2) 0 4, p.kSlots, p.n, p.prog.length⟩ p.prog

/-- SCHEDCHECK of a package (R60, R62, R84) beside TABLE. A count or pool beyond the SCHED section is counted here (log entry 73). -/
def pkgSchedOk (bs : List Byte) (p : PkgData) : Bool :=
  let sc := sectBytes bs 6
  decide (64 + 16 * leAt sc 0 4 ≤ sc.length) && decide (leAt sc 16 4 + 4 * leAt sc 20 4 ≤ sc.length) && allZero (slice sc 24 40)
    && schedCheck ⟨p.fWords, p.kSlots, p.n, p.pool⟩ p.nPrimal p.sched p.fact p.solve p.rfn
    && p.mmap.all mentOk
    && p.kpat.all (fun k => decide (k.2 ≤ k.1) && decide (k.1 < p.n)) && decide p.kpat.Nodup
    && (List.range p.n).all (fun i => p.kpat.contains (i, i))
    && p.outmap.all (fun o => isField o.code && within 1 p.stages o.stage && decide (o.index < p.n))
    && decide ((p.outmap.map (fun o => (o.code, o.stage))).Nodup)
    && p.shift.all (fun v => decide (v < p.n) || v == 0xFFFFFFFF)

/-- A binary32 value in a range. -/
def f32In (lo hi : F64) (v : Nat) : Bool :=
  let x := F64.of32 (BitVec.ofNat 32 v)
  F64.le lo x && F64.le x hi

/-- An extractor descriptor keeps R167; the bound 0.02 m is the binary32 nearest to it, as the field is. -/
def extOk (bs : List Byte) (prog : Nat) (i : Nat) : Bool :=
  let o := 64 * i
  let kind := leAt bs (o + 2) 1
  let cell (v : Nat) : Bool := f32In (F64.of32 0x3CA3D70A#32) (F64.ofInt 2) v
  within 0 7 (leAt bs o 2) && (kind == 1 || kind == 2) && leAt bs (o + 3) 1 == kind && within 32 1024 (leAt bs (o + 4) 2)
    && within 32 1024 (leAt bs (o + 6) 2) && leAt bs (o + 8) 2 == (if kind = 1 then 8 else 3) && within 32 512 (leAt bs (o + 10) 2)
    && within 32 512 (leAt bs (o + 12) 2) && leAt bs (o + 14) 2 == 0
    && (if kind = 1 then cell (leAt bs (o + 16) 4) else leAt bs (o + 16) 4 == 0) && cell (leAt bs (o + 20) 4)
    && within 1 30000 (leAt bs (o + 32) 4) && decide (leAt bs (o + 36) 4 < prog) && allZero (slice bs (o + 40) 24)

/-- The content of a network package, read without checks. -/
def readNet (bs : List Byte) : NetData :=
  let e := sectBytes bs 0x0101
  { id := BitVec.ofNat 64 (leAt bs 0x10 8), rev := BitVec.ofNat 32 (leAt bs 0x18 4), dig := sha (bs.take (leAt bs 8 4 - 256)),
    ext := (List.range (leAt bs 0x20 2)).map (fun i =>
      let n (o k : Nat) : Nat := leAt e (64 * i + o) k
      let f (o : Nat) : F32 := BitVec.ofNat 32 (n o 4)
      { index := n 0 2, kind := n 2 1, cost := n 32 4, inH := n 4 2, inW := n 6 2, outH := n 10 2, outW := n 12 2, inCell := f 16,
        outCell := f 20, outX0 := f 24, outY0 := f 28 }) }

/-- TENSOR (R166): every extractor descriptor keeps R167, with unique indices. -/
def tensorOk (bs : List Byte) : Bool :=
  let e := sectBytes bs 0x0101
  let n := leAt bs 0x20 2
  (List.range n).all (extOk e (sectBytes bs 0x0102).length) && decide (((List.range n).map (fun i => leAt e (64 * i) 2)).Nodup)

/-- Largest length of a package kind. -/
def pkgMax (net : Bool) : Nat := if net then 67108864 else 16777216

/-- The checks before the content, in order (R65): 0 when all pass. -/
def verifyHead (s : State) (l : Lane) (net : Bool) (bs : List Byte) : Nat :=
  let len := leAt bs 8 4
  if bs.length ≠ len || pkgMax net < len || len < 832 || len % 64 ≠ 0 then 0x01
  else if !headerOk net bs then 0x02
  else if (sigKey s bs (len - 256)).isNone then 0x03
  else if !((sigKey s bs (len - 256)).any (fun k => sigVerifies k bs (len - 256))) then 0x04
  else if getF s Reg.JX_REV_fwmaj l * 256 + getF s Reg.JX_REV_fwmin l < leAt bs 0x1C 1 * 256 + leAt bs 0x1D 1 then 0x05
  else if !sectionsOk net bs then 0x06
  else if !(sects bs).all (fun x => (crc32c (slice bs x.off x.len)).toNat == x.crc) then 0x07
  else if !limitsOk net bs then 0x08
  else 0

/-- Verification of a model package (R65): err, and the content when it passes. -/
def verifyModel (s : State) (l : Lane) (bs : List Byte) : Nat × Option PkgData :=
  match verifyHead s l false bs with
  | 0 =>
    match readTables bs with
    | none => (if pkgAsmOk bs (readPkg bs []) then 0x0A else 0x09, none)
    | some tabs =>
      let p := readPkg bs tabs
      if !pkgAsmOk bs p then (0x09, none) else if !pkgSchedOk bs p then (0x0A, none) else (0, some p)
  | e => (e, none)

/-- Verification of a network package (R65, R166). -/
def verifyNet (s : State) (l : Lane) (bs : List Byte) : Nat × Option NetData :=
  match verifyHead s l true bs with
  | 0 => if tensorOk bs then (0, some (readNet bs)) else (0x0B, none)
  | e => (e, none)

/-- The stored bytes of a bank: its blocks in order. -/
def bankBytes (b : Bank) : List Byte := joinBlocks b.blocks

/-- Package identification registers of a model bank: 0 unless it is VERIFIED, ARMED or ACTIVE (R93). -/
def showBank (l : Lane) (net : Bool) (k : Nat) (s : State) : State :=
  if net then s
  else
    let key (o : Nat) := o + laneSpan * (1 + l.idx)
    let st := getF s (bankFld false k) l
    match (bankOf (s.lane l) false k).model with
    | some p =>
      let on := st == 2 || st == 3 || st == 4
      let v (x : Nat) : Word := if on then BitVec.ofNat 32 x else 0#32
      wrK (key (Reg.SLV_PKGn_DIG k)) (v (leNat (p.dig.take 4)))
        (wrK (key (Reg.SLV_PKGn_REV k)) (v p.rev.toNat)
          (wrK (key (Reg.SLV_PKGn_IDH k)) (v (p.id.toNat / 2 ^ 32)) (wrK (key (Reg.SLV_PKGn_IDL k)) (v p.id.toNat) s)))
    | none =>
      wrK (key (Reg.SLV_PKGn_DIG k)) 0#32 (wrK (key (Reg.SLV_PKGn_REV k)) 0#32
        (wrK (key (Reg.SLV_PKGn_IDH k)) 0#32 (wrK (key (Reg.SLV_PKGn_IDL k)) 0#32 s)))

/-- Set a bank's state and its identification registers. -/
def setBankSt (l : Lane) (net : Bool) (k st : Nat) (s : State) : State := showBank l net k (setF (bankFld net k) st l s)

/-! Loading (R86, R376). -/

/-- The lane of a descriptor's endpoint. -/
def ownLane (o : Order) : Lane :=
  match o.path with
  | .pcie ep _ => ep
  | _ => .a

/-- The fields of a LOAD body: target, block number, length, CRC; the buffer's failure codes (R365, R376). -/
def loadErr (o : Order) (b : HostBuf) : Option Nat :=
  let len := bodyN o 16 4
  if len = 0 || 65536 < len then some Code.RANGE
  else if !b.dmaOk || b.bytes.length ≠ len then some Code.BUFFER
  else if (crc32c b.bytes).toNat ≠ bodyN o 20 4 then some Code.BADCRC
  else none

/-- Blocks a load needs, from the length in block 0. -/
def blocksNeeded (b0 : List Byte) (lenOff : Nat) : Nat := (leAt b0 lenOff 4 + 65535) / 65536

/-- Whether every block of a load is stored (R376). -/
def loadComplete (bl : List (Nat × List Byte)) (lenOff : Nat) : Bool :=
  match alGet bl 0 with
  | some b0 => (List.range (blocksNeeded b0 lenOff)).all (fun k => (alGet bl k).isSome)
  | none => false

/-- Whether a block has the length R376 gives it: 65,536 bytes, unless it is the final one or lies beyond it by the length in block 0. -/
def blockFull (bl : List (Nat × List Byte)) (lenOff blk : Nat) : Bool :=
  match alGet bl 0, alGet bl blk with
  | some b0, some b => b.length == 65536 || decide (blocksNeeded b0 lenOff ≤ blk + 1)
  | _, _ => true

/-- Clear verif once no bank of the kind waits for re-verification. -/
def verifDone (l : Lane) (net : Bool) (s : State) : State :=
  if (bankOf (s.lane l) net 0).reverify || (bankOf (s.lane l) net 1).reverify then s
  else setF (if net then Reg.FUS_NPKG_BANK_verif else Reg.SLV_PKG_BANK_verif) 0 l s

/-- LOAD MODEL's and NETWORK's operation: block 0 starts a load, discarding what the bank held. -/
def doLoadPkg (net : Bool) (o : Order) (b : HostBuf) (_ : OrdInfo) (s : State) : State × Reply :=
  let l := ownLane o
  let k := bodyN o 0 4
  let blk := bodyN o 4 4
  if 1 < k then (s, .code Code.RANGE)
  else
    match loadErr o b with
    | some c => (s, .code c)
    | none =>
      let st := getF s (bankFld net k) l
      if blk = 0 && (st == 3 || st == 4) then (bankErr l net k 0x10 s, .codeD Code.BUSY 0x10)
      else if blk ≠ 0 && (st ≠ 1 || (bankOf (s.lane l) net k).reverify) then (s, .code Code.STATE)
      else
        let old := if blk = 0 then [] else (bankOf (s.lane l) net k).blocks
        let bl := alSet old blk b.bytes
        if !blockFull bl 8 blk then (s, .code Code.RANGE) else
        (onFlash l (flashWrite (Config.flashPlace net k blk)) <| verifDone l net (setBankSt l net k 1 (onBank l net k (fun _ => { blocks := bl, complete := loadComplete bl 8 }) s)), .code Code.ACCEPTED)

/-- LOAD_MODEL (R86). -/
def execLoadModel (t : Time) (o : Order) (b : HostBuf) (s : State) : Host.Outcome State Fault Refusal :=
  run t s (serve o 4 1 [(0, 192)] [] false (doLoadPkg false o b))

/-- LOAD_NETWORK (R171). -/
def execLoadNetwork (t : Time) (o : Order) (b : HostBuf) (s : State) : Host.Outcome State Fault Refusal :=
  run t s (serve o 4 2 [(0, 192)] [] false (doLoadPkg true o b))

/-! The outcome of a verification (R65, R66, R91, R92). -/

/-- A verification reads every block of its bank once (R66, R453). -/
def readBank (l : Lane) (net : Bool) (k : Nat) (s : State) : State :=
  onFlash l (fun f => (bankOf (s.lane l) net k).blocks.foldl (fun f b => flashRead (Config.flashPlace net k b.1) f) f) s

/-- The active-bank pointer a lane's bank register shows. -/
def bankPtr (s : State) (l : Lane) (net : Bool) : Nat := getF s (if net then Reg.FUS_NPKG_BANK_act else Reg.SLV_PKG_BANK_act) l

/-- Whether the active-bank pointer, where it has a good copy (R16), names a bank. -/
def ptrNames (s : State) (l : Lane) (net : Bool) (k : Nat) : Bool := bankPtr s l net == k && !s.upd.ptrBad.contains net

/-- The first four digest bytes of the Active lane's active package. -/
def activeDig4 (s : State) (net : Bool) : Nat :=
  match active s with
  | some l =>
    match activeBank s l net with
    | some k => leNat ((bankDig (bankOf (s.lane l) net k)).take 4)
    | none => 0
  | none => 0

/-- State of a bank that has passed after a reset (R91, R92): the bank of the pointer is ACTIVE; in a lane that returns beside an
Active lane, only when that lane's active bank has the same number and digest, and otherwise PKGMISS is recorded. -/
def afterReset (l : Lane) (net : Bool) (k : Nat) (ok : Bool) (s : State) : State :=
  let st := if ok then 2 else 5
  let isPtr := ptrNames s l net k
  match active s with
  | some m =>
    if m = l || (activeBank s m net).isNone then setBankSt l net k (if ok && isPtr then 4 else st) s
    else if activeBank s m net = some k then
      if ok && bankDig (bankOf (s.lane m) net k) == bankDig (bankOf (s.lane l) net k) then setBankSt l net k 4 s
      else raise (laneSrc l 6) Ev.PKGMISS (k + 2 ^ 32 * activeDig4 s net) (setBankSt l net k st s)
    else setBankSt l net k st s
  | none => setBankSt l net k (if ok && isPtr then 4 else st) s

/-- Whether a lane that is not admitted activates a bank it has just been given: it has none ACTIVE, and the Active lane's active bank
has the same number and digest (R91). -/
def joins (s : State) (l : Lane) (net : Bool) (k : Nat) : Bool :=
  match active s with
  | some m =>
    m != l && !admitted s l && (activeBank s l net).isNone && activeBank s m net == some k
      && bankDig (bankOf (s.lane m) net k) == bankDig (bankOf (s.lane l) net k)
  | none => false

/-- Whether a bank is the one a returning lane needs: the number of the bank active in the Active lane (R91). -/
def wantsBank (s : State) (l : Lane) (net : Bool) (k : Nat) : Bool :=
  match active s with
  | some m => m != l && activeBank s m net == some k
  | none => false

/-- The code of the event of a failed re-verification (R91): one of those R530 lists for the block, which of them is open (log entry 13). -/
def failCode (net : Bool) (err : Nat) : Nat :=
  let cs := Ev.ofBlock (if net then 7 else 6)
  cs.getD ((Config.openVal 40 err).toNat % cs.length) 0

/-- What a verification's outcome does to a bank of a lane. `err` is 0 when it passed. -/
def bankOutcome (l : Lane) (net : Bool) (k err : Nat) (m : Option PkgData) (n : Option NetData) (s : State) : State :=
  let b := bankOf (s.lane l) net k
  let st := getF s (bankFld net k) l
  let ok := err == 0
  let keep (f : Bank → Bank) : State → State :=
    onBank l net k (fun b => f (if ok then { b with model := m, net := n, reverify := false } else { b with reverify := false }))
  let s1 := if ok then s else bankErr l net k err s
  if !b.reverify then
    if st = 1 && b.complete then
      let s2 := keep id s1
      setBankSt l net k (if !ok then 5 else if joins s2 l net k then 4 else 2) s2
    else s
  else
    let s2 := verifDone l net (keep id s1)
    let s3 := if ok then s2 else raise (laneSrc l 6) (failCode net err) ((Config.openVal 41 err).toNat) s2
    if verifying s l net then
      if b.blocks.isEmpty then
        when (wantsBank s l net k) (raise (laneSrc l 6) Ev.PKGMISS (k + 2 ^ 32 * activeDig4 s net))
          (verifDone l net (onBank l net k (fun _ => {}) s))
      else afterReset l net k ok s2
    else if ok then
      if st = 5 && b.complete then
        setBankSt l net k 2 (onBank l net k
          (fun b => { b with actNext := ptrNames s l net k && (activeBank s l net).isNone }) s2)
      else s2
    else if st = 4 then s3
    else if st = 3 then
      let arms := s3.auth.orders.filter (fun p => match p.val with
        | .arm nn kk _ => nn == net && kk == k
        | _ => false)
      let s4 := setBankSt l net k 5 s3
      if !arms.isEmpty then authChange id (forEach (fun p s => dropOrder p Code.CANCELLED s) arms s4) else s4
    else if st = 2 || st = 5 then setBankSt l net k 5 s3
    else s3

/-- PACKAGE_VERIFIED (R65, R66): the verification of a bank ends, after a load, after a reset (R92) or after a change of keys
(R91). -/
def execPackageVerified (t : Time) (l : Lane) (kind : PkgKind) (bank : Nat) (s : State) :
    Host.Outcome State Fault Refusal :=
  runLane t l s (fun s =>
    if 1 < bank then s
    else
      let net := kind == .network
      let b := bankOf (s.lane l) net bank
      if !b.reverify && !(b.complete && decide (getF s (bankFld net bank) l = 1)) then s
      else if b.reverify && !b.complete then bankOutcome l net bank 0x01 none none s
      else if net then
        let r := verifyNet s l (bankBytes b)
        bankOutcome l net bank r.1 none r.2 (readBank l net bank s)
      else
        let r := verifyModel s l (bankBytes b)
        bankOutcome l net bank r.1 r.2 none (readBank l net bank s))

end Sys2Proof.Machine
end

