-- ==== Sys2Proof/Machine/Operands.lean ====
section
/-!
DEFINITION. Operand forms of the assembler (R70, R72): registers, effective indices, vectors, and the interpolation of tables.
-/

namespace Sys2Proof.Machine

/-- Unlisted words of SRAM and registers are +0.0. -/
def f64Def (_ : Nat) : F64 := 0#64

/-- Unlisted index registers are 0. -/
def wordDef (_ : Nat) : Word := 0#32

/-- Unlisted vector words: +0.0, but V6 reads −∞ and V7 +∞ once an assembly has cleared them (R71). -/
def vecDef (bndClr : Bool) (k : Nat) : F64 :=
  if bndClr && k / 16384 == 6 then F64.inf true else if bndClr && k / 16384 == 7 then F64.inf false else 0#64

/-- Change a lane's solver. -/
def onSlv (l : Lane) (f : SlvSt → SlvSt) : State → State := onLane l (fun a => { a with slv := f a.slv })

/-- The content of the active model package of a lane. -/
def actPkg (s : State) (l : Lane) : Option PkgData :=
  match activeBank s l false with
  | some k => (bankOf (s.lane l) false k).model
  | none => none

/-- Floating register. -/
def fReg (v : SlvSt) (n : BitVec 5) : F64 := Sparse.get f64Def v.fr n.toNat

/-- Index register; A0 reads 0 (R70). -/
def aReg (v : SlvSt) (n : Nat) : Word := if n = 0 then 0#32 else Sparse.get wordDef v.ar n

/-- Write of a floating register. -/
def setFr (n : BitVec 5) (x : F64) (v : SlvSt) : SlvSt := { v with fr := Sparse.set f64Def v.fr n.toNat x }

/-- Write of an index register; writes to A0 are ignored (R70). -/
def setAr (n : Nat) (x : Word) (v : SlvSt) : SlvSt := if n = 0 then v else { v with ar := Sparse.set wordDef v.ar n x }

/-- The effective index imm + A[x], modulo 2^32 (R72). -/
def effIdx (v : SlvSt) (i : AsmI) : Nat := (i.imm + aReg v i.x.toNat).toNat

/-- Word `i` of vector `k` (R67). -/
def vec (v : SlvSt) (k i : Nat) : F64 := Sparse.get (vecDef v.bndClr) v.vecs (16384 * k + i)

/-- Write word `i` of vector `k`. -/
def setVec (k i : Nat) (x : F64) (v : SlvSt) : SlvSt :=
  { v with vecs := Sparse.set (vecDef v.bndClr) v.vecs (16384 * k + i) x }

/-- Image slot. -/
def img (v : SlvSt) (i : Nat) : F64 := Sparse.get f64Def v.image i

/-- Factor word. -/
def fac (v : SlvSt) (i : Nat) : F64 := Sparse.get f64Def v.factor i

/-- Write of a factor word. -/
def setFac (i : Nat) (x : F64) (v : SlvSt) : SlvSt := { v with factor := Sparse.set f64Def v.factor i x }

/-! Interpolation (R73 ITP). -/

/-- Cell of an argument within breakpoints: the last index `k` below the last with xs[k] ≤ x. -/
def cellOf (xs : List F64) (x : F64) : Nat :=
  let rec go (k : Nat) : List F64 → Nat
    | _ :: y :: r => if F64.le y x && !r.isEmpty then go (k + 1) (y :: r) else k
    | _ => k
  go 0 xs

/-- Linear interpolation between two breakpoints, as in the worked example of ch. 2; at a breakpoint the value itself. -/
def lerp (x0 x1 y0 y1 x : F64) : F64 :=
  if F64.eq x x0 then y0 else if F64.eq x x1 then y1
  else F64.add y0 (F64.mul (F64.div (F64.sub x x0) (F64.sub x1 x0)) (F64.sub y1 y0))

/-- Argument limited to the breakpoints, and whether it was. -/
def clampArg (xs : List F64) (x : F64) : F64 × Bool :=
  let lo := xs.headD 0#64
  let hi := xs.getLastD 0#64
  if F64.lt x lo then (lo, true) else if F64.lt hi x then (hi, true) else (x, false)

/-- One-dimensional interpolation. -/
def interp1 (xs ys : List F64) (x : F64) : F64 :=
  let k := cellOf xs x
  lerp (xs.getD k 0#64) (xs.getD (k + 1) 0#64) (ys.getD k 0#64) (ys.getD (k + 1) 0#64) x

/-- Two-dimensional interpolation: linear along y in the two rows of the x cell, then along x; where the other order rounds to
another value the result is free (log entry 22). -/
def interp2 (t : Table) (x y : F64) : F64 :=
  let i := cellOf t.xs x
  let j := cellOf t.ys y
  let at' (i j : Nat) : F64 := t.vals.getD (i * t.ny + j) 0#64
  let x0 := t.xs.getD i 0#64
  let x1 := t.xs.getD (i + 1) 0#64
  let y0 := t.ys.getD j 0#64
  let y1 := t.ys.getD (j + 1) 0#64
  let r1 := lerp x0 x1 (lerp y0 y1 (at' i j) (at' i (j + 1)) y) (lerp y0 y1 (at' (i + 1) j) (at' (i + 1) (j + 1)) y) x
  let r2 := lerp y0 y1 (lerp x0 x1 (at' i j) (at' (i + 1) j) x) (lerp x0 x1 (at' i (j + 1)) (at' (i + 1) (j + 1)) x) y
  if r1 = r2 then r1 else Config.openVal r1.toNat r2.toNat

/-- Table lookup: value and whether the argument was inside the breakpoints; a NaN argument gives a free value. -/
def tableAt (t : Table) (a b : F64) : F64 × Bool :=
  if F64.isNan a || (t.ny != 0 && F64.isNan b) then (Config.openVal a.toNat b.toNat, false)
  else
    let (x, cx) := clampArg t.xs a
    if t.ny = 0 then (interp1 t.xs t.vals x, !cx)
    else
      let (y, cy) := clampArg t.ys b
      (interp2 t x y, !cx && !cy)

end Sys2Proof.Machine
end

