-- ==== Sys2Proof/Machine/Trig.lean ====
section
/-!
DEFINITION. Sine, cosine and arc tangent of binary64 values within 1 ulp (R74, R7): the exact value is computed in integer
arithmetic far beyond binary64, and any binary64 value within 1 ulp of it may be the result (log entry 8).
-/

namespace Sys2Proof.Machine

/-- π/2 in units of 2^−1300. -/
def halfPi : Nat :=
  0xf51fa499ebf06caba47b9475b2c38c5e6ac410aa5773daa520ee12d2cdace186 +
  0x822f8963fcc9250cca3d9c8b67b8400f97142c77e0b31b4906c38aba734d22c7 * 2 ^ 256 +
  0xaecc4bcfd8de89885d34c6fdad617feb96de80d6fdbdc70d7f6b5133f4b5d3e4 * 2 ^ 512 +
  0x0f31c6809bbdf2a33679a748636605614dbe4be286e9fc26adadaa3848bc90b6 * 2 ^ 768 +
  0x54442d18469898cc51701b839a252049c1114cf98e804177d4c76273644a2941 * 2 ^ 1024 +
  0x1921fb * 2 ^ 1280

/-- Sum of a series in units of 2^−300: each term is the one before times −q over the product of the next two of 1, 2, 3, …. -/
def trigSeries (q : Int) : Nat → Nat → Int → Int → Int
  | 0, _, _, acc => acc
  | f + 1, n, t, acc =>
    let t1 := -(t * q / 2 ^ 300) / (((n + 1) * (n + 2) : Nat) : Int)
    trigSeries q f (n + 2) t1 (acc + t1)

/-- Sine and cosine of an angle of at most π/4, in units of 2^−300. -/
def sinFix (r : Int) : Int := trigSeries (r * r / 2 ^ 300) 40 1 r r
def cosFix (r : Int) : Int := trigSeries (r * r / 2 ^ 300) 40 0 (2 ^ 300) (2 ^ 300)

/-- An angle as a number of right angles and a rest of at most π/4, the rest in units of 2^−300. -/
def quadrant (x : Dy) : Int × Int :=
  let u := x.m * 2 ^ (x.e + 1300).toNat
  let k := (2 * u + halfPi) / (2 * halfPi)
  (k % 4, (u - k * halfPi) / 2 ^ 1000)

/-- Sine of the angle of `k` more right angles: near 0 from the angle itself. -/
def sinDy (k : Int) (x : Dy) : Dy :=
  let small := decide (x.e + bitLen x.m.natAbs < -26)
  if small && k == 0 then x.add ((x.mul (x.mul x)).mul ⟨-(2 ^ 300 / 6), -300⟩)
  else
    let q := quadrant x
    match (q.1 + k) % 4 with
    | 0 => ⟨sinFix q.2, -300⟩
    | 1 => ⟨cosFix q.2, -300⟩
    | 2 => ⟨-sinFix q.2, -300⟩
    | _ => ⟨-cosFix q.2, -300⟩

/-- Arc tangent of q ≤ 1 in units of 2^−300: the angle halved `n` times, then its series. -/
def atanFix : Nat → Int → Int
  | 0, q =>
    let qq := q * q / 2 ^ 300
    let rec go : Nat → Nat → Int → Int → Int
      | 0, _, _, acc => acc
      | f + 1, n, t, acc => let t1 := -(t * qq / 2 ^ 300); go f (n + 2) t1 (acc + t1 / ((n + 2 : Nat) : Int))
    go 40 1 q q
  | n + 1, q =>
    let h : Int := F64.isqrt (2 ^ 600 + (q * q).toNat) 302 0
    2 * atanFix n (q * 2 ^ 300 / (2 ^ 300 + h))

/-- Arc tangent of the quotient of two numbers above 0, the first at most the second. -/
def atanDy (a b : Dy) : Dy :=
  let k := 300 + bitLen b.m.natAbs
  let q : Dy := ⟨a.m * 2 ^ k / b.m, a.e - b.e - k⟩
  if q.e + bitLen q.m.natAbs < -40 then q.add ((q.mul (q.mul q)).mul ⟨-(2 ^ 300 / 3), -300⟩)
  else ⟨atanFix 5 (q.at' (min q.e (-300)) / 2 ^ (-300 - min q.e (-300)).toNat), -300⟩

/-- The angle of a point with coordinates of which neither is 0. -/
def atan2Dy (y x : Dy) : Dy :=
  let a : Dy := ⟨y.m.natAbs, y.e⟩
  let b : Dy := ⟨x.m.natAbs, x.e⟩
  let h : Dy := ⟨halfPi, -1300⟩
  let t := if a.lt b then atanDy a b else h.add (atanDy b a).neg
  let u := if x.m < 0 then (h.add h).add t.neg else t
  if y.m < 0 then u.neg else u

/-- The binary64 values within 1 ulp of a value. -/
def near (t : Dy) : List F64 :=
  let m := t.m.natAbs
  let e := max (t.e + bitLen m - 53) (-1074)
  let q := if e ≤ t.e then m * 2 ^ (t.e - e).toNat else m / 2 ^ (e - t.e).toNat
  let s := decide (t.m < 0)
  let p := packBin 53 11 s q e
  let ulp : Dy := ⟨1, e⟩
  ((List.range 4).map (fun i => BitVec.ofNat 64 (p + i - 1))).filter (fun c =>
    F64.isFin c && (let d := (F64.val c).add t.neg; !ulp.lt d && !ulp.lt d.neg))

/-- A result within 1 ulp of an exact value: which of them is left open. -/
def within1 (op : Nat) (x y : F64) (t : Dy) : F64 :=
  let c := near t
  c.getD ((Config.ulpPick op x y).toNat % max 1 c.length) (F64.ofDy false t)

namespace F64

/-- Sine (R74). -/
def sin (x : F64) : F64 :=
  if !isFin x then nan x x else if isZero x then x else within1 9 x x (sinDy 0 (val x))

/-- Cosine (R74). -/
def cos (x : F64) : F64 :=
  if !isFin x then nan x x else within1 10 x x (sinDy 1 (val x))

/-- Arc tangent of the point (x, y) (R74): with a zero or an infinity, the angle of the axis or diagonal (PRESUMED, log entry 8). -/
def atan2 (y x : F64) : F64 :=
  let h : Dy := ⟨halfPi, -1300⟩
  let sg (t : Dy) : Dy := if sign y then t.neg else t
  if isNan x || isNan y then nan x y
  else if isInf x && isInf y then within1 11 y x (sg ((if sign x then ⟨3, 0⟩ else ⟨1, 0⟩ : Dy).mul (h.mul ⟨1, -1⟩)))
  else if isZero y || isInf x then
    (if sign x then within1 11 y x (sg (h.add h)) else if sign y then 0x8000000000000000#64 else 0#64)
  else if isZero x || isInf y then within1 11 y x (sg h)
  else within1 11 y x (atan2Dy (val y) (val x))

end F64

end Sys2Proof.Machine
end

