-- ==== Sys2Proof/Machine/Flags.lean ====
section
/-!
DEFINITION. The condition flag of the assembler (R73 CMP, BRQ), the checks of stored values (R77), and the sub-operations of FOP
(R74).
-/

namespace Sys2Proof.Machine

/-- The condition of CMP by its mode: comparisons with NaN are false, except NE (R73). -/
def cmpFlag (m : Nat) (x y : F64) : Bool :=
  match m with
  | 0 => F64.lt x y
  | 1 => F64.le x y
  | 2 => F64.eq x y
  | 3 => !F64.eq x y
  | _ => F64.isFin x

/-- Whether BRQ jumps (R73). -/
def brqTaken (m : Nat) (q : Bool) : Bool := bit m 1 || q == bit m 0

/-- MIN and MAX of R74: NaN if either operand is NaN; of two zeros MIN is −0.0 and MAX is +0.0 when the signs differ. -/
def fopMinMax (mx : Bool) (x y : F64) : F64 :=
  if F64.isNan x || F64.isNan y then F64.nan x y
  else if F64.isZero x && F64.isZero y then
    (if mx then (if F64.sign x then y else x) else (if F64.sign x then x else y))
  else if F64.lt x y == mx then y else x

/-- Largest integer at or below a value; zeros, infinities and NaN stay. -/
def fopFloor (x : F64) : F64 :=
  if F64.isNan x then F64.nan x x else if F64.isInf x || F64.isZero x then x else F64.ofDy false ⟨(F64.val x).floor, 0⟩

/-- FOP's value (R74): sub-operation `c` on Fa and Fb, A[a] and imm. -/
def fopVal (c : Nat) (x y : F64) (ai imm : Word) : F64 :=
  match c with
  | 0 => F64.add x y
  | 1 => F64.sub x y
  | 2 => F64.mul x y
  | 3 => F64.div x y
  | 4 => fopMinMax false x y
  | 5 => fopMinMax true x y
  | 6 => F64.abs x
  | 7 => F64.neg x
  | 8 => F64.sqrt x
  | 9 => F64.sin x
  | 10 => F64.cos x
  | 11 => F64.atan2 x y
  | 12 => x
  | 13 => fopFloor x
  | 14 => F64.ofInt ai.toNat
  | _ => F64.of32 imm

/-- A value may be stored into the image, V4 or V5 (R77). -/
def storeFin (x : F64) : Bool := F64.isFin x

/-- A value may be stored into V6 or V7 (R77). -/
def storeBound (x : F64) : Bool := !F64.isNan x

/-- A value may be stored into V8 (R77): a slack weight that is neither negative nor infinite. -/
def storeSlack (x : F64) : Bool := F64.isFin x && !F64.lt x 0#64

/-- A value may be stored into a VST target (R75, R77). -/
def storeOk (c : Nat) (x : F64) : Bool :=
  match c with
  | 0 => storeFin x
  | 1 => storeFin x
  | 2 => storeBound x
  | 3 => storeBound x
  | _ => storeSlack x

end Sys2Proof.Machine
end

