-- ==== Sys2Proof/Machine/Asm.lean ====
section
/-!
DEFINITION. The assembler (R70-R79): one meaning per instruction. An instruction executes only in the Active lane, while an
assembly runs, and only when it is the instruction at the program counter.
-/

namespace Sys2Proof.Machine

/-- Microseconds from the epoch in progress to an instant, in a 20-bit register (R33, R123). DESIGN CHOICE (log entry 67): the spec names
no rounding and no value above the field; here the floor, and the field's largest value. -/
def usAfterE (s : State) (t : Time) : Nat := min (since t s.cyc.e / 1000) 0xFFFFF

/-- SLV_ASM_TIME and SLV_ASM_STAT at the end of an assembly (R78). -/
def asmShow (l : Lane) (fault : Nat) (s : State) : State :=
  let v := (s.lane l).slv
  setF Reg.SLV_ASM_STAT_steps v.steps l
    (setF Reg.SLV_ASM_STAT_fault fault l
      (setF Reg.SLV_ASM_TIME_last (min (since s.now v.asmT0 / 1000) 0xFFFF) l s))

/-- An assembly fault (R78): `data` is the upper word of its event. A stopping fault abandons the cycle's problem: the cycle's
condition is SHIFTED with cause asmf. -/
def asmFault (l : Lane) (code data : Nat) (s : State) : State :=
  raise (laneSrc l 6) Ev.SLV_ASMFLT (code + 2 ^ 32 * data)
    (asmShow l code
      (onSlv l (fun v => { v with asmRun := false, asmFault := code, cond := some .shifted, fAsmf := true,
                                  t1 := some s.now }) s))

/-- What the assembler reads of its surroundings: the package and the state. -/
structure AsmCtx where
  l : Lane
  p : PkgData
  v : SlvSt

/-- Outcome of an instruction's own effect: the next solver state, a fault code with the effective index. -/
inductive AsmOut where
  | ok (v : SlvSt)
  | index (i : Nat)
  | value

/-- Execute one instruction (R72, R73): only in the Active lane, while its assembly runs within budget, and when the program holds
this instruction at the program counter. A step is counted whatever it does (R79). -/
def asmStep (t : Time) (op : AsmOp) (i : AsmI) (f : AsmCtx → AsmOut) (s : State) : Host.Outcome State Fault Refusal :=
  run t s (fun s =>
    match active s with
    | none => s
    | some l =>
      match actPkg s l with
      | none => s
      | some p =>
        let v := (s.lane l).slv
        if !v.asmRun || p.budget ≤ v.steps || p.prog[v.pc]? ≠ some (asmEncode op i) then s
        else
          let v1 := { v with steps := v.steps + 1, pc := v.pc + 1 }
          let s1 := onSlv l (fun _ => v1) s
          match f ⟨l, p, v1⟩ with
          | .ok v2 => onSlv l (fun _ => v2) s1
          | .index k => asmFault l 2 k s1
          | .value => asmFault l 3 v.pc s1)

/-- A load of a vector's element with its validity. -/
def loadElem (c : AsmCtx) (i : AsmI) (m : List (F64 × Bool)) : AsmOut :=
  match m[effIdx c.v i]? with
  | some (x, ok) => .ok { setFr i.d x c.v with q := ok }
  | none => .index (effIdx c.v i)

/-- LDM (R73): measurement element and its validity. -/
def execLdm (t : Time) (i : AsmI) (s : State) : Host.Outcome State Fault Refusal :=
  asmStep t .ldm i (fun c => loadElem c i c.v.mvec) s

/-- LDS (R73): setpoint element and its validity. -/
def execLds (t : Time) (i : AsmI) (s : State) : Host.Outcome State Fault Refusal :=
  asmStep t .lds i (fun c => loadElem c i c.v.svec) s

/-- LDP (R73): parameter. -/
def execLdp (t : Time) (i : AsmI) (s : State) : Host.Outcome State Fault Refusal :=
  asmStep t .ldp i (fun c =>
    match c.p.param[effIdx c.v i]? with
    | some x => .ok (setFr i.d x c.v)
    | none => .index (effIdx c.v i)) s

/-- ITP (R73): interpolation in a table. -/
def execItp (t : Time) (i : AsmI) (s : State) : Host.Outcome State Fault Refusal :=
  asmStep t .itp i (fun c =>
    match c.p.tables[effIdx c.v i]? with
    | some tab =>
      let r := tableAt tab (fReg c.v i.a) (fReg c.v i.b)
      .ok { setFr i.d r.1 c.v with q := r.2 }
    | none => .index (effIdx c.v i)) s

/-- MAD (R73): (±Fa × Fb) ± Fc with one rounding. -/
def execMad (t : Time) (i : AsmI) (s : State) : Host.Outcome State Fault Refusal :=
  asmStep t .mad i (fun c =>
    let x := fReg c.v i.a
    let z := fReg c.v i.c
    .ok (setFr i.d (F64.fma (if i.m.getLsbD 0 then F64.neg x else x) (fReg c.v i.b) (if i.m.getLsbD 1 then F64.neg z else z))
      c.v)) s

/-- FOP (R73, R74). -/
def execFop (t : Time) (i : AsmI) (s : State) : Host.Outcome State Fault Refusal :=
  asmStep t .fop i (fun c =>
    .ok (setFr i.d (fopVal i.c.toNat (fReg c.v i.a) (fReg c.v i.b) (aReg c.v i.a.toNat) i.imm) c.v)) s

/-- CMP (R73): the condition flag. -/
def execCmp (t : Time) (i : AsmI) (s : State) : Host.Outcome State Fault Refusal :=
  asmStep t .cmp i (fun c => .ok { c.v with q := cmpFlag i.m.toNat (fReg c.v i.a) (fReg c.v i.b) }) s

/-- LDA (R73): an index register. -/
def execLda (t : Time) (i : AsmI) (s : State) : Host.Outcome State Fault Refusal :=
  asmStep t .lda i (fun c =>
    .ok (setAr i.d.toNat (if i.m.getLsbD 0 then aReg c.v i.a.toNat + i.imm else i.imm) c.v)) s

/-- LOOP (R73): count down and jump while the count is not zero. -/
def execLoop (t : Time) (i : AsmI) (s : State) : Host.Outcome State Fault Refusal :=
  asmStep t .loop i (fun c =>
    let x := aReg c.v i.a.toNat - 1#32
    let v := setAr i.a.toNat x c.v
    .ok (if x = 0#32 then v else { v with pc := i.imm.toNat })) s

/-- BRQ (R73): jump always, or on the condition flag. -/
def execBrq (t : Time) (i : AsmI) (s : State) : Host.Outcome State Fault Refusal :=
  asmStep t .brq i (fun c => .ok (if brqTaken i.m.toNat c.v.q then { c.v with pc := i.imm.toNat } else c.v)) s

/-- SCT (R73): store or add into an image slot. -/
def execSct (t : Time) (i : AsmI) (s : State) : Host.Outcome State Fault Refusal :=
  asmStep t .sct i (fun c =>
    let k := effIdx c.v i
    if c.p.kSlots ≤ k then .index k
    else
      let x := if i.m.getLsbD 0 then F64.add (img c.v k) (fReg c.v i.a) else fReg c.v i.a
      if storeFin x then .ok { c.v with image := Sparse.set f64Def c.v.image k x } else .value) s

/-- VST (R73, R75): store or add into a target vector. -/
def execVst (t : Time) (i : AsmI) (s : State) : Host.Outcome State Fault Refusal :=
  asmStep t .vst i (fun c =>
    let k := effIdx c.v i
    let r := 4 + i.c.toNat
    if c.p.n ≤ k then .index k
    else
      let x := if i.m.getLsbD 0 then F64.add (vec c.v r k) (fReg c.v i.a) else fReg c.v i.a
      if storeOk i.c.toNat x then .ok (setVec r k x c.v) else .value) s

/-- Store both bounds and the slack weight of an index; nothing is stored when one of them is rejected (log entry 23). -/
def storeBounds (c : AsmCtx) (i : AsmI) (lo hi : F64) : AsmOut :=
  let k := effIdx c.v i
  let w := if i.m.getLsbD 0 then fReg c.v i.d else 0#64
  if c.p.n ≤ k then .index k
  else if storeBound lo && storeBound hi && storeSlack w then .ok (setVec 8 k w (setVec 7 k hi (setVec 6 k lo c.v)))
  else .value

/-- BND (R73): bounds of an index. -/
def execBnd (t : Time) (i : AsmI) (s : State) : Host.Outcome State Fault Refusal :=
  asmStep t .bnd i (fun c => storeBounds c i (fReg c.v i.a) (fReg c.v i.b)) s

/-- RTL (R73): bounds a distance Fb × Fc on either side of Fa, each with one rounding. -/
def execRtl (t : Time) (i : AsmI) (s : State) : Host.Outcome State Fault Refusal :=
  asmStep t .rtl i (fun c =>
    let x := fReg c.v i.a
    let y := fReg c.v i.b
    let z := fReg c.v i.c
    storeBounds c i (F64.fma (F64.neg y) z x) (F64.fma y z x)) s

/-- SIG (R73): a diagnostic code, counted, and an event when m[0] is 1. -/
def execSig (t : Time) (i : AsmI) (s : State) : Host.Outcome State Fault Refusal :=
  run t s (fun s =>
    match active s with
    | none => s
    | some l =>
      match actPkg s l with
      | none => s
      | some p =>
        let v := (s.lane l).slv
        let code := i.imm.toNat % 2 ^ 16
        if !v.asmRun || p.budget ≤ v.steps || p.prog[v.pc]? ≠ some (asmEncode .sig i) then s
        else
          when (i.m.getLsbD 0) (raise (laneSrc l 6) Ev.SLV_SIG (code + 2 ^ 32 * v.pc))
            (incF Reg.SLV_ASM_DIAG_count l
              (setF Reg.SLV_ASM_DIAG_code code l
                (onSlv l (fun v => { v with steps := v.steps + 1, pc := v.pc + 1 }) s))))

/-- ASM_BUDGET (R78): asm_budget steps have been executed and the program has not ended. -/
def execAsmBudget (t : Time) (s : State) : Host.Outcome State Fault Refusal :=
  run t s (fun s =>
    match active s with
    | none => s
    | some l =>
      match actPkg s l with
      | none => s
      | some p =>
        let v := (s.lane l).slv
        if v.asmRun && decide (p.budget ≤ v.steps) then asmFault l 1 v.pc s else s)

end Sys2Proof.Machine
end

