-- ==== Sys2Proof/Machine/Solver.lean ====
section
/-!
DEFINITION. The solve (R94-R114): the end of assembly, the schedule instructions, the iteration controller, the stopping tests
and the deadline.
-/

namespace Sys2Proof.Machine

/-! Sums of the array. The spec gives the terms of a sum, not the order they are rounded in (log entry 9). -/

/-- A dyadic number with an odd mantissa, or zero. -/
def dyOdd : Nat → Dy → Dy
  | 0, d => d
  | k + 1, d => if d.m % 2 = 0 && d.m ≠ 0 then dyOdd k ⟨d.m / 2, d.e + 1⟩ else d

/-- A value whose products of three lie inside the number format. -/
def midRange (x : F64) : Bool := F64.isFin x && (F64.isZero x || (decide (723 ≤ F64.expo x) && decide (F64.expo x < 1323)))

/-- Exact product of a term's factors. -/
def termDy (fs : List F64) : Dy := fs.foldl (fun d x => Dy.mul d (dyOdd 64 (F64.val x))) ⟨1, 0⟩

/-- Whether every order of rounding gives the exact sum. -/
def sumExact (ds : List Dy) : Bool :=
  let e := (ds.filter (fun d => d.m ≠ 0)).foldl (fun e d => min e d.e) 2000
  decide ((ds.map (fun d => if d.m = 0 then 0 else d.m.natAbs * 2 ^ (d.e - e).toNat)).sum < 2 ^ 53)

/-- A sum of products: the exact value where every order of rounding gives it, a free value otherwise (log entry 9). -/
def arrSum (terms : List (List F64)) : F64 :=
  let ds := terms.map termDy
  let tot := ds.foldl Dy.add ⟨0, 0⟩
  if terms.all (fun fs => fs.all midRange) && sumExact ds
      && !(ds.all (fun d => d.m = 0) && F64.sign ((terms.headD []).headD 0#64)) then
    F64.ofDy false tot
  else Config.arraySum terms.flatten

/-- A value that is a breakdown where FACT, SOLVE or RFN writes it (R105). -/
def breaks (x : F64) : Bool := !F64.isFin x || decide (2024 ≤ F64.expo x)

/-- Largest magnitude of a list. -/
def maxAbs (xs : List F64) : F64 := xs.foldl (fun m x => F64.max m (F64.abs x)) 0#64

/-- A power of two. -/
def pow2 (e : Int) : F64 := F64.ofDy false ⟨1, e⟩

/-! The package's structure. -/

/-- The schedule's instructions. -/
def schedOps (p : PkgData) : List SOp := p.sched.filterMap sDecode

/-- Primal indices: those whose pivot is expected positive (R58). -/
def isPrimal (p : PkgData) (i : Nat) : Bool := (pivoted 1 none ((schedOps p).drop p.fact)).any (fun c => c.1 == i && c.2)

/-- Entries of K: row, column, value of the image slot. -/
def kEntries (p : PkgData) (v : SlvSt) : List (Nat × Nat × F64) :=
  (List.range p.kpat.length).map (fun s => let rc := p.kpat.getD s (0, 0); (rc.1, rc.2, img v s))

/-- Diagonal entry of K. -/
def kDiag (p : PkgData) (v : SlvSt) (i : Nat) : F64 :=
  (((kEntries p v).find? (fun e => e.1 == i && e.2.1 == i)).map (fun e => e.2.2)).getD 0#64

/-- ρp and ρd of a factorisation with largest diagonal magnitude d0, after r retries (R101). -/
def regValue (ex r : Nat) (d0 : F64) : F64 := F64.min (F64.mul (pow2 (8 * r - ex)) d0) (F64.mul (pow2 (-6)) d0)

/-- What a diagonal of K + Δ adds to K (R101, R82): terms at index `i` for the flags of the instruction. -/
def deltaTerms (c : SlvCfg) (v : SlvSt) (pos : Bool) (i : Nat) (f0 f1 f2 : Bool) : List (List F64) :=
  (if f0 then [[vec v 14 i]] else []) ++ (if f1 && pos then [[regValue c.rp v.r v.d0]] else [])
    ++ (if f2 && !pos then [[F64.neg (regValue c.rd v.r v.d0)]] else [])

/-- A vector from index 0 on. -/
def setVecs (k : Nat) (xs : List F64) (v : SlvSt) : SlvSt := { v with vecs := Sparse.setRange (vecDef v.bndClr) v.vecs (16384 * k) xs }

/-- The first `n` words of a vector. -/
def getVecs (v : SlvSt) (k n : Nat) : List F64 := Sparse.getRange (vecDef v.bndClr) v.vecs (16384 * k) n

/-- The scan pass (R102): d0, dmax and the row scales into V13. -/
def scan (c : SlvCfg) (p : PkgData) (v : SlvSt) : SlvSt :=
  let ix := List.range p.n
  let v1 := { v with d0 := maxAbs (ix.map (fun i => F64.add (kDiag p v i) (vec v 14 i))) }
  let dg := ix.map (fun i => arrSum ([kDiag p v i] :: deltaTerms c v1 (isPrimal p i) i true true true))
  let dmax := maxAbs dg
  let es := (kEntries p v).filter (fun e => e.1 != e.2.1)
  let sc (i : Nat) : F64 :=
    let m := F64.max (F64.abs (dg.getD i 0#64)) (maxAbs ((es.filter (fun e => e.1 == i || e.2.1 == i)).map (fun e => e.2.2)))
    if !F64.isZero m then m else if F64.isZero dmax then F64.one else dmax
  setVecs 13 (ix.map sc) { v1 with dmax := dmax }

/-- Shifted vector (R62, R98). -/
def shiftVec (p : PkgData) (x : List F64) : List F64 :=
  (List.range p.n).map (fun i =>
    let k := p.shift.getD i 0
    if k = 0xFFFFFFFF then p.xinit.getD i 0#64 else x.getD k 0#64)

/-- The shifted solution (R98). -/
def shiftSolution (p : PkgData) (x : Solution) : Solution :=
  { x with v9 := shiftVec p x.v9, v10 := shiftVec p x.v10, v11 := shiftVec p x.v11, v12 := shiftVec p x.v12 }

/-- The solution shifted once for each of `k` epochs (R98, R122). -/
def shiftTimes (p : PkgData) : Nat → Solution → Solution
  | 0, x => x
  | k + 1, x => shiftTimes p k (shiftSolution p x)

/-- Where a free vector's elements come from. -/
def ctlVecs (fresh ph n : Nat) : List F64 := (List.range n).map (Config.ctlVec fresh ph)

/-- The activity of a row (R94): the value its coefficients form from the primal variables, taken here from `x`. -/
def activity (p : PkgData) (v : SlvSt) (x : Nat → F64) (i : Nat) : F64 :=
  arrSum ((kEntries p v).filterMap (fun e =>
    if e.1 == i && isPrimal p e.2.1 then some [e.2.2, x e.2.1]
    else if e.2.1 == i && isPrimal p e.1 then some [e.2.2, x e.1] else none))

/-- Starting iterate (R99): the shifted solution, or XINIT, with the bounded values that follow from it; the spec gives XINIT for the
variables, the multipliers of the bounds of that start are free (log entry 10). -/
def startIterate (s : State) (p : PkgData) (v : SlvSt) : Solution :=
  match v.sol with
  | some x => shiftTimes p (rdK s Reg.JX_CYC_COUNT - v.solCyc).toNat x
  | none =>
    { e := s.cyc.e, status := 0#32, bank := 0, dig := 0#64, v9 := p.xinit, v10 := ctlVecs s.fresh 10 p.n,
      v11 := ctlVecs s.fresh 11 p.n, v12 := (List.range p.n).map (fun i =>
        if isPrimal p i then p.xinit.getD i 0#64 else activity p v (fun j => p.xinit.getD j 0#64) i) }

/-- Push of a bounded value inside its bounds (R100). -/
def pushInside (lo hi x : F64) : F64 :=
  let tiny := F64.div F64.one (F64.ofInt 10000)
  let kap (b : F64) : F64 := F64.mul tiny (F64.add F64.one (F64.abs b))
  let fl := F64.isFin lo
  let fh := F64.isFin hi
  let k := F64.max (kap lo) (kap hi)
  if fl && fh && F64.lt (F64.sub hi lo) (F64.mul (F64.ofInt 2) k) then F64.mul (pow2 (-1)) (F64.add lo hi)
  else if fl && F64.lt x (F64.add lo (kap lo)) then F64.add lo (kap lo)
  else if fh && F64.lt (F64.sub hi (kap hi)) x then F64.sub hi (kap hi)
  else x

/-- Multiplier of a bound at the start (R94, R100). -/
def pushMult (bound m : F64) : F64 :=
  if !F64.isFin bound then 0#64 else F64.max m (F64.div F64.one (F64.ofInt 100000000))

/-- The start point (R99, R100) into V9-V12, the shifted solution into V3. -/
def startPoint (p : PkgData) (x : Solution) (v : SlvSt) : SlvSt :=
  let ix := List.range p.n
  let v12 := ix.map (fun i => pushInside (vec v 6 i) (vec v 7 i) (x.v12.getD i 0#64))
  let v9 := ix.map (fun i => if isPrimal p i then v12.getD i 0#64 else x.v9.getD i 0#64)
  setVecs 3 x.v9 (setVecs 9 v9 (setVecs 12 v12
    (setVecs 10 (ix.map (fun i => pushMult (vec v 6 i) (x.v10.getD i 0#64)))
      (setVecs 11 (ix.map (fun i => pushMult (vec v 7 i) (x.v11.getD i 0#64))) v))))

/-- The scan, and FACT starts (R96 steps 2 and 3). -/
def startFact (c : SlvCfg) (p : PkgData) (v : SlvSt) : SlvSt :=
  { scan c p v with nrepl := 0, ninert := 0, refSteps := 0, ph := .fact, seg := 1, win := p.fact, done := [] }

/-- V14[i] (R95, R96 step 1): the barrier and elastic terms of index `i`, from its bounds, penalty, multipliers and bounded value by a
formula the spec does not give; an index without a finite bound has none (log entry 10). -/
def barrier (fresh : Nat) (v : SlvSt) (i : Nat) : F64 :=
  if F64.isFin (vec v 6 i) || F64.isFin (vec v 7 i) then
    Config.ctlTerm 14 fresh ([6, 7, 8, 10, 11, 12].map (fun k => vec v k i))
  else 0#64

/-- Iteration `k` starts (R96 step 1): the controller writes V14. -/
def startIter (c : SlvCfg) (p : PkgData) (fresh k : Nat) (v : SlvSt) : SlvSt :=
  startFact c p (setVecs 14 ((List.range p.n).map (barrier fresh v)) { v with k := k, retried := false })

/-- Count up the number that keys the free vectors. -/
def freshen (s : State) : State := { s with fresh := s.fresh + 1 }

/-- The solve starts (R97, R99). -/
def solveStart (l : Lane) (p : PkgData) (s : State) : State :=
  let v := (s.lane l).slv
  let x := startIterate s p v
  freshen (onSlv l (fun v =>
    startIter s.slvCfg p s.fresh 1
      { startPoint p x v with solving := true, r := 0, t0 := some s.now }) s)

/-- END (R73, R76): the bound check; without contradiction the solve starts. -/
def execAsmEnd (t : Time) (i : AsmI) (s : State) : Host.Outcome State Fault Refusal :=
  run t s (fun s =>
    match active s with
    | none => s
    | some l =>
      match actPkg s l with
      | none => s
      | some p =>
        let v := (s.lane l).slv
        if !v.asmRun || p.budget ≤ v.steps || p.prog[v.pc]? ≠ some (asmEncode .fin i) then s
        else
          let s1 := onSlv l (fun v => { v with steps := v.steps + 1, asmRun := false, asmDone := true }) s
          match (List.range p.n).find? (fun i => F64.isZero (vec v 8 i) && F64.lt (vec v 7 i) (vec v 6 i)) with
          | some k =>
            raise (laneSrc l 6) Ev.SLV_ASMFLT (4 + 2 ^ 32 * k)
              (asmShow l 4 (onSlv l (fun v => { v with asmFault := 4, bound := some k, cond := some .mfault,
                                                       t1 := some s.now }) s1))
          | none => solveStart l p (asmShow l 0 s1))

/-! Breakdown (R105, R106). -/

/-- The solve of the cycle ends with a condition. -/
def endSolve (l : Lane) (c : Cond) (s : State) : State :=
  onSlv l (fun v => { v with solving := false, seg := 0, ph := .idle, cond := some c, t1 := some s.now }) s

/-- The iteration fails: the output is the shifted solution (R106, R108). -/
def iterFailed (l : Lane) (s : State) : State :=
  endSolve l .shifted (incF Reg.SLV_CNT1_itfail l
    (raise (laneSrc l 6) Ev.SLV_ITFAIL ((s.lane l).slv.k) (onSlv l (fun v => { v with fItfail := true }) s)))

/-- A breakdown at a column and instruction (R106): one retry with raised regularisation, then failure. -/
def breakdown (l : Lane) (p : PkgData) (col n : Nat) (s : State) : State :=
  if (s.lane l).slv.retried then iterFailed l s
  else
    incF Reg.SLV_CNT0_retry l (raise (laneSrc l 6) Ev.SLV_RETRY (col % 2 ^ 32 + 2 ^ 32 * n)
      (onSlv l (fun v => startFact s.slvCfg p { v with r := v.r + 1, retried := true, fRetry := true }) s))

/-! Schedule instructions (R82). -/

/-- Panel context of instruction `n`: the last PAN before it in its segment (R82, R83). -/
def panelAt (p : PkgData) (start n : Nat) : Option Panel :=
  (((schedOps p).take n).drop start).foldl panelAfter none

/-- What a schedule instruction reads: package, configuration, solver, panels. -/
structure SchCtx where
  p : PkgData
  c : SlvCfg
  v : SlvSt
  pan : Panel

/-- Segment start of a code. -/
def segStart (p : PkgData) : Nat → Nat
  | 1 => p.fact
  | 2 => p.solve
  | _ => p.rfn

/-- Whether an instruction may execute now: it stands in the schedule after the last BAR, before the next, and has not executed
(R83). -/
def inWindow (p : PkgData) (v : SlvSt) (n : Nat) (op : SOp) : Bool :=
  v.solving && v.seg != 0 && decide (v.win ≤ n) && !v.done.contains n && (schedOps p)[n]? == some op
    && ((((schedOps p).take n).drop v.win).all (fun o => match o with
      | .bar _ => false
      | _ => true))

/-- Execute a schedule instruction: its writes, each with its column; a write that breaks down stops the array (R105). -/
def schedStep (t : Time) (n : Nat) (op : SOp) (f : SchCtx → SlvSt × List (Nat × F64)) (s : State) :
    Host.Outcome State Fault Refusal :=
  run t s (fun s =>
    match active s with
    | none => s
    | some l =>
      match actPkg s l with
      | none => s
      | some p =>
        let v := (s.lane l).slv
        if !inWindow p v n op then s
        else
          let pan := (panelAt p (segStart p v.seg) n).getD ⟨0, 1, 0, 0, 1, 0⟩
          let r := f ⟨p, s.slvCfg, v, pan⟩
          let s1 := onSlv l (fun _ => { r.1 with done := n :: v.done }) s
          match r.2.find? (fun w => breaks w.2) with
          | some w => breakdown l p w.1 n s1
          | none => s1)

/-- Factor word of a source-panel element. -/
def srcWord (q : Panel) (r c : Nat) : Nat := q.sb + c * q.sld + r

/-- Factor word of a destination-panel element. -/
def dstWord (q : Panel) (r c : Nat) : Nat := q.db + c * q.dld + r

/-- Write a list of factor words. -/
def setFacs (ws : List (Nat × F64)) (v : SlvSt) : SlvSt := ws.foldl (fun v w => setFac w.1 w.2 v) v

/-- Write a list of words of V0. -/
def setV0 (ws : List (Nat × F64)) (v : SlvSt) : SlvSt := ws.foldl (fun v w => setVec 0 w.1 w.2 v) v

/-- Column of a write to the factor that names none: a free value (log entry 24). -/
def anyCol (w : Nat) : Nat := (Config.openVal 24 w).toNat

/-- PAN (R82): the panel context, which the instructions after it take (R83). -/
def execPan (t : Time) (n sb sld scol db dld dcol : Nat) (s : State) : Host.Outcome State Fault Refusal :=
  schedStep t n (.pan sb sld scol db dld dcol) (fun c => (c.v, [])) s

/-- What BLD does (R82): image slots, or zeros, into the factor. -/
def schBld (dst src len : Nat) (zero : Bool) (c : SchCtx) : SlvSt × List (Nat × F64) :=
  let ws := (List.range len).map (fun i => (dst + i, if zero then 0#64 else img c.v (src + i)))
  (setFacs ws c.v, ws.map (fun w => (anyCol w.1, w.2)))

/-- BLD (R82): image slots, or zeros, into the factor. -/
def execBld (t : Time) (n dst src len : Nat) (zero : Bool) (s : State) : Host.Outcome State Fault Refusal :=
  schedStep t n (.bld dst src len zero) (schBld dst src len zero) s

/-- What DAD does (R82): V14 and the regularisation onto the diagonal of the source panel. -/
def schDad (c cnt : Nat) (f0 f1 f2 : Bool) (k : SchCtx) : SlvSt × List (Nat × F64) :=
  let ws := (List.range cnt).map (fun j =>
    let w := srcWord k.pan (c + j) (c + j)
    let g := k.pan.scol + c + j
    (g, w, arrSum ([fac k.v w] :: ((if f0 then [[vec k.v 14 g]] else [])
      ++ (if f1 then [[regValue k.c.rp k.v.r k.v.d0]] else [])
      ++ (if f2 then [[F64.neg (regValue k.c.rd k.v.r k.v.d0)]] else [])))))
  (setFacs (ws.map (·.2)) k.v, ws.map (fun w => (w.1, w.2.2)))

/-- DAD (R82): V14 and the regularisation onto the diagonal of the source panel. -/
def execDad (t : Time) (n c cnt : Nat) (f0 f1 f2 : Bool) (s : State) : Host.Outcome State Fault Refusal :=
  schedStep t n (.dad c cnt f0 f1 f2) (schDad c cnt f0 f1 f2) s

/-- What GMT does (R82): scaled update of the destination panel. -/
def schGmt (m nn k ar br kc cr cc : Nat) (lower : Bool) (x : SchCtx) : SlvSt × List (Nat × F64) :=
  let el (r c : Nat) : F64 := fac x.v (srcWord x.pan r c)
  let ws := (List.range m).flatMap (fun i => (List.range nn).filterMap (fun j =>
    if lower && decide (i < j) then none
    else
      let w := dstWord x.pan (cr + i) (cc + j)
      some (x.pan.dcol + cc + j, w, arrSum ([fac x.v w] :: (List.range k).map (fun q =>
        [F64.neg (el (ar + i) (kc + q)), vec x.v 15 (x.pan.scol + kc + q), el (br + j) (kc + q)])))))
  (setFacs (ws.map (·.2)) x.v, ws.map (fun w => (w.1, w.2.2)))

/-- GMT (R82): scaled update of the destination panel. -/
def execGmt (t : Time) (n m nn k ar br kc cr cc : Nat) (lower : Bool) (s : State) : Host.Outcome State Fault Refusal :=
  schedStep t n (.gmt m nn k ar br kc cr cc lower) (schGmt m nn k ar br kc cr cc lower) s

/-- Whether a finite pivot is below τ = 2⁻⁴⁰ × dmax or zero (R103); τ is taken exactly. -/
def belowTau (dmax d : F64) : Bool :=
  F64.isZero d || (if F64.isFin dmax then Dy.lt (F64.val (F64.abs d)) (Dy.mul (F64.val dmax) ⟨1, -40⟩) else F64.lt (F64.abs d) dmax)

/-- The static-pivot rule (R103): the pivot used, whether it was replaced, whether it has the wrong sign. -/
def pivot (dmax si d : F64) (pos : Bool) : F64 × Bool × Bool :=
  if !F64.isFin d then (d, false, false)
  else if belowTau dmax d then
    let dl := F64.mul (pow2 (-26)) si
    (if pos then dl else F64.neg dl, true, false)
  else (d, false, F64.sign d == pos)

/-- Factor one column of the block: column `j` of `cnt` from panel column `c`, with `h` rows below; writes it makes. The diagonal
word itself is left open (log entry 25). -/
def pvsColumn (q : Panel) (cnt c h : Nat) (mask : BitVec 64) (j : Nat) (st : SlvSt × List (Nat × F64)) : SlvSt × List (Nat × F64) :=
  let v := st.1
  let g := q.scol + c
  let el (r k : Nat) : F64 := fac v (srcWord q (c + r) (c + k))
  let dk (k : Nat) : F64 := vec v 15 (g + k)
  let pos := mask.getLsbD j
  let piv := pivot v.dmax (vec v 13 (g + j))
    (arrSum ([el j j] :: (List.range j).map (fun k => [F64.neg (el j k), dk k, el j k]))) pos
  let v1 := setVec 15 (g + j) piv.1
    { v with signs := Sparse.set (fun _ => false) v.signs (g + j) pos, nrepl := v.nrepl + b2n piv.2.1, ninert := v.ninert + b2n piv.2.2 }
  let ws := (List.range (cnt + h - (j + 1))).map (fun x =>
    let r := j + 1 + x
    (srcWord q (c + r) (c + j), F64.div (arrSum ([el r j] :: (List.range j).map (fun k => [F64.neg (el r k), dk k, el j k]))) piv.1))
  let w0 := srcWord q (c + j) (c + j)
  (setFac w0 (Config.openVal 25 w0) (setFacs ws v1), st.2 ++ (g + j, piv.1) :: ws.map (fun w => (g + j, w.2)))

/-- What PVS does (R82, R103, R123): static-pivot factorisation of source-panel columns; the counts of the cycle follow at once, so a
factorisation cut short is counted as far as it went. -/
def schPvs (cnt c h : Nat) (mask : BitVec 64) (x : SchCtx) : SlvSt × List (Nat × F64) :=
  let st := (List.range cnt).foldl (fun st j => pvsColumn x.pan cnt c h mask j st) (x.v, [])
  ({ st.1 with mxRepl := max st.1.mxRepl st.1.nrepl, mxInert := max st.1.mxInert st.1.ninert,
               fRepl := st.1.fRepl || decide (0 < st.1.nrepl) }, st.2)

/-- PVS (R82, R103): static-pivot factorisation of source-panel columns. -/
def execPvs (t : Time) (n cnt c h : Nat) (mask : BitVec 64) (s : State) : Host.Outcome State Fault Refusal :=
  schedStep t n (.pvs cnt c h mask) (schPvs cnt c h mask) s

/-- Solve with the unit-lower block in place, forward: element `j` after the ones before it. -/
def tslElem (q : Panel) (c j : Nat) (v : SlvSt) : SlvSt :=
  let g := q.scol + c
  setVec 0 (g + j) (arrSum ([vec v 0 (g + j)] :: (List.range j).map (fun k =>
    [F64.neg (fac v (srcWord q (c + j) (c + k))), vec v 0 (g + k)]))) v

/-- The words of V0 an instruction wrote. -/
def v0Writes (v : SlvSt) (g cnt : Nat) : List (Nat × F64) := (List.range cnt).map (fun j => (g + j, vec v 0 (g + j)))

/-- What TSL does (R82): forward substitution in a block of V0. -/
def schTsl (cnt c : Nat) (x : SchCtx) : SlvSt × List (Nat × F64) :=
  let v := (List.range cnt).foldl (fun v j => tslElem x.pan c j v) x.v
  (v, v0Writes v (x.pan.scol + c) cnt)

/-- TSL (R82): forward substitution in a block of V0. -/
def execTsl (t : Time) (n cnt c : Nat) (s : State) : Host.Outcome State Fault Refusal :=
  schedStep t n (.tsl cnt c) (schTsl cnt c) s

/-- Backward: element `j` after the ones behind it. -/
def tsuElem (q : Panel) (cnt c j : Nat) (v : SlvSt) : SlvSt :=
  let g := q.scol + c
  setVec 0 (g + j) (arrSum ([vec v 0 (g + j)] :: (List.range (cnt - (j + 1))).map (fun x =>
    [F64.neg (fac v (srcWord q (c + (j + 1 + x)) (c + j))), vec v 0 (g + (j + 1 + x))]))) v

/-- What TSU does (R82): backward substitution with the transposed block. -/
def schTsu (cnt c : Nat) (x : SchCtx) : SlvSt × List (Nat × F64) :=
  let v := (List.range cnt).foldl (fun v j => tsuElem x.pan cnt c (cnt - 1 - j) v) x.v
  (v, v0Writes v (x.pan.scol + c) cnt)

/-- TSU (R82): backward substitution with the transposed block. -/
def execTsu (t : Time) (n cnt c : Nat) (s : State) : Host.Outcome State Fault Refusal :=
  schedStep t n (.tsu cnt c) (schTsu cnt c) s

/-- What DSC does (R82): division by the pivots. -/
def schDsc (row cnt : Nat) (x : SchCtx) : SlvSt × List (Nat × F64) :=
  let ws := (List.range cnt).map (fun j => (row + j, F64.div (vec x.v 0 (row + j)) (vec x.v 15 (row + j))))
  (setV0 ws x.v, ws)

/-- DSC (R82): division by the pivots. -/
def execDsc (t : Time) (n row cnt : Nat) (s : State) : Host.Outcome State Fault Refusal :=
  schedStep t n (.dsc row cnt) (schDsc row cnt) s

/-- Where row `i` of GMV stands in V0 (R82). -/
def gmvRow (p : PkgData) (tt : Nat) (pool : Bool) (i : Nat) : Nat := if pool then p.pool.getD (tt + i) 0 else tt + i

/-- Subtract products from words of V0, one word after another: a row named twice takes both. -/
def subV0 (v : SlvSt) (ws : List (Nat × List (List F64))) : SlvSt × List (Nat × F64) :=
  ws.foldl (fun st w =>
    let y := arrSum ([vec st.1 0 w.1] :: w.2)
    (setVec 0 w.1 y st.1, st.2 ++ [(w.1, y)])) (v, [])

/-- What GMV does (R82): matrix times vector into V0, plain or transposed. -/
def schGmv (m k ar kc tt : Nat) (tr pool : Bool) (x : SchCtx) : SlvSt × List (Nat × F64) :=
  let el (i q : Nat) : F64 := F64.neg (fac x.v (srcWord x.pan (ar + i) (kc + q)))
  let g := x.pan.scol + kc
  let row := gmvRow x.p tt pool
  subV0 x.v (if tr then
    (List.range k).map (fun q => (g + q, (List.range m).map (fun i => [el i q, vec x.v 0 (row i)])))
  else
    (List.range m).map (fun i => (row i, (List.range k).map (fun q => [el i q, vec x.v 0 (g + q)]))))

/-- GMV (R82): matrix times vector into V0, plain or transposed. -/
def execGmv (t : Time) (n m k ar kc tt : Nat) (tr pool : Bool) (s : State) : Host.Outcome State Fault Refusal :=
  schedStep t n (.gmv m k ar kc tt tr pool) (schGmv m k ar kc tt tr pool) s

/-- What SCA does (R82): scatter-add of factor words by the index pool. -/
def schSca (src p len : Nat) (zero : Bool) (x : SchCtx) : SlvSt × List (Nat × F64) :=
  (List.range len).foldl (fun st i =>
    let w := x.p.pool.getD (p + i) 0
    let y := F64.add (fac st.1 w) (fac st.1 (src + i))
    let v := setFac w y st.1
    (if zero then setFac (src + i) 0#64 v else v, st.2 ++ [(anyCol w, y)])) (x.v, [])

/-- SCA (R82): scatter-add of factor words by the index pool. -/
def execSca (t : Time) (n src p len : Nat) (zero : Bool) (s : State) : Host.Outcome State Fault Refusal :=
  schedStep t n (.sca src p len zero) (schSca src p len zero) s

/-- Terms of row `i` of (K + Δ) V0, negated, K the symmetric matrix of image and KPAT. -/
def rfnTerms (x : SchCtx) (f0 f1 f2 : Bool) (i : Nat) : List (List F64) :=
  let v := x.v
  let pos := Sparse.get (fun _ => false) v.signs i
  ((kEntries x.p v).filterMap (fun e =>
    if e.1 == i then some [F64.neg e.2.2, vec v 0 e.2.1]
    else if e.2.1 == i then some [F64.neg e.2.2, vec v 0 e.1] else none))
    ++ (deltaTerms x.c v pos i f0 f1 f2).map (fun d => F64.neg (d.headD 0#64) :: [vec v 0 i])

/-- What RFN does (R82): the residual V2 ← V1 − (K + Δ)V0. -/
def schRfn (f0 f1 f2 : Bool) (x : SchCtx) : SlvSt × List (Nat × F64) :=
  let ys := (List.range x.p.n).map (fun i => arrSum ([vec x.v 1 i] :: rfnTerms x f0 f1 f2 i))
  (setVecs 2 ys x.v, ys.zipIdx.map (fun y => (y.2, y.1)))

/-- RFN (R82): the residual V2 ← V1 − (K + Δ)V0. -/
def execRfn (t : Time) (n : Nat) (f0 f1 f2 : Bool) (s : State) : Host.Outcome State Fault Refusal :=
  schedStep t n (.rfn f0 f1 f2) (schRfn f0 f1 f2) s

/-! The controller between segments (R94-R96, R107, R108). Where the spec gives a step's formula, it is computed; where not, the figure
is a free function of the values of its row (log entry 10). -/

/-- Whether the bounds of an index are hard (R95). -/
def hardAt (v : SlvSt) (i : Nat) : Bool := F64.isZero (vec v 8 i)

/-- The values of row `i`: V4 to V12 at `i`, and each entry of K in the row with V9 at its other index. -/
def rowData (p : PkgData) (v : SlvSt) (i : Nat) : List F64 :=
  (List.range 9).map (fun k => vec v (4 + k) i)
    ++ (kEntries p v).flatMap (fun e =>
      if e.1 == i then [e.2.2, vec v 9 e.2.1] else if e.2.1 == i then [e.2.2, vec v 9 e.1] else [])

/-- The finite bounds of the iterate among the indices `ix`: multiplier and distance of the bounded value to the bound. -/
def bounded (v : SlvSt) (ix : List Nat) : List (F64 × F64) :=
  ix.flatMap (fun i =>
    (if F64.isFin (vec v 6 i) then [(vec v 10 i, F64.sub (vec v 12 i) (vec v 6 i))] else [])
      ++ (if F64.isFin (vec v 7 i) then [(vec v 11 i, F64.sub (vec v 7 i) (vec v 12 i))] else []))

/-- μ (R109): the mean of multiplier × distance over all finite bounds, 0 where there is none. -/
def meanGap (p : PkgData) (v : SlvSt) : F64 :=
  let bs := bounded v (List.range p.n)
  if bs.isEmpty then 0#64 else F64.div (arrSum (bs.map (fun b => [b.1, b.2]))) (F64.ofInt bs.length)

/-- A direction in four parts matching V9-V12 (R94), from the solution in V0: the part for V9 is that solution, and at a primal index the
bounded value moves with the variable and at a dual index with the row's activity; the parts for the multipliers, which follow by
elimination, are open, 0 where the bound is infinite. -/
def direction (p : PkgData) (fresh : Nat) (v : SlvSt) : List (List F64) :=
  let ix := List.range p.n
  let part (k i : Nat) : F64 := Config.ctlTerm k fresh (vec v 0 i :: rowData p v i)
  [getVecs v 0 p.n, ix.map (fun i => if F64.isFin (vec v 6 i) then part 10 i else 0#64),
   ix.map (fun i => if F64.isFin (vec v 7 i) then part 11 i else 0#64),
   ix.map (fun i => if isPrimal p i then vec v 0 i else activity p v (vec v 0) i)]

/-- Element `i` of a part of a direction. -/
def dirAt (d : List (List F64)) (part i : Nat) : F64 := (d.getD part []).getD i 0#64

/-- The longest step, at most 1, that keeps each distance above (1 − f) of itself: distances with their changes (R96 step 7). -/
def stepLen (f : F64) (gs : List (F64 × F64)) : F64 :=
  gs.foldl (fun a g => if F64.lt g.2 0#64 then F64.min a (F64.div (F64.mul f g.1) (F64.neg g.2)) else a) F64.one

/-- Distances to the hard bounds with their changes along a direction. -/
def primalGaps (p : PkgData) (v : SlvSt) (d : List (List F64)) : List (F64 × F64) :=
  ((List.range p.n).filter (hardAt v)).flatMap (fun i =>
    (if F64.isFin (vec v 6 i) then [(F64.sub (vec v 12 i) (vec v 6 i), dirAt d 3 i)] else [])
      ++ (if F64.isFin (vec v 7 i) then [(F64.sub (vec v 7 i) (vec v 12 i), F64.neg (dirAt d 3 i))] else []))

/-- Multipliers of the finite bounds with their changes along a direction. -/
def multGaps (p : PkgData) (v : SlvSt) (d : List (List F64)) : List (F64 × F64) :=
  (List.range p.n).flatMap (fun i =>
    (if F64.isFin (vec v 6 i) then [(vec v 10 i, dirAt d 1 i)] else [])
      ++ (if F64.isFin (vec v 7 i) then [(vec v 11 i, dirAt d 2 i)] else []))

/-- V9-V12 after a step of lengths `ap` (primal parts: V12, and V9 at primal indices) and `ad` (multiplier parts). -/
def stepTo (p : PkgData) (ap ad : F64) (d : List (List F64)) (v : SlvSt) : SlvSt :=
  let ix := List.range p.n
  let mv (a : F64) (k part i : Nat) : F64 := F64.add (vec v k i) (F64.mul a (dirAt d part i))
  setVecs 9 (ix.map (fun i => mv (if isPrimal p i then ap else ad) 9 0 i))
    (setVecs 10 (ix.map (fun i => if F64.isFin (vec v 6 i) then mv ad 10 1 i else 0#64))
      (setVecs 11 (ix.map (fun i => if F64.isFin (vec v 7 i) then mv ad 11 2 i else 0#64))
        (setVecs 12 (ix.map (mv ap 12 3)) v)))

/-- The products that a mean gap is formed of. -/
def gapTerms (p : PkgData) (v : SlvSt) : List F64 := (bounded v (List.range p.n)).map (fun b => F64.mul b.1 b.2)

/-- The iterate's four vectors. -/
def iterVecs (p : PkgData) (v : SlvSt) : List F64 := [9, 10, 11, 12].flatMap (fun k => getVecs v k p.n)

/-- Step 5 (R96): the affine direction and step lengths, σ = (μ_aff / μ)³, and the corrector right-hand side; none where a figure is a NaN
or infinite (R108). -/
def predictor (p : PkgData) (fresh : Nat) (v : SlvSt) : Option SlvSt :=
  let d := direction p fresh v
  let ap := stepLen F64.one (primalGaps p v d)
  let ad := stepLen F64.one (multGaps p v d)
  let mu := meanGap p v
  let u := stepTo p ap ad d v
  let mua := meanGap p u
  let q := F64.div mua mu
  let sg := if (bounded v (List.range p.n)).isEmpty then 0#64 else F64.mul (F64.mul q q) q
  let rhs := (List.range p.n).map (fun i =>
    Config.ctlTerm 2 fresh (sg :: mu :: (List.range 4).map (fun k => dirAt d k i) ++ rowData p v i))
  if (d.flatten ++ ap :: ad :: mu :: mua :: sg :: rhs ++ iterVecs p u ++ gapTerms p v ++ gapTerms p u).all F64.isFin then
    some { v with aff := d, rhs := rhs, sigma := sg, stepP := ap, stepD := ad }
  else none

/-- Step 7 (R96): the step lengths by the fraction-to-boundary rule with factor 0.995 and the new V9-V12; none where a figure is a NaN or
infinite (R108). -/
def newIterate (p : PkgData) (fresh : Nat) (v : SlvSt) : Option SlvSt :=
  let d := direction p fresh v
  let f := F64.ratio 995 1000
  let ap := stepLen f (primalGaps p v d)
  let ad := stepLen f (multGaps p v d)
  let u := stepTo p ap ad d v
  if (d.flatten ++ ap :: ad :: iterVecs p u).all F64.isFin then
    some { u with stepP := ap, stepD := ad }
  else none

/-- SOLVE starts with a right-hand side: V1 keeps the copy that refinement needs. -/
def startSolve (p : PkgData) (ph : CtlPh) (b : List F64) (v : SlvSt) : SlvSt :=
  setVecs 0 b (setVecs 1 b { v with ph := ph, seg := 2, win := p.solve, done := [], refSteps := 0 })

/-- After the predictor the corrector is solved, unless step 5 fails the iteration (R108); after the corrector the controller finishes the
iteration (R96). -/
def nextPhase (l : Lane) (p : PkgData) (s : State) : State :=
  let v := (s.lane l).slv
  if v.ph = .solve1 || v.ph = .ref1 then
    match predictor p s.fresh v with
    | some u => freshen (onSlv l (fun _ => startSolve p .solve2 u.rhs u) s)
    | none => iterFailed l s
  else freshen (onSlv l (fun v => { v with ph := .finish, seg := 0 }) s)

/-- The end of FACT (R104): the counts of replacements and misses; the predictor is solved. -/
def factEnd (l : Lane) (p : PkgData) (s : State) : State :=
  let v := (s.lane l).slv
  let ill := decide (s.slvCfg.pivlim < v.nrepl)
  let b := (List.range p.n).map (fun i => Config.ctlTerm 1 s.fresh (rowData p v i))
  freshen (onSlv l (fun v => startSolve p .solve1 b { v with fIllc := v.fIllc || ill })
    (when ill (raise (laneSrc l 6) Ev.SLV_ILLC (min v.nrepl 0xFFFF + 2 ^ 16 * v.k)) s))

/-- RFN starts on the solution in V0. -/
def startRfn (p : PkgData) (ph : CtlPh) (v : SlvSt) : SlvSt := { v with ph := ph, seg := 3, win := p.rfn, done := [] }

/-- RFN starts on a solution just solved, which the working store holds. -/
def startRef (l : Lane) (p : PkgData) (ph : CtlPh) (s : State) : State :=
  freshen (onSlv l (fun v => startRfn p ph { v with solHold := getVecs v 0 p.n }) s)

/-- The end of SOLVE (R107): a factorisation with replacements is refined; a refinement step adds its correction to the solution
held. -/
def solveEnd (l : Lane) (p : PkgData) (s : State) : State :=
  let v := (s.lane l).slv
  match v.ph with
  | .solve1 => if v.nrepl = 0 then nextPhase l p s else startRef l p .ref1 s
  | .solve2 => if v.nrepl = 0 then nextPhase l p s else startRef l p .ref2 s
  | ph => onSlv l (fun v =>
      let x := List.zipWith F64.add v.solHold (getVecs v 0 p.n)
      startRfn p ph (setVecs 0 x { v with solHold := x, refSteps := v.refSteps + 1, mxRef := max v.mxRef (v.refSteps + 1) })) s

/-- The end of RFN (R107): refinement stops, takes another step, or after the third step is judged. For a breakdown here the record names
the BAR that ended RFN, and a free column: the spec names neither (log entry 24). -/
def rfnEnd (l : Lane) (p : PkgData) (n : Nat) (s : State) : State :=
  let v := (s.lane l).slv
  let n2 := maxAbs (getVecs v 2 p.n)
  let n1 := maxAbs (getVecs v 1 p.n)
  if F64.le n2 (F64.mul (pow2 (-40)) n1) || (v.refSteps == 3 && F64.le n2 (F64.mul (pow2 (-20)) n1)) then nextPhase l p s
  else if v.refSteps < 3 then
    onSlv l (fun v => { setVecs 0 (getVecs v 2 p.n) v with seg := 2, win := p.solve, done := [] }) s
  else breakdown l p (anyCol n) n s

/-- BAR (R82, R83): it waits until all earlier instructions of its window have completed; one that ends a segment hands over to
the controller. -/
def execBar (t : Time) (n kind : Nat) (s : State) : Host.Outcome State Fault Refusal :=
  run t s (fun s =>
    match active s with
    | none => s
    | some l =>
      match actPkg s l with
      | none => s
      | some p =>
        let v := (s.lane l).slv
        if !inWindow p v n (.bar kind) || v.done.length ≠ n - v.win then s
        else
          let s1 := onSlv l (fun v => { v with win := n + 1, done := [] }) s
          match kind with
          | 1 => factEnd l p s1
          | 2 => solveEnd l p s1
          | 3 => rfnEnd l p n s1
          | _ => s1)

/-! Stopping (R108-R114). -/

/-- A hard bound of a dual index is met to the tolerance (R111), compared exactly. -/
def rowMet (acc lo hi x : F64) : Bool :=
  let tol (b : F64) : Dy := Dy.mul (F64.val acc) (Dy.add ⟨1, 0⟩ (F64.val (F64.abs b)))
  (!F64.isFin lo || !Dy.lt (Dy.add (F64.val x) (tol lo)) (F64.val lo))
    && (!F64.isFin hi || !Dy.lt (Dy.add (F64.val hi) (tol hi)) (F64.val x))

/-- An iterate passes acceptance (R111). -/
def accepted (c : SlvCfg) (p : PkgData) (v : SlvSt) (r : IterRes) : Bool :=
  let acc := F64.of32 c.accept
  F64.lt r.rhoP acc && (List.range p.n).all (fun i =>
    let x := r.v12.getD i 0#64
    !F64.isZero (vec v 8 i) || (if isPrimal p i then F64.le (vec v 6 i) x && F64.le x (vec v 7 i)
      else F64.isFin x && rowMet acc (vec v 6 i) (vec v 7 i) x))

/-- The multipliers of the hard finite bounds, with their indices. -/
def hardMults (p : PkgData) (v : SlvSt) : List (Nat × F64) :=
  ((List.range p.n).filter (hardAt v)).flatMap (fun i =>
    (if F64.isFin (vec v 6 i) then [(i, vec v 10 i)] else []) ++ (if F64.isFin (vec v 7 i) then [(i, vec v 11 i)] else []))

/-- The figures of a completed iterate (R109, R110). A residual of a row is a free function of its values (log entry 10); of equal
multipliers the one of the lowest index is named. -/
def figures (p : PkgData) (fresh : Nat) (v : SlvSt) : IterRes :=
  let ix := List.range p.n
  let res (pr : Bool) : F64 := maxAbs ((ix.filter (fun i => isPrimal p i == pr)).map (fun i => Config.ctlTerm 3 fresh (rowData p v i)))
  let s4 := F64.add F64.one (maxAbs (getVecs v 4 p.n))
  let s5 := F64.add F64.one (maxAbs (getVecs v 5 p.n))
  let top := (hardMults p v).foldl (fun a m => if F64.lt a.2 m.2 then m else a) (0, 0#64)
  { v9 := getVecs v 9 p.n, v10 := getVecs v 10 p.n, v11 := getVecs v 11 p.n, v12 := getVecs v 12 p.n,
    rhoP := F64.div (res false) s5, rhoD := F64.div (res true) s4, mu := F64.div (meanGap p v) s4,
    huge := F64.lt (F64.mul (pow2 60) s4) top.2, mulIdx := top.1 }

/-- An iteration indicates infeasibility (R110). -/
def infeasible (c : SlvCfg) (r : IterRes) : Bool := F64.lt (F64.of32 c.accept) r.rhoP && r.huge

/-- An iteration has converged (R109). -/
def converged (c : SlvCfg) (p : PkgData) (v : SlvSt) (r : IterRes) : Bool :=
  F64.le r.rhoP (F64.of32 c.tolp) && F64.le r.rhoD (F64.of32 c.told) && F64.le r.mu (F64.of32 c.tolmu) && accepted c p v r

/-- The tests at the end of an iteration, in the order of R97. -/
def stopTests (l : Lane) (p : PkgData) (r : IterRes) (s : State) : State :=
  let v := (s.lane l).slv
  let c := s.slvCfg
  if 3 ≤ v.infRun then endSolve l .mfault (raise (laneSrc l 6) Ev.SLV_INFEAS (r.mulIdx % 2 ^ 32) s)
  else if converged c p v r then endSolve l .optimal s
  else if c.itcap ≤ v.k then
    if accepted c p v r then endSolve l .capped s else endSolve l .shifted (onSlv l (fun v => { v with fRej := true }) s)
  else freshen (onSlv l (fun v => startIter c p s.fresh (v.k + 1) v) s)

/-- The new iterate stands in V9-V12 with its figures. -/
def tookIterate (c : SlvCfg) (r : IterRes) (v : SlvSt) : SlvSt :=
  { v with iters := v.k, latest := some r, tested := true, rhoP := r.rhoP, rhoD := r.rhoD, mu := r.mu,
           infRun := if infeasible c r then v.infRun + 1 else 0 }

/-- ITERATION_COMPLETE (R96): step 7 writes the new iterate; the tests run. A NaN or infinity of the controller fails the iteration at once,
and the update is discarded (R108). -/
def execIterationComplete (t : Time) (s : State) : Host.Outcome State Fault Refusal :=
  run t s (fun s =>
    match active s with
    | none => s
    | some l =>
      match actPkg s l with
      | none => s
      | some p =>
        let v := (s.lane l).slv
        if !v.solving || v.ph ≠ .finish then s
        else
          match newIterate p s.fresh v with
          | none => iterFailed l s
          | some u => stopTests l p (figures p s.fresh u) (onSlv l (fun _ => tookIterate s.slvCfg (figures p s.fresh u) u) s))

/-- Whether an instant is a mark of the cycle in progress: `m` ms after its epoch (R23). -/
def atMark (s : State) (m : Nat) : Bool := s.cyc.begun && s.now == plus s.cyc.e (m * ms)

/-- DEADLINE (R113, R114): the solve ends; assembly that is not complete is abandoned with fault LATE (R78). -/
def execDeadline (t : Time) (s : State) : Host.Outcome State Fault Refusal :=
  run t s (fun s =>
    match active s with
    | none => s
    | some l =>
      match actPkg s l with
      | none => s
      | some p =>
        let v := (s.lane l).slv
        let late := onSlv l (fun v => { v with fLate := true })
        if !atMark s s.cyc.cur.deadline || v.cond.isSome || s.cyc.published || modeNow s == .layup then s
        else if v.solving then
          match v.latest with
          | none => endSolve l .shifted (late s)
          | some r =>
            if accepted s.slvCfg p v r then endSolve l .ditr (late s)
            else endSolve l .shifted (onSlv l (fun v => { v with fRej := true }) (late s))
        else asmFault l 5 v.pc (late s))

end Sys2Proof.Machine
end

