-- ==== Sys2Proof/Machine/MetFilter.lean ====
section
/-!
DEFINITION. The filters of metrology (R228, R231, R236): the compensation filter with the figures its taps must meet, the chain of an
air-core coil, and the filter that shifts a voltage by 90 degrees. Taps whose values the spec does not give are free (log entry 83).
-/

namespace Sys2Proof.Machine

/-! Frequency response. -/

/-- Cosine and sine of `n`/`d` right angles in units of 2^-300. -/
def turnCos (n d : Nat) : Int :=
  let r : Int := ((n % d * halfPi / d / 2 ^ 1000 : Nat) : Int)
  match n / d % 4 with
  | 0 => cosFix r
  | 1 => -sinFix r
  | 2 => -cosFix r
  | _ => sinFix r
def turnSin (n d : Nat) : Int := turnCos (n + 3 * d) d

/-- Gain of the sinc³ decimator by 625 at `f` Hz below 20 MHz (R228), in units of 2^-300. -/
def sincGain (f : Nat) : Int :=
  if f = 0 then 2 ^ 300
  else
    let q := turnSin (625 * f) 10000000 * 2 ^ 300 / (625 * turnSin f 10000000)
    q * q * q / 2 ^ 600

/-- Zero-phase gain of the chain of decimator and compensation filter at `f` Hz (R228), for taps `h` counted from an end to the middle, tap
48. -/
def chainGain (h : Nat → Dy) (f : Nat) : Dy :=
  let a := (List.range 48).foldl (fun a i => a.add ((h i).mul ⟨2 * turnCos (f * (48 - i)) 8000, -300⟩)) (h 48)
  a.mul ⟨sincGain f, -300⟩

/-- The figures of R228 at every 10 Hz: flat within 0.005 dB from 0 to 3.2 kHz, at least 90 dB down from 4.8 to 16 kHz. -/
def figuresOk (h : Nat → Dy) : Bool :=
  (List.range 321).all (fun i =>
    let g := (chainGain h (10 * i)).mul ⟨10 ^ 8, 0⟩
    !Dy.lt g ⟨99942452, 0⟩ && !Dy.lt ⟨100057581, 0⟩ g)
  && (List.range 1121).all (fun i =>
    let g := (chainGain h (4800 + 10 * i)).mul ⟨10 ^ 9, 0⟩
    !Dy.lt g ⟨-31622, 0⟩ && !Dy.lt ⟨31622, 0⟩ g)

/-- Taps that meet the figures, in units of 2^-36: an equiripple design, 0.0031 dB and 93.9 dB. -/
def designTaps : List Int :=
  [-2743373, -2162557, -517354, 5826317, 13430149, 18103693, 13134190, -3425701, -26427186, -42213265, -36005229, -1709352, 48755909,
   86949787, 81237958, 18618689, -79253789, -158448778, -159237047, -55198229, 117660158, 266008608, 284645390, 123759809, -162103422,
   -421081335, -477852796, -242378652, 209027590, 640976309, 771277185, 441122078, -252958144, -958394792, -1228262264, -780467341,
   284760222, 1452752943, 2008259743, 1421697347, -281685550, -2383959198, -3689532765, -3039134304, 99885723, 5259306928, 11025378069,
   15540522287, 17247262069]

/-- Tap of the compensation filter (R228), counted from an end: the free ones where they meet the figures, which the module's do. -/
def compTap (i : Nat) : F64 :=
  if (List.range 49).all (fun j => F64.isFin (Config.firTap j)) && figuresOk (fun j => F64.val (Config.firTap j)) then Config.firTap i
  else F64.ofRat (designTaps.getD i 0) (2 ^ 36)

/-! The chain of an air-core coil (R231). -/

/-- Factor of the first-order high-pass at 0.1·(fc + 1) Hz for steps of 125 µs: 1/(1 + 2π·f_c·T). -/
def coilAlpha (fc : Nat) : F64 := F64.ofRat (20000 * 2 ^ 1300) (20000 * 2 ^ 1300 + halfPi * (fc + 1))

/-- One step of the chain (R231): the memory after it and the output. The integrator adds the mean of two values times T; the high-pass
takes the change of the integral, so DC is blocked; the compensation filter weighs the latest 32 values of the high-pass by free taps.
Memory: the last value, the integral, and the values of the high-pass, latest first. -/
def coilStep (fc : Nat) (x : F64) (mem : List F64) : List F64 × F64 :=
  let x0 := mem.getD 0 F64.zero
  let i0 := mem.getD 1 F64.zero
  let hs := mem.drop 2
  let d := F64.mul (F64.add x x0) (F64.ofRat 1 16000)
  let h := F64.mul (coilAlpha fc) (F64.add (hs.headD F64.zero) d)
  let hs' := (h :: hs).take 32
  (x :: F64.add i0 d :: hs', arrSum ((hs'.zip (List.range 32)).map (fun p => [Config.coilTap fc p.2, p.1])))

/-! The shift of a voltage by 90 degrees (R236). -/

/-- Number of samples on each side of the middle tap: their filters reach no sample later than D_M (R230). -/
def hilbLen : Nat := 64

/-- The voltage shifted by 90° at a sample: an antisymmetric filter of the samples around it, whose phase is 90° at every frequency;
its taps are free. `v j` is the value `j` samples later. -/
def hilbert (v : Int → Dy) : Dy :=
  (List.range hilbLen).foldl (fun (a : Dy) (i : Nat) =>
    let j : Int := (i : Int) + 1
    a.add ((F64.val (Config.hilbTap i)).mul ((v (-j)).add (v j).neg))) ⟨0, 0⟩

end Sys2Proof.Machine
end

