-- ==== Sys2Proof/Machine/Alloc.lean ====
section
/-!
DEFINITION. The publication (R30-R33, R115-R122, R136, R140-R146, R381): the status word, the consecutive count, the drive set with
hold-last-safe, the consequence flags, and the allocation record on its paths.
-/

namespace Sys2Proof.Machine

/-- Codes of the status word (R116). -/
def condCode : Cond → Nat
  | .optimal => 0
  | .capped => 1
  | .ditr => 2
  | .shifted => 3
  | .mfault => 5

/-- Whether a condition falls back to the shifted solution. -/
def fallback : Cond → Bool
  | .shifted => true
  | .mfault => true
  | _ => false

/-- The cause bits of a cycle (R123), in their places in the status word. -/
def causeBits (v : SlvSt) (shviol noshift tkov : Bool) (mf : Bool) : Nat :=
  16 * (v.iters % 64) + 2 ^ 10 * b2n v.fRepl + 2 ^ 11 * b2n v.fIllc + 2 ^ 12 * b2n v.fRetry + 2 ^ 13 * b2n v.fItfail
    + 2 ^ 14 * b2n v.fLate + 2 ^ 15 * b2n v.coldAtE + 2 ^ 16 * b2n shviol + 2 ^ 17 * b2n v.fAsmf + 2 ^ 18 * b2n noshift
    + 2 ^ 19 * b2n v.fRej + 2 ^ 20 * b2n mf + 2 ^ 21 * b2n tkov

/-- Thrust magnitude, azimuth, force and power fields (R140). -/
def isThrust (c : Nat) : Bool := decide (0x100 ≤ c) && decide (c < 0x150)

/-- Scenario margins (R140). -/
def isMargin (c : Nat) : Bool := decide (0x300 ≤ c) && decide (c < 0x308)

/-- Output fields of a solution (R62, R40, R136): thrust fields and margins are not valid in Transit. -/
def solFields (p : PkgData) (x : List F64) (transit : Bool) : List SolEnt :=
  p.outmap.map (fun o =>
    { code := o.code, stage := o.stage, valid := !(transit && (isThrust o.code || isMargin o.code)),
      val := F64.mul o.scale (x.getD o.index 0#64) })

/-- Fields of a publication that has none to repeat (R121): all not valid, their values free (log entry 26). -/
def noFields (p : PkgData) : List SolEnt :=
  p.outmap.map (fun o => { code := o.code, stage := o.stage, valid := false, val := Config.openVal 26 o.code })

/-- The solution part of a repeat (R121). -/
def repeatFields (d : Dispatch) (p : Option PkgData) (transit : Bool) : List SolEnt :=
  match d.last with
  | some r => r.sol.map (fun e => { e with valid := e.valid && !(transit && (isThrust e.code || isMargin e.code)) })
  | none => (p.map noFields).getD []

/-- Identifier of the availability input of a drive field (R142). -/
def availId (c : Nat) : Option Nat :=
  if 0x100 ≤ c ∧ c < 0x110 then some c
  else if 0x110 ≤ c ∧ c < 0x120 then some (c - 0x10)
  else if 0x200 ≤ c ∧ c < 0x210 then some c
  else if 0x220 ≤ c ∧ c < 0x228 then some (0x300 + (c - 0x220))
  else none

/-- Whether the availability input of a drive field reads 0.0 (R142): the element of M its MMAP entry of class 4 fills. -/
def unavailable (p : PkgData) (v : SlvSt) (c : Nat) : Bool :=
  match availId c with
  | none => false
  | some i =>
    (p.mmap.zip v.mvec).any (fun e => e.1.cls == 4 && e.1.index == i && F64.isZero e.2.1)

/-- A drive field from a list of solution entries. -/
def driveOf (es : List SolEnt) (c : Nat) : Bool × F64 :=
  match es.find? (fun e => e.code == c && e.stage == 1) with
  | some e => (e.valid, e.val)
  | none => (false, Config.openVal 26 c)

/-- The value of a drive field in an earlier drive set; one that set lacks is free (log entry 26). -/
def driveFrom (ds : List DriveFld) (c : Nat) : F64 :=
  match ds.find? (fun d => d.code == c) with
  | some d => d.val
  | none => Config.openVal 26 c

/-- Clip of a held value to the present bounds of its index, in units of the field (R145). -/
def clipTo (v : SlvSt) (o : OEnt) (x : F64) : F64 :=
  let a := F64.mul o.scale (vec v 6 o.index)
  let b := F64.mul o.scale (vec v 7 o.index)
  F64.clamp (F64.min a b) (F64.max a b) x

/-- Stage-1 drive entries of the OUTMAP (R141). -/
def driveEnts (p : PkgData) : List OEnt := p.outmap.filter (fun o => o.stage == 1 && isDrive o.code)

/-- What produces the drive set of a cycle (R141, R144, R145): stage 1 of the solution part, or hold-last-safe with or without a last-safe
set; held fields take their validity from the solution part (R142). -/
inductive DriveSrc where
  | solution (es : List SolEnt)
  | held (es : List SolEnt) (ds : List DriveFld) (clip : Bool)
  | nosafe
  deriving DecidableEq, Repr

/-- The drive set (R141, R142, R145). -/
def driveSet (p : PkgData) (v : SlvSt) (transit : Bool) (src : DriveSrc) : List DriveFld :=
  (driveEnts p).map (fun o =>
    let held := match src with
      | .held _ ds _ => ds.any (fun d => d.code == o.code)
      | _ => false
    let base : Bool × F64 := match src with
      | .solution es => driveOf es o.code
      | .held es ds _ => (held && (driveOf es o.code).1, driveFrom ds o.code)
      | .nosafe => (false, Config.openVal 26 o.code)
    let clip := match src with
      | .held _ _ true => held
      | _ => false
    let val := if clip then clipTo v o base.2 else base.2
    { code := o.code, valid := base.1 && !unavailable p v o.code && !(transit && isThrust o.code),
      clip := clip && val != base.2, val := val })

/-- Consequence masks (R136): scenarios in RED and in AMBER, from the margins at stage 1. -/
def flagMask (es : List SolEnt) (f : F64 → Bool) : Nat :=
  (List.range 8).foldl (fun m k => match es.find? (fun e => e.code == 0x300 + k && e.stage == 1 && e.valid) with
    | some e => if f e.val then m + 2 ^ k else m
    | none => m) 0

/-- RED: λ < 1. A margin that is not a number meets none of the conditions of R136 and is shown as GREEN (log entry 75). -/
def isRed (x : F64) : Bool := F64.lt x F64.one

/-- AMBER: 1 ≤ λ < amber / 100, compared exactly; not for a margin that is not a number (log entry 75). -/
def isAmber (amber : Nat) (x : F64) : Bool :=
  !isRed x && F64.isFin x && Dy.lt (Dy.mul (F64.val x) ⟨100, 0⟩) ⟨amber, 0⟩

/-- The allocation record (R381). -/
def allocBytes (r : AllocRec) : List Byte :=
  let st := r.status.toNat
  leBytes 8 r.e.toNat ++ leBytes 8 r.stamp.toNat ++ leBytes 8 r.ltS.toNat ++ leBytes 4 r.ltNs.toNat ++ leBytes 4 r.cyc.toNat
    ++ leBytes 4 st ++ leBytes 4 (2 ^ 32 - 1 - st)
    ++ leBytes 2 (b2n r.hls + 2 * b2n r.stale + 4 * b2n r.nosafe + 8 * b2n r.noflags + 16 * b2n r.byB)
    ++ [r.red, r.amber] ++ leBytes 2 r.sol.length ++ leBytes 2 r.drive.length ++ leBytes 8 r.dig.toNat
    ++ [BitVec.ofNat 8 r.mode, BitVec.ofNat 8 r.grade] ++ List.replicate 6 0#8
    ++ r.sol.flatMap (fun e => leBytes 2 e.code ++ leBytes 2 e.stage ++ leBytes 2 (b2n e.valid) ++ [0#8, 0#8] ++ leBytes 8 e.val.toNat)
    ++ r.drive.flatMap (fun d =>
        let h := leBytes 2 d.code ++ leBytes 2 (b2n d.valid + 2 * b2n d.clip)
        let x := leBytes 8 d.val.toNat
        h ++ h.map (~~~ ·) ++ x ++ x.map (~~~ ·))

/-- The value a packed entry takes (R396): none where the package in force has no such field (R391). -/
def packVal (p : Option PkgData) (r : AllocRec) (c : Nat) : Option F64 :=
  if !p.any (fun p => p.outmap.any (fun m => m.code == c)) then none
  else if isDrive c then (r.drive.find? (fun d => d.code == c && d.valid)).map (·.val)
  else (r.sol.find? (fun e => e.code == c && e.stage == 1 && e.valid)).map (·.val)

/-- Publication delays (R33). -/
def pubDelay (l : Lane) (s : State) : State :=
  let d := usAfterE s s.now
  setF Reg.JX_PUBDLY_LAST_last d l
    (setF Reg.JX_PUBDLY_MIN_min (min d (getF s Reg.JX_PUBDLY_MIN_min l)) l
      (setF Reg.JX_PUBDLY_MAX_max (max d (getF s Reg.JX_PUBDLY_MAX_max l)) l s))

/-- A publication: condition and count of the cycle, the solution it publishes (none: the repeat of R121), whether the cycle's
assembly completed, and whether it is a first publication after takeover. -/
structure PubIn where
  cond : Cond
  cnt : Nat
  sol : Option Solution
  asmDone : Bool
  tkov : Bool

/-- The status code (R117). -/
def pubCode (s : State) (u : PubIn) : Nat :=
  if fallback u.cond && decide (s.slvCfg.shiftmax < u.cnt) then 4 else condCode u.cond

/-- Shifted output outside this cycle's hard variable bounds (R118). -/
def pubShviol (p : Option PkgData) (v : SlvSt) (u : PubIn) : Bool :=
  match p, u.sol with
  | some p, some x =>
    fallback u.cond && u.asmDone && (List.range p.n).any (fun i =>
      isPrimal p i && F64.isZero (vec v 8 i)
        && !(F64.le (vec v 6 i) (x.v9.getD i 0#64) && F64.le (x.v9.getD i 0#64) (vec v 7 i)))
  | _, _ => false

/-- The status word (R115, R123). -/
def statusWord (s : State) (p : Option PkgData) (v : SlvSt) (u : PubIn) : Word :=
  BitVec.ofNat 32 (pubCode s u + causeBits v (pubShviol p v u) u.sol.isNone u.tkov (u.cond == .mfault) + 2 ^ 24 * min u.cnt 255)

/-- Whether hold-last-safe governs the drive set (R144); a takeover publication goes on with the mirrored hold (R146). -/
def pubHls (s : State) (p : Option PkgData) (v : SlvSt) (u : PubIn) : Bool :=
  pubCode s u == 4 || (fallback u.cond && (pubShviol p v u || (u.tkov && !u.asmDone && v.disp.hlscyc != 0)))

/-- The allocation record of a publication (R381). -/
def allocRec (s : State) (l : Lane) (p : Option PkgData) (u : PubIn) : AllocRec :=
  let v := (s.lane l).slv
  let m := modeNow s
  let transit := m == .transit
  let hls := pubHls s p v u
  let es := match u.sol, p with
    | some x, some p => solFields p x.v9 transit
    | _, _ => repeatFields v.disp p transit
  let src : DriveSrc :=
    if hls then
      match v.disp.safe with
      | some ds => .held es ds.1 u.asmDone
      | none => .nosafe
    else .solution es
  let amber := getF s Reg.SLV_TPL_CFG_amber
  let lt := ltAt s l s.cyc.e
  { e := s.cyc.e, stamp := s.now, ltS := BitVec.ofInt 64 (lt / sec), ltNs := BitVec.ofInt 32 (lt % sec),
    cyc := rdK s Reg.JX_CYC_COUNT, status := statusWord s p v u, hls := hls,
    stale := !transit && decide (2 < pubCode s u), nosafe := hls && v.disp.safe.isNone, noflags := transit, byB := l == .b,
    red := if transit then 0#8 else BitVec.ofNat 8 (flagMask es isRed),
    amber := if transit then 0#8 else BitVec.ofNat 8 (flagMask es (isAmber amber)),
    sol := es, drive := (p.map (fun p => driveSet p v transit src)).getD [],
    dig := BitVec.ofNat 64 (leNat (((p.map (·.dig)).getD []).take 8)), mode := modeCode m,
    grade := (s.lane l).fus.grd.grade }

/-- The dispatch state after a publication (R143, R145). -/
def nextDisp (d : Dispatch) (r : AllocRec) : Dispatch :=
  let code := r.status.toNat % 8
  let shviol := bit r.status.toNat 16
  { last := some r,
    safe := if decide (code ≤ 2) || (code == 3 && !shviol) || (r.hls && !r.nosafe) then some (r.drive, r.e) else d.safe,
    hlscyc := if r.hls then min (d.hlscyc + 1) 255 else 0 }

/-- SLV_TPL_STAT (R154) and the events of hold-last-safe and of scenarios that move into RED (R136, R145), judged against the last
published allocation of the station, which is mirrored. -/
def showTpl (l : Lane) (d : Dispatch) (r : AllocRec) (s : State) : State :=
  let src := laneSrc l 6
  let was := ((d.last.map (·.red)).getD 0#8).toNat
  let clips := r.drive.filter (·.clip)
  let s1 := when (r.hls && d.hlscyc == 0) (raise src Ev.TPL_HLS 0) s
  let s2 := forEach (fun (x : DriveFld) => raise src Ev.TPL_HLSCLIP x.code) clips s1
  let s3 := forEach (fun (k : Nat) s =>
    if r.red.getLsbD k && !bit was k then
      match r.sol.find? (fun e => e.code == 0x300 + k && e.stage == 1) with
      | some e => raise src Ev.TPL_SCNRED (k + 2 ^ 32 * (F64.to32 e.val).toNat) s
      | none => s
    else s) (List.range 8) s2
  setB Reg.SLV_TPL_STAT_hls r.hls l
    (setB Reg.SLV_TPL_STAT_hlsclip (!clips.isEmpty) l
      (setB Reg.SLV_TPL_STAT_nosafe r.nosafe l
        (setB Reg.SLV_TPL_STAT_stale r.stale l
          (setF Reg.SLV_TPL_STAT_hlscyc (nextDisp d r).hlscyc l
            (setF Reg.SLV_TPL_STAT_red r.red.toNat l (setF Reg.SLV_TPL_STAT_amb r.amber.toNat l s3))))))

/-- Counters and alarm of the codes (R90, R119, R120). -/
def countPub (l : Lane) (code cnt : Nat) (noshift : Bool) (s : State) : State :=
  let src := laneSrc l 6
  let s1 := when noshift (raise src Ev.PKG_NOSHIFT (2 ^ 32 * (rdK s Reg.JX_CYC_COUNT).toNat)) s
  let s2 := if code = 4 then incF Reg.SLV_CNT1_exhaust l (raiseAlarm src Ev.SLV_REUSE 0 (min cnt 255) s1)
    else if cnt = 0 then clearAlarm src Ev.SLV_REUSE 0 0 s1 else s1
  if 3 ≤ code then incF Reg.SLV_CNT0_fallback l s2 else setF Reg.SLV_PKG_BANK_cold 0 l s2

/-- Publish an allocation of the Active lane (R30, R151): registers, dispatch state, stream, packed CAN objects, the pub toggle of
the watch word (R283). -/
def publish (l : Lane) (p : Option PkgData) (u : PubIn) (s : State) : State :=
  let r := allocRec s l p u
  let v := (s.lane l).slv
  let d := nextDisp v.disp r
  let code := r.status.toNat % 8
  let s1 := showTpl l v.disp r (countPub l code u.cnt u.sol.isNone s)
  let s2 := wrK (Reg.SLV_OUT_STAT + laneSpan * (1 + l.idx)) r.status (pubDelay l s1)
  let s3 := onLane l (fun a =>
    { a with health := { a.health with pub := !a.health.pub },
             slv := { a.slv with disp := d, prior := a.slv.disp.last, shcnt := min u.cnt 255, tkov := false,
                                 newPkg := false,
                                 sol := (u.sol.map (fun x => { x with status := r.status })).or a.slv.sol,
                                 solCyc := if u.sol.isSome then r.cyc else a.slv.solCyc } }) s2
  let s4 := streamRec l 0x10 0 r.stamp (allocBytes r) { s3 with cyc := { s3.cyc with published := true } }
  packAll (packVal p r) r.cyc.toNat
    (code + 8 * b2n r.hls + 16 * b2n u.tkov + 32 * b2n (bit r.status.toNat 16)) s4.mbc.objs (stopPll .slv l s4)

/-- Numeric status of the solve that the cycle ran (R123). -/
def showSolve (l : Lane) (s : State) : State :=
  let v := (s.lane l).slv
  let f32 (x : F64) : Nat := if v.tested then (F64.to32 x).toNat else 0x7FC00000
  setF Reg.SLV_NUM_STAT_repl (min v.mxRepl 0xFFFF) l
    (setF Reg.SLV_NUM_STAT_inert (min v.mxInert 0xFF) l
      (setF Reg.SLV_NUM_STAT_rsteps v.mxRef l
        (setF Reg.SLV_NUM_STAT_retries (min v.r 15) l
          (setF Reg.SLV_SOLVE_T0_t0 ((v.t0.map (usAfterE s)).getD 0xFFFFF) l
            (setF Reg.SLV_SOLVE_T1_t1 ((v.t1.map (usAfterE s)).getD 0) l
              (setF Reg.SLV_RESID_rp (f32 v.rhoP) l (setF Reg.SLV_MU_mu (f32 v.mu) l s)))))))

/-- Whether the bank of a lane is cold (R90). -/
def cold (s : State) (l : Lane) : Bool := getB s Reg.SLV_PKG_BANK_cold l

/-- The bank number and digest of a solution's package. -/
def tagSol (s : State) (l : Lane) (p : PkgData) (x : Solution) : Solution :=
  { x with e := s.cyc.e, bank := (activeBank s l false).getD 0, dig := BitVec.ofNat 64 (leNat (p.dig.take 8)) }

/-- The held solution shifted once for each epoch since its cycle (R98, R122); none while the bank is cold (R121). -/
def shiftedNow (s : State) (l : Lane) (p : Option PkgData) : Option Solution :=
  let v := (s.lane l).slv
  match p, v.sol with
  | some p, some x =>
    if cold s l then none else some (tagSol s l p (shiftTimes p (rdK s Reg.JX_CYC_COUNT - v.solCyc).toNat x))
  | _, _ => none

/-- The solution a cycle publishes (R116): the iterate of an accepted one, else the shifted solution. -/
def pubSolution (s : State) (l : Lane) (p : Option PkgData) (c : Cond) : Option Solution :=
  let v := (s.lane l).slv
  match fallback c, p with
  | false, some p =>
    some (tagSol s l p { e := 0#64, status := 0#32, bank := 0, dig := 0#64, v9 := getVecs v 9 p.n, v10 := getVecs v 10 p.n,
                         v11 := getVecs v 11 p.n, v12 := getVecs v 12 p.n })
  | _, _ => shiftedNow s l p

/-- ALLOCATION_PUBLISHED (R30): the Active lane publishes the allocation of its cycle, once its condition is known. -/
def execAllocationPublished (t : Time) (s : State) : Host.Outcome State Fault Refusal :=
  run t s (fun s =>
    match active s with
    | none => s
    | some l =>
      let v := (s.lane l).slv
      match v.cond with
      | none => s
      | some c =>
        if s.cyc.published || modeNow s == .layup then s
        else
          let p := actPkg s l
          publish l p ⟨c, if fallback c then min (v.shcnt + 1) 255 else 0, pubSolution s l p c, v.asmDone, v.tkov⟩
            (showSolve l s))

end Sys2Proof.Machine
end

