-- ==== Sys2Proof/Machine/Streams.lean ====
section
/-!
DEFINITION. Stream intake (R155, R157-R160, R185): frames of the sensor ports in both lanes, their clock estimators and states,
and the close of intake.
-/

namespace Sys2Proof.Machine

/-- Unlisted streams. -/
def strDef (_ : Nat) : StrSt := {}

/-- A stream slot's state in a lane. -/
def strSt (s : State) (l : Lane) (n : Nat) : StrSt := Sparse.get strDef (s.lane l).fus.strs n

/-- Change a lane's fusion. -/
def onFus (l : Lane) (f : FusSt → FusSt) : State → State := onLane l (fun a => { a with fus := f a.fus })

/-- Set a stream slot's state. -/
def setStr (l : Lane) (n : Nat) (x : StrSt) : State → State :=
  onFus l (fun f => { f with strs := Sparse.set strDef f.strs n x })

/-- Integer square root. -/
def sqrtNat (n : Nat) : Nat := F64.isqrt n (bitLen n / 2 + 1) 0

/-- Deviation of an arrival from the nearest point of a grid of period `tf` through another arrival, in ns. -/
def gridDev (tf : Nat) (t0 t : Time) : Int :=
  let d := (t - t0).toInt
  d - (2 * d + tf) / (2 * tf) * tf

/-- The square of the jitter as a quotient (R159): the RMS of the misalignments of the last second; without a sensor clock that of the
arrivals from a grid of period T_f fitted by least squares, which shifts the grid by the mean of the deviations (log entry 77). -/
def jitSquare (c : StreamCfg) (mis : List (Time × Int)) : Nat × Nat :=
  match c.clk, mis with
  | .none', m :: _ =>
    let ds := mis.map (fun x => gridDev (max c.tf 1) m.1 x.1)
    ((ds.length * (ds.map (fun d => d ^ 2)).sum - ds.sum ^ 2).toNat, ds.length ^ 2)
  | _, _ => ((mis.map (fun m => m.2.natAbs ^ 2)).sum, max mis.length 1)

/-- The clock estimator (R159, R160): offset in ns and drift in ns/s after an observation `y`, `dt` ns after the one before. An
observation more than T_f from the predicted offset is a step and moves the offset at once; else a first-order estimator of 10 s time
constant takes a share of the misfit. With x the interval over the time constant, every such estimator's share lies between x / (1 + x)
and x; which share it is, the spec leaves open (log entry 77). -/
def estimate (tf : Nat) (old : Option (Nat × Int × Int)) (y : Int) : Int × Int :=
  match old with
  | none => (y, 0)
  | some (dt, o, d) =>
    let op := o + d * dt / sec
    let lo := 2 ^ 32 * dt / (10 * sec + dt)
    let hi := min (2 ^ 32) (2 ^ 32 * dt / (10 * sec) + 1)
    let part (k : Nat) : Int := (lo + Config.listVal k [dt, 10 * sec] % (hi - lo + 1) : Nat)
    if tf < (y - op).natAbs then (y, d)
    else (op + (y - op) * part 2 / 2 ^ 32, d + (y - op) * sec * part 3 / (2 ^ 32 * max dt 1))

/-- An instant since which a condition has held: kept while it holds, none when it does not. -/
def held (c : Bool) (since' : Option Time) (now : Time) : Option Time := if c then some (since'.getD now) else none

/-- Whether an instant lies `n` ns back or more. -/
def heldFor (x : Option Time) (now : Time) (n : Nat) : Bool :=
  match x with
  | some t => decide (n ≤ since now t)
  | none => false

/-- State code of a stream after a frame (R160): `bad` and `good` are since when |o| > T_f (or jitter > T_f) holds or has ceased. -/
def strNext (st : Nat) (clocked bad : Bool) (b g : Option Time) (now : Time) : Nat :=
  if st = 3 then (if heldFor g now (10 * sec) then 1 else 3)
  else if heldFor b now (3 * sec) then 3
  else if bad then (if clocked then 2 else 1)
  else if st = 2 && !heldFor g now (3 * sec) then 2
  else 1

/-- A complete frame of a stream (R159, R160): estimator, jitter, state; it waits for its cycle at its mapped time, or at a − L
while the clock is off, and an earlier complete frame of the same cycle is superseded (R157). -/
def frameDone (n : Nat) (c : StreamCfg) (l : Lane) (s : State) : State :=
  let x := strSt s l n
  let y := ltAt s l x.stamp - c.lat
  let clocked := c.clk != .none'
  let est := estimate c.tf (x.lastA.map (fun a => (since x.stamp a, x.o, x.d))) (y - x.tSens.getD 0)
  let o := if clocked then est.1 else 0
  let d := if clocked then est.2 else 0
  let tm : Int := if clocked then x.tSens.getD 0 + o else y
  let mis : List (Time × Int) := ((x.stamp, y - tm) :: x.mis).filter (fun m => decide (since x.stamp m.1 ≤ sec))
  let js : Nat × Nat := jitSquare c mis
  let excess (num den : Nat) : Bool := decide (num * num * (c.tf * c.tf) * js.2 < den * den * js.1)
  let bad := if clocked then decide ((c.tf : Int) < o.natAbs) else excess 1 1
  let b := held bad x.bad s.now
  let g := held (!bad) x.good s.now
  let calm := held (!excess 2 5) x.calm s.now
  let st0 := getF s (Reg.FUS_STRn_STAT_state n) l
  let st := strNext st0 clocked bad b g s.now
  let dw := excess 1 2 || (getB s (Reg.FUS_STRn_STAT_dw n) l && !heldFor calm s.now (3 * sec))
  let cur (t : Time) : Bool := s.cyc.begun && !atOrAfter t s.cyc.e
  let old := x.ready.filter (fun r => cur r.stamp == cur x.stamp)
  let keep := x.ready.filter (fun r => cur r.stamp != cur x.stamp)
  let fr : Frame := ⟨x.stamp, if st = 2 then y else tm, dw, (List.range c.packets).map (fun i => (alGet x.got i).getD [])⟩
  let s1 := setStr l n { x with open' := false, lastCtr := some x.counter, o := o, d := d, lastA := some x.stamp, mis := mis, bad := b, good := g,
                                calm := calm, ready := keep ++ (if st = 3 then [] else [fr]) } s
  let s2 := setF (Reg.FUS_STRn_STAT_state n) st l (setB (Reg.FUS_STRn_STAT_dw n) dw l
    (setB (Reg.FUS_STRn_STAT_clk n) clocked l (setF (Reg.FUS_STRn_OFS_ofs n) (satInt 32 o) l
      (setF (Reg.FUS_STRn_STAT_jit n) (min (sqrtNat (js.1 / js.2) / 1000) 0xFFFF) l s1))))
  let s3 := if st = 3 && st0 ≠ 3 then raise (laneSrc l 7) Ev.FUS_STREXCL n s2
    else if st0 = 3 && st ≠ 3 then raise (laneSrc l 7) Ev.FUS_STRBACK n s2 else s2
  incF (Reg.FUS_STRn_ERR_stale n) l s3 old.length

/-- Sensor time in a packet, in ns (R158): a 64-bit count, or an IEEE 1588 timestamp, big-endian as that standard sends it. -/
def sensorTime (c : StreamCfg) (p : List Byte) : Option Int :=
  match c.clk with
  | .none' => none
  | .ns o => if o + 8 ≤ p.length then some (leAt p o 8 : Nat) else none
  | .ptp o =>
    let be (b : List Byte) : Nat := leNat b.reverse
    if o + 10 ≤ p.length then some (be (slice p o 6) * sec + be (slice p (o + 6) 4) : Nat) else none

/-- A packet of a stream in a lane (R158): it joins the open frame of its counter; a new counter closes that frame, which is dropped
and counted late when it is not complete. A packet of the frame closed last comes too late for it and opens none. -/
def packet (n : Nat) (c : StreamCfg) (p : List Byte) (l : Lane) (s : State) : State :=
  if p.length < c.ofsCounter + 2 || p.length < c.ofsIndex + 2 then s
  else
    let ctr := leAt p c.ofsCounter 2
    let ix := leAt p c.ofsIndex 2
    let x := strSt s l n
    let same := x.open' && x.counter == ctr
    if !same && x.lastCtr == some ctr then s else
    let s1 := if x.open' && !same then incF (Reg.FUS_STRn_ERR_late n) l s else s
    let last := if x.open' then some x.counter else x.lastCtr
    let y : StrSt := if same then x
      else { x with open' := true, counter := ctr, lastCtr := last, stamp := s.now, got := [], tSens := sensorTime c p }
    let got := if decide (ix < c.packets) && (alGet y.got ix).isNone then (ix, p) :: y.got else y.got
    let s2 := setStr l n { y with got := got } s1
    if got.length = c.packets then frameDone n c l s2 else s2

/-- Whether the sensor ports are powered: with the Active lane's FEN (R41). -/
def sensorPortsOn (s : State) : Bool :=
  match active s with
  | some l => domOn s (domBit l + 2)
  | none => false

/-- A frame belongs to the cycle of `e`: its stamp lies before it (R157). -/
def ofCycle (e : Time) (f : Frame) : Bool := !atOrAfter f.stamp e

/-- A frame mapped more than two frame periods before E is not placed (ch. 5, *Cases that meet*). -/
def tooOld (s : State) (l : Lane) (c : StreamCfg) (f : Frame) : Bool := decide (f.tm + 2 * (c.tf : Int) < ltAt s l s.cyc.e)

/-- The frame of a stream that the cycle places (R157): the one its intake took, or, while intake is still open, the one that waits. -/
def cycleFrame (s : State) (l : Lane) (n : Nat) (c : StreamCfg) : Option Frame :=
  let x := strSt s l n
  match x.ready.find? (fun f => ofCycle s.cyc.e f && !tooOld s l c f), x.placed with
  | some f, _ => some f
  | none, some p => if p.1 = s.cyc.e then some p.2 else none
  | none, none => none

/-- The close of intake for a stream of a lane (R29, R157): a frame stamped before E that is not complete is dropped and counted
late; a complete frame mapped more than two frame periods before E is not placed and counts stale; the other is the cycle's. -/
def closeStream (l : Lane) (n : Nat) (c : StreamCfg) (s : State) : State :=
  let x := strSt s l n
  let stale := x.ready.filter (fun f => ofCycle s.cyc.e f && tooOld s l c f)
  let drop := x.open' && !atOrAfter x.stamp s.cyc.e
  let s1 := setStr l n { x with open' := x.open' && !drop, lastCtr := if drop then some x.counter else x.lastCtr, ready := x.ready.filter (fun f => !ofCycle s.cyc.e f),
                                placed := (cycleFrame s l n c).map (fun f => (s.cyc.e, f)) } s
  incF (Reg.FUS_STRn_ERR_stale n) l (if drop then incF (Reg.FUS_STRn_ERR_late n) l s1 else s1) stale.length

/-- Close intake in a lane. -/
def closeIntake (l : Lane) (s : State) : State := forEach (fun (c : Nat × StreamCfg) => closeStream l c.1 c.2) s.cfg.streams s

end Sys2Proof.Machine
end

