-- ==== Sys2Proof/Machine/Filter.lean ====
section
/-!
DEFINITION. The quay frame (R161, R162) and the fusion filter (R174, R533): projection of WGS 84 positions, the resultant of the drive
set, prediction, updates, and the figures the output record takes. Every operation rounds to binary64 on its own; where the order of
terms matters the sum is free (log entries 9 and 78).
-/

namespace Sys2Proof.Machine

/-! The quay frame (R161). -/

/-- A point or vector in three dimensions. -/
structure V3 where
  x : F64
  y : F64
  z : F64
  deriving DecidableEq, Repr

/-- Sum of two vectors. -/
def V3.add (a b : V3) : V3 := ⟨F64.add a.x b.x, F64.add a.y b.y, F64.add a.z b.z⟩

/-- Difference of two vectors. -/
def V3.sub (a b : V3) : V3 := ⟨F64.sub a.x b.x, F64.sub a.y b.y, F64.sub a.z b.z⟩

/-- Scalar product. -/
def V3.dot (a b : V3) : F64 := arrSum [[a.x, b.x], [a.y, b.y], [a.z, b.z]]

/-- A multiple of a vector. -/
def V3.scale (k : F64) (a : V3) : V3 := ⟨F64.mul k a.x, F64.mul k a.y, F64.mul k a.z⟩

/-- Semi-major axis of WGS 84. -/
def wgsA : F64 := F64.ofInt 6378137

/-- Square of the eccentricity of WGS 84: f (2 − f) with 1/f = 298.257223563. -/
def wgsE2 : F64 := F64.ofRat (1000000000 * (2 * 298257223563 - 1000000000)) (298257223563 ^ 2)

/-- Earth-centred coordinates of a WGS 84 position in rad, rad and m. -/
def ecef (lat lon h : F64) : V3 :=
  let s := F64.sin lat
  let c := F64.cos lat
  let n := F64.div wgsA (F64.sqrt (F64.sub F64.one (F64.mul wgsE2 (F64.mul s s))))
  let r := F64.mul (F64.add n h) c
  ⟨F64.mul r (F64.cos lon), F64.mul r (F64.sin lon), F64.mul (F64.add (F64.mul n (F64.sub F64.one wgsE2)) h) s⟩

/-- Directions north and east at a position, in Earth-centred coordinates. -/
def northAt (lat lon : F64) : V3 :=
  ⟨F64.neg (F64.mul (F64.sin lat) (F64.cos lon)), F64.neg (F64.mul (F64.sin lat) (F64.sin lon)), F64.cos lat⟩
def eastAt (lon : F64) : V3 := ⟨F64.neg (F64.sin lon), F64.cos lon, 0#64⟩

/-- Directions of the quay axes x and y: along the datum azimuth, and 90° clockwise from it. -/
def axisX (d : Datum) : V3 := (V3.scale (F64.cos d.azi) (northAt d.lat d.lon)).add (V3.scale (F64.sin d.azi) (eastAt d.lon))
def axisY (d : Datum) : V3 := (V3.scale (F64.cos d.azi) (eastAt d.lon)).sub (V3.scale (F64.sin d.azi) (northAt d.lat d.lon))

/-- Quay coordinates of an Earth-centred point. -/
def toQuay (d : Datum) (p : V3) : F64 × F64 :=
  let v := p.sub (ecef d.lat d.lon d.hgt)
  (v.dot (axisX d), v.dot (axisY d))

/-- The Earth-centred point of quay coordinates, at the height of the datum's plane. -/
def fromQuay (d : Datum) (x y : F64) : V3 :=
  ((ecef d.lat d.lon d.hgt).add (V3.scale x (axisX d))).add (V3.scale y (axisY d))

/-- π and 2π. -/
def piF : F64 := 0x400921FB54442D18#64
def twoPi : F64 := 0x401921FB54442D18#64

/-- An angle in rad brought to −π … π, from at most one turn beyond it. -/
def wrapRad (a : F64) : F64 :=
  if F64.lt piF a then F64.sub a twoPi else if F64.lt a (F64.neg piF) then F64.add a twoPi else a

/-- Degrees of an angle in rad. -/
def degOf (a : F64) : F64 := F64.mul a (F64.div (F64.ofInt 180) piF)

/-- Rows of the rotation by roll, pitch and yaw that takes a body vector to the frame above it. -/
def rotRows (roll pitch yaw : F64) : List V3 :=
  let cr := F64.cos roll
  let sr := F64.sin roll
  let cp := F64.cos pitch
  let sp := F64.sin pitch
  let cy := F64.cos yaw
  let sy := F64.sin yaw
  let m := F64.mul
  [⟨m cy cp, F64.sub (m (m cy sp) sr) (m sy cr), F64.add (m (m cy sp) cr) (m sy sr)⟩,
   ⟨m sy cp, F64.add (m (m sy sp) sr) (m cy cr), F64.sub (m (m sy sp) cr) (m cy sr)⟩,
   ⟨F64.neg sp, m cp sr, m cp cr⟩]

/-- A vector taken to the frame above. -/
def rotate (rows : List V3) (p : V3) : V3 :=
  let r (i : Nat) : V3 := rows.getD i ⟨0#64, 0#64, 0#64⟩
  ⟨(r 0).dot p, (r 1).dot p, (r 2).dot p⟩

/-- A vector taken back into the frame below. -/
def rotateBack (rows : List V3) (p : V3) : V3 :=
  let r (i : Nat) : V3 := rows.getD i ⟨0#64, 0#64, 0#64⟩
  ((V3.scale p.x (r 0)).add (V3.scale p.y (r 1))).add (V3.scale p.z (r 2))

/-! Prediction (R174, R533). -/

/-- What a prediction uses besides the state: the 48 figures of item 0x000E, the drive set last published, the gyro rate. -/
structure PredIn where
  fig : List F64
  drive : List DriveFld
  gyro : Option F64

/-- A figure of item 0x000E, in the order of R533: inertias 0-2, dampings 3-5, thruster positions 6-37, force noise 38-40, gyro rate
noise 41, bias walk 42, initial deviations 43-47. -/
def PredIn.f (k : PredIn) (i : Nat) : F64 := k.fig.getD i 0#64

/-- Element of a state. -/
def fv (f : Filt) (i : Nat) : F64 := f.x.getD i 0#64

/-- Element of its covariance. -/
def fc (f : Filt) (i j : Nat) : F64 := (f.p.getD i []).getD j 0#64

/-- The thrust resultant in the body frame, from each drive magnitude and azimuth that is valid (R141, R533): surge, sway, yaw. -/
def thrust (k : PredIn) : F64 × F64 × F64 :=
  let val (c : Nat) : Option F64 := (k.drive.find? (fun d => d.code == c && d.valid)).map (·.val)
  let ts := (List.range 16).filterMap (fun t =>
    match val (0x100 + t), val (0x110 + t) with
    | some m, some a => some (m, F64.cos a, F64.sin a, k.f (6 + 2 * t), k.f (7 + 2 * t))
    | _, _ => none)
  if ts.isEmpty then (0#64, 0#64, 0#64)
  else
    (arrSum (ts.map (fun t => [t.1, t.2.1])), arrSum (ts.map (fun t => [t.1, t.2.2.1])),
     arrSum (ts.flatMap (fun t => [[t.2.2.2.1, t.1, t.2.2.1], [F64.neg t.2.2.2.2, t.1, t.2.1]])))

/-- The rates of the seven states: each body acceleration is (thrust − damping × velocity) / inertia; the heading turns by the gyro rate
less its bias where a gyro gives one, else by r. -/
def ratesOf (k : PredIn) (f : Filt) : List F64 :=
  let s := F64.sin ((fv f 2))
  let c := F64.cos ((fv f 2))
  let t := thrust k
  let acc (i : Nat) (q : F64) : F64 := F64.div (F64.sub q (F64.mul (k.f (3 + i)) ((fv f (3 + i))))) (k.f i)
  [arrSum [[(fv f 3), c], [F64.neg ((fv f 4)), s]], arrSum [[(fv f 3), s], [(fv f 4), c]],
   match k.gyro with
   | some g => F64.sub g ((fv f 6))
   | none => (fv f 5),
   acc 0 t.1, acc 1 t.2.1, acc 2 t.2.2, 0#64]

/-- Row `i` of the Jacobian of the rates. -/
def jacRow (k : PredIn) (f : Filt) (i : Nat) : List F64 :=
  let s := F64.sin ((fv f 2))
  let c := F64.cos ((fv f 2))
  let z : F64 := 0#64
  let damp (j : Nat) : F64 := F64.neg (F64.div (k.f (3 + j)) (k.f j))
  match i with
  | 0 => [z, z, F64.neg (arrSum [[(fv f 3), s], [(fv f 4), c]]), c, F64.neg s, z, z]
  | 1 => [z, z, arrSum [[(fv f 3), c], [F64.neg ((fv f 4)), s]], s, c, z, z]
  | 2 => if k.gyro.isSome then [z, z, z, z, z, z, F64.neg F64.one] else [z, z, z, z, z, F64.one, z]
  | 3 => [z, z, z, damp 0, z, z, z]
  | 4 => [z, z, z, z, damp 1, z, z]
  | 5 => [z, z, z, z, z, damp 2, z]
  | _ => [z, z, z, z, z, z, z]

/-- Process noise of a state: white force over the inertia, the noise of the gyro, the walk of its bias (R533). -/
def noiseOf (k : PredIn) (i : Nat) : F64 :=
  match i with
  | 2 => if k.gyro.isSome then k.f 41 else 0#64
  | 3 => F64.div (k.f 38) (F64.mul (k.f 0) (k.f 0))
  | 4 => F64.div (k.f 39) (F64.mul (k.f 1) (k.f 1))
  | 5 => F64.div (k.f 40) (F64.mul (k.f 2) (k.f 2))
  | 6 => k.f 42
  | _ => 0#64

/-- Rate of a covariance element: A·P + P·Aᵀ + Q. -/
def covRate (k : PredIn) (f : Filt) (i j : Nat) : F64 :=
  let a (r q : Nat) : F64 := (jacRow k f r).getD q 0#64
  arrSum ((List.range 7).flatMap (fun q => [[a i q, (fc f q j)], [(fc f i q), a j q]]) ++ (if i = j then [[noiseOf k i]] else []))

/-- Prediction to a later instant (R174). The rates are R533's; how they are integrated over the time the spec does not give, so each
figure is a free function of its value, its rate and the time (log entry 78). -/
def predict (k : PredIn) (t : Time) (f : Filt) : Filt :=
  if t = f.at' || !atOrAfter t f.at' then f
  else
    let dt := F64.ratio (since t f.at') sec
    let rs := ratesOf k f
    let all := f.x ++ rs
    { at' := t,
      x := (List.range 7).map (fun i => if i = 6 then (fv f 6) else Config.propagate i dt ((fv f i)) (rs.getD i 0#64) all),
      p := (List.range 7).map (fun i => (List.range 7).map (fun j =>
        Config.propagate (7 + 7 * min i j + max i j) dt ((fc f i j)) (covRate k f (min i j) (max i j)) all)) }

/-! Updates. -/

/-- One measured figure: its instant, the state it measures, its value, its variance. -/
structure Meas where
  at' : Time
  ix : Nat
  z : F64
  r : F64

/-- Update by one measured figure: gain P·h / (hᵀP·h + r); a heading's difference is taken on the circle. -/
def update (m : Meas) (f : Filt) : Filt :=
  let d0 := F64.sub m.z ((fv f m.ix))
  let d := if m.ix = 2 then wrapRad d0 else d0
  let s := F64.add ((fc f m.ix m.ix)) m.r
  let g (i : Nat) : F64 := F64.div ((fc f i m.ix)) s
  { f with
    x := (List.range 7).map (fun i =>
      let y := F64.add ((fv f i)) (F64.mul (g i) d)
      if i = 2 then wrapRad y else y),
    p := (List.range 7).map (fun i => (List.range 7).map (fun j => F64.sub ((fc f i j)) (F64.mul (g i) ((fc f m.ix j))))) }

/-- A measurement into a list by rising instant, after those of the same instant. -/
def insMeas (m : Meas) : List Meas → List Meas
  | [] => [m]
  | x :: xs => if atOrAfter m.at' x.at' then x :: insMeas m xs else m :: x :: xs

/-- The filter over a cycle (R174): from the previous epoch to each input's measured instant, updated there, and on to E. An input measured
before the previous epoch updates there. -/
def filterRun (k : PredIn) (e : Time) (ms : List Meas) (f : Filt) : Filt :=
  predict k e ((ms.foldl (fun l m => insMeas m l) []).foldl (fun f m => update m (predict k m.at' f)) f)

/-- The filter at a start (R532): first position and heading, at rest, with the initial deviations of item 0x000E. -/
def filterStart (k : PredIn) (e : Time) (x y psi : F64) : Filt :=
  let sd := [43, 43, 44, 45, 45, 46, 47]
  { at' := e, x := [x, y, psi, 0#64, 0#64, 0#64, 0#64],
    p := (List.range 7).map (fun i => (List.range 7).map (fun j =>
      if i = j then let q := k.f (sd.getD i 0); F64.mul q q else 0#64)) }

/-- Items 0-14 of the output record (R175). -/
def filterItems (f : Filt) : List F64 :=
  (List.range 6).map (fv f) ++ [(fc f 0 0), (fc f 0 1), (fc f 0 2), (fc f 1 1), (fc f 1 2), (fc f 2 2), (fc f 3 3), (fc f 4 4), (fc f 5 5)]

/-- A datum change (R162): the pose in the new frame, by way of Earth-centred coordinates; the covariance turns with it. -/
def reframe (old new : Datum) (f : Filt) : Filt :=
  let p := toQuay new (fromQuay old ((fv f 0)) ((fv f 1)))
  let q := toQuay new (fromQuay old (F64.add ((fv f 0)) (F64.cos ((fv f 2)))) (F64.add ((fv f 1)) (F64.sin ((fv f 2)))))
  let psi := F64.atan2 (F64.sub q.2 p.2) (F64.sub q.1 p.1)
  let d := F64.sub psi ((fv f 2))
  let c := F64.cos d
  let s := F64.sin d
  let turn (i : Nat) (a b x : F64) : F64 := match i with
    | 0 => F64.sub (F64.mul c a) (F64.mul s b)
    | 1 => F64.add (F64.mul s a) (F64.mul c b)
    | _ => x
  let row (i : Nat) : List F64 := (List.range 7).map (fun j => turn i ((fc f 0 j)) ((fc f 1 j)) ((fc f i j)))
  { f with
    x := p.1 :: p.2 :: psi :: f.x.drop 3,
    p := (List.range 7).map (fun i => let r := row i
      (List.range 7).map (fun j => turn j (r.getD 0 0#64) (r.getD 1 0#64) (r.getD j 0#64))) }

end Sys2Proof.Machine
end

