-- ==== Sys2Proof/Machine/Extract.lean ====
section
/-!
DEFINITION. Feature extraction and registration (R163, R168-R173): input tensors from frames, placement of the extractors' outputs into
the current grid, and the search of the current grid against the previous one. What the network computes is open (log entry 76).
-/

namespace Sys2Proof.Machine

/-- Unlisted grid elements. -/
def h16Def (_ : Nat) : BitVec 16 := 0#16

/-! Input tensors (R168). -/

/-- Natural logarithm of a number above 0 in units of 2^−96, from its binary logarithm and the series of the rest. -/
def lnFix (n : Nat) : Int :=
  let rec atanh (q : Int) : Nat → Nat → Int → Int → Int
    | 0, _, _, acc => acc
    | f + 1, i, t, acc => let t1 := t * q / 2 ^ 96; atanh q f (i + 2) t1 (acc + t1 / ((i + 2 : Nat) : Int))
  let two (z : Int) : Int := 2 * atanh (z * z / 2 ^ 96) 40 1 z z
  let k := Nat.log2 n
  k * two (2 ^ 96 / 3) + two (((n - 2 ^ k : Nat) : Int) * 2 ^ 96 / ((n + 2 ^ k : Nat) : Int))

/-- Where the data of a packet begins: behind the fields of the framing and the sensor clock (log entry 76). -/
def dataAt (c : StreamCfg) : Nat :=
  max (max (c.ofsCounter + 2) (c.ofsIndex + 2)) (match c.clk with
    | .none' => 0
    | .ns o => o + 8
    | .ptp o => o + 10)

/-- A coordinate of a point record, in m. -/
def coord (f : PtFld) (r : List Byte) : F64 :=
  F64.mul f.scale (match f.typ with
    | 0 => F64.ofInt (sgn 16 (leAt r f.ofs 2))
    | 1 => F64.ofInt (sgn 32 (leAt r f.ofs 4))
    | _ => F64.of32 (BitVec.ofNat 32 (leAt r f.ofs 4)))

/-- A point with its intensity scaled to [0, 1]. -/
structure Pt where
  p : V3
  i : F64

/-- The points of a frame, record after record. -/
def points (c : StreamCfg) (f : Frame) : List Pt :=
  f.pkts.flatMap (fun b =>
    let d := b.drop (dataAt c)
    (List.range (d.length / max c.recLen 1)).map (fun k =>
      let r := slice d (k * c.recLen) c.recLen
      ⟨⟨coord c.ptX r, coord c.ptY r, coord c.ptZ r⟩,
       if c.intWide then F64.ratio (leAt r c.intOfs 2) 65535 else F64.ratio (leAt r c.intOfs 1) 255⟩))

/-- The sensor's rotation into the body frame, and its position there. -/
def sensorRot (c : StreamCfg) : List V3 := rotRows c.roll c.pitch c.yaw
def sensorPos (c : StreamCfg) : V3 := ⟨c.px, c.py, c.pz⟩

/-- A point of a scan without the vessel's motion since the scan began, `dt` s before it was measured (R158): u, v and r of the filter. -/
def unmove (c : StreamCfg) (f : Option Filt) (dt : F64) (p : V3) : V3 :=
  match f with
  | none => p
  | some f =>
    let b := (rotate (sensorRot c) p).add (sensorPos c)
    let a := F64.mul ((fv f 5)) dt
    let m := (rotate (rotRows 0#64 0#64 a) b).add ⟨F64.mul ((fv f 3)) dt, F64.mul ((fv f 4)) dt, 0#64⟩
    rotateBack (sensorRot c) (m.sub (sensorPos c))

/-- The points of a frame as one scan at its measured instant: the motion is spread linearly over T_f. -/
def scanPoints (c : StreamCfg) (f : Option Filt) (fr : Frame) : List Pt :=
  let ps := points c fr
  ps.zipIdx.map (fun x => ⟨unmove c f (F64.ratio (c.tf * x.2) (ps.length * sec)) x.1.p, x.1.i⟩)

/-- The cell of a coordinate in a sensor-centred axis of `n` cells. -/
def rasterIx (cell : F64) (n : Nat) (x : F64) : Int :=
  (Dy.add (F64.val (F64.div x cell)) ⟨n, -1⟩).floor

/-- Mean of values as a quotient of their exact sum. -/
def meanOf (xs : List F64) : F64 :=
  F64.div (F64.ofDy false ((xs.map F64.val).foldl Dy.add ⟨0, 0⟩)) (F64.ofInt xs.length)

/-- The eight channels of a cell (R168); heights are positive up, the sensor's z down. An empty cell is 0. -/
def lidarCell (ps : List Pt) : List (BitVec 16) :=
  let hs := ps.map (fun p => F64.neg p.p.z)
  let is' := ps.map (·.i)
  match hs with
  | [] => List.replicate 8 0#16
  | h :: _ =>
    [F64.to16 (F64.ofDy false ⟨lnFix (ps.length + 1), -96⟩), F64.to16 (hs.foldl F64.max h), F64.to16 (hs.foldl F64.min h),
     F64.to16 (meanOf hs), F64.to16 (meanOf is'), F64.to16 (is'.foldl F64.max 0#64),
     F64.to16 (meanOf (ps.map (fun p => F64.sqrt (p.p.dot p.p)))), F64.to16 F64.one]

/-- The tensor of a lidar frame, channel-last. -/
def lidarTensor (x : ExtData) (ps : List Pt) : List (BitVec 16) :=
  let cell := F64.of32 x.inCell
  let at' := (ps.filter (fun p => okXYZ p.p)).map (fun p => (rasterIx cell x.inH p.p.x, rasterIx cell x.inW p.p.y, p))
  (List.range (x.inH * x.inW)).flatMap (fun k =>
    lidarCell ((at'.filter (fun a => a.1 == ((k / x.inW : Nat) : Int) && a.2.1 == ((k % x.inW : Nat) : Int))).map (·.2.2)))
where
  okXYZ (p : V3) : Bool := F64.isFin p.x && F64.isFin p.y && F64.isFin p.z

/-- A channel of a pixel converted to RGB: of YUV422 by a conversion the spec does not give, from the four bytes of its pair. -/
def rgbAt (c : StreamCfg) (img : List Byte) (y x ch : Nat) : Nat :=
  let k := y * c.width + x
  match c.pix with
  | .rgb888 => (img.getD (3 * k + ch) 0#8).toNat
  | .mono8 => (img.getD k 0#8).toNat
  | .yuv422 => (Config.openVal 47 (leAt img (4 * (k / 2)) 4 + 2 ^ 32 * (k % 2) + 2 ^ 33 * ch)).toNat % 256

/-- Source position of an output index: twice the output size as denominator. -/
def resizeAt (n m i : Nat) : Nat × Nat × Nat :=
  let p := min ((2 * i + 1) * n - m) (2 * m * (n - 1))
  (p / (2 * m), min (p / (2 * m) + 1) (n - 1), p % (2 * m))

/-- The tensor of a camera frame: the full image, bilinearly resized, each value pixel − 128; a value between two is rounded by a free
choice (log entry 11). -/
def cameraTensor (c : StreamCfg) (x : ExtData) (fr : Frame) : List (BitVec 16) :=
  let img := fr.pkts.flatMap (fun b => b.drop (dataAt c))
  (List.range (x.inH * x.inW)).flatMap (fun k =>
    let a := resizeAt c.height x.inH (k / x.inW)
    let b := resizeAt c.width x.inW (k % x.inW)
    (List.range 3).map (fun ch =>
      let q (y x : Nat) : Nat := rgbAt c img y x ch
      let n := 2 * x.inH - a.2.2
      let m := 2 * x.inW - b.2.2
      let v := n * (m * q a.1 b.1 + b.2.2 * q a.1 b.2.1) + a.2.2 * (m * q a.2.1 b.1 + b.2.2 * q a.2.1 b.2.1)
      let w := 4 * x.inH * x.inW
      BitVec.ofInt 16 ((v / w + (if v % w = 0 then 0 else b2n (Config.roundUp (2 * v))) : Nat) - 128)))

/-! Output tensors and the current grid (R169, R170). -/

/-- A stream's output as it is placed: configuration, extractor, output elements, the pose at the frame's mapped time, the weight of
R160. -/
structure Placed where
  c : StreamCfg
  x : ExtData
  out : Nat → BitVec 16
  pose : F64 × F64 × F64
  dw : Bool

/-- Confidence of an output cell (R169): clamped to [0, 1]; a NaN feature or confidence makes it 0. -/
def outConf (f : Nat → BitVec 16) (cell : Nat) : F64 :=
  if (List.range 32).any (fun ch => F64.isNan (F64.of16 (f (32 * cell + ch)))) then 0#64
  else F64.clamp 0#64 F64.one (F64.of16 (f (32 * cell + 31)))

/-- A channel of an output cell: the features of a cell without confidence by a NaN count as 0. -/
def outVal (f : Nat → BitVec 16) (cell ch : Nat) : F64 :=
  if ch = 31 then outConf f cell
  else
    let v := F64.of16 (f (32 * cell + ch))
    if F64.isNan v then 0#64 else v

/-- Size of a grid cell in m: (code + 1) / 20 (R163). -/
def cellSize (code : Nat) : F64 := F64.ratio (code + 1 : Nat) 20

/-- Quay coordinate of the centre of a cell: origin in units of 256 cells. -/
def cellMid (code : Nat) (org : Int) (i : Nat) : F64 := F64.ofRat ((2 * (256 * org + i) + 1) * (code + 1 : Nat)) 40

/-- The point of a sensor's plane that lies at quay coordinates (R170): through the pose and the extrinsics. -/
def sensorPlane (q : Placed) (x y : F64) : F64 × F64 :=
  let rs := sensorRot q.c
  let r (i : Nat) : V3 := rs.getD i ⟨0#64, 0#64, 0#64⟩
  let c := F64.cos q.pose.2.2
  let s := F64.sin q.pose.2.2
  let dx := F64.sub x q.pose.1
  let dy := F64.sub y q.pose.2.1
  let bx := F64.sub (arrSum [[dx, c], [dy, s]]) q.c.px
  let by' := F64.sub (arrSum [[dy, c], [F64.neg dx, s]]) q.c.py
  let det := arrSum [[(r 0).x, (r 1).y], [F64.neg (r 0).y, (r 1).x]]
  (F64.div (arrSum [[bx, (r 1).y], [F64.neg by', (r 0).y]]) det, F64.div (arrSum [[by', (r 0).x], [F64.neg bx, (r 1).x]]) det)

/-- Fractional index of a coordinate among the cells of an output axis: the index below and the rest. -/
def outIndex (x0 cell x : F64) : Int × F64 :=
  let t := F64.sub (F64.div (F64.sub x x0) cell) (pow2 (-1))
  let k := (F64.val t).floor
  (k, F64.sub t (F64.ofInt k))

/-- What a stream gives for a point: nothing outside its output, else a channel by bilinear resampling. -/
def sampleAt (q : Placed) (x y : F64) : Option (Nat → F64) :=
  let p := sensorPlane q x y
  let a := outIndex (F64.of32 q.x.outX0) (F64.of32 q.x.outCell) p.1
  let b := outIndex (F64.of32 q.x.outY0) (F64.of32 q.x.outCell) p.2
  let ok (k : Int) (w : F64) (n : Nat) : Bool := decide (0 ≤ k) && (decide (k + 1 < n) || (decide (k + 1 = n) && F64.isZero w))
  if !F64.isFin p.1 || !F64.isFin p.2 || !ok a.1 a.2 q.x.outH || !ok b.1 b.2 q.x.outW then none
  else
    some (fun ch =>
      let v (i j : Nat) : F64 := outVal q.out ((min (a.1.toNat + i) (q.x.outH - 1)) * q.x.outW + min (b.1.toNat + j) (q.x.outW - 1)) ch
      let na := F64.sub F64.one a.2
      let nb := F64.sub F64.one b.2
      arrSum [[na, nb, v 0 0], [na, b.2, v 0 1], [a.2, nb, v 1 0], [a.2, b.2, v 1 1]])

/-- The 32 values of a cell of the current grid (R170): features weighted by confidence, and the largest confidence. -/
def gridCell (qs : List Placed) (x y : F64) : List (BitVec 16) :=
  let fs := qs.filterMap (fun q => sampleAt q x y)
  let cs := fs.map (fun f => (f 31, f))
  let tot := arrSum (cs.map (fun f => [f.1]))
  let top := cs.foldl (fun m f => F64.max m f.1) 0#64
  if fs.isEmpty || F64.isZero top then List.replicate 32 0#16
  else
    (List.range 31).map (fun ch => F64.to16 (F64.div (arrSum (cs.map (fun f => [f.1, f.2 ch]))) tot)) ++ [F64.to16 top]

/-- The current grid of a cycle (R164, R170): the features of this cycle's frames alone. -/
def buildGrid (code : Nat) (ox oy : Int) (qs : List Placed) : Sparse (BitVec 16) :=
  if qs.isEmpty then []
  else
    (List.range (1024 * 1024)).flatMap (fun k =>
      ((gridCell qs (cellMid code ox (k / 1024)) (cellMid code oy (k % 1024))).zipIdx.filter (fun v => v.1 ≠ 0#16)).map
        (fun v => (32 * k + v.2, v.1)))

/-! Registration (R172, R173). -/

/-- Confidence of a cell, clamped to [0, 1], 0 where a value of the cell is a NaN (R169). -/
def cellConf (g : Sparse (BitVec 16)) (cell : Nat) : F64 := outConf (Sparse.get h16Def g) cell

/-- A shift under trial: cells in x and y, steps of 0.1° about the predicted pose. -/
structure Shift where
  dx : Int
  dy : Int
  k : Int
  deriving DecidableEq, Repr

/-- The search of R172: translations of ±32 cells in x and y, rotations of ±2.0° in 0.1° steps. -/
def shifts : List Shift :=
  (List.range 65).flatMap (fun (i : Nat) => (List.range 65).flatMap (fun (j : Nat) => (List.range 41).map (fun (k : Nat) =>
    ⟨(i : Int) - 32, (j : Int) - 32, (k : Int) - 20⟩)))

/-- 0.1° in rad. -/
def rotStep : F64 := F64.div piF (F64.ofInt 1800)

/-- The predicted position in cells of the grid. -/
def poseCell (code : Nat) (org : Int) (x : F64) : F64 :=
  F64.sub (F64.sub (F64.div x (cellSize code)) (F64.ofInt (256 * org))) (pow2 (-1))

/-- The pairs of cells of a shift: each cell of the current grid with confidence, and the cell of the previous grid nearest to where the
shift takes its centre (log entry 78). -/
def pairs (cur prev : Sparse (BitVec 16)) (px py : F64) (h : Shift) : List (Nat × Nat) :=
  let a := F64.mul (F64.ofInt h.k) rotStep
  let c := if h.k = 0 then F64.one else F64.cos a
  let s := if h.k = 0 then 0#64 else F64.sin a
  let near (t : F64) : Int := (F64.val (F64.add t (pow2 (-1)))).floor
  ((cur.filter (fun e => e.1 % 32 == 31)).map (fun e => e.1 / 32)).filterMap (fun k =>
    let ri := F64.sub (F64.ofInt (k / 1024 : Nat)) px
    let rj := F64.sub (F64.ofInt (k % 1024 : Nat)) py
    let i := near (F64.add (arrSum [[ri, c], [F64.neg rj, s]]) px) + h.dx
    let j := near (F64.add (arrSum [[ri, s], [rj, c]]) py) + h.dy
    if 0 ≤ i && decide (i < 1024) && decide (0 ≤ j) && decide (j < 1024) && !F64.isZero (cellConf cur k)
        && !F64.isZero (cellConf prev (i.toNat * 1024 + j.toNat)) then
      some (k, i.toNat * 1024 + j.toNat)
    else none)

/-- The score of a shift (R172): the normalised cross-correlation of channels 0-30, weighted by the product of the two confidences; the sums
are exact. -/
def scoreOf (cur prev : Sparse (BitVec 16)) (ps : List (Nat × Nat)) : F64 :=
  let val (g : Sparse (BitVec 16)) (k : Nat) : Dy := F64.val (F64.of16 (Sparse.get h16Def g k))
  let sum (f : Dy → Dy → Dy) : F64 :=
    F64.ofDy false ((ps.flatMap (fun p =>
      let w := (F64.val (cellConf cur p.1)).mul (F64.val (cellConf prev p.2))
      (List.range 31).map (fun ch => w.mul (f (val cur (32 * p.1 + ch)) (val prev (32 * p.2 + ch)))))).foldl Dy.add ⟨0, 0⟩)
  F64.div (sum Dy.mul) (F64.sqrt (F64.mul (sum (fun a _ => a.mul a)) (sum (fun _ b => b.mul b))))

/-- Result of a registration (R172, R173): peak score, peak ratio, cells with confidence at least 0.5 in both grids, the refined shift in
cells and steps, and the curvature of the peak along each. -/
structure RegRes where
  score : F64
  ratio : F64
  cells : Nat
  shift : List F64
  curv : List F64
  deriving DecidableEq, Repr

/-- Refinement along one axis by a parabola through the peak and its neighbours: the offset, and the curvature. At the edge of the search
there is none. -/
def parabola (a b c : Option F64) : F64 × F64 :=
  match a, b, c with
  | some a, some b, some c =>
    let k := F64.sub (F64.add b b) (F64.add a c)
    (if F64.isZero k then 0#64 else F64.div (F64.mul (pow2 (-1)) (F64.sub c a)) k, k)
  | _, _, _ => (0#64, 0#64)

/-- The registration of the current grid against the previous one (R172). -/
def register (cur prev : Sparse (BitVec 16)) (px py : F64) : RegRes :=
  let sc := shifts.map (fun h => (h, scoreOf cur prev (pairs cur prev px py h)))
  let top := sc.foldl (fun m x => if F64.lt m.2 x.2 || F64.isNan m.2 then x else m) (⟨0, 0, 0⟩, F64.inf true)
  let far := (sc.filter (fun x => decide (9 < (x.1.dx - top.1.dx) ^ 2 + (x.1.dy - top.1.dy) ^ 2) || decide (3 < (x.1.k - top.1.k).natAbs))).map (·.2)
  let second := far.foldl (fun m x => if F64.lt m x then x else m) (F64.inf true)
  let at' (h : Shift) : Option F64 := (sc.find? (fun x => x.1 == h)).map (·.2)
  let t := top.1
  let b := some top.2
  let x := parabola (at' { t with dx := t.dx - 1 }) b (at' { t with dx := t.dx + 1 })
  let y := parabola (at' { t with dy := t.dy - 1 }) b (at' { t with dy := t.dy + 1 })
  let k := parabola (at' { t with k := t.k - 1 }) b (at' { t with k := t.k + 1 })
  { score := top.2, ratio := if F64.lt 0#64 second then F64.div top.2 second else F64.inf false,
    cells := ((pairs cur prev px py t).filter (fun p =>
      F64.le (pow2 (-1)) (cellConf cur p.1) && F64.le (pow2 (-1)) (cellConf prev p.2))).length,
    shift := [F64.add (F64.ofInt t.dx) x.1, F64.add (F64.ofInt t.dy) y.1, F64.add (F64.ofInt t.k) k.1],
    curv := [x.2, y.2, k.2] }

/-- A registration is accepted (R173). -/
def regOk (r : RegRes) : Bool :=
  F64.le (F64.div (F64.ofInt 3) (F64.ofInt 10)) r.score && F64.le (F64.of32 0x3FC00000#32) r.ratio && decide (2000 ≤ r.cells)

/-- How much the streams raise the registration's covariance (R160): the mean over the cells of the grid that each stream covers, 4 for a
stream weighted down and 1 for another. -/
def dwFactor (code : Nat) (ox oy : Int) (qs : List Placed) : F64 :=
  let covers (q : Placed) : Nat := ((List.range (1024 * 1024)).filter (fun k =>
    (sampleAt q (cellMid code ox (k / 1024)) (cellMid code oy (k % 1024))).any (fun f => !F64.isZero (f 31)))).length
  if !qs.any (·.dw) then F64.one
  else
    let n := qs.map (fun q => (covers q, q.dw))
    F64.ratio (n.map (fun x => if x.2 then 4 * x.1 else x.1)).sum (max 1 (n.map (·.1)).sum)

/-- The pose correction of an accepted registration with its variances (R173, R186): the variance from the curvature of the peak, by a formula
the spec does not give (log entry 78), raised by the weight of R160, and no smaller than (0.25c)² and (0.025°)², or c² after a takeover. -/
def egoMeas (code : Nat) (afterKey : Bool) (dw : F64) (r : RegRes) : List (F64 × F64) :=
  let c := cellSize code
  let q := if afterKey then c else F64.mul (pow2 (-2)) c
  let h := F64.mul (pow2 (-2)) rotStep
  let sh (i : Nat) : F64 := r.shift.getD i 0#64
  let var (i : Nat) (unit fl : F64) : F64 :=
    F64.max (F64.mul fl fl) (F64.mul dw (F64.mul (F64.mul unit unit) (Config.peakVar i r.score (r.curv.getD i 0#64))))
  [(F64.mul (sh 0) c, var 0 c q), (F64.mul (sh 1) c, var 1 c q), (F64.mul (sh 2) rotStep, var 2 rotStep h)]

end Sys2Proof.Machine
end

