-- ==== Sys2Proof/Machine/Fusion.lean ====
section
/-!
DEFINITION. Fusion (R162-R186, R532, R533): votes, reference states, the fusion of a cycle, grades, grids, the output record; starts,
stops and the start of assembly (R60, R61, R71).
-/

namespace Sys2Proof.Machine

/-! Votes (R177-R179). -/

/-- Length of a refage unit. -/
def refAgeNs (s : State) : Nat := getF s Reg.FUS_CFG_refage * 10 * ms

/-- Configured latency of a reference slot (R156). -/
def refLat (s : State) (slot : Nat) : Nat := ((alGet s.cfg.refs slot).map (·.lat)).getD 0

/-- Whether a latched value is young enough (R157). -/
def refFresh (s : State) (x : Nat × RefIn) : Bool := decide (since s.cyc.e x.2.stamp + refLat s x.1 ≤ refAgeNs s)

/-- A slot has a usable value of a kind: 1 position, 2 heading. -/
def usableKind (s : State) (l : Lane) (slot kind : Nat) : Bool :=
  (s.lane l).fus.latched.any (fun x => x.1 == slot && x.2.kind == kind && refFresh s x)

/-- A slot has a value that is too old. -/
def staleSlot (s : State) (l : Lane) (slot : Nat) : Bool := (s.lane l).fus.latched.any (fun x => x.1 == slot && !refFresh s x)

/-- A candidate of a vote: slot and values; a heading has its value in `x`, in degrees, and its variance in `vx`. -/
structure Cand' where
  slot : Nat
  x : Dy
  y : Dy
  vx : Dy
  vy : Dy
  deriving DecidableEq, Repr

/-- Angle in degrees brought to −180 … 180. -/
def wrapDeg (d : Dy) : Dy :=
  let t := d.add ⟨180, 0⟩
  let k : Int := if 0 ≤ t.e then t.m * 2 ^ t.e.toNat / 360 else t.m / (360 * 2 ^ (-t.e).toNat)
  d.add ⟨-360 * k, 0⟩

/-- Two positions agree (R178): d ≤ max(5σ, 0.5 m), with σ² the variances along the joining line; compared exactly. -/
def agreePos (a b : Cand') : Bool :=
  let dx := a.x.add b.x.neg
  let dy := a.y.add b.y.neg
  let d2 := (dx.mul dx).add (dy.mul dy)
  let sv := (((a.vx.add b.vx).mul dx).mul dx).add (((a.vy.add b.vy).mul dy).mul dy)
  !Dy.lt ⟨1, -2⟩ d2 || !Dy.lt (Dy.mul ⟨25, 0⟩ sv) (d2.mul d2)

/-- Two headings agree (R178): the gate is max(5σ, 0.5°). -/
def agreeHdg (a b : Cand') : Bool :=
  let d := wrapDeg (a.x.add b.x.neg)
  let d2 := d.mul d
  !Dy.lt ⟨1, -2⟩ d2 || !Dy.lt (Dy.mul ⟨25, 0⟩ (a.vx.add b.vx)) d2

/-- Whether a value and its variance are numbers. -/
def okVals (xs : List F64) : Bool := xs.all F64.isFin

/-! The latched values as the filter takes them (R155, R156, R161, R174, R178). -/

/-- The datum in force: the posted one, else the provisional one (R161, R162). -/
def datumOf (s : State) (l : Lane) : Option Datum := s.auth.datum.or (s.lane l).fus.prov

/-- What predictions of a lane use (R174, R533). -/
def predIn (s : State) (l : Lane) : PredIn :=
  ⟨(s.cfg.filter).getD [], (((s.lane l).slv.disp.last).map (·.drive)).getD [], (s.lane l).fus.motion.getD 0 none⟩

/-- The filter's state predicted to an instant. -/
def stateAt (s : State) (l : Lane) (t : Time) : Option Filt := (s.lane l).fus.filter.map (predict (predIn s l) t)

/-- The measured instant of a latched value (R156): its stamp less the slot's latency. -/
def measAt (s : State) (x : Nat × RefIn) : Time := x.2.stamp - BitVec.ofNat 64 (refLat s x.1)

/-- Whether a slot's position is in WGS 84: the module's GNSS, or items parsed as latitude and longitude (R155, R402); a posted one is in
the quay frame (R375). -/
def isGeo (s : State) (n : Nat) : Bool :=
  n == 0 || (within 1 7 n && (match (alGet s.cfg.refs n).bind (·.pos) with
    | some p => (alGet s.cfg.sers p.1).any (fun i => i.conv == 2) && (alGet s.cfg.sers p.2).any (fun i => i.conv == 3)
    | none => false))

/-- Height of a position in WGS 84: the fix's for reference 0, the datum's for another. -/
def geoHeight (s : State) (l : Lane) (d : Datum) (n : Nat) : F64 :=
  if n = 0 then (((s.lane l).gnb.fix).map (fun f => f.1.hgt)).getD d.hgt else d.hgt

/-- A latched position in the quay frame. -/
def quayPos (s : State) (l : Lane) (x : Nat × RefIn) : Option (F64 × F64) :=
  if isGeo s x.1 then (datumOf s l).map (fun d => toQuay d (ecef x.2.x x.2.y (geoHeight s l d x.1))) else some (x.2.x, x.2.y)

/-- A latched heading measured from the quay's x axis: a true heading less the datum azimuth, a posted one as it is. -/
def quayHdg (s : State) (l : Lane) (x : Nat × RefIn) : Option F64 :=
  if x.1 < 8 then (datumOf s l).map (fun d => wrapRad (F64.sub x.2.x d.azi)) else some (wrapRad x.2.x)

/-- The horizontal offset of a slot's sensor from the reference point at a heading, with the motion data's roll and pitch. -/
def leverArm (s : State) (l : Lane) (n : Nat) (psi : F64) : F64 × F64 :=
  match alGet s.cfg.refs n with
  | none => (0#64, 0#64)
  | some c =>
    let m (i : Nat) : F64 := (((s.lane l).fus.motion.getD i none)).getD 0#64
    let v := rotate (rotRows (m 1) (m 2) psi) ⟨c.armX, c.armY, c.armZ⟩
    (v.x, v.y)

/-- The square of a standard deviation. -/
def sq32 (x : F32) : F64 := F64.mul (F64.of32 x) (F64.of32 x)

/-- A latched value of a kind (1 position, 2 heading) that is usable. -/
def latchedOf (s : State) (l : Lane) (n kind : Nat) : Option (Nat × RefIn) :=
  (s.lane l).fus.latched.find? (fun x => x.1 == n && x.2.kind == kind && refFresh s x)

/-- A heading at its measured instant: the value, and its rate by the filter. -/
def hdgMeas (s : State) (l : Lane) (n : Nat) : Option (Time × F64 × F64) :=
  (latchedOf s l n 2).bind (fun x => (quayHdg s l x).map (fun h =>
    (measAt s x, h, ((stateAt s l (measAt s x)).map (fun f => fv f 5)).getD 0#64)))

/-- A position of the reference point at its measured instant, and its velocity by the filter; `psi` is the heading where the filter has
none yet. -/
def posMeas (s : State) (l : Lane) (psi : F64) (n : Nat) : Option (Time × (F64 × F64) × (F64 × F64)) :=
  (latchedOf s l n 1).bind (fun x => (quayPos s l x).map (fun p =>
    let f := stateAt s l (measAt s x)
    let h := (f.map (fun f => fv f 2)).getD psi
    let a := leverArm s l n h
    let vel : F64 × F64 := match f with
      | some f =>
        let c := F64.cos h
        let q := F64.sin h
        (arrSum [[fv f 3, c], [F64.neg (fv f 4), q]], arrSum [[fv f 3, q], [fv f 4, c]])
      | none => (0#64, 0#64)
    (measAt s x, (F64.sub p.1 a.1, F64.sub p.2 a.2), vel)))

/-- Time from an instant to E, in s. -/
def toE (s : State) (t : Time) : F64 := F64.ratio (s.cyc.e - t).toInt sec

/-- The candidates of the heading vote, brought to E, in degrees (R178). -/
def hdgCands (s : State) (l : Lane) : List Cand' :=
  (List.range 16).filterMap (fun n =>
    match latchedOf s l n 2, hdgMeas s l n with
    | some x, some m =>
      let h := degOf (wrapRad (F64.add m.2.1 (F64.mul m.2.2 (toE s m.1))))
      let v := F64.mul (degOf F64.one) (F64.mul (degOf F64.one) (sq32 x.2.sx))
      if okVals [h, v] then some ⟨n, F64.val h, ⟨0, 0⟩, F64.val v, ⟨0, 0⟩⟩ else none
    | _, _ => none)

/-- The candidates of the position vote, corrected for their lever arms and brought to E (R178). -/
def posCands (s : State) (l : Lane) (psi : F64) : List Cand' :=
  (List.range 16).filterMap (fun n =>
    match latchedOf s l n 1, posMeas s l psi n with
    | some x, some m =>
      let at' (z v : F64) : F64 := F64.add z (F64.mul v (toE s m.1))
      let px := at' m.2.1.1 m.2.2.1
      let py := at' m.2.1.2 m.2.2.2
      let vx := sq32 x.2.sx
      let vy := sq32 x.2.sy
      if okVals [px, py, vx, vy] then some ⟨n, F64.val px, F64.val py, F64.val vx, F64.val vy⟩ else none
    | _, _ => none)

/-- Independence group of a slot (R177): slot 0 is in group 0. -/
def groupOf (s : State) (l : Lane) (n : Nat) : Nat := if n = 0 then 0 else getF s (Reg.FUS_REFn_group n) l

/-- The representative of a group: the trusted member, else the one of smallest variance, ties to the lower slot (R177). Of a position's two
variances the sum is compared (log entry 79). -/
def represent (trust : Option Nat) : List Cand' → Option Cand'
  | [] => none
  | c :: cs =>
    match represent trust cs with
    | none => some c
    | some d =>
      if trust == some c.slot then some c
      else if trust == some d.slot then some d
      else if Dy.lt (d.vx.add d.vy) (c.vx.add c.vy) then some d else some c

/-- The representatives of a vote, by rising slot. -/
def reps (s : State) (l : Lane) (trust : Option Nat) (cs : List Cand') : List Cand' :=
  let rs := (List.range 16).filterMap (fun g => represent trust (cs.filter (fun c => groupOf s l c.slot == g)))
  cs.filter (fun c => rs.contains c)

/-- All sublists of a list, those with earlier members first. -/
def sublists : List Cand' → List (List Cand')
  | [] => [[]]
  | c :: cs => (sublists cs).map (c :: ·) ++ sublists cs

/-- All members agree in pairs. -/
def allAgree (agree : Cand' → Cand' → Bool) : List Cand' → Bool
  | [] => true
  | c :: cs => cs.all (agree c) && allAgree agree cs

/-- The first of the nearest of some sets. -/
def nearest (dist : List Cand' → Dy) : List (List Cand') → List Cand'
  | [] => []
  | [c] => c
  | c :: cs => let n := nearest dist cs; if Dy.lt (dist n) (dist c) then n else c

/-- The choice of a vote (R179): the chosen set, and whether the representatives contradict with none chosen. -/
def choose (agree : Cand' → Cand' → Bool) (dist : List Cand' → Dy) (trust : Option Nat) (rs : List Cand') : List Cand' × Bool :=
  let ok := (sublists rs).filter (fun c => !c.isEmpty && allAgree agree c)
  let k := ok.foldl (fun m c => max m c.length) 0
  let big := ok.filter (fun c => c.length == k)
  let withT := big.filter (fun c => c.any (fun x => trust == some x.slot))
  match big with
  | [] => ([], false)
  | [c] => (c, false)
  | _ =>
    if 2 ≤ k then (nearest dist (if withT.isEmpty then big else withT), false)
    else match withT with
      | c :: _ => (c, false)
      | [] => ([], true)

/-- Squared distance of a set's centroid from the predicted position, times the square of its size. -/
def distPos (px py : Dy) (cs : List Cand') : Dy :=
  let dx : Dy := cs.foldl (fun (d : Dy) c => d.add (c.x.add px.neg)) ⟨0, 0⟩
  let dy : Dy := cs.foldl (fun (d : Dy) c => d.add (c.y.add py.neg)) ⟨0, 0⟩
  (dx.mul dx).add (dy.mul dy)

/-- Distance of a set's mean heading from the predicted one, times its size. -/
def distHdg (p : Dy) (cs : List Cand') : Dy :=
  let d : Dy := cs.foldl (fun (d : Dy) c => d.add (wrapDeg (c.x.add p.neg))) ⟨0, 0⟩
  ⟨d.m.natAbs, d.e⟩

/-- Outcome of a vote for a slot: none outside the vote, 0 in the chosen set, 1 left out, 2 in a contradiction; a member shares its
representative's (R177). -/
def outcome (s : State) (l : Lane) (cs rs chosen : List Cand') (contra : Bool) (n : Nat) : Option Nat :=
  if !cs.any (fun c => c.slot == n) then none
  else if contra then some 2
  else
    match rs.find? (fun r => groupOf s l r.slot == groupOf s l n) with
    | some r => some (if chosen.any (fun c => c.slot == r.slot) then 0 else 1)
    | none => some 1

/-- The worse of two outcomes (R179). -/
def worse : Option Nat → Option Nat → Option Nat
  | none, y => y
  | x, none => x
  | some x, some y => some (max x y)

/-- Source of fusion events. -/
def fusSrc (l : Lane) : Src := laneSrc l 7

/-- Unlisted reference states. -/
def refDef (_ : Nat) : RefSt := {}

/-- A slot leaves SUSPECT (R180). -/
def unsuspect (l : Lane) (n : Nat) (s : State) : State := clearAlarm (fusSrc l) Ev.FUS_REFSUS n n s

/-- Record a slot's state. -/
def putRefSt (l : Lane) (n : Nat) (x : RefSt) (s : State) : State :=
  setF (Reg.FUS_REFn_state n) x.state l
    (onFus l (fun f => { f with grd := { f.grd with refs := Sparse.set refDef f.grd.refs n x } }) s)

/-- Whether a slot has a usable value. -/
def usableSlot (s : State) (l : Lane) (n : Nat) : Bool := usableKind s l n 1 || usableKind s l n 2

/-- State of a slot after the votes (R157, R177, R179, R180), with its counts and alarm. `q` is the state before them of its group: the
suspicion of any member and the longest counts; `grp` is the group's outcome. A member outside the vote leaves SUSPECT with its group. A
slot made SUSPECT by a contradiction counts as rejected too (log entry 79). A slot
without a usable value reads STALE or ABSENT and stays SUSPECT underneath. -/
def refStep (l : Lane) (out grp : Nat → Option Nat) (q : Nat → RefSt) (n : Nat) (s : State) : State :=
  let r := Sparse.get refDef (s.lane l).fus.grd.refs n
  let use := usableSlot s l n
  let old := staleSlot s l n
  let base : RefSt := { r with unus := if use then 0 else r.unus + 1, stale := r.stale + b2n old }
  match out n with
  | none =>
    let sus := r.sus && !(grp n == some 0 && decide (10 ≤ (q n).chosen + 1))
    putRefSt l n { base with sus := sus, rej := 0, chosen := 0, state := if use then (if sus then 3 else 0) else if old then 4 else 0 }
      (when (r.sus && !sus) (unsuspect l n) s)
  | some 0 =>
    let sus := (q n).sus && decide ((q n).chosen + 1 < 10)
    putRefSt l n { base with sus := sus, state := if sus then 3 else 1, rej := 0, chosen := (q n).chosen + 1 }
      (when (r.sus && !sus) (unsuspect l n) s)
  | some k =>
    let fresh := k == 1 && !(q n).sus && decide (3 ≤ (q n).rej + 1)
    let sus := (q n).sus || k == 2 || fresh
    putRefSt l n { base with sus := sus, state := if sus then 3 else 2, rej := (q n).rej + 1, chosen := 0 }
      (when fresh (raiseAlarm (fusSrc l) Ev.FUS_REFSUS n n) (incF (Reg.FUS_REFn_rejcnt n) l s))

/-- Trust ends when its slot has had no usable value for 10 consecutive cycles (R180). -/
def trustCheck (l : Lane) (s : State) : State :=
  match s.auth.trust with
  | none => s
  | some n =>
    if (Sparse.get refDef (s.lane l).fus.grd.refs n).unus < 10 then s
    else raise (fusSrc l) Ev.FUS_TRUSTLOST n (authChange (fun u => { u with trust := none }) s)

/-- A LATE cycle holds no votes; its slots without a usable value count it all the same (R180). -/
def lateRefs (l : Lane) (s : State) : State :=
  trustCheck l (forEach (fun (n : Nat) s =>
    let r := Sparse.get refDef (s.lane l).fus.grd.refs n
    onFus l (fun f => { f with grd := { f.grd with
      refs := Sparse.set refDef f.grd.refs n { r with unus := if usableSlot s l n then 0 else r.unus + 1 } } }) s) (List.range 16) s)

/-! Grades (R181-R184). -/

/-- The computed grade (R181): groups in the chosen set, whether it is one trusted reference another agrees with, ego-motion,
whether a heading was accepted, cycles without any input. -/
def computedGrade (n : Nat) (tagree ego nohdg : Bool) (noInput : Nat) : Nat :=
  let g := if 3 ≤ n then 0 else if n = 2 || tagree then 1 else if n = 1 && ego then 2 else 3
  if 3 ≤ noInput then 4 else if nohdg then max g 3 else g

/-- The published grade of a cycle (R182, R183, R186): `comp` none for a LATE cycle. -/
def gradeStep (g : GradeSt) (comp : Option Nat) (e : Time) (uphold drmax : Nat) (cap : Bool) : GradeSt :=
  let g1 : GradeSt := match comp with
    | none =>
      { g with lateRun := g.lateRun + 1, grade := if 3 ≤ g.lateRun + 1 && decide (g.grade < 3) then 3 else g.grade }
    | some c =>
      let g := { g with lateRun := 0 }
      if g.grade ≤ c then { g with grade := c, better := [] }
      else if g.grade = 4 && c = 3 then { g with better := [] }
      else
        let run := g.better ++ [c]
        if uphold ≤ run.length then { g with grade := run.foldl max 0, better := [] } else { g with better := run }
  let t := if g1.grade < 3 then none else if g.grade < 3 then some e else g.g3
  let excess := match t with
    | some t0 => decide (drmax * sec ≤ since e t0)
    | none => false
  let p := if g1.grade = 3 && excess then 4 else if cap then max g1.grade 1 else g1.grade
  { g1 with grade := p, g3 := t, wasBetter := g1.wasBetter || decide (p < 4) }

/-- Alarms of the published grade (R184, R532): FUS_LOST only after a grade better than G4. -/
def gradeAlarms (l : Lane) (prev p : Nat) (s : State) : State :=
  forEach (fun (x : Nat × Nat) s =>
    if p == x.2 && (x.2 != 4 || decide (prev < 4)) then raiseAlarm (fusSrc l) x.1 0 p s
    else if p == x.2 then s else clearAlarm (fusSrc l) x.1 0 p s)
    [(Ev.FUS_G2, 2), (Ev.FUS_DR, 3), (Ev.FUS_LOST, 4)] s

/-! The output record (R175, R176). -/

/-- 10¹². -/
def e12 : F64 := F64.ofInt 1000000000000

/-- Items of the record while the filter's are not valid (R176): pose held. -/
def invalidItems (old : List F64) : List F64 :=
  (List.range 15).map (fun i => if i < 3 then old.getD i 0#64 else if i < 6 then 0#64 else e12)

/-- Flags item of the record. -/
def fusFlags (late ego cap prov : Bool) : Nat := b2n late + 2 * b2n ego + 4 * b2n cap + 8 * b2n prov

/-- The record of a cycle: items 0-14 and 18-20 of the filter, grade, groups, G3 time, flags. -/
def record (old filt att : List F64) (grade n : Nat) (g3 : Nat) (flags : Nat) : List F64 :=
  (if grade ≤ 3 then (List.range 15).map (fun i => filt.getD i 0#64) else invalidItems old)
    ++ [F64.ofInt grade, F64.ofInt n, F64.ratio g3 sec]
    ++ (if grade ≤ 3 then (List.range 3).map (fun i => att.getD i 0#64) else [0#64, 0#64, 0#64]) ++ [F64.ofInt flags]

/-- Validity of an item (R176). -/
def itemValid (run : Bool) (grade i : Nat) : Bool :=
  decide (i < 22) && (i == 15 || i == 16 || i == 17 || i == 21 || (run && decide (grade ≤ 3)))

/-- Value of an item for MMAP class 1 (R60, R176). -/
def fusItem (a : LaneSt) (i : Nat) : F64 × Bool :=
  if a.fus.run then (a.fus.items.getD i 0#64, itemValid true a.fus.grd.grade i)
  else ((record a.fus.items [] [] 4 0 0 (fusFlags false false false a.fus.prov.isSome)).getD i 0#64, itemValid false 4 i)

/-! Grids (R163-R165, R173, R185). -/

/-- The blend of the previous grid toward the current one (R164), each element rounded once to binary16 (log entry 29). -/
def blend (cur prev : Sparse (BitVec 16)) : Sparse (BitVec 16) :=
  ((cur.filter (fun e => e.1 % 32 == 31)).map (fun e => e.1 / 32)).foldl (fun p cell =>
    let c := cellConf cur cell
    if F64.isZero c then p
    else
      (List.range 32).foldl (fun p ch =>
        let k := 32 * cell + ch
        let x := F64.of16 (Sparse.get h16Def p k)
        let y := if ch = 31 then c else F64.of16 (Sparse.get h16Def cur k)
        Sparse.set h16Def p k (F64.to16 (F64.add x (F64.mul (F64.mul (pow2 (-2)) c) (F64.sub y x))))) p) prev

/-- Move a grid's content by 256 cells along an axis: `dx`, `dy` are −1, 0 or 1 in the direction the origin moves (R165). -/
def moveGrid (dx dy : Int) (g : Sparse (BitVec 16)) : Sparse (BitVec 16) :=
  g.filterMap (fun e =>
    let cell := e.1 / 32
    let i : Int := (cell / 1024 : Nat) - 256 * dx
    let j : Int := (cell % 1024 : Nat) - 256 * dy
    if 0 ≤ i && decide (i < 1024) && decide (0 ≤ j) && decide (j < 1024) then
      some ((i.toNat * 1024 + j.toNat) * 32 + e.1 % 32, e.2)
    else none)

/-- Whether and which way the origin moves along an axis (R165): the reference point is more than 256 cells from the centre. Cell
size is (code + 1) / 20 m, compared exactly. -/
def originMove (cell : Nat) (org : Int) (x : F64) : Int :=
  let k : Int := (cell + 1 : Nat)
  let p := Dy.mul (F64.val x) ⟨20, 0⟩
  if !F64.isFin x then 0
  else if Dy.lt ⟨k * (256 * org + 768), 0⟩ p then 1
  else if Dy.lt p ⟨k * (256 * org + 256), 0⟩ then -1
  else 0

/-- Average of 16 binary16 values: an exact sum, rounded once (log entry 29). -/
def avg16 (xs : List (BitVec 16)) : BitVec 16 := F64.to16 (F64.mul (pow2 (-4)) (xs.foldl (fun s x => F64.add s (F64.of16 x)) 0#64))

/-- The keyframe of a grid (R185): 4 × 4 cells averaged. -/
def keyframeOf (g : Sparse (BitVec 16)) : Sparse (BitVec 16) :=
  (g.map (fun e => let c := e.1 / 32; ((c / 1024 / 4) * 256 + c % 1024 / 4) * 32 + e.1 % 32)).foldl (fun m k =>
    let c := k / 32
    Sparse.set h16Def m k (avg16 ((List.range 16).map (fun q =>
      Sparse.get h16Def g (((4 * (c / 256) + q / 4) * 1024 + 4 * (c % 256) + q % 4) * 32 + k % 32))))) []

/-- The grid a keyframe gives at takeover (R186): each cell repeated over 4 × 4 cells. -/
def fromKeyframe (m : Sparse (BitVec 16)) : Sparse (BitVec 16) :=
  m.foldl (fun g e =>
    let c := e.1 / 32
    (List.range 16).foldl (fun g q =>
      Sparse.set h16Def g (((4 * (c / 256) + q / 4) * 1024 + 4 * (c % 256) + q % 4) * 32 + e.1 % 32) e.2) g) []

/-- A non-negative value times a factor in a 16-bit field that sticks; the rounding is open (log entry 11). -/
def scaled16 (x : F64) (k : Nat) : Nat :=
  let f := if F64.isFin x then (Dy.mul (F64.val x) ⟨k, 0⟩).floor.toNat else 0xFFFF
  min (f + b2n (Config.roundUp (x.toNat * 2 + 1))) 0xFFFF

/-! Start of assembly (R60, R61, R71). -/

/-- A cycle constant (R60 class 8). -/
def cycleConst (s : State) (l : Lane) (i : Nat) : F64 :=
  match i with
  | 0 => F64.ratio s.cyc.cur.period 1000
  | 1 => F64.ofInt (modeCode (modeNow s))
  | _ => F64.ofInt (if (s.lane l).fus.run then (s.lane l).fus.grd.grade else 4)

/-- A field of the previous published allocation (R60 class 5): valid while that allocation is of the same package. -/
def prevAlloc (p : PkgData) (d : Dispatch) (sub i : Nat) : F64 × Bool :=
  match p.outmap[i]?, d.last with
  | some o, some r =>
    if r.dig ≠ BitVec.ofNat 64 (leNat (p.dig.take 8)) then (0#64, false)
    else if sub = 0 then
      match r.sol.find? (fun e => e.code == o.code && e.stage == o.stage) with
      | some e => (e.val, e.valid)
      | none => (0#64, false)
    else if o.stage ≠ 1 then (0#64, false)
    else
      match r.drive.find? (fun e => e.code == o.code) with
      | some e => (e.val, e.valid)
      | none => (0#64, false)
  | _, _ => (0#64, false)

/-- An element with its default (R60). -/
def elemOf (x : F64 × Bool) (dflt : F64) : F64 × Bool := if x.2 then x else (dflt, false)

/-- An element of class 5 (R60, R132): the previous published allocation; in the first cycle after a package swap a drive field takes its
XINIT value, scaled as OUTMAP says. -/
def stageZero (p : PkgData) (v : SlvSt) (sub i : Nat) : F64 × Bool :=
  match p.outmap[i]? with
  | some o =>
    if v.newPkg && sub == 1 && o.stage == 1 && isDrive o.code then (F64.mul o.scale (p.xinit.getD o.index 0#64), true)
    else prevAlloc p v.disp sub i
  | none => prevAlloc p v.disp sub i

/-- The elements of M that are known when assembly starts: classes 1, 5 and 8; the others were latched at E. -/
def fillM (s : State) (l : Lane) (p : PkgData) (v : SlvSt) : List (F64 × Bool) :=
  (p.mmap.zip v.mvec).map (fun e =>
    match e.1.cls with
    | 1 => elemOf (fusItem (s.lane l) e.1.index) e.1.dflt
    | 5 => elemOf (stageZero p v e.1.sub e.1.index) e.1.dflt
    | 8 => elemOf (cycleConst s l e.1.index, decide (e.1.index ≤ 2)) e.1.dflt
    | _ => e.2)

/-- Assembly starts in the Active lane (R71), its engine's clock with it where it is still stopped (R28): M and S filled, image,
vectors and registers cleared. Without an active package there
is no problem to build, and the cycle falls back (log entry 30). -/
def asmStart (l : Lane) (s : State) : State :=
  let v := (s.lane l).slv
  if modeNow s == .layup || v.asmRun || v.asmDone || v.cond.isSome || s.cyc.published then s
  else
    match actPkg s l with
    | none => onSlv l (fun v => { v with cond := some .shifted, fAsmf := true, t1 := some s.now }) s
    | some p =>
      setF Reg.SLV_ASM_DIAG_code 0 l (setF Reg.SLV_ASM_DIAG_count 0 l
        (onSlv l (fun v =>
          { v with asmRun := true, asmT0 := s.now, mvec := fillM s l p v, steps := 0, pc := 0, q := false, fr := [], ar := [],
                   image := Sparse.keep (fun k => decide (p.kSlots ≤ k)) v.image,
                   vecs := Sparse.keep (fun k => decide (k < 4 * 16384) || decide (9 * 16384 ≤ k)) v.vecs,
                   bndClr := true }) (startPll .slv l s)))

/-- Loss of a lane's solver SRAM with its supply (R68, R99, R121). -/
def slvOff (l : Lane) (s : State) : State := setF Reg.SLV_PKG_BANK_cold 1 l (onSlv l (fun _ => {}) s)

/-- Power down a lane's domains that the mode to come does not need (R44). -/
def powerDown (need : Nat) (l : Lane) (s : State) : State :=
  let was := getF s Reg.PWR_STAT_dom / 2 ^ (domBit l + 1) % 8
  let off := was - (was &&& need)
  when (bit off 0) (slvOff l) (domClr (off * 2 ^ (domBit l + 1)) s)

/-- Power down, in both lanes, what neither the mode in force nor a pending one needs (R41): after a pending mode is given up. -/
def dropDoms (s : State) : State := bothLanes (fun l s => powerDown (needDoms s l) l s) s

/-! Publication of the fusion record. -/

/-- FUS_STAT of a running lane (R187), but for what a cycle's votes set. -/
def showFus (l : Lane) (s : State) : State :=
  let f := (s.lane l).fus
  let g3 := (f.grd.g3.map (since s.cyc.e)).getD 0
  setF Reg.FUS_STAT_grade (if f.run then f.grd.grade else 4) l (setB Reg.FUS_STAT_off (!f.run) l
    (setF Reg.FUS_STAT_mirr 0 l (setB Reg.FUS_STAT_tkcap (decide (0 < f.tkLeft)) l
      (setF Reg.FUS_STAT_trust (s.auth.trust.getD 0) l (setB Reg.FUS_STAT_trusten s.auth.trust.isSome l
        (setB Reg.FUS_STAT_datum s.auth.datum.isSome l (setB Reg.FUS_STAT_prov f.prov.isSome l
          (setF Reg.FUS_STAT_drtime (min (g3 / 500000000) 255) l
            (forEach (fun n => setB (Reg.FUS_REFn_trusted n) (s.auth.trust == some n) l) (List.range 16) s)))))))))

/-- The fusion record on its stream (R380): E, then the items. -/
def fusRecord (e : Time) (items : List F64) : List Byte := leBytes 8 e.toNat ++ items.flatMap (fun x => leBytes 8 x.toNat)

/-- End a fusion cycle: grade, record, registers, stream; G4 in an automatic mode owes the fallback of R46; then assembly starts. -/
def fusFinish (l : Lane) (comp : Option Nat) (filt att : List F64) (n : Nat) (ego : Bool) (s : State) : State :=
  let f := (s.lane l).fus
  let cap := decide (0 < f.tkLeft)
  let g := gradeStep f.grd comp s.cyc.e (getF s Reg.FUS_CFG_uphold) (getF s Reg.FUS_CFG_drmax) cap
  let items := record f.items filt att g.grade n ((g.g3.map (since s.cyc.e)).getD 0)
    (fusFlags comp.isNone ego cap f.prov.isSome)
  let auto := g.grade == 4 && (modeNow s == .approach || modeNow s == .berth)
  let s1 := gradeAlarms l f.grd.grade g.grade
    (onFus l (fun f => { f with grd := { g with refs := f.grd.refs }, items := items, autojoy := auto }) s)
  let s2 := showFus l { s1 with cyc := { s1.cyc with fusionOpen := false } }
  let s3 := onFus l (fun f => { f with tkLeft := f.tkLeft - 1 })
    (setB Reg.FUS_STAT_late comp.isNone l (setB Reg.FUS_STAT_ego ego l (setF Reg.FUS_STAT_nagree (min n 15) l
      (setB Reg.FUS_STAT_suspect g.suspect l (setB Reg.FUS_STAT_nohdg g.nohdg l s2)))))
  asmStart l (stopPll .fen l (streamRec l 0x11 0 s.cyc.e (fusRecord s.cyc.e items) s3))

/-- The grids after an update: the blend, then the move of the origin (R164, R165). -/
def gridStep (l : Lane) (cell : Nat) (grid : Sparse (BitVec 16)) (x y : F64) (s : State) : State :=
  onFus l (fun f =>
    let prev := blend grid f.prevGrid
    let dx := originMove cell f.orgX x
    let dy := originMove cell f.orgY y
    if dx = 0 && dy = 0 then { f with curGrid := grid, prevGrid := prev, hasPrev := true }
    else { f with curGrid := moveGrid dx dy grid, prevGrid := moveGrid dx dy prev, hasPrev := true,
                  orgX := f.orgX + dx, orgY := f.orgY + dy }) s

/-- Values of 16 bits as bytes, element by element (R163). -/
def halfBytes (n : Nat) (g : Sparse (BitVec 16)) : List Byte := (List.range n).flatMap (fun i => leBytes 2 (Sparse.get h16Def g i).toNat)

/-- A grid in the layout of R163. -/
def gridBytes (g : Sparse (BitVec 16)) : List Byte := halfBytes (1024 * 1024 * 32) g

/-- Grid snapshots that waited for a blend (R377): those asked for before the cycle's epoch. -/
def serveGrids (l : Lane) (all : Bool) (s : State) : State :=
  let due (w : GridWait) : Bool := all || atOrAfter s.cyc.e w.info.tAcc
  let s1 := onLane l (fun a => { a with hri := { a.hri with gridWait := a.hri.gridWait.filter (fun w => !due w) } }) s
  forEach (fun w s =>
    complete w.info Code.ACCEPTED 0 0#64 [] true
      (emit (.dma l w.addr (gridBytes (if w.prev then (s.lane l).fus.prevGrid else (s.lane l).fus.curGrid))) s))
    ((s.lane l).hri.gridWait.filter due) s1

/-! The fusion of a cycle (R168-R179). -/

/-- A vote: candidates, representatives, chosen set, contradiction with none chosen. -/
structure Vote where
  cands : List Cand'
  reps : List Cand'
  chosen : List Cand'
  contra : Bool

/-- Hold a vote (R177-R179). -/
def vote (s : State) (l : Lane) (agree : Cand' → Cand' → Bool) (dist : List Cand' → Dy) (cs : List Cand') : Vote :=
  let rs := reps s l s.auth.trust cs
  let c := choose agree dist s.auth.trust rs
  ⟨cs, rs, c.1, c.2⟩

/-- Mean of exact values. -/
def meanDy (ds : List Dy) : F64 := F64.div (F64.ofDy false (ds.foldl Dy.add ⟨0, 0⟩)) (F64.ofInt ds.length)

/-- The mean heading of a set in rad, taken on the circle about its first member. -/
def meanHdg (cs : List Cand') : F64 :=
  match cs with
  | [] => 0#64
  | c :: _ =>
    let d := meanDy (cs.map (fun x => c.x.add (wrapDeg (x.x.add c.x.neg))))
    wrapRad (F64.mul d (F64.div piF (F64.ofInt 180)))

/-- The instant, on MTC, of a time of the lane's local clock near E. -/
def mtcOf (s : State) (l : Lane) (tm : Int) : Time := s.cyc.e - BitVec.ofInt 64 (ltAt s l s.cyc.e - tm)

/-- The outputs of the cycle's frames as they are placed (R168-R170), with their instants: each frame through the extractor its stream
names, at the pose the filter predicts for its mapped time. Before the filter has a pose nothing can be placed. -/
def placements (s : State) (l : Lane) : List (Time × Placed) :=
  s.cfg.streams.filterMap (fun c =>
    match cycleFrame s l c.1 c.2, ((activeBank s l true).bind (fun k => (bankOf (s.lane l) true k).net)) with
    | some f, some net =>
      let t := mtcOf s l f.tm
      match net.ext.find? (fun x => x.index == c.2.extractor && x.kind == (if c.2.lidar then 1 else 2)), stateAt s l t with
      | some x, some p =>
        let tensor := if c.2.lidar then lidarTensor x (scanPoints c.2 (some p) f) else cameraTensor c.2 x f
        some (t, ⟨c.2, x, Config.extract net.dig x.index tensor, (fv p 0, fv p 1, fv p 2), f.dw⟩)
      | _, _ => none
    | _, _ => none)

/-- What the fusion of a cycle delivers: the current grid, the registration, the two votes, the filter at E and the attitude items. -/
structure FusRes where
  grid : Sparse (BitVec 16)
  reg : Option RegRes
  pos : Vote
  hdg : Vote
  filter : Option Filt
  att : List F64

/-- Whether the registration of a cycle gives ego-motion (R173). -/
def FusRes.ego (f : FusRes) : Bool := f.reg.any regOk

/-- The measurements of a cycle (R174, R533): the chosen references by the σ they carry, and the pose that an accepted registration gives. -/
def measures (s : State) (l : Lane) (psi : F64) (pos hdg : Vote) (qs : List (Time × Placed)) (reg : Option RegRes) : List Meas :=
  let code := getF s Reg.FUS_CFG_cell
  let f := (s.lane l).fus
  let ps := pos.chosen.flatMap (fun c => match latchedOf s l c.slot 1, posMeas s l psi c.slot with
    | some x, some m => [⟨m.1, 0, m.2.1.1, sq32 x.2.sx⟩, ⟨m.1, 1, m.2.1.2, sq32 x.2.sy⟩]
    | _, _ => [])
  let hs := hdg.chosen.flatMap (fun c => match latchedOf s l c.slot 2, hdgMeas s l c.slot with
    | some x, some m => [(⟨m.1, 2, m.2.1, sq32 x.2.sx⟩ : Meas)]
    | _, _ => [])
  let t := qs.foldl (fun t q => if atOrAfter q.1 t then q.1 else t) ((qs.head?.map (·.1)).getD s.cyc.e)
  let es := match reg, stateAt s l t with
    | some r, some p =>
      if regOk r then
        (egoMeas code (decide (0 < f.tkLeft)) (dwFactor code f.orgX f.orgY (qs.map (·.2))) r).zipIdx.map (fun x =>
          (⟨t, x.2, F64.add (fv p x.2) x.1.1, x.1.2⟩ : Meas))
      else []
    | _, _ => []
  ps ++ hs ++ es

/-- The fusion of a cycle in a lane: frames placed, the grid registered, the votes, the filter. Roll, pitch and heave are the motion data's,
or stay as they were without. -/
def fuse (s : State) (l : Lane) : FusRes :=
  let f := (s.lane l).fus
  let k := predIn s l
  let e := s.cyc.e
  let code := getF s Reg.FUS_CFG_cell
  let qs := placements s l
  let grid := buildGrid code f.orgX f.orgY (qs.map (·.2))
  let pr := stateAt s l e
  let reg := match pr with
    | some p =>
      if f.hasPrev && !qs.isEmpty then
        some (register grid f.prevGrid (poseCell code f.orgX (fv p 0)) (poseCell code f.orgY (fv p 1)))
      else none
    | none => none
  let dist (i : Nat) : Dy := F64.val ((pr.map (fun p => fv p i)).getD 0#64)
  let hdg := vote s l agreeHdg (match pr with
    | some p => distHdg (F64.val (degOf (fv p 2)))
    | none => fun _ => ⟨0, 0⟩) (hdgCands s l)
  let psi := meanHdg hdg.chosen
  let pos := vote s l agreePos (if pr.isSome then distPos (dist 0) (dist 1) else fun _ => ⟨0, 0⟩) (posCands s l psi)
  let filter := match f.filter with
    | some x => some (filterRun k e (measures s l psi pos hdg qs reg) x)
    | none =>
      if pos.chosen.isEmpty || hdg.chosen.isEmpty then none
      else some (filterStart k e (meanDy (pos.chosen.map (·.x))) (meanDy (pos.chosen.map (·.y))) psi)
  { grid := grid, reg := reg, pos := pos, hdg := hdg, filter := filter,
    att := (List.range 3).map (fun i => (f.motion.getD (i + 1) none).getD (f.items.getD (18 + i) 0#64)) }

/-- What a registration shows (R172, R173, R187). -/
def registration (l : Lane) (f : FusRes) (s : State) : State :=
  match f.reg with
  | none => s
  | some r =>
    let s1 := setF Reg.FUS_REG_score (scaled16 r.score 65535) l (setF Reg.FUS_REG_ratio (scaled16 r.ratio 256) l s)
    if regOk r then s1 else incF Reg.FUS_CNT_regfail l s1

/-- Raise or clear the contradiction of one of the votes; each vote has its own alarm (R179). -/
def contraAlarm (l : Lane) (v : Vote) (key : Nat) (s : State) : State :=
  if v.contra then raiseAlarm (fusSrc l) Ev.FUS_CONTRA key (v.reps.foldl (fun m c => m + 2 ^ c.slot) 0 + 2 ^ 16 * key) s
  else clearAlarm (fusSrc l) Ev.FUS_CONTRA key (2 ^ 16 * key) s

/-- Whether one trusted reference is chosen that a reference of another group agrees with (R177, R181). -/
def trustAgrees (s : State) (l : Lane) (v : Vote) : Bool :=
  match v.chosen with
  | [c] => s.auth.trust == some c.slot && v.cands.any (fun d => groupOf s l d.slot != groupOf s l c.slot && agreePos c d)
  | _ => false

/-- What a group has been through (R177, R180): the suspicion of any member, and the longest runs of rejections and of choices. -/
def groupState (rs : List RefSt) : RefSt :=
  rs.foldl (fun g r => { g with sus := g.sus || r.sus, rej := max g.rej r.rej, chosen := max g.chosen r.chosen }) {}

/-- The states of the slots and the alarms after the votes of a cycle (R177-R180). -/
def votes (l : Lane) (f : FusRes) (s : State) : State :=
  let p := f.pos
  let h := f.hdg
  let old := (s.lane l).fus.grd.refs
  let out (n : Nat) : Option Nat := worse (outcome s l p.cands p.reps p.chosen p.contra n) (outcome s l h.cands h.reps h.chosen h.contra n)
  let mates (n : Nat) : List Nat := (List.range 16).filter (fun k => groupOf s l k == groupOf s l n)
  let grp (n : Nat) : Option Nat := (mates n).foldl (fun o k => worse o (out k)) none
  let q (n : Nat) : RefSt := groupState ((mates n).map (Sparse.get refDef old))
  let s1 := trustCheck l (forEach (refStep l out grp q) (List.range 16) s)
  contraAlarm l h 1 (contraAlarm l p 0 (onFus l (fun f => { f with grd := { f.grd with suspect := p.contra, nohdg := h.chosen.isEmpty } }) s1))

/-- The items of the record that the filter gives: held while it has no state yet. -/
def poseItems (old : List F64) (f : Option Filt) : List F64 :=
  match f with
  | some x => filterItems x
  | none => (List.range 15).map (fun i => old.getD i 0#64)

/-- FUSION_COMPLETE (R175): the update of the cycle is delivered before its mark. -/
def execFusionComplete (t : Time) (s : State) : Host.Outcome State Fault Refusal :=
  run t s (fun s =>
    match active s with
    | none => s
    | some l =>
      if !(s.lane l).fus.run || !s.cyc.fusionOpen then s
      else
        let f := fuse s l
        let n := f.pos.chosen.length
        let tag := trustAgrees s l f.pos
        let items := poseItems (s.lane l).fus.items f.filter
        let noIn := if !f.pos.cands.isEmpty || !f.hdg.cands.isEmpty || f.ego then 0 else (s.lane l).fus.grd.noInput + 1
        let comp := computedGrade n tag f.ego f.hdg.chosen.isEmpty noIn
        let s1 := votes l f (registration l f s)
        let s2 := onFus l (fun x => { x with filter := f.filter, grd := { x.grd with noInput := noIn } }) s1
        let s3 := serveGrids l false (gridStep l (getF s Reg.FUS_CFG_cell) f.grid (items.getD 0 0#64) (items.getD 1 0#64) s2)
        fusFinish l (some comp) items f.att n f.ego s3)

/-- Abandon the fusion update of the cycle (R29): the previous output propagated to E by the filter's prediction step. Its item 16 repeats
the last cycle's number, since it holds no vote (log entry 79). -/
def fusionLate (l : Lane) (s : State) : State :=
  let old := (s.lane l).fus.items
  let f := stateAt s l s.cyc.e
  fusFinish l none (poseItems old f) ((List.range 3).map (fun i => old.getD (18 + i) 0#64)) (getF s Reg.FUS_STAT_nagree l) false
    (incF Reg.FUS_CNT_late l (lateRefs l (onFus l (fun x => { x with filter := f }) s)))

/-- FUSION_END (R29): the fusion end mark; a cycle whose fusion has not delivered is LATE. -/
def execFusionEnd (t : Time) (s : State) : Host.Outcome State Fault Refusal :=
  run t s (fun s =>
    match active s with
    | none => s
    | some l =>
      if !atMark s s.cyc.cur.fusion then s
      else if (s.lane l).fus.run && s.cyc.fusionOpen then fusionLate l s
      else asmStart l s)

/-- Whether the intake of a lane is complete (R22, R24): no frame stamped before E is still incomplete. -/
def intakeDone (s : State) (l : Lane) : Bool :=
  s.cfg.streams.all (fun c => let x := strSt s l c.1; !x.open' || atOrAfter x.stamp s.cyc.e)

/-- The stage after intake starts as soon as intake completes (R24, R28): the feature engine's clock, or assembly where no fusion runs. -/
def intakeEarly (s : State) : State :=
  match active s with
  | some l =>
    if !s.cyc.begun || s.cyc.published || !intakeDone s l then s
    else if (s.lane l).fus.run then when s.cyc.fusionOpen (startPll .fen l) s
    else asmStart l s
  | none => s

/-- STREAM_PACKET (R158): a UDP datagram on SP `sp` to a destination port, in both lanes (R185). Its instant is the port stamp. -/
def execStreamPacket (t : Time) (sp dport : Nat) (payload : List Byte) (s : State) : Host.Outcome State Fault Refusal :=
  run t s (fun s =>
    if !sensorPortsOn s then s
    else
      intakeEarly (forEach (fun (c : Nat × StreamCfg) s =>
        if c.2.port = sp && c.2.dport = dport then readyLanes (packet c.1 c.2 payload) s else s) s.cfg.streams s))

/-- INTAKE_CLOSE (R29): intake ends in both lanes; where no fusion runs the next stage, assembly, starts (R24). -/
def execIntakeClose (t : Time) (s : State) : Host.Outcome State Fault Refusal :=
  run t s (fun s =>
    if !atMark s s.cyc.cur.intake then s
    else
      let s1 := readyLanes closeIntake { s with cyc := { s.cyc with intakeOpen := false } }
      match active s1 with
      | some l => if (s1.lane l).fus.run then s1 else asmStart l s1
      | none => s1)

/-! Starts and stops (R162, R532). -/

/-- Clear both grids. -/
def clearGrids (l : Lane) : State → State :=
  onFus l (fun f => { f with curGrid := [], prevGrid := [], hasPrev := false })

/-- A fusion start (R532): grids cleared, filter afresh, grade G4 without alarm or timer; without a posted datum the GNSS position
becomes a provisional one (R162). -/
def fusStart (l : Lane) (s : State) : State :=
  let gps := ((s.lane l).gnb.fix).bind (fun f => if f.2 = s.now then some f.1 else none)
  let prov : Option Datum := if s.auth.datum.isSome then none else
    match gps with
    | some r => some ⟨r.lat, r.lon, r.hgt, 0#64⟩
    | none => some ⟨Config.openVal 31 0, Config.openVal 31 1, Config.openVal 31 2, 0#64⟩
  showFus l (onFus l (fun f =>
    { f with run := true, grd := { refs := f.grd.refs }, filter := none, curGrid := [], prevGrid := [], hasPrev := false,
             tkLeft := 0, prov := prov, key := none, autojoy := false }) s)

/-- Fusion stops (R532): its alarms clear, and trust, timer, counts and states are cleared. -/
def fusStop (l : Lane) (s : State) : State :=
  let s := serveGrids l true s
  let s1 := forEach (fun (c : Nat × Nat) => clearAlarm (fusSrc l) c.1 c.2 0)
    [(Ev.FUS_G2, 0), (Ev.FUS_DR, 0), (Ev.FUS_LOST, 0), (Ev.FUS_CONTRA, 0), (Ev.FUS_CONTRA, 1)] s
  let s2 := forEach (unsuspect l) (List.range 16) s1
  let s3 := forEach (fun n => setF (Reg.FUS_REFn_state n) 0 l) (List.range 16) s2
  let s4 := if s3.auth.trust.isSome then authChange (fun u => { u with trust := none }) s3 else s3
  showFus l (setF Reg.FUS_STAT_late 0 l (setF Reg.FUS_STAT_suspect 0 l (setF Reg.FUS_STAT_nagree 0 l (setF Reg.FUS_STAT_ego 0 l
    (onFus l (fun f => { f with run := false, grd := {}, tkLeft := 0, autojoy := false }) s4)))))

end Sys2Proof.Machine
end

