-- ==== Sys2Proof/Machine/GnssSig.lean ====
section
/-!
DEFINITION. GNSS signals and channels (R188, R189, R193-R196, R202), the aiding a lane has and what it predicts (R195, R198), and the limits
of acquisition (R199).
-/

namespace Sys2Proof.Machine

/-- Source of GNSS events of a lane. -/
def gnbSrc (l : Lane) : Src := laneSrc l 8

/-- Change a lane's GNSS baseband. -/
def onGnb (l : Lane) (f : GnbSt → GnbSt) : State → State := onLane l (fun a => { a with gnb := f a.gnb })

/-- Unlisted channels. -/
def chDef (_ : Nat) : GnbCh := {}

/-- A channel of a lane. -/
def gch (s : State) (l : Lane) (c : Nat) : GnbCh := Sparse.get chDef (s.lane l).gnb.chs c

/-- Whether the x.GNB domain of a lane is powered (R41, R45). -/
def gnbOn (s : State) (l : Lane) : Bool := domOn s (domBit l + 3)

/-! Signals (R193). -/

/-- Carrier frequency of a signal in Hz; k is the GLONASS frequency number as a byte. -/
def carrierHz (sig k : Nat) : Int :=
  match sig with
  | 1 | 3 | 5 => 1575420000
  | 7 => 1602000000 + sgn 8 k * 562500
  | _ => 1176450000

/-- Length of a code period in chips. -/
def codeChips : Nat → Nat
  | 1 => 1023
  | 3 => 4092
  | 7 => 511
  | _ => 10230

/-- Chip rate of a signal in chip/s. -/
def chipHz : Nat → Nat
  | 1 | 3 | 5 => 1023000
  | 7 => 511000
  | _ => 10230000

/-- Whether the code is modulated by the square wave of BOC(1,1). -/
def isBoc (sig : Nat) : Bool := sig == 3 || sig == 5

/-- Code period in ms. -/
def codeMs : Nat → Nat
  | 3 => 4
  | 5 => 10
  | _ => 1

/-- Bit of a signal's system in GNB_CFG.sys. -/
def sysOf : Nat → Nat
  | 1 | 2 => 0
  | 3 | 4 => 1
  | 5 | 6 => 2
  | _ => 3

/-- Whether a signal is tracked on IF0 and IF2. -/
def isL1 (sig : Nat) : Bool := sig == 1 || sig == 3 || sig == 5 || sig == 7

/-- Whether a signal is data-only (R202). -/
def dataOnly (sig : Nat) : Bool := sig == 1 || sig == 7

/-- Sample rate of a port in Hz (R189). -/
def portRate (s : State) (n : Nat) : Nat :=
  match getF s (Reg.GNB_IFn_CFG_rate n) with
  | 0 => 20460000
  | 1 => 40920000
  | _ => 81840000

/-- The signal's nominal frequency in a port's complex stream, in Hz (R188). -/
def nominalHz (s : State) (n sig k : Nat) : Int := carrierHz sig k - (getF s (Reg.GNB_IFn_RFC_rfc n) : Int) * 1000

/-- Whether a frequency of the complex stream lies within ±0.4 f_s (R189). -/
def inBand (s : State) (n : Nat) (f : Int) : Bool := decide (5 * f.natAbs ≤ 2 * portRate s n)

/-- Whether a channel may track a signal: its system and its port are enabled and the carrier lies in the port's band (R189, R193). -/
def mayTrack (s : State) (c sig k : Nat) : Bool :=
  within 1 7 sig && isL1 sig == (c / 40 % 2 == 0) && bit (getF s Reg.GNB_CFG_sys) (sysOf sig)
    && getB s (Reg.GNB_IFn_CFG_en (c / 40)) && inBand s (c / 40) (nominalHz s (c / 40) sig k)

/-- The default parameters of a signal (R202). A coherent integration of 0 is 1 code period, and 20 ms after bit synchronisation. -/
def dfltPar (sig : Nat) : GnbPar :=
  if dataOnly sig then ⟨1500, 3, 0, 1000, 50, 0, 50, 0, 2500⟩ else ⟨1000, 3, 1, 1000, 20, 2, 20, 20 / codeMs sig, 2000⟩

/-- The ranges of R202; the coherent integration in code periods. -/
def parOk (sig : Nat) (p : GnbPar) : Bool :=
  within 200 4000 p.pllBw && within 2 3 p.pllOrd && within 0 (if dataOnly sig then 0 else 1) p.pllDisc && within 100 2000 p.fllBw
    && within 5 500 p.dllBw && within 0 2 p.dllDisc && within 5 100 p.spacing && decide (1 ≤ p.coh) && decide (p.coh * codeMs sig ≤ 20)
    && within 1500 3500 p.floor

/-- The parameter set written for a channel while R202 admits it for the signal, else the one for its signal, or the default. -/
def parOf (g : GnbSt) (c sig : Nat) : GnbPar :=
  (((alGet g.pars c).filter (parOk sig)).or (alGet g.pars (1000 + sig))).getD (dfltPar sig)

/-! Channel states (R196). -/

/-- Channels of a list in TRACK. -/
def inTrack (s : State) (l : Lane) (cs : List Nat) : Nat := (cs.filter (fun c => (gch s l c).st == 3)).length

/-- The channels of a port (R194). -/
def portChs (n : Nat) : List Nat := (List.range 40).map (fun i => 40 * n + i)

/-- All channels. -/
def allChs : List Nat := List.range 160

/-- A value in fractions 1/den rounded to an integer; the rounding is open (log entry 11). -/
def rndOpen (key : Nat) (num : Int) (den : Nat) : Int :=
  num / den + (if num % den = 0 then 0 else b2n (Config.roundUp key))

/-- A finite value times a factor, rounded to an integer. -/
def scaled (key n : Nat) (x : F64) : Int :=
  let v := (F64.val x).mul ⟨n, 0⟩
  if 0 ≤ v.e then v.m * 2 ^ v.e.toNat else rndOpen key v.m (2 ^ (-v.e).toNat)

/-- A channel's register view (R213). -/
def chWord (c : GnbCh) : Word :=
  BitVec.ofNat 32 (c.st + 8 * b2n c.pin + 16 * (c.sig % 16) + 256 * (c.sat % 64)
    + 2 ^ 24 * (min (scaled 331 2 c.cn0).toNat 255))

/-- Store a channel with its register view and the counts of channels in TRACK. -/
def setCh (l : Lane) (c : Nat) (v : GnbCh) (s : State) : State :=
  let s1 := onGnb l (fun g => { g with chs := Sparse.set chDef g.chs c v }) s
  let s2 := wrK (Reg.GNB_CHn_STAT c + laneSpan * (1 + l.idx)) (chWord v) s1
  setF Reg.GNB_STAT_ntrk (inTrack s2 l allChs) l (setF (Reg.GNB_IFn_STAT_ntrk (c / 40)) (inTrack s2 l (portChs (c / 40))) l s2)

/-- A channel enters a state now. -/
def toState (l : Lane) (c st : Nat) (f : GnbCh → GnbCh) (s : State) : State :=
  setCh l c (f { gch s l c with st := st, tIn := s.now, hi := none, lo := none, low := none }) s

/-- Release of a channel to IDLE; a pinned channel keeps its pin and its signal. -/
def releaseCh (l : Lane) (c : Nat) (s : State) : State :=
  let v := gch s l c
  setCh l c (if v.pin then { sig := v.sig, sat := v.sat, k := v.k, pin := true, slips := v.slips, tIn := s.now }
    else { slips := v.slips }) s

/-- A component of a sample (R188): 4 bits, two's complement or, with `fmt`, sign and magnitude. -/
def sampleVal (fmt : Bool) (v : Nat) : Int :=
  if fmt then (if 8 ≤ v then -((v - 8 : Nat) : Int) else v) else sgn 4 v

/-- A sample as it enters the module: I in bits 7:4, Q in bits 3:0, conjugated with `inv`. -/
def sampleOf (s : State) (n : Nat) (b : Byte) : Int × Int :=
  let fmt := getB s (Reg.GNB_IFn_CFG_fmt n)
  let q := sampleVal fmt (b.toNat % 16)
  (sampleVal fmt (b.toNat / 16), if getB s (Reg.GNB_IFn_CFG_inv n) then -q else q)

/-- Give a channel a signal of a satellite: ACQ. -/
def allotCh (l : Lane) (c : Nat) (k : Cand) (s : State) : State :=
  let v := gch s l c
  setCh l c { sig := k.sig, sat := k.sat, k := k.k, st := 1, tIn := s.now, pin := v.pin, slips := v.slips } s

/-- A cycle slip (R197). -/
def slipCh (l : Lane) (c : Nat) (s : State) : State :=
  incF Reg.GNB_CNT_slip l
    (setCh l c { gch s l c with slips := (gch s l c).slips + 1#8, cont := false, slipped := true } s)

/-- Since when a condition holds. -/
def sinceWhen (now : Time) (c : Bool) (o : Option Time) : Option Time := if c then o.or (some now) else none

/-- Whether a condition has held for some ns. -/
def heldLong (now : Time) (o : Option Time) (ns : Nat) : Bool :=
  match o with
  | some x => decide (ns ≤ since now x)
  | none => false

/-! Aiding (R198). -/

/-- How well the local time of a lane is known: 2 for ±1 µs, 1 for ±2 s, 0 not at all. -/
def timeAid (s : State) (l : Lane) : Nat :=
  if getF s Reg.TMB_STAT_state l ≠ 0 then 2 else if (s.lane l).tmb.set then 1 else 0

/-- The aiding position, Earth-centred: the fusion output at a grade better than G4, otherwise the last fix, otherwise the posted one. -/
def aidAt (s : State) (l : Lane) : Option V3 :=
  let it := (s.lane l).fus.items
  let g := (s.lane l).gnb
  let fus := match datumOf s l with
    | some d => if getF s Reg.FUS_STAT_grade l < 4 && !getB s Reg.FUS_STAT_off l then some (fromQuay d (it.getD 0 0#64) (it.getD 1 0#64)) else none
    | none => none
  (fus.or (g.fix.map (fun f => ecef f.1.lat f.1.lon f.1.hgt))).or (g.pos.map (fun p => ecef p.1 p.2.1 p.2.2.1))

/-- The navigation data of the enabled systems; a disabled system's are stored but not used (R193). -/
def navOn (s : State) (l : Lane) : List NavRec := (s.lane l).gnb.nav.filter (fun x => bit (getF s Reg.GNB_CFG_sys) x.sys)

/-- Navigation data in use of a satellite: 1 ephemeris, 2 almanac, 3 ionosphere, 4 UTC and system time. -/
def navOf (s : State) (l : Lane) (sys sat kind : Nat) : Option NavRec :=
  (navOn s l).find? (fun x => x.sys == sys && x.sat == sat && x.kind == kind)

/-- The data a prediction uses: the ephemeris, else the almanac. -/
def orbitOf (s : State) (l : Lane) (sys sat : Nat) : Option NavRec := (navOf s l sys sat 1).or (navOf s l sys sat 2)

/-- A prediction for a satellite at an instant, from its orbit, the position and local time (log entry 80): 0 the elevation in degrees, 1
the Doppler of a signal in Hz, 2 its code phase in chips. -/
def predicted (s : State) (l : Lane) (which : Nat) (t : Time) (sig sat : Nat) : Option F64 :=
  match orbitOf s l (sysOf sig) sat, aidAt s l with
  | some o, some p => if timeAid s l = 0 then none else some (Config.gnss which [sig, sat, ltAt s l t] o.bytes [p.x, p.y, p.z])
  | _, _ => none

/-- The code phase is predicted from an ephemeris and time of ±1 µs. -/
def codePred (s : State) (l : Lane) (t : Time) (sig sat : Nat) : Option F64 :=
  if timeAid s l = 2 && (navOf s l (sysOf sig) sat 1).isSome then predicted s l 2 t sig sat else none

/-- The GLONASS frequency number of a slot as a byte: by its orbit data, or free without (log entry 80); 0 for another system. -/
def freqNo (s : State) (l : Lane) (sig sat : Nat) : Nat :=
  if sig ≠ 7 then 0
  else
    let n := match orbitOf s l 3 sat with
      | some o => Config.listVal 60 (o.bytes.map (·.toNat))
      | none => Config.listVal 61 [sat]
    (BitVec.ofInt 8 ((n % 14 : Nat) - 7)).toNat

/-- The signals of a band that are enabled: IF0 and IF2 for band 0. -/
def bandSigs (s : State) (band : Nat) : List Nat :=
  ([1, 2, 3, 4, 5, 6, 7].filter (fun g => isL1 g == (band == 0))).filter (fun g => bit (getF s Reg.GNB_CFG_sys) (sysOf g))

/-- Satellite numbers of a system (log entry 80). -/
def satCount : Nat → Nat
  | 0 => 32
  | 1 => 36
  | 2 => 63
  | _ => 24

/-- Whether nothing can be predicted: no orbit data, no position, or no time. -/
def blind (s : State) (l : Lane) : Bool :=
  timeAid s l == 0 || (aidAt s l).isNone || !(navOn s l).any (fun x => x.kind == 1 || x.kind == 2)

/-- The satellites the prediction shows at or above the mask, with their enabled signals of a band (R195). -/
def visible (s : State) (l : Lane) (e : Time) (band : Nat) : List Cand :=
  let sats := (((navOn s l).filter (fun x => x.kind == 1 || x.kind == 2)).map (fun x => (x.sys, x.sat))).eraseDups
  let mask := F64.ratio (getF s Reg.GNB_CFG_elev) 2
  sats.flatMap (fun x => ((bandSigs s band).filter (fun g => sysOf g == x.1)).filterMap (fun g =>
    (predicted s l 0 e g x.2).bind (fun el => if F64.le mask el then some ⟨g, x.2, freqNo s l g x.2, el⟩ else none)))

/-- Every enabled signal of every satellite number of a band, in the order of the blind search (R195). -/
def allSats (s : State) (l : Lane) (band : Nat) : List Cand :=
  (bandSigs s band).flatMap (fun g => (List.range (satCount (sysOf g))).map (fun i => ⟨g, i + 1, freqNo s l g (i + 1), 0#64⟩))

/-! Acquisition (R196, R199). -/

/-- Doppler in units of 2^-32 Hz, exact: the carrier word times the sample rate, less the signal's nominal offset. -/
def dopplerNum (s : State) (c : Nat) (v : GnbCh) : Int :=
  v.car.toInt * portRate s (c / 40) - nominalHz s (c / 40) v.sig v.k * 2 ^ 32

/-- Whether a Doppler in units of 2^-32 Hz lies within 300 Hz of a figure in Hz. -/
def nearDoppler (d : Int) (f : Dy) : Bool :=
  let x := Dy.add ⟨d, -32⟩ f.neg
  !Dy.lt ⟨300, 0⟩ ⟨x.m.natAbs, x.e⟩

/-- Whether a code phase lies within 2 µs of a predicted one, around the code. -/
def nearCode (sig : Nat) (d : Detection) (q : F64) : Bool :=
  let len : Int := codeChips sig
  let x := Dy.add ⟨(d.chip * 2 ^ 32 + d.frac.toNat : Nat), -32⟩ (F64.val q).neg
  let y := x.add ⟨-(len * (x.floor / len)), 0⟩
  let lim : Dy := ⟨2 * chipHz sig, 0⟩
  !Dy.lt lim (y.mul ⟨1000000, 0⟩) || !Dy.lt lim ((Dy.add ⟨len, 0⟩ y.neg).mul ⟨1000000, 0⟩)

/-- Whether the engine reports a detection (R199): within the Doppler and code ranges of its case, at or above the threshold, in the band of
the port. A LOST channel searches around its last Doppler for 5 s (R196). -/
def detects (s : State) (l : Lane) (c : Nat) (d : Detection) : Bool :=
  let v := gch s l c
  let dop := dopplerNum s c { v with car := d.car }
  let pred := if v.st = 4 then some (⟨dopplerNum s c v, -32⟩ : Dy) else (predicted s l 1 s.now v.sig v.sat).map F64.val
  let aided := pred.isSome
  within 1 20 d.sums && decide (d.chip < codeChips v.sig) && F64.isFin d.cn0
    && F64.le (F64.ofInt (if aided then 32 else 38)) d.cn0
    && decide (5 * (d.car.toInt.natAbs * portRate s (c / 40)) ≤ 2 * portRate s (c / 40) * 2 ^ 32)
    && (match pred with
      | some f => nearDoppler dop f
      | none => decide (dop.natAbs ≤ (if isL1 v.sig then 6000 else 4500) * 2 ^ 32))
    && (v.st == 4 || (codePred s l s.now v.sig v.sat).all (nearCode v.sig d))
    && (v.st != 4 || decide (since s.now v.tIn < 5 * sec))

end Sys2Proof.Machine
end

