-- ==== Sys2Proof/Machine/GnssLoop.lean ====
section
/-!
DEFINITION. The oscillators, correlators and tracking loops of a GNSS channel (R188, R194, R197, R200-R203). The codes of the signals, the
carrier replica, the loop filters and the noise figure are open (log entry 80).
-/

namespace Sys2Proof.Machine

/-! Oscillators (R200). -/

/-- The carrier oscillator in 2^-32 cycle. -/
def carTot (v : GnbCh) : Nat := v.carCyc.toNat * 2 ^ 32 + v.carFrac.toNat

/-- The code oscillator in 2^-32 chip within its period. -/
def codTot (v : GnbCh) : Nat := v.chip * 2 ^ 32 + v.codFrac.toNat

/-- Code periods completed over some samples. -/
def periodsIn (v : GnbCh) (n : Nat) : Nat := (codTot v + n * v.cod.toNat) / (codeChips v.sig * 2 ^ 32)

/-- Both oscillators run over some samples at their rate words. -/
def runOsc (n : Nat) (v : GnbCh) : GnbCh :=
  let a := BitVec.ofInt 64 (carTot v + n * v.car.toInt)
  let c := (codTot v + n * v.cod.toNat) % (codeChips v.sig * 2 ^ 32)
  { v with carCyc := (a >>> 32).setWidth 32, carFrac := a.setWidth 32, smp := v.smp + n,
           chip := c / 2 ^ 32, codFrac := BitVec.ofNat 32 c, per := v.per + BitVec.ofNat 32 (periodsIn v n) }

/-- Code periods of a coherent integration (R202): one on a data-only signal before bit synchronisation. -/
def cohOf (v : GnbCh) (p : GnbPar) : Nat :=
  if dataOnly v.sig && !v.sync then 1 else if p.coh = 0 then 20 / codeMs v.sig else p.coh

/-- Whether some samples end just at the accumulation boundary; the first accumulation ends with its code period. -/
def atBoundary (v : GnbCh) (p : GnbPar) (n : Nat) : Bool :=
  let want := if v.sums.isEmpty then 1 else cohOf v p
  decide (0 < n) && decide (want ≤ periodsIn v n) && decide (periodsIn v (n - 1) < want)

/-! Correlators (R194). -/

/-- Sign of a signal's code at a code phase in 2^-32 chip: the chip of a component (0 data, 1 pilot), and the square wave of BOC(1,1). -/
def codeSign (v : GnbCh) (comp : Nat) (ph : Int) : Int :=
  let x := (ph % (codeChips v.sig * 2 ^ 32 : Nat)).toNat
  let chip : Int := if Config.listVal 62 [v.sig, v.sat, comp, x / 2 ^ 32] % 2 = 0 then 1 else -1
  if isBoc v.sig && 2 ^ 31 ≤ x % 2 ^ 32 then -chip else chip

/-- One complex sum: the samples times the conjugate carrier replica and the code displaced by `d`. -/
def corrSum (v : GnbCh) (comp : Nat) (d : Int) (xs : List (Int × Int)) : List Int :=
  let r := xs.zipIdx.foldl (fun (a : Int × Int) x =>
    let q := Config.replica (BitVec.ofInt 32 (v.carFrac.toNat + x.2 * v.car.toInt))
    let c := codeSign v comp (codTot v + x.2 * v.cod.toNat + d)
    (a.1 + c * (x.1.1 * q.1 + x.1.2 * q.2), a.2 + c * (x.1.2 * q.1 - x.1.1 * q.2))) (0, 0)
  [r.1, r.2]

/-- The six correlators: very-early, early, prompt, late, very-late on the tracked component, and a prompt on the data component of a pilot
signal. -/
def correlate (v : GnbCh) (p : GnbPar) (xs : List (Int × Int)) : List Int :=
  let comp := if dataOnly v.sig then 0 else 1
  let h : Int := (p.spacing * 2 ^ 32 / 200 : Nat)
  [2 * h, h, 0, -h, -2 * h].flatMap (fun d => corrSum v comp d xs)
    ++ (if dataOnly v.sig then [0, 0] else corrSum v 0 0 xs)

/-- A correlator sum, by correlator and 0 for in phase, 1 for quadrature. -/
def sumAt (xs : List Int) (i q : Nat) : Int := xs.getD (2 * i + q) 0

/-- Power of a correlator. -/
def powAt (xs : List Int) (i : Nat) : Int := sumAt xs i 0 ^ 2 + sumAt xs i 1 ^ 2

/-- The phase lock indicator cos 2φ of the prompt (R206); free where the prompt is 0. -/
def lockOf (xs : List Int) : F64 :=
  if powAt xs 2 = 0 then Config.gnss 7 xs [] []
  else F64.ofRat (sumAt xs 2 0 ^ 2 - sumAt xs 2 1 ^ 2) (powAt xs 2).toNat

/-! Discriminators and loop filters (R201, R202). -/

/-- Phase error in cycles: Costas arctangent, or four-quadrant arctangent. -/
def phaseErr (disc : Nat) (xs : List Int) : F64 :=
  let i := sumAt xs 2 0
  let q := sumAt xs 2 1
  let flip := disc == 0 && decide (i < 0)
  F64.div (F64.atan2 (F64.ofInt (if flip then -q else q)) (F64.ofInt (if flip then -i else i))) twoPi

/-- Code error: normalised early-minus-late power, the normalised dot product, or the double delta, whose formula is open. -/
def codeErr (disc : Nat) (xs : List Int) : F64 :=
  let d (i j : Nat) : Int := powAt xs i - powAt xs j
  match disc with
  | 0 => if powAt xs 1 + powAt xs 3 = 0 then 0#64 else F64.ofRat (d 1 3) (powAt xs 1 + powAt xs 3).toNat
  | 1 =>
    if powAt xs 2 = 0 then 0#64
    else F64.ofRat ((sumAt xs 1 0 - sumAt xs 3 0) * sumAt xs 2 0 + (sumAt xs 1 1 - sumAt xs 3 1) * sumAt xs 2 1) (powAt xs 2).toNat
  | _ => Config.gnss 8 xs [] []

/-- A rate word for a frequency given as an exact fraction. -/
def rateWord (key fs : Nat) (num : Int) (den : Nat) : Int := rndOpen key (num * 2 ^ 32) (den * fs)

/-- The code rate word (R201): the carrier frequency × (chip rate / carrier), plus the correction of the DLL in chip/s. -/
def codeWord (s : State) (c : Nat) (v : GnbCh) (car : Word) (corr : F64) : Word :=
  let fs := portRate s (c / 40)
  let f := carrierHz v.sig v.k
  let carrier : Int := f * 2 ^ 32 + dopplerNum s c { v with car := car }
  let aid : Int := carrier * chipHz v.sig
  let den : Int := f * 2 ^ 32
  let z := F64.val corr
  let zn : Int := if 0 ≤ z.e then z.m * 2 ^ z.e.toNat else z.m
  let zd : Nat := if 0 ≤ z.e then 1 else 2 ^ (-z.e).toNat
  BitVec.ofInt 32 (rateWord 337 fs (aid * zd + zn * den) (den.toNat * zd))

/-- What the firmware makes of the sums: the new filter memory, the carrier rate word and the code rate word. The FLL works in PULLIN. -/
def loopStep (s : State) (c : Nat) (v : GnbCh) (p : GnbPar) (xs : List Int) (n : Nat) : List F64 × Word × Word :=
  let fs := portRate s (c / 40)
  let ints : List Int := [p.pllBw, p.pllOrd, if v.st = 2 then p.fllBw else 0, p.dllBw,
    sumAt v.sums 2 0, sumAt v.sums 2 1, sumAt xs 2 0, sumAt xs 2 1]
  let vals := [phaseErr p.pllDisc xs, codeErr p.dllDisc xs, F64.ratio n fs] ++ v.loop
  let f := F64.val (Config.gnss 2 ints [] vals)
  let num : Int := if 0 ≤ f.e then f.m * 2 ^ f.e.toNat else f.m
  let den : Nat := if 0 ≤ f.e then 1 else 2 ^ (-f.e).toNat
  let car := BitVec.ofNat 32 (satInt 32 (rateWord 338 fs num den))
  ((List.range 3).map (fun i => Config.gnss (3 + i) ints [] vals), car, codeWord s c v car (Config.gnss 6 ints [] vals))

/-! The boundary. -/

/-- 0.8, 0.6 and 0.25 as binary64. -/
def pliHi : F64 := 0x3FE999999999999A#64
def pliLo : F64 := 0x3FE3333333333333#64
def quarter : F64 := 0x3FD0000000000000#64

/-- The parameters in force in a channel's accumulation (R203). -/
def parNow (s : State) (l : Lane) (v : GnbCh) (c : Nat) : GnbPar := v.par.getD (parOf (s.lane l).gnb c v.sig)

/-- The sums of an accumulation. -/
def sumsOf (s : State) (l : Lane) (d : CorrDump) : List Int :=
  let v := gch s l d.ch
  correlate v (parNow s l v d.ch) (d.samples.map (sampleOf s (d.ch / 40)))

/-- The channel after an accumulation (R197, R200-R203): the oscillators have run on, the words that waited take effect, the firmware's new
words wait for the next boundary or, written late, for the one after; a new parameter set takes effect. -/
def dumped (s : State) (l : Lane) (d : CorrDump) : GnbCh :=
  let v := gch s l d.ch
  let p := parOf (s.lane l).gnb d.ch v.sig
  let xs := sumsOf s l d
  let o := runOsc d.samples.length v
  let w := v.next1.getD (v.car, v.cod)
  let r := loopStep s d.ch v p xs d.samples.length
  let pli := lockOf xs
  let cn0 := Config.gnss 9 xs [] [v.cn0]
  { o with car := w.1, cod := w.2, sums := xs, pli := pli, cn0 := cn0, par := some p, loop := r.1,
           sync := v.sync || Config.listVal 63 (xs.map (fun x => x.toNat)) % 2 == 1,
           next1 := if d.late then v.next2 else some r.2, next2 := if d.late then some r.2 else none,
           hi := sinceWhen s.now (F64.le pliHi pli) v.hi, lo := sinceWhen s.now (F64.lt pli pliLo) v.lo,
           low := sinceWhen s.now (Dy.lt ((F64.val cn0).mul ⟨100, 0⟩) ⟨p.floor, 0⟩) v.low }

/-- Whether an accumulation of a channel in TRACK is a cycle slip (R197): the lock indicator falls below 0.6, or the carrier phase departs
from its prediction, which the spec does not give, by more than 0.25 cycle. -/
def slipsAt (s : State) (l : Lane) (d : CorrDump) : Bool :=
  let v := gch s l d.ch
  let xs := sumsOf s l d
  v.st == 3 && ((F64.lt (lockOf xs) pliLo && v.lo.isNone) || F64.lt quarter (F64.abs (Config.gnss 10 (xs ++ v.sums) [] v.loop)))

/-- An accumulation boundary of a channel. -/
def dump (l : Lane) (d : CorrDump) (s : State) : State :=
  let v := gch s l d.ch
  if v.st < 2 || v.st == 4 || !atBoundary v (parNow s l v d.ch) d.samples.length then s
  else when (slipsAt s l d) (slipCh l d.ch) (setCh l d.ch (dumped s l d) s)

end Sys2Proof.Machine
end

