-- ==== Sys2Proof/Machine/GnssFix.lean ====
section
/-!
DEFINITION. The measurements of an epoch (R204-R207), the fix and the two-antenna heading made of them (R208-R210). The geometry of satellites,
models and solution rests on interface specifications and formulas the spec does not give, and is open (log entry 81).
-/

namespace Sys2Proof.Machine

/-! Entries (R204-R207). -/

/-- Interval of the referral in ps: the residual and the antenna delay (R204, R191). -/
def referral (s : State) (c r : Nat) : Nat := r + 1000 * getF s (Reg.GNB_IFn_DLY_dly (c / 40))

/-- Code phase in units of 2^-32 × 10^-12 chip, referred to E at the antenna, and the periods borrowed. -/
def codeNum (s : State) (c r : Nat) (v : GnbCh) : Int × Int :=
  let n : Int := (codTot v * 10 ^ 12 : Nat) - (v.cod.toNat * portRate s (c / 40) * referral s c r : Nat)
  let len : Int := (codeChips v.sig * 2 ^ 32 * 10 ^ 12 : Nat)
  (n % len, n / len)

/-- Denominator of a carrier phase. -/
def carrierDen (s : State) (c : Nat) : Nat := 2 ^ 32 * 10 ^ 12 * portRate s (c / 40)

/-- Carrier phase since PULLIN as a numerator over `carrierDen`: the oscillator less the signal's nominal offset, which both count modulo
2^32 cycles, with the sign of range and referred to E (R207). -/
def carrierNum (s : State) (c r : Nat) (v : GnbCh) : Int :=
  let fs := portRate s (c / 40)
  let full : Int := (2 ^ 32 * carrierDen s c : Nat)
  let x := ((carTot v * fs : Nat) - nominalHz s (c / 40) v.sig v.k * (v.smp * 2 ^ 32 : Nat)) * 10 ^ 12 % full
  let d := if 2 * x < full then x else x - full
  dopplerNum s c v * (referral s c r * fs : Nat) - d

/-- Carrier phase since PULLIN, in cycles. -/
def carrierPhase (s : State) (c r : Nat) (v : GnbCh) : F64 := F64.ofRat (carrierNum s c r v) (carrierDen s c)

/-- Fields 8-43 of an entry (R206). -/
def entryFields (s : State) (c r : Nat) (e : Time) (v : GnbCh) : List Byte :=
  let q := codeNum s c r v
  leBytes 8 (F64.ofRat q.1 (2 ^ 32 * 10 ^ 12)).toNat ++ leBytes 4 ((v.per.toNat + q.2) % 2 ^ 32).toNat
    ++ leBytes 2 (min (scaled 332 100 v.cn0).toNat 0xFFFF)
    ++ leBytes 2 (if v.st = 3 then min (since e v.tTrk / (100 * ms)) 0xFFFF else 0)
    ++ leBytes 8 (carrierPhase s c r v).toNat
    ++ leBytes 8 (F64.ofDy false ⟨dopplerNum s c v, -32⟩).toNat
    ++ leBytes 2 (satInt 16 (scaled 333 10000 v.pli)) ++ [v.slips, 0#8]

/-- GLONASS frequency number of an entry; 0 for another system. -/
def entryK (sig k : Nat) : Byte := if sig = 7 then BitVec.ofNat 8 k else 0#8

/-- What the epoch brings for a channel that tracks. -/
def latchOf (s : State) (l : Lane) (g : EpochIn) (c : Nat) : Option GnbLatch :=
  if (gch s l c).st = 2 || (gch s l c).st = 3 then g.lat.find? (fun q => q.ch == c) else none

/-- A channel as the epoch latches it (R204): its oscillators run on to the first edge at or after E. -/
def atEdge (s : State) (l : Lane) (g : EpochIn) (c : Nat) : GnbCh :=
  match latchOf s l g c with
  | some q => runOsc q.n (gch s l c)
  | none => gch s l c

/-- Latch a channel and form its entry (R204, R206, R207). -/
def entryOf (l : Lane) (e : Time) (g : EpochIn) (used : BitVec 160) (c : Nat) (s : State) : List Byte × State :=
  let v := gch s l c
  let lat := latchOf s l g c
  let f := match lat with
    | some _ => entryFields s c (g.r.getD (c / 40) 0) e (atEdge s l g c)
    | none => v.last.take 34 ++ List.replicate (34 - v.last.length) 0#8 ++ [v.slips, 0#8]
  let lock (p : GnbLatch → Bool) : Bool := lat.any p
  let tow := lat.bind (·.tow)
  let fl := b2n (lock (·.codeLock)) + 2 * b2n (lock (·.carLock)) + 4 * b2n (lock (·.half)) + 8 * b2n (v.cont && v.st == 3)
    + 16 * b2n tow.isSome + 32 * b2n v.pin + 64 * b2n (used.getLsbD c)
  (leBytes 2 c ++ [BitVec.ofNat 8 v.sig, BitVec.ofNat 8 v.sat, entryK v.sig v.k, BitVec.ofNat 8 v.st] ++ leBytes 2 fl ++ f
     ++ leBytes 4 (tow.getD ((Config.openVal 33 c).setWidth 32)).toNat,
   setCh l c { v with last := f, cont := v.st == 3, slipped := false } s)

/-- The entries of the channels not IDLE, in order. -/
def entries (l : Lane) (e : Time) (g : EpochIn) (used : BitVec 160) : List Nat → State → List Byte × Nat × State
  | [], s => ([], 0, s)
  | c :: cs, s =>
    if (gch s l c).st = 0 then entries l e g used cs s
    else
      let r := entryOf l e g used c s
      let q := entries l e g used cs r.2
      (r.1 ++ q.1, q.2.1 + 1, q.2.2)

/-! The fix (R208, R209). -/

/-- What a satellite gives to a fix: system, number, channels, and its range in m. -/
structure SatObs where
  sys : Nat
  sat : Nat
  chans : List Nat
  z : F64
  deriving DecidableEq, Repr

/-- Code pseudorange of a latched channel in m, from its transmit time and local time. -/
def pseudo (s : State) (l : Lane) (e : Time) (g : EpochIn) (c : Nat) (tow : Word) : F64 :=
  let v := atEdge s l g c
  let q := codeNum s c (g.r.getD (c / 40) 0) v
  Config.gnss 20 [v.sig, tow.toNat, q.1, q.2, ltAt s l e] [] []

/-- Smooth the pseudorange of a channel over 100 s with its carrier phase (R208): smoothing restarts at a slip or a break, and when the
channel has no time. -/
def smoothCh (l : Lane) (e : Time) (g : EpochIn) (c : Nat) (s : State) : State :=
  let v := gch s l c
  match (latchOf s l g c).bind (·.tow) with
  | some tow =>
    let z := pseudo s l e g c tow
    let ph := carrierPhase s c (g.r.getD (c / 40) 0) (atEdge s l g c)
    let x : Time × F64 × F64 := match v.smo with
      | some m =>
        if v.slipped || !v.cont then (e, z, ph)
        else (m.1, Config.gnss 21 [v.sig, v.k, min (since e m.1) (100 * sec)] [] [z, m.2.1, ph, m.2.2], ph)
      | none => (e, z, ph)
    setCh l c { v with smo := if v.st = 3 then some x else none } s
  | none => if v.smo.isNone then s else setCh l c { v with smo := none } s

/-- Broadcast time offset of a system against GPS time, where it is held: GGTO, the BeiDou-GPS offset, τ_GPS. -/
def broadcastIsb (s : State) (l : Lane) (k : Nat) : Option F32 :=
  ((navOn s l).find? (fun x => x.sys == k && x.kind == 4)).map (fun x => F64.to32 (Config.gnss 30 [k] x.bytes []))

/-- How a system's offset is obtained with `n` of its satellites (R209): 0 none, 1 estimated, 2 broadcast. -/
def isbMode (s : State) (l : Lane) (k n : Nat) : Nat :=
  let b := if (broadcastIsb s l k).isSome then 2 else 0
  if k = 0 then 2
  else match getF s Reg.GNB_CFG_isb with
    | 1 => 1
    | 2 => b
    | _ => if 2 ≤ n then 1 else b

/-- The channels that may give a satellite to the fix but for the elevation mask: on IF0 and IF1, in TRACK, with time, C/N0 of at least
30 dB-Hz and an ephemeris in use. -/
def trackedChs (s : State) (l : Lane) : List Nat :=
  (List.range 80).filter (fun c =>
    let v := gch s l c
    v.st == 3 && v.smo.isSome && F64.le (F64.ofInt 30) v.cn0 && (navOf s l (sysOf v.sig) v.sat 1).isSome)

/-- The combination of two bands without the first-order ionosphere: (f₁²·p₁ − f₂²·p₂) / (f₁² − f₂²) (log entry 81). -/
def ionoFree (f1 f2 : Int) (p1 p2 : F64) : F64 :=
  F64.div (F64.sub (F64.mul (F64.ofInt (f1 * f1)) p1) (F64.mul (F64.ofInt (f2 * f2)) p2)) (F64.ofInt (f1 * f1 - f2 * f2))

/-- The ranges of the satellites of some channels: the dual-frequency combination where both bands are tracked, otherwise with the
broadcast ionosphere model. -/
def obsOf (s : State) (l : Lane) (e : Time) (cs : List Nat) : List SatObs :=
  let key (c : Nat) : Nat × Nat := (sysOf (gch s l c).sig, (gch s l c).sat)
  let rng (c : Nat) : F64 := ((gch s l c).smo.map (·.2.1)).getD 0#64
  let iono := (((navOn s l).filter (fun x => x.kind == 3)).map (·.bytes)).flatten
  ((cs.map key).eraseDups).filterMap (fun k =>
    let on (lo : Bool) : Option Nat := cs.find? (fun c => key c == k && decide (c < 40) == lo)
    match on true, on false with
    | some a, some b =>
      some ⟨k.1, k.2, [a, b], ionoFree (carrierHz (gch s l a).sig (gch s l a).k) (carrierHz (gch s l b).sig (gch s l b).k) (rng a) (rng b)⟩
    | some c, none | none, some c => some ⟨k.1, k.2, [c], Config.gnss 22 [(gch s l c).sig, k.2, ltAt s l e] iono [rng c]⟩
    | none, none => none)

/-- The satellites of systems whose offset is known or estimated. -/
def withIsb (s : State) (l : Lane) (os : List SatObs) : List SatObs :=
  os.filter (fun o => isbMode s l o.sys ((os.filter (fun p => p.sys == o.sys)).length) != 0)

/-- Unknowns of a solution: position, clock bias, an offset for each system that is estimated. -/
def unknownsOf (s : State) (l : Lane) (os : List SatObs) : Nat :=
  4 + (([1, 2, 3] : List Nat).filter (fun k =>
    let n := (os.filter (fun o => o.sys == k)).length
    0 < n && isbMode s l k n == 1)).length

/-- A figure of the solution of some satellites: 24 latitude, 25 longitude, 26 height, 27 clock bias in s, 28 the scaled covariance in m²
(0 east, 1 north, 2 between them), 29 PDOP, 31 a system's offset in ns, 23 the normalised residual of a satellite. -/
def solved (s : State) (l : Lane) (e : Time) (os : List SatObs) (which : Nat) (i : Nat) : F64 :=
  let nav := (os.map (fun o => ((navOf s l o.sys o.sat 1).map (·.bytes)).getD [])).flatten
    ++ (((navOn s l).filter (fun x => x.kind == 4)).map (·.bytes)).flatten
  Config.gnss which ((i : Int) :: ltAt s l e :: os.flatMap (fun o => [(o.sys : Int), (o.sat : Int), ((isbMode s l o.sys
    ((os.filter (fun p => p.sys == o.sys)).length) : Nat) : Int)])) nav (os.map (·.z))

/-- The residual test (R208): the satellite of the largest normalised residual above 4 is excluded and the solution made again, at most twice. -/
def excluded (s : State) (l : Lane) (e : Time) : Nat → List SatObs → List SatObs
  | 0, os => os
  | n + 1, os =>
    let rs := os.zipIdx.map (fun o => (o.1, F64.abs (solved s l e os 23 o.2)))
    let top := rs.foldl (fun (m : Option (SatObs × F64)) r =>
      if F64.lt (F64.ofInt 4) r.2 && m.all (fun m => F64.lt m.2 r.2) then some r else m) none
    match top with
    | some t => excluded s l e n (withIsb s l (os.filter (fun o => o != t.1)))
    | none => os

/-- The solution of some satellites: valid when they exceed the unknowns by at least 1 and PDOP is at most 6. -/
def solution (s : State) (l : Lane) (e : Time) (os : List SatObs) : Option FixRes :=
  if os.length < unknownsOf s l os + 1 || !F64.le (solved s l e os 29 0) (F64.ofInt 6) then none
  else
    some { lat := solved s l e os 24 0, lon := solved s l e os 25 0, hgt := solved s l e os 26 0,
           varE := solved s l e os 28 0, varN := solved s l e os 28 1, covEN := solved s l e os 28 2, clkBias := solved s l e os 27 0,
           pdop := solved s l e os 29 0,
           used := (os.flatMap (·.chans)).foldl (fun m c => m ||| BitVec.ofNat 160 (2 ^ c)) 0#160, unknowns := unknownsOf s l os }

/-- The satellites a fix of an epoch uses, and the fix (R208). -/
def fixObs (s : State) (l : Lane) (e : Time) (os : List SatObs) : List SatObs := excluded s l e 2 (withIsb s l os)
def fixOf (s : State) (l : Lane) (e : Time) (os : List SatObs) : Option FixRes := solution s l e (fixObs s l e os)

/-- The position that the elevations of a fix are taken at: the aiding position, else that of a solution without the mask (log entry 81). -/
def maskAt (s : State) (l : Lane) (e : Time) : Option V3 :=
  (aidAt s l).or ((solution s l e (withIsb s l (obsOf s l e (trackedChs s l)))).map (fun x => ecef x.lat x.lon x.hgt))

/-- The channels of satellites at or above the elevation mask. -/
def fixChans (s : State) (l : Lane) (e : Time) : List Nat :=
  match maskAt s l e with
  | none => []
  | some p =>
    (trackedChs s l).filter (fun c =>
      let v := gch s l c
      let eph := ((navOf s l (sysOf v.sig) v.sat 1).map (·.bytes)).getD []
      F64.le (F64.ratio (getF s Reg.GNB_CFG_elev) 2) (Config.gnss 0 [v.sig, v.sat, ltAt s l e] eph [p.x, p.y, p.z]))

/-- The ranges of the satellites a fix may use. -/
def satObs (s : State) (l : Lane) (e : Time) : List SatObs := obsOf s l e (fixChans s l e)

/-- The time offsets of Galileo, BeiDou and GLONASS that a record shows, and whether each is broadcast (R205, R209). -/
def isbShown (s : State) (l : Lane) (e : Time) (os : List SatObs) (k : Nat) : F32 × Bool :=
  let n := (os.filter (fun o => o.sys == k)).length
  match isbMode s l k n, broadcastIsb s l k with
  | 2, some x => (x, true)
  | 1, _ => (if n = 0 then (Config.openVal 35 k).setWidth 32 else F64.to32 (solved s l e os 31 k), false)
  | _, _ => ((Config.openVal 35 k).setWidth 32, false)

/-- The header (R205); `clk` and `snap` are its flags. -/
def gnbHeader (s : State) (l : Lane) (e : Time) (n : Nat) (clk snap : Bool) (r : List Nat) (os : List SatObs) (x : Option FixRes) : List Byte :=
  let lt := ltAt s l e
  let fl := b2n clk + 2 * b2n snap + (if getF s Reg.TMB_STAT_state l = 1 then 0 else 4) + (if isActive s l then 0 else 8)
  let bias : F64 := match x with
    | some x => x.clkBias
    | none => F64.nan 0#64 0#64
  let isb := [1, 2, 3].map (isbShown s l e os)
  leBytes 8 e.toNat ++ leBytes 8 (ltSec lt) ++ leBytes 4 (lt % sec).toNat ++ leBytes 2 n ++ leBytes 2 fl
    ++ ([0, 1, 2, 3].map (fun i => leBytes 2 (r.getD i 0))).flatten ++ leBytes 8 bias.toNat
    ++ (isb.map (fun i => leBytes 4 i.1.toNat)).flatten
    ++ leBytes 1 ((isb.zipIdx.map (fun i => if i.1.2 then 2 ^ i.2 else 0)).sum)
    ++ List.replicate 11 0#8

/-- An observation of GNSS time from the Active lane's fix (R326): bias is local time against GPS time, TAI is GPS + 19 s;
the observation is held to 1 ns. An epoch or a snapshot without a fix counts. -/
def gnssObserve (l : Lane) (e : Time) (snap : Bool) (x : Option FixRes) (s : State) : State :=
  if !isActive s l then s
  else
    match x with
    | some x => readyLanes (fun k => observe k false e (19 * sec - scaled 336 sec x.clkBias)) s
    | none => readyLanes (fun k => onRef k false (fun r =>
        if snap then { r with missSnap := r.missSnap + 1 } else { r with miss := r.miss + 1 })) s

/-- Show the last fix (R213). -/
def showFix (l : Lane) (snap : Bool) (os : List SatObs) (x : Option FixRes) (s : State) : State :=
  match x with
  | none => setF Reg.GNB_STAT_nused 0 l (setF Reg.GNB_STAT_fix 0 l s)
  | some _ =>
    setF Reg.GNB_STAT_nused (min os.length 63) l
      (setF Reg.GNB_STAT_fix (if snap then 1 else if 4 ≤ (os.filter (fun o => o.chans.length == 2)).length then 3 else 2) l s)

/-! The heading (R210). -/

/-- Whether a solved length lies within 0.02 m of the configured one: |50·len − 50·L| ≤ 1, compared by squares. -/
def lenAgrees (cfg : List F64) (len : F64) : Bool :=
  let c (i : Nat) : Dy := (F64.val (cfg.getD (i + 3) 0#64)).add (F64.val (cfg.getD i 0#64)).neg
  let sq := (((c 0).mul (c 0)).add ((c 1).mul (c 1))).add ((c 2).mul (c 2))
  let want := sq.mul ⟨2500, 0⟩
  let x := (F64.val len).mul ⟨50, 0⟩
  let up := x.add ⟨1, 0⟩
  let dn := x.add ⟨-1, 0⟩
  F64.isFin len && !Dy.lt up ⟨0, 0⟩ && !Dy.lt (up.mul up) want && (Dy.lt dn ⟨0, 0⟩ || !Dy.lt want (dn.mul dn))

/-- Channels of L1 signals tracked on both antennas: a channel of IF0 and the first of IF2 with its signal and satellite. -/
def commonChs (s : State) (l : Lane) : List (Nat × Nat) :=
  (portChs 0).filterMap (fun c =>
    let v := gch s l c
    let same (d : Nat) : Bool := (gch s l d).st == 3 && (gch s l d).sig == v.sig && (gch s l d).sat == v.sat
    if v.st = 3 then ((portChs 2).find? same).map (fun d => (c, d)) else none)

/-- The baseline solved from the double differences of the common channels. -/
def baseline (s : State) (l : Lane) (e : Time) (g : EpochIn) : Option Baseline :=
  let cs := commonChs s l
  let ph (c : Nat) : F64 := carrierPhase s c (g.r.getD (c / 40) 0) (atEdge s l g c)
  let vals := cs.flatMap (fun c => [ph c.1, ph c.2]) ++ s.cfg.antenna
  let nav := (cs.map (fun c => ((orbitOf s l (sysOf (gch s l c.1).sig) (gch s l c.1).sat).map (·.bytes)).getD [])).flatten
  let ints : List Int := ltAt s l e :: cs.flatMap (fun c => [((gch s l c.1).sig : Int), ((gch s l c.1).sat : Int)])
  if cs.isEmpty then none else some ⟨Config.gnss 32 ints nav vals, Config.gnss 33 ints nav vals⟩

/-- The heading at an epoch (R210): the ambiguities stay fixed until one of their channels slips; they are fixed with at least 5
common satellites and an agreeing baseline length. -/
def headingStep (l : Lane) (base : Option Baseline) (s : State) : State :=
  let g := (s.lane l).gnb
  let off (c : Nat) : Bool := (gch s l c).slipped || (gch s l c).st != 3
  let broken := g.amb.any (fun c => off c.1 || off c.2)
  let held := if broken then [] else g.amb
  let cs := commonChs s l
  let n := ((cs.map (fun c => (sysOf (gch s l c.1).sig, (gch s l c.1).sat))).eraseDups).length
  let amb := match base with
    | some b => if held.isEmpty then (if 5 ≤ n && lenAgrees s.cfg.antenna b.len then cs else []) else held
    | none => held
  let hdg := if amb.isEmpty then none else base.map (·.hdg)
  setB Reg.GNB_STAT_hdg (!amb.isEmpty) l (onGnb l (fun g => { g with amb := amb, hdg := hdg }) s)

end Sys2Proof.Machine
end

