-- ==== Sys2Proof/Machine/Gnss.lean ====
section
/-!
DEFINITION. The commands of the GNSS baseband of a lane (R188-R213): channel states, ports, aiding data, expert operations, allocation,
epochs and snapshots.
-/

namespace Sys2Proof.Machine

/-! Channel states (R196, R201). -/

/-- CORRELATOR_DUMP (R201). -/
def execCorrelatorDump (t : Time) (l : Lane) (d : CorrDump) (s : State) : Host.Outcome State Fault Refusal :=
  runLane t l s (fun s => when (decide (d.ch < 160) && gnbOn s l) (dump l d) s)

/-- ACQ_DETECTION (R196, R199): a verified detection starts PULLIN at the Doppler and the code phase of the search. -/
def execAcqDetection (t : Time) (l : Lane) (ch : Nat) (d : Detection) (s : State) : Host.Outcome State Fault Refusal :=
  runLane t l s (fun s =>
    let st := (gch s l ch).st
    when (decide (ch < 160) && gnbOn s l && (st == 1 || st == 4) && detects s l ch d)
      (toState l ch 2 (fun v => { v with
        car := d.car, cod := codeWord s ch v d.car 0#64, next1 := none, next2 := none, cont := false, carCyc := 0#32, carFrac := 0#32,
        smp := 0, codFrac := d.frac, chip := d.chip, per := 0#32, sync := false, loop := [], sums := [], cn0 := d.cn0, smo := none })) s)

/-- PULLIN_TIMEOUT (R196): PULLIN not completed within 1 s. -/
def execPullinTimeout (t : Time) (l : Lane) (ch : Nat) (s : State) : Host.Outcome State Fault Refusal :=
  runLane t l s (fun s =>
    let v := gch s l ch
    when (decide (ch < 160) && v.st == 2 && decide (sec ≤ since s.now v.tIn)) (toState l ch 1 id) s)

/-- PHASE_LOCK (R196): lock indicator of at least 0.8 for 100 ms. -/
def execPhaseLock (t : Time) (l : Lane) (ch : Nat) (s : State) : Host.Outcome State Fault Refusal :=
  runLane t l s (fun s =>
    let v := gch s l ch
    when (decide (ch < 160) && v.st == 2 && heldLong s.now v.hi (100 * ms))
      (toState l ch 3 (fun v => { v with tTrk := s.now, cont := false })) s)

/-- TRACK_LOSS (R196): lock indicator below 0.6 for 200 ms, or C/N0 below the floor for 1 s. -/
def execTrackLoss (t : Time) (l : Lane) (ch : Nat) (s : State) : Host.Outcome State Fault Refusal :=
  runLane t l s (fun s =>
    let v := gch s l ch
    when (decide (ch < 160) && v.st == 3 && (heldLong s.now v.lo (200 * ms) || heldLong s.now v.low sec))
      (toState l ch 4 (fun v => { v with cont := false })) s)

/-- LOST_TIMEOUT (R196): not reacquired within 5 s. -/
def execLostTimeout (t : Time) (l : Lane) (ch : Nat) (s : State) : Host.Outcome State Fault Refusal :=
  runLane t l s (fun s =>
    let v := gch s l ch
    when (decide (ch < 160) && v.st == 4 && decide (5 * sec ≤ since s.now v.tIn))
      (fun s => incF Reg.GNB_CNT_acqfail l (releaseCh l ch s)) s)

/-! Ports (R192). -/

/-- IF_PORT_FAULT (R192): no transitions for 1 ms, or a stuck level over 10 ms. -/
def execIfPortFault (t : Time) (l : Lane) (n : Nat) (stuck : Bool) (s : State) : Host.Outcome State Fault Refusal :=
  runLane t l s (fun s =>
    if decide (n < 4) && gnbOn s l && getB s (Reg.GNB_IFn_CFG_en n) && !getB s (Reg.GNB_IFn_STAT_fault n) l then
      let s1 := forEach (fun c s => when ((gch s l c).st != 0) (toState l c 4 (fun v => { v with cont := false })) s) (portChs n) s
      raise (gnbSrc l) Ev.GNB_IFFLT (n + 256 * b2n stuck)
        (setB (Reg.GNB_IFn_STAT_act n) stuck l (setF (Reg.GNB_IFn_STAT_fault n) 1 l s1))
    else s)

/-- IF_PORT_OK (R192): 100 ms without either condition. -/
def execIfPortOk (t : Time) (l : Lane) (n : Nat) (s : State) : Host.Outcome State Fault Refusal :=
  runLane t l s (fun s =>
    when (decide (n < 4) && getB s (Reg.GNB_IFn_STAT_fault n) l)
      (fun s => raise (gnbSrc l) Ev.GNB_IFOK n
        (setF (Reg.GNB_IFn_STAT_act n) 1 l (setF (Reg.GNB_IFn_STAT_fault n) 0 l s))) s)

/-- The enable outputs of the ports (R192, R211, R213): as configured outside Lay-up, and for snapshots in it. -/
def showIfen (s : State) : State :=
  let snap := s.la.gnb.ifen || s.lb.gnb.ifen || s.la.gnb.cap.isSome || s.lb.gnb.cap.isSome
  let want (n : Nat) : Bool :=
    if modeNow s == .layup then snap && bit (getF s Reg.GNB_SNAP_ports) n else getB s (Reg.GNB_IFn_CFG_en n)
  forEach (fun n s =>
    if s.ifen.getLsbD n == want n then s
    else emit (.pin 5 n (want n)) { s with ifen := s.ifen ^^^ BitVec.ofNat 4 (2 ^ n) }) [0, 1, 2, 3] s

/-! Navigation data (R198). -/

/-- Take a data set: an issue older than one held or waiting is ignored; it is used from the next epoch. -/
def takeNav (l : Lane) (r : NavRec) (s : State) : State :=
  let same (x : NavRec) : Bool := x.sys == r.sys && x.sat == r.sat && x.kind == r.kind
  let g := (s.lane l).gnb
  if (g.nav ++ g.navNew).any (fun x => same x && decide (r.issue < x.issue)) then s
  else onGnb l (fun g => { g with navNew := g.navNew.filter (fun x => !same x) ++ [r] }) s

/-- NAVIGATION_MESSAGE_DECODED (R198). -/
def execNavigationMessageDecoded (t : Time) (l : Lane) (d : NavSet) (s : State) : Host.Outcome State Fault Refusal :=
  runLane t l s (takeNav l ⟨sysOf d.sig, d.sat, d.kind, d.issue, d.bytes⟩)

/-- AID_NAV's operation (R375, R198): the issue of raw pages rests on the signal's interface specification (log entry 27). -/
def doAidNav (o : Order) (b : HostBuf) (s : State) : State × Reply :=
  let sig := bodyN o 0 1
  let kind := bodyN o 2 1
  let len := bodyN o 16 4
  if !(decide (1 ≤ sig) && decide (sig ≤ 7) && decide (1 ≤ kind) && decide (kind ≤ 4) && decide (1 ≤ len) && decide (len ≤ 4096)) then
    (s, .code Code.RANGE)
  else if !b.dmaOk || b.bytes.length ≠ len then (s, .code Code.BUFFER)
  else if (crc32c b.bytes).toNat ≠ bodyN o 20 4 then (s, .code Code.BADCRC)
  else
    let l := orderLane s o.path
    (takeNav l ⟨sysOf sig, bodyN o 1 1, kind, Config.listVal 4 (b.bytes.map (·.toNat)), b.bytes⟩ s, .code Code.ACCEPTED)

/-- AID_NAV (R375). -/
def execAidNav (t : Time) (o : Order) (b : HostBuf) (s : State) : Host.Outcome State Fault Refusal :=
  run t s (serve o 3 3 [(0, 24), (64, 128)] [] false (fun _ => doAidNav o b))

/-- AID_POS's operation (R375). -/
def doAidPos (o : Order) (s : State) : State × Reply :=
  let sd : F32 := BitVec.ofNat 32 (bodyN o 24 4)
  if !(finite (bodyF o 0) && finite (bodyF o 8) && finite (bodyF o 16) && F64.isFin (F64.of32 sd) && F64.lt 0#64 (F64.of32 sd)) then
    (s, .code Code.RANGE)
  else (onGnb (orderLane s o.path) (fun g => { g with pos := some (bodyF o 0, bodyF o 8, bodyF o 16, sd) }) s, .code Code.ACCEPTED)

/-- AID_POS (R375). -/
def execAidPos (t : Time) (o : Order) (s : State) : Host.Outcome State Fault Refusal :=
  run t s (serve o 3 4 [(0, 224)] [] false (fun _ => doAidPos o))

/-! Expert operations (R203, R378). -/

/-- Every EXPERT operation records HRI_XOP with its operation and tag (R378). -/
def expertDone (o : Order) (s : State) : State :=
  raise (laneSrc (orderLane s o.path) 11) Ev.HRI_XOP (o.op.toNat + 2 ^ 32 * o.tag.toNat) s

/-- A field of an expert body whose layout the spec does not give (log entry 32). -/
def expertField (o : Order) (k : Nat) : Nat := Config.listVal (3200 + k) [o.op.toNat, o.body.toNat]

/-- The parameters of a GNB_LOOP body. -/
def loopPar (o : Order) : GnbPar :=
  ⟨expertField o 0, expertField o 1, expertField o 2, expertField o 3, expertField o 4, expertField o 5, expertField o 6,
   expertField o 7, expertField o 8⟩

/-- GNB_LOOP's operation (R203): a set outside the ranges is rejected whole. -/
def doGnbLoop (o : Order) (s : State) : State × Reply :=
  let l := orderLane s o.path
  let byCh := expertField o 9 % 2 == 1
  let n := expertField o 10
  let sig := if byCh then (gch s l n).sig else n
  if (if byCh then decide (160 ≤ n) else !within 1 7 n) || !parOk sig (loopPar o) then (s, .code Code.RANGE)
  else
    (onGnb l (fun g => { g with pars := alSet g.pars (if byCh then n else 1000 + n) (loopPar o) }) s, .code Code.ACCEPTED)

/-- GNB_LOOP (R203, R378). -/
def execGnbLoop (t : Time) (o : Order) (s : State) : Host.Outcome State Fault Refusal :=
  run t s (serve o 7 1 [(0, 320)] [] false (fun _ s => doGnbLoop o (expertDone o s)))

/-- GNB_PIN's operation (R203): the channel leaves allocation and searches its signal, when its system, port and band allow it (R189, R193). -/
def doGnbPin (o : Order) (s : State) : State × Reply :=
  let l := orderLane s o.path
  let c := expertField o 9
  let sig := expertField o 10
  let k : Cand := ⟨sig, expertField o 11, if sig = 7 then expertField o 12 % 256 else 0, 0#64⟩
  let glo := sig = 7 → -7 ≤ sgn 8 k.k ∧ sgn 8 k.k ≤ 6
  if 160 ≤ c || !within 1 7 k.sig || isL1 k.sig != (c / 40 % 2 == 0) || 64 ≤ k.sat || !decide glo then (s, .code Code.RANGE)
  else
    let s1 := setCh l c { gch s l c with pin := true } s
    (if gnbOn s l && mayTrack s c k.sig k.k then allotCh l c k s1
      else setCh l c { sig := k.sig, sat := k.sat, k := k.k, pin := true, slips := (gch s l c).slips } s1, .code Code.ACCEPTED)

/-- GNB_PIN (R203, R378). -/
def execGnbPin (t : Time) (o : Order) (s : State) : Host.Outcome State Fault Refusal :=
  run t s (serve o 7 2 [(0, 320)] [] false (fun _ s => doGnbPin o (expertDone o s)))

/-- GNB_UNPIN's operation (R203). -/
def doGnbUnpin (o : Order) (s : State) : State × Reply :=
  let l := orderLane s o.path
  let c := expertField o 9
  if 160 ≤ c then (s, .code Code.RANGE)
  else (setCh l c { gch s l c with pin := false } s, .code Code.ACCEPTED)

/-- GNB_UNPIN (R203, R378). -/
def execGnbUnpin (t : Time) (o : Order) (s : State) : Host.Outcome State Fault Refusal :=
  run t s (serve o 7 3 [(0, 320)] [] false (fun _ s => doGnbUnpin o (expertDone o s)))

/-! Allocation (R195). -/

/-- Insert a candidate in decreasing elevation, later ones after their equals (log entry 82). -/
def insCand (k : Cand) : List Cand → List Cand
  | [] => [k]
  | q :: qs => if F64.lt q.elev k.elev then k :: q :: qs else q :: insCand k qs

/-- Candidates in decreasing elevation. -/
def byElev (cs : List Cand) : List Cand := cs.foldl (fun m k => insCand k m) []

/-- Whether a channel tracks a candidate. -/
def holds (v : GnbCh) (k : Cand) : Bool := v.st != 0 && v.sig == k.sig && v.sat == k.sat

/-- Give the candidates that hold no channel the free channels, lowest first. -/
def allotAll (l : Lane) : List Cand → List Nat → State → State
  | k :: ks, c :: cs, s => allotAll l ks cs (allotCh l c k s)
  | _, _, s => s

/-- The channels of a port that are not pinned. -/
def ownChs (s : State) (l : Lane) (p : Nat) : List Nat := (portChs p).filter (fun c => !(gch s l c).pin)

/-- Allocation by prediction: the visible signals in order of elevation, as many as the port has channels. -/
def allotSeen (l : Lane) (p : Nat) (e : Time) (s : State) : State :=
  let own := ownChs s l p
  let want := (byElev ((visible s l e p).filter (fun k => mayTrack s (40 * p) k.sig k.k))).take own.length
  let free := own.filter (fun c => (gch s l c).st == 0)
  let fresh := want.filter (fun k => !own.any (fun c => holds (gch s l c) k))
  let drop := own.filter (fun c => (gch s l c).st != 0 && !want.any (fun k => holds (gch s l c) k))
  allotAll l fresh free (forEach (releaseCh l) drop s)

/-- Whether a blind search of a channel has ended without a detection; its length is open (log entry 80). -/
def searched (s : State) (l : Lane) (c : Nat) (e : Time) : Bool :=
  let v := gch s l c
  v.st == 1 && Config.listVal 64 [v.sig, v.sat, since e v.tIn] % 2 == 1

/-- Allocation without a prediction: every signal of every satellite number in turn; a search that ended frees its channel. -/
def allotBlind (l : Lane) (p : Nat) (e : Time) (s : State) : State :=
  let own := ownChs s l p
  let free := own.filter (fun c => (gch s l c).st == 0)
  let drop := own.filter (fun c => (gch s l c).st != 0 && (searched s l c e || !mayTrack s c (gch s l c).sig (gch s l c).k))
  let all := (allSats s l p).filter (fun k => mayTrack s (40 * p) k.sig k.k)
  let at' := (if p = 0 then (s.lane l).gnb.seekL1 else (s.lane l).gnb.seekL5) % max 1 all.length
  let turn := (all.zipIdx.drop at' ++ all.zipIdx.take at').filter (fun k => !own.any (fun c => holds (gch s l c) k.1))
  let pick := turn.take free.length
  let next := (pick.getLast?.map (fun k => k.2 + 1)).getD at'
  onGnb l (fun g => if p = 0 then { g with seekL1 := next } else { g with seekL5 := next })
    (allotAll l (pick.map (·.1)) free (forEach (releaseCh l) drop s))

/-- Allocation on a port and its counterpart, channel for channel. -/
def allotPort (l : Lane) (e : Time) (p : Nat) (s : State) : State :=
  let s1 := if blind s l then allotBlind l p e s else allotSeen l p e s
  forEach (fun c s =>
    let v := gch s l c
    let w := gch s l (c + 80)
    if w.pin then s
    else if v.st == 0 || !mayTrack s (c + 80) v.sig v.k then (if w.st == 0 then s else releaseCh l (c + 80) s)
    else if w.st != 0 && w.sig == v.sig && w.sat == v.sat then s
    else allotCh l (c + 80) ⟨v.sig, v.sat, v.k, 0#64⟩ s) (portChs p) s1

/-- A pinned channel at an epoch: it searches again once IDLE, and stops where its system, port or band no longer allow it. -/
def pinned (l : Lane) (c : Nat) (s : State) : State :=
  let v := gch s l c
  if !v.pin then s
  else if !mayTrack s c v.sig v.k then (if v.st = 0 then s else releaseCh l c s)
  else if v.st = 0 then allotCh l c ⟨v.sig, v.sat, v.k, 0#64⟩ s else s

/-- Allocation at an epoch (R195). -/
def allocate (l : Lane) (e : Time) (s : State) : State :=
  let s1 := forEach (pinned l) allChs s
  if getB s Reg.GNB_CFG_auto then allotPort l e 1 (allotPort l e 0 s1) else s1

/-! Epochs. -/

/-- Navigation data accepted since the last epoch come into use (R198). -/
def useNav (l : Lane) : State → State :=
  onGnb l (fun g =>
    let old := g.nav.filter (fun x => !g.navNew.any (fun y => y.sys == x.sys && y.sat == x.sat && y.kind == x.kind))
    { g with nav := old ++ g.navNew, navNew := [] })

/-- RTC_UTCOFS takes TAI − UTC from UTC parameters that come into use in the Active lane (R342, R198). Where the offset stands in them is the
signal's interface specification (log entry 89). -/
def takeUtc (l : Lane) (s : State) : State :=
  match (s.lane l).gnb.navNew.reverse.find? (fun x => x.kind == 4 && bit (getF s Reg.GNB_CFG_sys) x.sys) with
  | some x => if isActive s l then
      setF Reg.RTC_UTCOFS_valid 1 .a (setF Reg.RTC_UTCOFS_ofs (Config.listVal 342 (x.bytes.map (·.toNat)) % 256) .a s) else s
  | none => s

/-- Tracking stops at the epoch a change to Lay-up takes effect (R211): every channel goes IDLE. -/
def gnbStop (l : Lane) (e : Time) (s : State) : State :=
  let s1 := forEach (fun c s => if (gch s l c).st = 0 then s else releaseCh l c s) allChs s
  setF Reg.GNB_STAT_hdg 0 l (onGnb l (fun g => { g with amb := [], hdg := none, snapRef := some e }) s1)

/-- The port states of an epoch (R213): samples arrive on the ports `on`, unless a fault left them without. -/
def portStat (l : Lane) (on : Nat → Bool) (outer : List Nat) (s : State) : State :=
  forEach (fun n s =>
    let act := on n && (!getB s (Reg.GNB_IFn_STAT_fault n) l || getB s (Reg.GNB_IFn_STAT_act n) l)
    setF (Reg.GNB_IFn_STAT_outer n) (if act then min (outer.getD n 0) 100 else 0) l (setB (Reg.GNB_IFn_STAT_act n) act l s)) [0, 1, 2, 3] s

/-- An epoch of a tracking baseband (R204-R210): latch and record, fix, heading, then allocation. -/
def gnbTrack (l : Lane) (e : Time) (g : EpochIn) (s0 : State) : State :=
  let s := forEach (smoothCh l e g) allChs s0
  let os := fixObs s l e (satObs s l e)
  let x := solution s l e os
  let clk := (s.lane l).gnb.clkSw
  let q := entries l e g ((x.map (·.used)).getD 0#160) allChs (headingStep l (baseline s l e g) s)
  let s1 := streamRec l 0x12 0 e (gnbHeader s l e q.2.1 clk false g.r os x ++ q.1) q.2.2
  let s2 := setB Reg.GNB_STAT_clksw clk l (onGnb l (fun b => { b with clkSw := false, fix := (x.map (fun x => (x, e))).or b.fix }) s1)
  allocate l e (portStat l (fun n => getB s (Reg.GNB_IFn_CFG_en n)) g.outer (gnssObserve l e false x (showFix l false os x s2)))

/-- An epoch in Lay-up (R211): a capture whose IFEN is asserted starts, or is skipped while the last one is processed; IFEN is
asserted at the epoch before the next one is due. `now'` asks for an immediate snapshot (R348). -/
def gnbLayup (l : Lane) (e : Time) (now' : Bool) (i : EpochIn) (s : State) : State :=
  let g := (s.lane l).gnb
  let busy := g.cap.isSome || g.proc.isSome
  let s1 : State :=
    if !g.ifen then s
    else if busy then incF Reg.GNB_CNT_snapskip l (onGnb l (fun g => { g with ifen := false, snapRef := some e }) s)
    else setF Reg.GNB_STAT_snap 1 l (onGnb l (fun g => { g with ifen := false, snapRef := some e, cap := some e, snapR := i.r }) s)
  let ref := (s1.lane l).gnb.snapRef.getD e
  let next := plus e (s.cyc.set.period * ms)
  let due := decide (getF s Reg.GNB_SNAP_intv * sec ≤ since next ref)
  let on (n : Nat) : Bool := (s1.lane l).gnb.cap.isSome && bit (getF s Reg.GNB_SNAP_ports) n
  portStat l on i.outer (onGnb l (fun g => { g with snapRef := some ref, ifen := due || now' }) s1)

/-- The GNSS part of an epoch in a lane (R20, R195, R198, R204, R211); `was` is the mode before it. Fixes missed in a row count anew where
Lay-up begins or ends (R326). -/
def gnbEpoch (l : Lane) (e : Time) (was : Mode) (now' : Bool) (g : EpochIn) (s : State) : State :=
  let s1 := when ((was == .layup) != (modeNow s == .layup)) (onRef l false (fun r => { r with miss := 0, missSnap := 0 }))
    (useNav l (takeUtc l s))
  match modeNow s with
  | .layup => gnbLayup l e now' g (if was == .layup then s1 else gnbStop l e s1)
  | _ =>
    let s2 := onGnb l (fun b => { b with snapRef := none, ifen := false, cap := none, proc := none, snap := [] }) (setF Reg.GNB_STAT_snap 0 l s1)
    when (gnbOn s l) (gnbTrack l e g) s2

/-- The sample clock moves to another lane (R190): every channel's continuity is broken once and its slip count incremented; the next record carries
clkswitch. -/
def clkMoves (l : Lane) (s : State) : State :=
  let s1 := forEach (fun c s =>
    let v := gch s l c
    if v.st = 0 then s
    else incF Reg.GNB_CNT_slip l (setCh l c { v with slips := v.slips + 1#8, cont := false } s)) allChs s
  onGnb l (fun g => { g with clkSw := true }) s1

/-! Snapshots (R211). -/

/-- SNAPSHOT_CAPTURE_END (R211): after GNB_SNAP.len ms the samples are in lane DRAM, IFEN is released and x.GNB is powered to process
them. -/
def execSnapshotCaptureEnd (t : Time) (l : Lane) (smp : List (Nat × List Byte)) (s : State) : Host.Outcome State Fault Refusal :=
  runLane t l s (fun s =>
    match (s.lane l).gnb.cap with
    | some e =>
      if decide (getF s Reg.GNB_SNAP_len * ms ≤ since s.now e) && modeNow s == .layup then
        let ports := smp.filter (fun p => p.1 < 4 && bit (getF s Reg.GNB_SNAP_ports) p.1)
        showIfen (domSet (2 ^ (domBit l + 3)) (portStat l (fun _ => false) []
          (onGnb l (fun g => { g with cap := none, proc := some e, snap := ports }) s)))
      else s
    | none => s)

/-- What the search of a capture finds on a port: a candidate with its C/N0, channel by channel. -/
structure SnapHit where
  ch : Nat
  k : Cand
  cn0 : F64

/-- A capture as the search takes it (R188, R189): its port, sample rate, and its samples as they entered, I and Q in turn. -/
def snapIn (s : State) (p : Nat × List Byte) : List Int :=
  (p.1 : Int) :: (portRate s p.1 : Int) :: p.2.flatMap (fun b => [(sampleOf s p.1 b).1, (sampleOf s p.1 b).2])

/-- The search of a captured port (R199, R211): the visible signals, or all without a prediction, at or above the threshold of the case. -/
def snapHits (s : State) (l : Lane) (e : Time) (p : Nat × List Byte) : List SnapHit :=
  let cs := (if blind s l then allSats s l (p.1 % 2) else visible s l e (p.1 % 2)).filter (fun k => inBand s p.1 (nominalHz s p.1 k.sig k.k))
  let lim := F64.ofInt (if blind s l then 38 else 32)
  let found := cs.filterMap (fun k =>
    let v := Config.gnss 40 ((k.sig : Int) :: k.sat :: nominalHz s p.1 k.sig k.k :: snapIn s p) [] []
    if F64.isFin v && F64.le lim v then some (k, v) else none)
  (found.take 40).zipIdx.map (fun x => ⟨40 * p.1 + x.2, x.1.1, x.1.2⟩)

/-- All that a capture's search finds. -/
def hitsOf (s : State) (l : Lane) (e : Time) : List SnapHit := (s.lane l).gnb.snap.flatMap (snapHits s l e)

/-- The signal of a hit and the capture it was found in. -/
def hitIn (s : State) (l : Lane) (h : SnapHit) : List Int :=
  (h.k.sig : Int) :: h.k.sat :: nominalHz s (h.ch / 40) h.k.sig h.k.k :: snapIn s (h.ch / 40, (alGet (s.lane l).gnb.snap (h.ch / 40)).getD [])

/-- Whether the transmit time of a hit is known. -/
def snapTimed (s : State) (l : Lane) (h : SnapHit) : Bool :=
  (Config.gnss 44 (hitIn s l h) [] []).toNat % 2 == 1

/-- Ranges of the code-only fix of a capture. -/
def snapObs (s : State) (l : Lane) (e : Time) : List SatObs :=
  let hs := (hitsOf s l e).filter (fun h => h.ch < 80 && snapTimed s l h && F64.le (F64.ofInt 30) h.cn0
    && (navOf s l (sysOf h.k.sig) h.k.sat 1).isSome)
  ((hs.map (fun h => (sysOf h.k.sig, h.k.sat))).eraseDups).map (fun q =>
    let mine := hs.filter (fun h => sysOf h.k.sig == q.1 && h.k.sat == q.2)
    ⟨q.1, q.2, mine.map (·.ch),
     Config.gnss 41 ((q.1 : Int) :: q.2 :: ltAt s l e :: mine.flatMap (hitIn s l)) [] []⟩)

/-- An entry of a snapshot record (R206, R211): carrier fields 0, flag bits 1-3 clear; the code phase is the search's, referred to E at the
antenna; which of the states 1 to 4 it shows is open (log entry 82). -/
def snapEntry (s : State) (l : Lane) (used : BitVec 160) (h : SnapHit) : List Byte :=
  let ints : List Int := (h.ch : Int) :: referral s h.ch ((s.lane l).gnb.snapR.getD (h.ch / 40) 0) :: hitIn s l h
  let v := gch s l h.ch
  let timed := snapTimed s l h
  let fl := 1 + 16 * b2n timed + 32 * b2n (v.pin && v.sig == h.k.sig && v.sat == h.k.sat) + 64 * b2n (used.getLsbD h.ch)
  leBytes 2 h.ch ++ [BitVec.ofNat 8 h.k.sig, BitVec.ofNat 8 h.k.sat, entryK h.k.sig h.k.k, BitVec.ofNat 8 (1 + (Config.openVal 34 h.ch).toNat % 4)]
    ++ leBytes 2 fl ++ leBytes 8 (Config.gnss 42 ints [] []).toNat
    ++ leBytes 4 (Config.openVal 36 h.ch).toNat ++ leBytes 2 (min (scaled 332 100 h.cn0).toNat 0xFFFF) ++ leBytes 2 0 ++ leBytes 16 0
    ++ leBytes 4 0
    ++ leBytes 4 (if timed then (Config.gnss 43 ints [] []).setWidth 32 else (Config.openVal 33 h.ch).setWidth 32).toNat

/-- Whether a mode order that leaves Lay-up is pending: its domains are powered since its acceptance (R44). -/
def leavesLayup (s : State) : Bool :=
  match pendingMode s.auth with
  | some (m, _) => m != .layup
  | none => false

/-- SNAPSHOT_PROCESSED (R211, R326): the record with its snapshot flag, a code-only fix, and x.GNB is powered down again. -/
def execSnapshotProcessed (t : Time) (l : Lane) (s : State) : Host.Outcome State Fault Refusal :=
  runLane t l s (fun s =>
    match (s.lane l).gnb.proc with
    | some e =>
      let os := fixObs s l e (snapObs s l e)
      let x := solution s l e os
      let clk := (s.lane l).gnb.clkSw
      let hs := hitsOf s l e
      let rec' := gnbHeader s l e hs.length clk true (s.lane l).gnb.snapR os x
        ++ (hs.map (snapEntry s l ((x.map (·.used)).getD 0#160))).flatten
      let s1 := streamRec l 0x12 0 e rec' s
      let s2 := setF Reg.GNB_STAT_snap 0 l (setB Reg.GNB_STAT_clksw clk l
        (onGnb l (fun g => { g with proc := none, snap := [], clkSw := false, fix := (x.map (fun x => (x, e))).or g.fix }) s1))
      gnssObserve l e true x (when (modeNow s == .layup && !leavesLayup s) (domClr (2 ^ (domBit l + 3))) (showFix l true os x s2))
    | none => s)

end Sys2Proof.Machine
end

