-- ==== Sys2Proof/Machine/MetLink.lean ====
section
/-!
DEFINITION. The acquisition link of metrology (R216-R225, R228, R234): clock, frames, link states, and the modulator streams with their
sinc³ decimator.
-/

namespace Sys2Proof.Machine

/-- Source of metrology events of a lane. -/
def metSrc (l : Lane) : Src := laneSrc l 9

/-- Change a lane's metrology. -/
def onMet (l : Lane) (f : MetSt → MetSt) : State → State := onLane l (fun a => { a with met := f a.met })

/-- Unlisted ports, channels, points and generators. -/
def apDef (_ : Nat) : ApSt := {}
def metChDef (_ : Nat) : MetCh := {}
def metPtDef (_ : Nat) : MetPt := {}
def metPoDef (_ : Nat) : MetPo := {}

def apSt (s : State) (l : Lane) (n : Nat) : ApSt := Sparse.get apDef (s.lane l).met.aps n
def metCh (s : State) (l : Lane) (n : Nat) : MetCh := Sparse.get metChDef (s.lane l).met.chs n
def metPt (s : State) (l : Lane) (n : Nat) : MetPt := Sparse.get metPtDef (s.lane l).met.pts n
def metPo (s : State) (l : Lane) (n : Nat) : MetPo := Sparse.get metPoDef (s.lane l).met.pos n

def setAp (l : Lane) (n : Nat) (v : ApSt) : State → State := onMet l (fun m => { m with aps := Sparse.set apDef m.aps n v })
def setMetCh (l : Lane) (n : Nat) (v : MetCh) : State → State := onMet l (fun m => { m with chs := Sparse.set metChDef m.chs n v })
def setMetPt (l : Lane) (n : Nat) (v : MetPt) : State → State := onMet l (fun m => { m with pts := Sparse.set metPtDef m.pts n v })
def setMetPo (l : Lane) (n : Nat) (v : MetPo) : State → State := onMet l (fun m => { m with pos := Sparse.set metPoDef m.pos n v })

/-! The acquisition link (R218-R222, R234). -/

/-- Descrambled bits of a frame (R221): line bit i with the line bits 39 and 58 before it. -/
def descramble (hist : BitVec 58) (line : BitVec 288) : BitVec 288 :=
  let full : BitVec 346 := line.setWidth 346 <<< 58 ||| hist.setWidth 346
  ((full >>> 58) ^^^ (full >>> 19) ^^^ full).setWidth 288

/-- Management bit `i` of a descrambled frame (R218). -/
def mgmtBit (d : BitVec 288) (i : Nat) : Bool :=
  let j := 31 - i
  d.getLsbD (18 * (j / 2) + 16 + j % 2)

/-- Field [hi:lo] of the management slot, `w` bits from `lo`. -/
def mgmt (d : BitVec 288) (lo : Nat) : Nat → Nat
  | 0 => 0
  | w + 1 => mgmt d lo w + b2n (mgmtBit d (lo + w)) * 2 ^ w

/-- One bit into the CRC-8 register (R220). -/
def crc8Bit (r : BitVec 8) (b : Bool) : BitVec 8 :=
  let top := r.getLsbD 7 != b
  if top then (r <<< 1) ^^^ 0x07#8 else r <<< 1

/-- CRC-8 of a frame: every bit in transmission order but the CRC bits, which are the management bits of ticks 12 to 15. -/
def crc8 (d : BitVec 288) : BitVec 8 :=
  ((List.range 288).filter (fun i => !(decide (216 ≤ i) && decide (16 ≤ i % 18)))).foldl (fun r i => crc8Bit r (d.getLsbD i)) 0#8

/-- A port's channels (R218). -/
def apChs (n : Nat) : List Nat := (List.range 8).map (fun i => 8 * n + i)

/-- A channel's samples are no longer valid: the span in which they were is kept for the samples still to come (R230, R234). -/
def chDown (l : Lane) (c : Nat) (s : State) : State :=
  let x := metCh s l c
  match x.from' with
  | some a => setMetCh l c { x with from' := none, spans := ((a, s.now) :: x.spans).take 3 } s
  | none => s

/-- The channels of a port lose their validity (R234); their range selection returns to HIGH with the first sample referred to after it (R232). -/
def apDown (l : Lane) (n : Nat) (s : State) : State :=
  forEach (fun c s => chDown l c (setF (Reg.MET_CHn_STAT_valid c) 0 l s)) (apChs n)
    (setAp l n { apSt s l n with okAt := none } s)

/-- Loss of lock (R222). -/
def apUnlock (l : Lane) (n st : Nat) (s : State) : State :=
  raise (metSrc l) Ev.MET_APUNLK n
    (incF (Reg.MET_APn_ERR_unlk n) l (setF (Reg.MET_APn_STAT_idv n) 0 l (setF (Reg.MET_APn_STAT_state n) st l
      (setAp l n { apSt s l n with good := 0, bad := 0, idn := 0#64, idMask := 0#16, seen := false, okAt := none, tick := none } (apDown l n s)))))

/-- What a good frame carries (R219, R234): status, temperature, a nibble of the identity; a status that turns to not ready or to
a fault, and such a status as the first since lock, is recorded. -/
def apGood (l : Lane) (n seq : Nat) (d : BitVec 288) (s : State) : State :=
  let st := mgmt d 16 8
  let old := getF s (Reg.MET_APn_STAT_status n) l
  let a := apSt s l n
  let idn := a.idn &&& ~~~(0xF#64 <<< (4 * seq)) ||| (BitVec.ofNat 64 (st / 16) <<< (4 * seq))
  let mask := a.idMask ||| (1#16 <<< seq)
  let bad (x : Nat) : Bool := x % 2 == 0 || x / 2 % 8 != 0
  let s1 := setF (Reg.MET_APn_STAT_temp n) (mgmt d 8 8) l (setF (Reg.MET_APn_STAT_status n) st l
    (setAp l n { a with idn := idn, idMask := mask, seen := true } s))
  let s2 := if mask = 0xFFFF#16 && getF s (Reg.MET_APn_STAT_state n) l == 3 then
      setF (Reg.MET_APn_IDL_idl n) (idn.toNat % 2 ^ 32) l (setF (Reg.MET_APn_IDH_idh n) (idn.toNat / 2 ^ 32) l
        (setF (Reg.MET_APn_STAT_idv n) 1 l s1)) else s1
  if bad st && (!a.seen || old % 16 != st % 16) then
    raise (metSrc l) Ev.MET_HEADFLT (n + 256 * st) (incF (Reg.MET_APn_ERR_hflt n) l s2)
  else s2

/-- Validity of a LOCKED port (R234): ready, no supply or MCLK fault. -/
def apValid (l : Lane) (n : Nat) (s : State) : State :=
  let st := getF s (Reg.MET_APn_STAT_status n) l
  if st % 2 = 1 && st / 2 % 4 = 0 then
    setAp l n { apSt s l n with okAt := (apSt s l n).okAt.or (some s.now) } s
  else if (apSt s l n).okAt.isSome then apDown l n s else s

/-! The streams (R218, R223-R225, R228). -/

/-- Length of the sinc³ window in ticks: 3·(625 − 1) + 1. -/
def sincLen : Nat := 1873

/-- Weight of a tick of the window: the coefficient of z^j in (1 + z + … + z^624)³. -/
def sincTap (j : Nat) : Nat :=
  let c (m : Nat) : Nat := m * (m - 1) / 2
  c (j + 2) + 3 * c (j + 2 - 1250) - 3 * c (j + 2 - 625)

/-- Weighted count of the ones of a window: 0 to 625³. -/
def sincVal (w : BitVec 1873) : Nat := ((List.range sincLen).map (fun j => if w.getLsbD j then sincTap j else 0)).sum

/-- The output whose window ends with the tick of MCLK edge `e` (R228, R229): the window is centred 936 ticks earlier, and a channel's trim
shifts it by `shift` ticks. -/
def outAt (shift e : Int) : Option Int := if (e - 936 - shift) % 625 = 0 then some ((e - 936 - shift) / 625) else none

/-- One tick of a stream (R223, R228): its bit, whether the window now holds a tick of a bad frame, and the output that is due. -/
def strmTick (b bad : Bool) (k : Option Int) (x : Strm) : Strm :=
  let w := x.win <<< 1 ||| (BitVec.ofBool b).setWidth 1873
  let put (o : SincOut) : List SincOut := (o :: x.outs).take 700
  match k, bad with
  | none, _ => { x with win := w }
  | some k, false => { win := w, good := some (sincVal w), outs := put ⟨k, sincVal w, false⟩ }
  | some k, true =>
    match x.good with
    | some v => { x with win := w, outs := put ⟨k, v, true⟩ }
    | none => { x with win := w }

/-- The ticks of a frame, in order (R218): `e` is the edge of tick 0, `fill` the ticks received before it since lock, `bad i` whether the
window that ends with tick i holds a tick of a bad frame. -/
def strmFrame (bit bad : Nat → Bool) (e shift : Int) (fill : Nat) (x : Strm) : Strm :=
  (List.range 16).foldl (fun x i =>
    strmTick (bit i) (bad i) (if sincLen ≤ fill + i + 1 then outAt shift (e + (i : Int)) else none) x) x

/-- Calibration constants of a channel; all 0 where none are configured (log entry 3). -/
def calOf (s : State) (c : Nat) : ChanCal := (alGet s.cfg.cals c).getD ⟨0#64, 0#64, 0#64, 0#64, 0#64, 0#64, 0#64, 0#64⟩

/-- A channel's delay trim in ticks of 50 ns (R226, R229): it is also the phase trim of a current transformer (log entry 84). -/
def trimTicks (s : State) (c : Nat) : Int := scaled 341 20000000 (calOf s c).trim

/-- MCLK edge on which tick 0 of a frame was sampled (R224): `t` is the end of the frame, 800 ns after its first bit, which came `lat`
periods after the edge; the nearest edge is taken. -/
def tickEdge (t : Time) (lat : Nat) : Int := ((t.toNat : Int) - 775) / 50 - (lat : Int)

/-- A frame's ticks enter the filter chains of the port's channels (R218, R222, R223). Where they do not follow those received before, the
windows fill anew. -/
def apDeliver (l : Lane) (n : Nat) (d : BitVec 288) (ok : Bool) (s : State) : State :=
  let a := apSt s l n
  let e := tickEdge s.now (getF s (Reg.MET_APn_CFG_lat n))
  let fill := if a.tick = some e then a.fill else 0
  let badW (i : Nat) : Bool := (!ok || (a.badT <<< (i + 1)) != 0#1873)
  let s1 := setAp l n { a with
    tick := some (e + 16), fill := min (fill + 16) sincLen, badT := a.badT <<< 16 ||| (if ok then 0#1873 else 0xFFFF#1873) } s
  forEach (fun p s =>
    let c := 8 * n + p
    let x := metCh s l c
    let go (j : Nat) (y : Strm) : Strm := strmFrame (fun i => d.getLsbD (18 * i + 2 * p + j)) badW e (trimTicks s c) fill y
    setMetCh l c { x with lo := go 0 x.lo, hi := go 1 x.hi } s) (List.range 8) s1

/-- A frame arrives at a port in HUNT or LOCKED (R219-R223): descrambled and tested for CRC, marker and sequence; in LOCKED its ticks go to
the filter chains. -/
def apStep (l : Lane) (n : Nat) (bits : BitVec 288) (s : State) : State :=
  let a := apSt s l n
  let d := descramble a.scr bits
  let seq := mgmt d 24 4
  let whole := mgmt d 28 4 == 6 && mgmt d 0 8 == (crc8 d).toNat
  let ok := whole && (match a.seq with | some q => seq == q | none => true)
  let s1 := setAp l n { a with scr := (bits >>> 230).setWidth 58 } s
  if getF s (Reg.MET_APn_STAT_state n) l = 2 then
    if ok then
      let s2 := apGood l n seq d s1
      let g := a.good + 1
      let s3 := setAp l n { apSt s2 l n with seq := some ((seq + 1) % 16), good := g, bad := 0 } s2
      if 4 ≤ g then
        apValid l n (raise (metSrc l) Ev.MET_APLOCK n (setF (Reg.MET_APn_STAT_state n) 3 l
          (setAp l n { apSt s3 l n with idn := 0#64, idMask := 0#16, seen := false } s3)))
      else s3
    else setAp l n { apSt s1 l n with seq := if whole then some ((seq + 1) % 16) else none, good := 0 } s1
  else if ok then
    apValid l n (let s2 := apGood l n seq d (apDeliver l n d true s1)
                 setAp l n { apSt s2 l n with seq := some ((seq + 1) % 16), bad := 0 } s2)
  else
    let s1 := apDeliver l n d false s1
    let s2 := incF Reg.MET_CNT_badfr l (incF (Reg.MET_APn_ERR_badfr n) l
      (setAp l n { apSt s1 l n with seq := a.seq.map (fun q => (q + 1) % 16), bad := a.bad + 1 } s1))
    if 3 ≤ a.bad + 1 then setAp l n { apSt (apUnlock l n 2 s2) l n with seq := none } (apUnlock l n 2 s2) else s2

/-- AP_FRAME (R222). -/
def execApFrame (t : Time) (l : Lane) (n : Nat) (bits : BitVec 288) (s : State) : Host.Outcome State Fault Refusal :=
  runLane t l s (fun s =>
    when (decide (n < 24) && decide (2 ≤ getF s (Reg.MET_APn_STAT_state n) l)) (apStep l n bits) s)

/-- AP_PHASE_FOUND (R222): ALIGN to HUNT. -/
def execApPhaseFound (t : Time) (l : Lane) (n : Nat) (s : State) : Host.Outcome State Fault Refusal :=
  runLane t l s (fun s =>
    when (decide (n < 24) && getF s (Reg.MET_APn_STAT_state n) l == 1)
      (fun s => setF (Reg.MET_APn_STAT_state n) 2 l (setAp l n { scr := (apSt s l n).scr } s)) s)

/-- AP_LINE_TIMEOUT (R222): no transition for 10 µs in HUNT or LOCKED returns the port to ALIGN. -/
def execApLineTimeout (t : Time) (l : Lane) (n : Nat) (s : State) : Host.Outcome State Fault Refusal :=
  runLane t l s (fun s =>
    if 24 ≤ n then s
    else
      match getF s (Reg.MET_APn_STAT_state n) l with
      | 3 => apUnlock l n 1 s
      | 2 => setF (Reg.MET_APn_STAT_state n) 1 l (setAp l n { scr := (apSt s l n).scr } s)
      | _ => s)

/-- A port's enable as it stands, in a lane (R222): DOWN, or ALIGN with MCLK driven. -/
def apEnableLane (n : Nat) (l : Lane) (s : State) : State :=
  let st := getF s (Reg.MET_APn_STAT_state n) l
  if getB s (Reg.MET_APn_CFG_en n) then
    if st = 0 then setF (Reg.MET_APn_STAT_state n) 1 l (setAp l n {} s) else s
  else if st = 0 then s
  else setF (Reg.MET_APn_STAT_idv n) 0 l (setF (Reg.MET_APn_STAT_state n) 0 l (setAp l n {} (apDown l n s)))

/-- A port's clock (R216, R222): NIO drives MCLKn from the Active lane's timebase while the port is enabled, so not while no lane is Active
(log entry 85). -/
def mclkPin (n : Nat) (s : State) : State :=
  let v := getB s (Reg.MET_APn_CFG_en n) && (active s).isSome
  if s.mclk.getLsbD n == v then s else emit (.pin 6 n v) { s with mclk := s.mclk ^^^ BitVec.ofNat 24 (2 ^ n) }

/-- The clocks of all ports. -/
def showMclk (s : State) : State := forEach mclkPin (List.range 24) s

/-- After a write of MET_APn_CFG (R216, R222). -/
def apCfgWritten (n : Nat) (s : State) : State := readyLanes (apEnableLane n) (mclkPin n s)

end Sys2Proof.Machine
end

