-- ==== Sys2Proof/Machine/Metrology.lean ====
section
/-!
DEFINITION. Metrology, energy registers and pulse outputs of a lane (R214-R252): channels, filters and range selection, points and
their accumulation, interval deltas, pulses, the billing slots of AO MRAM, range match and the snapshot.
-/

namespace Sys2Proof.Machine

/-! Channels (R226-R234). -/

/-- Settling time of a channel in ns (R234): 4 ms, or for an air-core coil 4 ms + 5/(2π·f_c) rounded up to 0.1 s, where 5/(2π·0.1)
is 7.957747 s. -/
def settleNs (s : State) (c : Nat) : Nat :=
  if getF s (Reg.MET_CHn_CFG_type c) = 3 then
    let k := getF s (Reg.MET_CHn_CFG_fc c) + 1
    (4000 * k + 7957747 + 100000 * k - 1) / (100000 * k) * (100 * ms)
  else 4 * ms

/-- CHANNEL_SETTLE (R234): the samples referred to this instant and later are valid. -/
def execChannelSettle (t : Time) (l : Lane) (ch : Nat) (s : State) : Host.Outcome State Fault Refusal :=
  runLane t l s (fun s =>
    when (decide (ch < 192) && getB s (Reg.MET_CHn_CFG_en ch) && heldLong s.now (apSt s l (ch / 8)).okAt (settleNs s ch))
      (fun s => setF (Reg.MET_CHn_STAT_valid ch) 1 l
        (setMetCh l ch { metCh s l ch with from' := (metCh s l ch).from'.or (some s.now) } s)) s)

/-- The 97 outputs of a stream that the FIR weighs for a sample (R228), where 31.25 µs·`k` is the instant it is referred to. -/
def outsAt (x : Strm) (k : Int) : List SincOut := x.outs.filter (fun o => decide (k - 48 ≤ o.k) && decide (o.k ≤ k + 48))

/-- Whether a stream has every output that a sample needs. -/
def outsFull (x : Strm) (k : Int) : Bool := (List.range 97).all (fun i => x.outs.any (fun o => o.k == k - 48 + (i : Int)))

/-- Index of the sinc³ output at a referred instant. -/
def sincIdx (r : Time) : Int := ((r.toNat / 31250 : Nat) : Int)

/-- Whether a channel's sample referred to `r` is valid (R234, R239): the channel was valid then, and its filters have what they need. -/
def chValid (s : State) (l : Lane) (r : Time) (c : Nat) : Bool :=
  let x := metCh s l c
  getB s (Reg.MET_CHn_CFG_en c) &&
    ((match x.from' with
      | some a => getB s (Reg.MET_CHn_STAT_valid c) l && atOrAfter r a
      | none => false) || x.spans.any (fun p => atOrAfter r p.1 && !atOrAfter r p.2)) &&
    outsFull x.lo (sincIdx r) && outsFull x.hi (sincIdx r)

/-- An exact value: a dyadic number over a positive denominator. -/
structure MVal where
  d : Dy
  n : Nat

/-- A channel's sample: its value, the voltage shifted by 90°, and whether a replaced output went into it. -/
structure ChVal where
  v : MVal
  q : F64
  sub : Bool

/-- A value as binary64, nearest. -/
def mToF (x : MVal) : F64 := F64.ofRat (x.d.m * 2 ^ x.d.e.toNat) (x.n * 2 ^ (-x.d.e).toNat)

/-- Product of two exact values. -/
def mMul (x y : MVal) : MVal := ⟨x.d.mul y.d, x.n * y.n⟩

/-- Sum of two exact values. -/
def mAdd (x y : MVal) : MVal := ⟨(x.d.mul ⟨y.n, 0⟩).add (y.d.mul ⟨x.n, 0⟩), x.n * y.n⟩

/-- Exact value of a binary64. -/
def mOf (x : F64) : MVal := ⟨F64.val x, 1⟩

/-- Absolute value. -/
def dyAbs (x : Dy) : Dy := ⟨x.m.natAbs, x.e⟩

/-- A sinc³ output in units of stream full scale (R225): (2d − 1)/0.8 of its density of ones. -/
def densOf (v : Nat) : F64 := F64.ofRat ((2 * (v : Int) - 625 ^ 3) * 10) (8 * 625 ^ 3)

/-- Whether an output came from a density outside 0.1 to 0.9 (R225, R232). -/
def overRange (o : SincOut) : Bool := decide (10 * o.v < 625 ^ 3) || decide (9 * 625 ^ 3 < 10 * o.v)

/-- Raw value of a stream (R228): its outputs weighed by the 97 taps of a linear-phase filter. -/
def rawOf (k : Int) (os : List SincOut) : F64 :=
  arrSum (os.map (fun o => [compTap (min (o.k - k + 48).toNat (48 - (o.k - k)).toNat), densOf o.v]))

/-- The high-range value of a channel at a referred instant, calibrated (R227). -/
def highAt (k : ChanCal) (st : MetCh) (i : Int) : Dy :=
  (((F64.val k.kH).mul (F64.val (rawOf i (outsAt st.hi i)))).mul (F64.val k.fsH)).add (F64.val k.oH)

/-- The low-range raw value of a channel at a referred instant, in units of its high-range full scale. -/
def lowRaw (k : ChanCal) (st : MetCh) (i : Int) : Dy := (F64.val (rawOf i (outsAt st.lo i))).mul (F64.val k.fsH)

/-- The low-range value of a channel, matched and calibrated (R227, R233), held times g. -/
def lowAt (k : ChanCal) (st : MetCh) (ab : F64 × F64) (g : Nat) (i : Int) : Dy :=
  ((F64.val ab.1).mul (lowRaw k st i)).add ((F64.val ab.2).mul ⟨g, 0⟩)

/-- A channel's sample (R226, R227, R231, R232): both calibrated values, the selection, and the value taken, through the chain of the
channel's type. The low-range value is held times g, so that FS_L = FS_H / g compares exactly. The samples of the window of the range match
are gathered (R233). -/
def chSample (l : Lane) (r : Time) (c : Nat) (s : State) : ChVal × State :=
  let k := calOf s c
  let g := max 1 (getF s (Reg.MET_CHn_CFG_g c))
  let st := metCh s l c
  let oh := outsAt st.hi (sincIdx r)
  let ol := outsAt st.lo (sincIdx r)
  let ab := st.ab.getD (k.aL, k.bL)
  let fs := F64.val k.fsH
  let ovH := oh.any overRange
  let ovL := ol.any overRange
  let u := lowRaw k st (sincIdx r)
  let xH := highAt k st (sincIdx r)
  let xL := lowAt k st ab g (sincIdx r)
  let low := getB s (Reg.MET_CHn_STAT_sel c) l
  let sel := if low then !(Dy.lt fs ((dyAbs xL).mul ⟨8, 0⟩) || ovL) else Dy.lt ((dyAbs xH).mul ⟨16 * g, 0⟩) fs && !ovL
  let sub := (oh ++ ol).any (·.sub)
  let coil := getF s (Reg.MET_CHn_CFG_type c) == 3
  let fc := getF s (Reg.MET_CHn_CFG_fc c)
  let cH := coilStep fc (mToF ⟨xH, 1⟩) st.memH
  let cL := coilStep fc (mToF ⟨xL, g⟩) st.memL
  let fits := !(Dy.lt ((dyAbs xH).mul ⟨64 * g, 0⟩) fs || Dy.lt fs ((dyAbs xH).mul ⟨2 * g, 0⟩) || ovH || ovL)
  let f := st.fitS
  let st' := { st with
    memH := if coil then cH.1 else [], memL := if coil then cL.1 else [],
    fitS := if fits then ⟨f.n + 1, f.u.add u, f.y.add xH, f.uu.add (u.mul u), f.uy.add (u.mul xH)⟩ else f,
    ovl := st.ovl || ovL, clip := st.clip || ovH, subst := st.subst || sub }
  let near (j : Int) : Int := sincIdx r + 4 * j
  let q := if sel then mToF ⟨hilbert (fun j => lowAt k st ab g (near j)), g⟩ else mToF ⟨hilbert (fun j => highAt k st (near j)), 1⟩
  let y : MVal := if coil then mOf (if sel then cL.2 else cH.2) else if sel then ⟨xL, g⟩ else ⟨xH, 1⟩
  (⟨y, q, sub⟩, setB (Reg.MET_CHn_STAT_sel c) sel l (setMetCh l c st' s))

/-- A channel without a valid sample starts anew (R231, R232): its selection is HIGH and the memories of its chains are empty. -/
def chIdle (l : Lane) (c : Nat) (s : State) : State :=
  setF (Reg.MET_CHn_STAT_sel c) 0 l (setMetCh l c { metCh s l c with memH := [], memL := [] } s)

/-- The samples of the valid channels among those listed. -/
def chSamples (l : Lane) (r : Time) : List Nat → State → List (Nat × ChVal) × State
  | [], s => ([], s)
  | c :: cs, s =>
    if chValid s l r c then
      let x := chSample l r c s
      let q := chSamples l r cs x.2
      ((c, x.1) :: q.1, q.2)
    else chSamples l r cs (chIdle l c s)

/-- The channels in use. -/
def metChs (s : State) : List Nat := (List.range 192).filter (fun c => getB s (Reg.MET_CHn_CFG_en c))

/-! Points (R235-R242). -/

/-- Whether a quantity code is defined for a point kind (R237). -/
def metDefined (kind code : Nat) : Bool :=
  let ac := kind == 1 || kind == 2 || kind == 3
  kind != 0 &&
    (code == 0 || code == 1 || code == 9 || code == 0x10 || code == 0x13 || code == 0x16
      || (ac && (within 2 6 code || code == 0x11 || code == 0x12 || code == 0x19))
      || (kind == 4 && (code == 7 || code == 8 || code == 0xA))
      || ((kind == 2 || kind == 3) && (code == 0x14 || code == 0x15 || code == 0x17 || code == 0x18)))

/-- The integer part of a register: 64 bits (R241). -/
def metReg (p : MetPt) (code : Nat) : Nat := Sparse.get (fun _ => 0) p.tot code / 2 ^ 32 % 2 ^ 64

/-- The amount of a sample in units of 2^-32 µ-unit: |x|·T, 5/144 µWh per W (R237, R238). -/
def metInc (x : MVal) : Nat :=
  let num := x.d.m.natAbs * 5 * 2 ^ 32 * 2 ^ x.d.e.toNat
  (rndOpen 337 (num : Nat) (144 * x.n * 2 ^ (-x.d.e).toNat)).toNat

/-- Accumulate into a billing register; a wrap is counted and recorded (R241). -/
def metAdd (l : Lane) (n code inc : Nat) (s : State) : State :=
  let p := metPt s l n
  let v := Sparse.get (fun _ => 0) p.tot code + inc
  let s1 := setMetPt l n { p with tot := Sparse.set (fun _ => 0) p.tot code (v % 2 ^ 96) } s
  if v < 2 ^ 96 then s1
  else
    let w := min (Sparse.get (fun _ => 0) p.wraps code + 1) 0xFFFF
    raise (metSrc l) Ev.MET_WRAP (n + 2 ^ 8 * code + 2 ^ 16 * w)
      (setF (Reg.MET_PTn_STAT_wrapev n) 1 l
        (setMetPt l n { metPt s1 l n with wraps := Sparse.set (fun _ => 0) p.wraps code w } s1))

/-- Accumulate a signed amount modulo 2^64 (R241). -/
def metAddNet (l : Lane) (n code : Nat) (neg : Bool) (inc : Nat) (s : State) : State :=
  let p := metPt s l n
  let v := Sparse.get (fun _ => 0) p.tot code + (if neg then 2 ^ 96 - inc % 2 ^ 96 else inc)
  setMetPt l n { p with tot := Sparse.set (fun _ => 0) p.tot code (v % 2 ^ 96) } s

/-- Negation where a point's reference direction asks for it. -/
def mDir (rev : Bool) (x : MVal) : MVal := if rev then ⟨x.d.neg, x.n⟩ else x

/-- Whether a value is negative. -/
def mNeg (x : MVal) : Bool := decide (x.d.m < 0)

/-- Accumulation of a DC sample (R236, R237). -/
def metDc (l : Lane) (n : Nat) (v i : MVal) (s : State) : State :=
  let p := mMul v i
  let s1 := metAddNet l n 9 (mNeg p) (metInc p) (metAdd l n (if mNeg p then 1 else 0) (metInc p) s)
  let s2 := metAddNet l n 10 (mNeg i) (metInc i) (metAdd l n (if mNeg i then 8 else 7) (metInc i) s1)
  setMetPt l n { metPt s2 l n with vals := [mToF p, 0#64, 0#64, mToF v, 0#64, 0#64, mToF i, 0#64, 0#64, 0#64] } s2

/-! The values of an AC point (R236). -/

/-- The window values of an AC point: active and reactive power, rms voltages and currents of phases 1 to 3, frequency, and whether that was
outside 40 to 70 Hz. -/
structure AcVals where
  p : MVal
  q : MVal
  v : List F64
  i : List F64
  f : F64
  off : Bool

/-- Voltage and current channels of an AC point, phase by phase (R235): of a three-wire point V12 with I1 and V32 with I3. -/
def phasesOf (c : PointCfg) : List (Nat × Nat) :=
  match c.kind, c.chs with
  | 1, [v, i] => [(v, i)]
  | 2, v1 :: v2 :: v3 :: i1 :: i2 :: i3 :: _ => [(v1, i1), (v2, i2), (v3, i3)]
  | 3, [v1, v2, i1, i3] => [(v1, i1), (v2, i3)]
  | _, _ => []

/-- A channel's value among the samples; 0 for one that has none. -/
def valOf (xs : List (Nat × ChVal)) (c : Nat) : ChVal := (alGet xs c).getD ⟨⟨⟨0, 0⟩, 1⟩, 0#64, false⟩

/-- A sample of an AC point: Σ v·i, and the same with each voltage shifted by 90°. -/
def ptSample (c : PointCfg) (xs : List (Nat × ChVal)) : PtSample :=
  let ph := (phasesOf c).map (fun p => (valOf xs p.1, valOf xs p.2))
  let tot (f : ChVal × ChVal → MVal) : F64 := mToF (ph.foldl (fun a p => mAdd a (f p)) ⟨⟨0, 0⟩, 1⟩)
  { p := tot (fun p => mMul p.1.v p.2.v), q := tot (fun p => mMul (mOf p.1.q) p.2.v),
    v := ph.map (fun p => mToF p.1.v), i := ph.map (fun p => mToF p.2.v) }

/-- Exact sum. -/
def dySum (xs : List Dy) : Dy := xs.foldl Dy.add ⟨0, 0⟩

/-- The nearest binary64 of an exact value over an integer. -/
def dyOver (d : Dy) (n : Nat) : F64 := F64.ofRat (d.m * 2 ^ d.e.toNat) (n * 2 ^ (-d.e).toNat)

/-- Mean of some values. -/
def windowMean (xs : List F64) : MVal := ⟨dySum (xs.map F64.val), max 1 xs.length⟩

/-- Root of the mean square of some values. -/
def rmsOf (xs : List F64) : F64 := F64.sqrt (dyOver (dySum (xs.map (fun x => (F64.val x).mul (F64.val x)))) (max 1 xs.length))

/-- Upward zero crossings of samples, latest first: how many sample periods before the latest sample, as a fraction, interpolated linearly
between the two samples (log entry 86). -/
def crossings : Nat → List F64 → List (Nat × Nat)
  | i, x :: y :: rest =>
    let e := min (F64.val x).e (F64.val y).e
    let a := (F64.val x).at' e
    let b := a - (F64.val y).at' e
    let more := crossings (i + 1) (y :: rest)
    if 0 ≤ a && a < b then ((i * b.toNat + a.toNat), b.toNat) :: more else more
  | _, _ => []

/-- The period between the last two crossings, in samples, as a fraction; none without two. -/
def periodFrac (xs : List F64) : Option (Nat × Nat) :=
  match crossings 0 xs with
  | x :: y :: _ => some (y.1 * x.2 - x.1 * y.2, x.2 * y.2)
  | _ => none

/-- Whether a period stands for a frequency of 40 to 70 Hz: 200 down to 8000/70 samples. -/
def periodOk (p : Nat × Nat) : Bool := decide (p.1 ≤ 200 * p.2) && decide (8000 * p.2 ≤ 70 * p.1)

/-- Samples of the window (R236): N = round(8,000/f), a half going up (log entry 86); where f is outside 40 to 70 Hz, or none is measured, N of
the nominal frequency. -/
def windowLen (fnom : Bool) (xs : List F64) : Nat :=
  let nom := if fnom then 133 else 160
  match periodFrac xs with
  | some p => if periodOk p then (2 * p.1 + p.2) / (2 * p.2) else nom
  | none => nom

/-- The values of an AC point from its last samples, latest first (R236). Where the window is not yet full they are those of the samples
there are; the spec gives no rms for the second phase of a three-wire point: free values (log entries 83, 86). -/
def acVals (fnom : Bool) (kind : Nat) (h : List PtSample) : AcVals :=
  let xs := h.map (fun x => x.v.getD 0 0#64)
  let w := h.take (windowLen fnom xs)
  let rms (f : PtSample → List F64) (j : Nat) : F64 := rmsOf (w.map (fun x => (f x).getD j 0#64))
  let three (f : PtSample → List F64) (key : Nat) : List F64 :=
    match kind with
    | 1 => [rms f 0, 0#64, 0#64]
    | 3 => [rms f 0, Config.filt key [rms f 0, rms f 1], rms f 1]
    | _ => [rms f 0, rms f 1, rms f 2]
  let pf := periodFrac xs
  { p := windowMean (w.map (·.p)), q := windowMean (w.map (·.q)), v := three (·.v) 6, i := three (·.i) 7
    f := match pf with
      | some p => if p.1 = 0 then Config.filt 8 xs else F64.ofRat (8000 * p.2 : Nat) p.1
      | none => Config.filt 8 xs
    off := match pf with
      | some p => !periodOk p
      | none => true }

/-- Apparent power of an AC point (R236): Σ V_rms·I_rms, for a three-wire point √(p² + q²). -/
def metApparent (kind : Nat) (x : AcVals) : MVal :=
  if kind = 3 then
    let p := mToF x.p
    let q := mToF x.q
    mOf (F64.sqrt (F64.add (F64.mul p p) (F64.mul q q)))
  else
    let m (j : Nat) : Dy := (F64.val (x.v.getD j 0#64)).mul (F64.val (x.i.getD j 0#64))
    ⟨dySum [m 0, m 1, m 2], 1⟩

/-- Accumulation of an AC sample (R236, R237): the quadrant is that of (p, q). -/
def metAc (l : Lane) (n kind : Nat) (rev : Bool) (x : AcVals) (s : State) : State :=
  let p := mDir rev x.p
  let q := mDir rev x.q
  let sx := metApparent kind x
  let quad := match mNeg p, mNeg q with
    | false, false => 2
    | true, false => 3
    | true, true => 4
    | false, true => 5
  let s1 := metAddNet l n 9 (mNeg p) (metInc p) (metAdd l n (if mNeg p then 1 else 0) (metInc p) s)
  let s2 := metAdd l n 6 (metInc sx) (metAdd l n quad (metInc q) s1)
  setMetPt l n { metPt s2 l n with
    vals := [mToF p, mToF q, mToF sx] ++ x.v ++ x.i ++ [x.f]
    secFreq := (metPt s2 l n).secFreq || x.off } s2

/-- The last samples of an AC point, latest first: enough for two crossings at 40 Hz. -/
def ptWin (s : State) (l : Lane) (n : Nat) : List PtSample := Sparse.get (fun _ => []) (s.lane l).met.wins n

/-- Set a point's window. -/
def setPtWin (l : Lane) (n : Nat) (h : List PtSample) : State → State :=
  onMet l (fun m => { m with wins := Sparse.set (fun _ => []) m.wins n h })

/-- Whether all channels of a point have a sample. -/
def ptHas (c : PointCfg) (xs : List (Nat × ChVal)) : Bool := c.chs.all (fun k => xs.any (fun x => x.1 == k))

/-- A point's window at a sample (R236, R244): it fills whether or not the lane's registers are loaded, and restarts after a gap. -/
def winStep (l : Lane) (xs : List (Nat × ChVal)) (q : Nat × PointCfg) (s : State) : State :=
  if q.2.kind = 0 || q.2.kind = 4 then s
  else setPtWin l q.1 (if ptHas q.2 xs then (ptSample q.2 xs :: ptWin s l q.1).take 402 else []) s

/-- The start of a gap (R239). -/
def gapStart (l : Lane) (n : Nat) (r : Time) (s : State) : State :=
  raiseAt r (metSrc l) Ev.MET_GAP n false false
    (incF Reg.MET_CNT_gaps l (setF (Reg.MET_PTn_STAT_valid n) 0 l (setMetPt l n { metPt s l n with gapAt := some r } s)))

/-- The end of a gap (R239): its seconds, rounded up, are recorded and added. -/
def gapEnd (l : Lane) (n : Nat) (r r0 : Time) (s : State) : State :=
  let k := (since r r0 + sec - 1) / sec
  raiseAt r (metSrc l) Ev.MET_GAPEND (n + 2 ^ 32 * k) false false
    (incF (Reg.MET_PTn_STAT_gaps n) l (setMetPt l n { metPt s l n with gapAt := none } s) k)

/-- A point's part of a sample referred to `r` (R235-R240): gaps, then accumulation in its kind. -/
def pointSample (l : Lane) (r : Time) (xs : List (Nat × ChVal)) (q : Nat × PointCfg) (s : State) : State :=
  let n := q.1
  if q.2.kind = 0 then s
  else
    let p := metPt s l n
    if ptHas q.2 xs then
      let s1 := match p.gapAt with
        | some r0 => gapEnd l n r r0 s
        | none => s
      let s2 := setF (Reg.MET_PTn_STAT_valid n) 1 l
        (setMetPt l n { metPt s1 l n with secSubst := p.secSubst || q.2.chs.any (fun c => (valOf xs c).sub) } s1)
      if q.2.kind = 4 then
        match q.2.chs with
        | [v, i] => metDc l n (valOf xs v).v (mDir q.2.rev (valOf xs i).v) s2
        | _ => s2
      else metAc l n q.2.kind q.2.rev (acVals (getB s2 Reg.MET_CFG_fnom) q.2.kind (ptWin s2 l n)) s2
    else
      let s1 := if p.gapAt.isSome then s else gapStart l n r s
      setMetPt l n { metPt s1 l n with secGap := true } s1

/-! Interval deltas (R246). -/

/-- A day of local time in ns. -/
def dayNs : Int := 86400000000000

/-- The last interval boundary at or before a local time, counted from 00:00:00 TAI of the day. -/
def boundAt (s : State) (lt : Int) : Int :=
  let iv : Int := (max 1 (getF s Reg.MET_CFG_intv) * sec : Nat)
  let day := lt / dayNs * dayNs
  day + (lt - day) / iv * iv

/-- The next interval boundary after a local time. -/
def boundAfter (s : State) (lt : Int) : Int :=
  let iv : Int := (max 1 (getF s Reg.MET_CFG_intv) * sec : Nat)
  let day := lt / dayNs * dayNs
  let b := day + ((lt - day) / iv + 1) * iv
  if day + dayNs < b then day + dayNs else b

/-- Close an interval of a point (R246). -/
def closeInterval (l : Lane) (n : Nat) (late : Bool) (b : Int) (s : State) : State :=
  let p := metPt s l n
  let r := metReg p (getF s (Reg.MET_PTn_CFG_iq n))
  let v := (r + 2 ^ 64 - p.openR) % 2 ^ 64 + p.carry
  setF (Reg.MET_PTn_IDLT_idlt n) (v / 1000 % 2 ^ 32) l
    (setB (Reg.MET_PTn_STAT_iwrap n) (decide (2 ^ 32 ≤ v / 1000)) l
      (setB (Reg.MET_PTn_STAT_ilate n) late l
        (setMetPt l n { p with openR := r, carry := v % 1000, closed := some b } s)))

/-- Interval boundary at a sample (R246): the first sample whose referred local time reaches the next boundary closes it. -/
def intervalSample (l : Lane) (lt : Int) (n : Nat) (s : State) : State :=
  let p := metPt s l n
  match p.closed with
  | none => setMetPt l n { p with closed := some (boundAt s lt) } s
  | some b =>
    if boundAfter s b ≤ lt then closeInterval l n false (max (boundAfter s b) (boundAt s lt)) s else s

/-- A step of local time (R246): a forward step over a boundary closes one interval at the step. -/
def intervalStep (l : Lane) (was now' : Int) (n : Nat) (s : State) : State :=
  match (metPt s l n).closed with
  | none => s
  | some b =>
    if was < boundAfter s b && boundAfter s b ≤ now' then closeInterval l n true (max (boundAfter s b) (boundAt s now')) s else s

/-- The configured points. -/
def metPoints (s : State) : List (Nat × PointCfg) := s.cfg.points.filter (fun q => q.2.kind != 0)

/-- TIME_STEP (R330, R340, R246): pending steps are applied, in each lane that holds one, with the rule of crossed intervals. -/
def execTimeStep (t : Time) (s : State) : Host.Outcome State Fault Refusal :=
  run t s (readyLanes (fun l s =>
    let was := ltAt s l s.now
    let s1 := applyStep l s
    if (s.lane l).tmb.pend.isSome && (s1.lane l).tmb.pend.isNone then
      forEach (fun q s => intervalStep l was (ltAt s l s.now) q.1 s) (metPoints s1) s1
    else s1))

/-! Pulse outputs (R247-R250). -/

/-- µ-units per kilo-unit, or per Ah (R248). -/
def poUnit (code : Nat) : Nat := if code = 7 || code = 8 then 1000000 else 1000000000

/-- Whether an output is enabled on a quantity its point has. -/
def poOn (s : State) (n : Nat) : Bool :=
  let pt := getF s (Reg.MET_POn_CFG_pt n)
  getB s (Reg.MET_POn_CFG_en n) && metDefined ((alGet s.cfg.points pt).map (·.kind) |>.getD 0) (getF s (Reg.MET_POn_CFG_q n))

/-- A register with its fraction, of the assignment of an output. -/
def poReg (s : State) (l : Lane) (n : Nat) : Nat :=
  Sparse.get (fun _ => 0) (metPt s l (getF s (Reg.MET_POn_CFG_pt n))).tot (getF s (Reg.MET_POn_CFG_q n))

/-- Pulses owed (R248). -/
def poOwed (s : State) (l : Lane) (n : Nat) : Nat :=
  if poOn s n then
    let o := metPo s l n
    getF s (Reg.MET_POn_K_k n) * ((poReg s l n + 2 ^ 96 - o.r0) % 2 ^ 96) / (poUnit (getF s (Reg.MET_POn_CFG_q n)) * 2 ^ 32) - o.ne
  else 0

/-- Put a level on an output pin. -/
def poPin (n : Nat) (v : Bool) (s : State) : State :=
  if s.poOut.getLsbD n == v then s
  else emit (.pin 7 n v) { s with poOut := s.poOut ^^^ BitVec.ofNat 8 (2 ^ n) }

/-- The level NIO puts on an output: that of the Active lane's generator, with the polarity (R247, R250). Released outputs finish a
pulse in progress and stay inactive (R290, R313). -/
def poDrive (s : State) : State :=
  match active s with
  | none => s
  | some l =>
    forEach (fun n s =>
      let pol := getB s (Reg.MET_POn_CFG_pol n)
      let lvl := getB s (Reg.MET_POn_STAT_level n) l && (!outReleased s || (s.poOut.getLsbD n != pol))
      poPin n (lvl != pol) s) (List.range 8) s

/-- Show a generator's registers. -/
def poShow (l : Lane) (n : Nat) (s : State) : State :=
  setB (Reg.MET_POn_STAT_shadow n) (!isActive s l) l
    (setB (Reg.MET_POn_STAT_level n) (metPo s l n).busy.isSome l
      (setF (Reg.MET_POn_OWED_owed n) (min (poOwed s l n) 0xFFFFFFFF) l s))

/-- Whether `ns` have passed since an instant, if there is one. -/
def passed (now : Time) (o : Option Time) (ns : Nat) : Bool :=
  match o with
  | some x => decide (ns ≤ since now x)
  | none => true

/-- A generator at an instant of the accumulation timeline (R249). -/
def poStep (l : Lane) (n : Nat) (s : State) : State :=
  let o := metPo s l n
  let w := getF s (Reg.MET_POn_CFG_w n)
  let go := o.busy.isNone && decide (1 ≤ poOwed s l n) && passed s.now o.fin (w * ms) && passed s.now o.start (40 * ms)
  let s1 := if go then setMetPo l n { o with ne := o.ne + 1, busy := some (plus s.now (w * ms)), start := some s.now } s else s
  let k := poOwed s1 l n
  let bl := getB s1 (Reg.MET_POn_STAT_backlog n) l
  let s2 := if !bl && (250 < k || 5000 < k * w) then
      raise (metSrc l) Ev.MET_POBACKLOG n (setF (Reg.MET_POn_STAT_backlog n) 1 l s1)
    else if bl && k < 25 && k * w < 500 then setF (Reg.MET_POn_STAT_backlog n) 0 l s1
    else s1
  poShow l n s2

/-- PULSE_END (R249): a pulse lasts exactly w. With no lane Active, NIO ends the pulse that was in progress (R290). -/
def execPulseEnd (t : Time) (l : Lane) (n : Nat) (s : State) : Host.Outcome State Fault Refusal :=
  run t s (fun s =>
    if (active s).isNone then when (decide (n < 8)) (poPin n (getB s (Reg.MET_POn_CFG_pol n))) s
    else if !ready s l then s
    else match (metPo s l n).busy with
    | some e =>
      when (decide (n < 8) && atOrAfter s.now e)
        (fun s => poDrive (poShow l n (setMetPo l n { metPo s l n with busy := none, fin := some e } s))) s
    | none => s)

/-- A change of an output's assignment (R247): the owed pulses are discarded and the change is recorded. -/
def poChanged (n : Nat) (s : State) : State :=
  raise (metSrc (timeLane s)) Ev.MET_POCFG n
    (bothLanes (fun l s => poShow l n (setF (Reg.MET_POn_STAT_backlog n) 0 l
      (setMetPo l n { metPo s l n with r0 := poReg s l n, ne := 0 } s))) s)

/-! Samples. -/

/-- Load the match constants that are due at a referred instant (R233). -/
def loadMatch (l : Lane) (r : Time) (s : State) : State :=
  let due := (s.lane l).met.due.filter (fun d => atOrAfter r d.2.2.2)
  onMet l (fun m => { m with due := m.due.filter (fun d => !atOrAfter r d.2.2.2) })
    (forEach (fun d s => setMetCh l d.1 { metCh s l d.1 with ab := some (d.2.1, d.2.2.1) } s) due s)

/-- The end of a second (R236, R240, R251): the registers show what it has shown. -/
def metSecond (l : Lane) (s : State) : State :=
  let freq := (metPoints s).any (fun q => (metPt s l q.1).secFreq)
  let s1 := forEach (fun c s =>
    let v := metCh s l c
    let s2 := setB (Reg.MET_CHn_STAT_ovl c) v.ovl l (setB (Reg.MET_CHn_STAT_clip c) v.clip l
      (setB (Reg.MET_CHn_STAT_subst c) v.subst l s))
    setMetCh l c { v with ovl := false, clip := false, subst := false } (when v.clip (incF (Reg.MET_CHn_STAT_clipcnt c) l) s2))
    (metChs s) s
  let s2 := forEach (fun q s =>
    let p := metPt s l q.1
    setMetPt l q.1 { p with secGap := false, secSubst := false, secFreq := false }
      (setB (Reg.MET_PTn_STAT_gap q.1) p.secGap l (setB (Reg.MET_PTn_STAT_subst q.1) p.secSubst l s))) (metPoints s1) s1
  setB Reg.MET_STAT_freq freq l s2

/-- A sample referred to `r` (R229-R249). -/
def metSample (l : Lane) (r : Time) (s : State) : State :=
  let s1 := if r.toNat % sec = 0 then loadMatch l r s else s
  let c := chSamples l r (metChs s1) s1
  let w := forEach (winStep l c.1) (metPoints c.2) c.2
  let s2 := if (s.lane l).met.loaded then forEach (pointSample l r c.1) (metPoints w) w else w
  let s3 := if (s.lane l).met.loaded && (s2.lane l).tmb.set then
      forEach (fun q s => intervalSample l (ltAt s l r) q.1 s) (metPoints s2) s2 else s2
  let s4 := if (s.lane l).met.loaded then poDrive (forEach (poStep l) (List.range 8) s3) else s3
  let s5 := if r.toNat % sec = 0 then metSecond l s4 else s4
  onMet l (fun m => { m with last := some r }) s5

/-- METROLOGY_SAMPLE (R230, R238): the sample referred to t − 10 ms is complete, on the grid of 125 µs. -/
def execMetrologySample (t : Time) (l : Lane) (s : State) : Host.Outcome State Fault Refusal :=
  runLane t l s (fun s =>
    let r := s.now - BitVec.ofNat 64 (10 * ms)
    let newer := match (s.lane l).met.last with
      | some x => atOrAfter r x && r != x
      | none => true
    when (decide (r.toNat % 125000 = 0) && newer) (metSample l r) s)

/-! Billing slots (R243, R244, R250). -/

/-- The latest slot. -/
def latestSlot (s : State) : Option MetSlot :=
  match s.met0, s.met1 with
  | some x, some y => if x.seq < y.seq then some y else some x
  | some x, none => some x
  | none, y => y

/-- The slot of a lane's registers. -/
def slotOf (s : State) (l : Lane) (mtc : Time) (seq : Nat) : MetSlot :=
  ⟨mtc, seq, (s.lane l).met.pts, (List.range 96).map (fun n => (n, getF s (Reg.MET_PTn_STAT_gaps n) l)), (s.lane l).met.pos⟩

/-- What a slot keeps of a point. -/
def keepPt (p : MetPt) : MetPt := { tot := p.tot, wraps := p.wraps, openR := p.openR, carry := p.carry, closed := p.closed }

/-- Load a lane's registers from a slot (R244). -/
def loadSlot (l : Lane) (x : MetSlot) (s : State) : State :=
  let s1 := onMet l (fun m => { m with pts := Sparse.mapVals metPtDef (fun _ p => keepPt p) x.pts, pos := x.pos, loaded := true }) s
  setF Reg.MET_STAT_ldr 0 l (forEach (fun g s => setF (Reg.MET_PTn_STAT_gaps g.1) g.2 l s) x.gaps s1)

/-- BILLING_SAVE (R243, R244): at a second of the MTC + 10 ms the Active lane writes its totals to the slots in turn; another lane that
waits for its load takes its registers from the slot, also after a dual lane reset, where both lanes began from the restored ones. -/
def execBillingSave (t : Time) (s : State) : Host.Outcome State Fault Refusal :=
  run t s (fun s =>
    let r := s.now - BitVec.ofNat 64 (10 * ms)
    match active s with
    | none => s
    | some l =>
      if r.toNat % sec ≠ 0 || !ready s l then s
      else
        let s0 := if (s.lane l).met.loaded then s
          else match latestSlot s with
            | some x => loadSlot l x s
            | none => onMet l (fun m => { m with loaded := true }) s
        let q := ((latestSlot s0).map (·.seq)).getD 0 + 1
        let x := slotOf s0 l r q
        let s1 := if q % 2 = 0 then { s0 with met0 := some x } else { s0 with met1 := some x }
        readyLanes (fun k s =>
          if k = l then setF Reg.MET_STAT_ldr 0 k s else if getB s Reg.MET_STAT_ldr k then loadSlot k x s else s) s1)

/-- A generator restored from a slot (R250): what was left of its pulse when the slot was written is left at the restart, and the times of its last
pulse lie as far back (log entry 87). `d` is from the slot's writing to the restart. -/
def restPo (d : Time) (o : MetPo) : MetPo := { o with busy := o.busy.map (· + d), start := o.start.map (· + d), fin := o.fin.map (· + d) }

/-- Restore at module reset (R243, R246, R250): the latest slot whose pairs check, else the other, else zero, gap seconds too; a failed slot
restarts the interval basis. -/
def metRestore (ok0 ok1 : Bool) (s : State) : State :=
  let l := timeLane s
  let lat1 := match s.met0, s.met1 with
    | some x, some y => decide (x.seq < y.seq)
    | none, some _ => true
    | _, _ => false
  let first := if lat1 then (ok1, s.met1) else (ok0, s.met0)
  let second := if lat1 then (ok0, s.met0) else (ok1, s.met1)
  let zero : MetSlot := ⟨0#64, 0, [], [], []⟩
  let use := if first.1 then first.2.getD zero else if second.1 then second.2.getD zero else zero
  let failed := !first.1
  let s1 := match latestSlot s with
    | some x => raise (metSrc l) Ev.MET_PFAIL (plus x.mtc (10 * ms)).toNat s
    | none => s
  let s2 := if first.1 then s1
    else if second.1 then raise (metSrc l) Ev.MET_RESTORE (if lat1 then 0 else 1) (setF2 Reg.MET_STAT_rstold 1 s1)
    else raiseAlarm (metSrc l) Ev.MET_RSTFAIL 0 0 (setF2 Reg.MET_STAT_rstfail 1 s1)
  let basis (n : Nat) (p : MetPt) : MetPt :=
    if failed then { keepPt p with openR := metReg p (getF s (Reg.MET_PTn_CFG_iq n)), carry := 0 } else keepPt p
  let d : Time := s.now - plus use.mtc (10 * ms)
  bothLanes (fun k s => forEach (poShow k) (List.range 8) (setF Reg.MET_STAT_ldr 1 k
    (forEach (fun n s => setF (Reg.MET_PTn_STAT_gaps n) ((alGet use.gaps n).getD 0) k s) (List.range 96)
      (onMet k (fun _ => { pts := Sparse.mapVals metPtDef basis use.pts,
                           pos := Sparse.mapVals metPoDef (fun _ o => restPo d o) use.pos, loaded := true }) s)))) s2

/-! Configuration and range match. -/

/-- Whether a point's channels suit its kind (R235). -/
def pointOk (s : State) (c : PointCfg) : Bool :=
  let ty (n : Nat) : Nat := getF s (Reg.MET_CHn_CFG_type n)
  let volt (n : Nat) : Bool := decide (n < 192) && ty n == 0
  let cur (n : Nat) : Bool := decide (n < 192) && ty n != 0
  match c.kind, c.chs with
  | 0, _ => true
  | 1, [v, i] => volt v && cur i
  | 2, v1 :: v2 :: v3 :: i1 :: i2 :: i3 :: rest =>
    volt v1 && volt v2 && volt v3 && cur i1 && cur i2 && cur i3 && decide (rest.length ≤ 1) && rest.all cur
  | 3, [v1, v2, i1, i3] => volt v1 && volt v2 && cur i1 && cur i3
  | 4, [v, i] => volt v && decide (i < 192) && ty i == 1
  | _, _ => false

/-- A point is configured (R235, R251): its registers are kept, its window restarts. -/
def setPoint (n : Nat) (c : PointCfg) (s : State) : State :=
  let s1 := { s with cfg := { s.cfg with points := alSet s.cfg.points n c } }
  raise (metSrc (timeLane s)) Ev.MET_PTCFG n
    (setF (Reg.MET_PTn_CFG_kind n) c.kind .a
      (bothLanes (fun l s => setPtWin l n [] (setMetPt l n { metPt s l n with vals := [] } s)) s1))

/-- A billing preset (R245): value set, fraction and wrap count 0; pulses owed are not touched. -/
def metPreset (n code : Nat) (v : BitVec 64) (s : State) : State :=
  let l := timeLane s
  let old := metReg (metPt s l n) code
  let s1 := bothLanes (fun k s =>
    let p := metPt s k n
    let was := Sparse.get (fun _ => 0) p.tot code
    let basis := getF s (Reg.MET_PTn_CFG_iq n) = code
    let p1 : MetPt := { p with tot := Sparse.set (fun _ => 0) p.tot code (v.toNat * 2 ^ 32),
                               wraps := Sparse.set (fun _ => 0) p.wraps code 0,
                               openR := if basis then v.toNat else p.openR, carry := if basis then 0 else p.carry }
    forEach (fun i s =>
      if getF s (Reg.MET_POn_CFG_pt i) = n && getF s (Reg.MET_POn_CFG_q i) = code then
        setMetPo k i { metPo s k i with r0 := ((metPo s k i).r0 + v.toNat * 2 ^ 32 + 2 ^ 96 - was) % 2 ^ 96 } s
      else s) (List.range 8) (setMetPt k n p1 s)) s
  raise (metSrc l) Ev.MET_PRESETV v.toNat (raise (metSrc l) Ev.MET_PRESETV old (raise (metSrc l) Ev.MET_PRESET (n + 256 * code) s1))

/-- A change of a point's interval quantity (R246): the basis restarts. -/
def iqChanged (n : Nat) (s : State) : State :=
  bothLanes (fun l s =>
    setMetPt l n { metPt s l n with openR := metReg (metPt s l n) (getF s (Reg.MET_PTn_CFG_iq n)), carry := 0 } s) s

/-- Calibration constants are configured (R227, R233): in force at once; the commissioning values clear a range fault. -/
def setCal (n : Nat) (c : ChanCal) (s : State) : State :=
  setF2 (Reg.MET_CHn_STAT_calf n) 0
    (bothLanes (fun l s => onMet l (fun m => { m with due := m.due.filter (fun d => d.1 ≠ n) })
        (setMetCh l n { metCh s l n with ab := none } s))
      { s with cfg := { s.cfg with cals := alSet s.cfg.cals n c } })

/-- Move `x` towards `fit`, by at most `lim` (an exact value over `n`). -/
def moveBy (x fit : F64) (lim : Dy) (n : Nat) : F64 :=
  let d := (F64.val fit).add (F64.val x).neg
  if Dy.lt lim ((dyAbs d).mul ⟨n, 0⟩) then
    dyOver (((F64.val x).mul ⟨n, 0⟩).add (if d.m < 0 then lim.neg else lim)) n
  else fit

/-- The fit of a window (R233) by least squares: a_L and b_L for which a_L·u/g + b_L follows y best; none where the samples do not determine
them, or a result is not finite (log entry 86). -/
def rangeFit (g : Nat) (f : FitSum) : Option (F64 × F64) :=
  let n : Dy := ⟨f.n, 0⟩
  let det := (n.mul f.uu).add (f.u.mul f.u).neg
  let ratio (x : Dy) (k : Nat) : F64 :=
    let e := min x.e det.e
    F64.ofRat (x.at' e * k) (det.at' e).toNat
  let a := ratio ((n.mul f.uy).add (f.u.mul f.y).neg) g
  let b := ratio ((f.uu.mul f.y).add (f.u.mul f.uy).neg) 1
  if 20000 ≤ f.n && decide (0 < det.m) && finite a && finite b then some (a, b) else none

/-- An update of the match constants towards a fit (R233): limited in its step, checked against the commissioning values; a Standby's fit is only
compared, the Active lane's is written, and both lanes load it at the next second. -/
def matchUpdate (l : Lane) (ch : Nat) (aFit bFit : F64) (s : State) : State :=
  let k := calOf s ch
  let g := max 1 (getF s (Reg.MET_CHn_CFG_g ch))
  let v := F64.val
  let newA := moveBy k.aL aFit (dyAbs (v k.aL)) 100000
  let newB := moveBy k.bL bFit (dyAbs (v k.fsH)) (100000 * g)
  let dA := dyAbs ((v newA).add (v k.aL0).neg)
  let dB := dyAbs ((v newB).add (v k.bL0).neg)
  if !isActive s l then s
  else if Dy.lt (dyAbs (v k.aL0)) (dA.mul ⟨200, 0⟩) || Dy.lt (dyAbs (v k.fsH)) (dB.mul ⟨200 * g, 0⟩) then
    raise (metSrc l) Ev.MET_CALRANGE ch (setF (Reg.MET_CHn_STAT_calf ch) 1 l s)
  else
    let due : Time := BitVec.ofNat 64 ((s.now.toNat / sec + 1) * sec)
    readyLanes (fun j => onMet j (fun m => { m with due := m.due.filter (fun d => d.1 ≠ ch) ++ [(ch, newA, newB, due)] }))
      (bothLanes (fun j s => setMetCh j ch { metCh s j ch with ab := some ((metCh s j ch).ab.getD (k.aL, k.bL)) } s)
        { s with cfg := { s.cfg with cals := alSet s.cfg.cals ch { k with aL := newA, bL := newB } } })

/-- RANGE_MATCH_WINDOW (R233): a 10 s window ends; its fit, if it gives one, is kept for comparison and moves the constants unless the
channel has a range fault. -/
def execRangeMatchWindow (t : Time) (l : Lane) (ch : Nat) (s : State) : Host.Outcome State Fault Refusal :=
  runLane t l s (fun s =>
    let x := metCh s l ch
    if 192 ≤ ch then s
    else
      match rangeFit (max 1 (getF s (Reg.MET_CHn_CFG_g ch))) x.fitS with
      | some f =>
        let s1 := setMetCh l ch { x with fitS := {}, fit := some f.1 } s
        if getB s (Reg.MET_CHn_STAT_calf ch) l then s1 else matchUpdate l ch f.1 f.2 s1
      | none => setMetCh l ch { x with fitS := {} } s)

/-! Readings (R237, R252, R377). -/

/-- The four words of a latched quantity (R252). -/
def latchWords (s : State) (l : Lane) (n q : Nat) : List Word :=
  let p := metPt s l n
  let kind := ((alGet s.cfg.points n).map (·.kind)).getD 0
  if metDefined kind q then
    let w := if q < 9 then Sparse.get (fun _ => 0) p.wraps q else 0
    [BitVec.ofNat 32 (metReg p q), BitVec.ofNat 32 (metReg p q / 2 ^ 32), BitVec.ofNat 32 (w + (if w = 0xFFFF then 2 ^ 16 else 0)), 0#32]
  else [0#32, 0#32, BitVec.ofNat 32 (2 ^ 17), 0#32]

/-- Referred instant of the latest completed sample. -/
def lastSample (s : State) (l : Lane) : Time := (s.lane l).met.last.getD 0#64

/-- Latch a point for the snapshot registers (R251, R252). -/
def metLatch (l : Lane) (s : State) : State :=
  let n := getF s Reg.MET_SNAP_CTL_pt l
  let r := lastSample s l
  let ok := getB s (Reg.MET_PTn_STAT_valid n) l && decide (((alGet s.cfg.points n).map (·.kind)).getD 0 ≠ 0)
  let s1 := forEach (fun q s =>
    forEach (fun w s => wrK (0x91010 + 16 * q + 4 * w + laneSpan * (1 + l.idx)) ((latchWords s l n q).getD w 0#32) s) [0, 1, 2, 3] s)
    (List.range 11) s
  setF Reg.MET_SNAP_MTCL_mtcl (r.toNat % 2 ^ 32) l (setF Reg.MET_SNAP_MTCH_mtch (r.toNat / 2 ^ 32) l
    (setB Reg.MET_SNAP_CTL_inv (!ok) l s1))

/-- The bytes of a METRO snapshot (R377). -/
def metBytes (s : State) (l : Lane) (n : Nat) : List Byte :=
  leBytes 8 (lastSample s l).toNat
    ++ ((List.range 11).map (fun q => ((latchWords s l n q).map (fun w => leBytes 4 w.toNat)).flatten)).flatten

/-- A quantity as MMAP class 0x0002 delivers it (R60, R237): energy in J, charge in C. -/
def metQuantity (s : State) (l : Lane) (n code : Nat) : Option F64 :=
  let p := metPt s l n
  let kind := ((alGet s.cfg.points n).map (·.kind)).getD 0
  if !metDefined kind code then none
  else if code < 0x10 then
    let x := Sparse.get (fun _ => 0) p.tot code
    let v : Int := if 9 ≤ code && 2 ^ 95 ≤ x then (x : Int) - 2 ^ 96 else x
    some (F64.ofRat (v * 36) (10000 * 2 ^ 32))
  else if getB s (Reg.MET_PTn_STAT_valid n) l then p.vals[code - 0x10]?
  else none

/-- The largest difference between two lanes' registers (point, code, µ-units), where the Keeper holds totals of one instant. -/
def metDiff (s : State) (x y : Lane) : Option (Nat × Nat × Nat) :=
  let all := (metPoints s).flatMap (fun q => (List.range 9).map (fun c =>
    let u := metReg (metPt s x q.1) c
    let v := metReg (metPt s y q.1) c
    (q.1, c, if u < v then v - u else u - v)))
  match all.foldl (fun (m : Nat × Nat × Nat) d => if m.2.2 < d.2.2 then d else m) (0, 0, 0) with
  | (_, _, 0) => none
  | d => some d

/-- A takeover (R250): outputs follow the new Active lane; a difference of the totals is recorded. -/
def metTakeover (old new : Lane) (s : State) : State :=
  let s1 := match (s.lane old).met.last == (s.lane new).met.last, metDiff s old new with
    | true, some d => raise (metSrc new) Ev.MET_TKDIFF (d.1 + 2 ^ 8 * d.2.1 + 2 ^ 16 * min d.2.2 (2 ^ 48 - 1)) s
    | _, _ => s
  poDrive (bothLanes (fun l s => forEach (poShow l) (List.range 8) s) s1)

/-- A lane that becomes ready: its enabled ports align (R222). -/
def metStart (l : Lane) (s : State) : State := forEach (fun n s => apEnableLane n l s) (List.range 24) s

end Sys2Proof.Machine
end

