-- ==== Sys2Proof/Machine/Loops.lean ====
section
/-!
DEFINITION. The loop engine (R253-R280): slot records and banks, sources, the laws, modes and transfers, loop commands, the
Standby's correction and the trace capture.
-/

namespace Sys2Proof.Machine

/-- Source of loop events of a lane. -/
def lpeSrc (l : Lane) : Src := laneSrc l 10

/-- Change a lane's loop engine. -/
def onLpe (l : Lane) (f : LpeSt → LpeSt) : State → State := onLane l (fun a => { a with lpe := f a.lpe })

/-- Unlisted slots. -/
def slotDef (_ : Nat) : LoopSt := {}

/-- A slot of a lane. -/
def slotSt (s : State) (l : Lane) (n : Nat) : LoopSt := Sparse.get slotDef (s.lane l).lpe.slots n

/-- Replace a slot of a lane. -/
def setSlot (l : Lane) (n : Nat) (v : LoopSt) : State → State :=
  onLpe l (fun p => { p with slots := Sparse.set slotDef p.slots n v })

/-! Records and banks (R258-R261). -/

/-- Unlisted records and banks are all zero (log entry 3). -/
def recDef (_ : Nat) : List Byte := []
def coefDef (_ : Nat) : List F64 := []

/-- A slot's record. -/
def loopRec (s : State) (n : Nat) : List Byte := Sparse.get recDef s.cfg.loops n

/-- Number of `k` bytes of a slot's record at an offset. -/
def recN (s : State) (n o k : Nat) : Nat := leAt (loopRec s n) o k

/-- Law of a slot: 0 off, 1 PID, 2 state-space. -/
def lawOf (s : State) (n : Nat) : Nat := recN s n 2 1

/-- Flag of a slot: bit 0 rev, 1 dmeas, 2 aw, 3 pvtrk, 4 bbs. -/
def loopFlag (s : State) (n b : Nat) : Bool := bit (recN s n 3 1) b

/-- Period in units of 100 µs. -/
def periodOf (s : State) (n : Nat) : Nat := recN s n 4 4

/-- Word `i` of a coefficient bank. -/
def coef (s : State) (n b i : Nat) : F64 := (Sparse.get coefDef s.cfg.banks (2 * n + b)).getD i 0#64

/-- T_s in seconds. -/
def tsSec (s : State) (n : Nat) : F64 := F64.ratio (periodOf s n) 10000

/-- Mode of a slot: 0 OFF, 1 MAN, 2 AUTO, 3 TRACK, 4 HOLD. -/
def modeSl (s : State) (l : Lane) (n : Nat) : Nat := getF s (Reg.LPE_SLn_STAT_mode n) l

/-- Active bank of a slot. -/
def bankSl (s : State) (l : Lane) (n : Nat) : Nat := getF s (Reg.LPE_SLn_STAT_bank n) l

/-- A source reference at an offset of a slot's record: class, sub, index (R259). -/
structure SrcRef where
  cls : Nat
  sub : Nat
  index : Nat
  deriving DecidableEq, Repr

def srcAt (bs : List Byte) (o : Nat) : SrcRef := ⟨leAt bs o 2, leAt bs (o + 2) 2, leAt bs (o + 4) 4⟩

/-- Sources of a slot: y, w, f. -/
def srcY (s : State) (n : Nat) : SrcRef := srcAt (loopRec s n) 16
def srcW (s : State) (n : Nat) : SrcRef := srcAt (loopRec s n) 24
def srcF (s : State) (n : Nat) : SrcRef := srcAt (loopRec s n) 32

/-- The slots. -/
def allSlots : List Nat := List.range 256

/-- The outer slot of a slot (R265): the one its setpoint source names. -/
def outerOf (s : State) (n : Nat) : Option Nat :=
  let r := srcW s n
  if lawOf s n != 0 && r.cls == 3 && r.sub == 2 then some r.index else none

/-- The inner slots of a slot. -/
def innersOf (s : State) (n : Nat) : List Nat := allSlots.filter (fun k => outerOf s k == some n)

/-- Load of the slots a test names as a fraction of units/s (R255). -/
def loadFrac (s : State) (onSl : Nat → Bool) : Nat × Nat :=
  allSlots.foldl (fun (x : Nat × Nat) n =>
    let on := onSl n
    let p := periodOf s n
    if on && lawOf s n != 0 && p != 0 then (x.1 * p + lawOf s n * 10000 * x.2, x.2 * p) else x) (0, 1)

/-- Whether a slot has an order waiting that takes it out of OFF (R268). -/
def startsSoon (s : State) (n : Nat) : Bool := s.auth.orders.any (fun o => match o.val with
  | .loop k (.mode m) => k == n && m != 0
  | _ => false)

/-- Whether the load stays within 2,000,000 units/s (R255), once the orders that wait have taken effect and the slot given runs. -/
def loadOk (s : State) (l : Lane) (extra : Option Nat) : Bool :=
  let x := loadFrac s (fun n => modeSl s l n != 0 || startsSoon s n || extra == some n)
  decide (x.1 ≤ 2000000 * x.2)

/-- LPE_STAT of a lane. -/
def showLpe (l : Lane) (s : State) : State :=
  let x := loadFrac s (fun n => modeSl s l n != 0)
  setF Reg.LPE_STAT_load (min (rndOpen 338 (x.1 : Nat) (2000 * x.2)).toNat 1000) l
    (setF Reg.LPE_STAT_nslot ((allSlots.filter (fun n => modeSl s l n != 0)).length) l
      (setB Reg.LPE_STAT_shadow (!isActive s l) l s))

/-! Sources (R259, R273, R274). -/

/-- The lane whose output registers readers take (R273): the one the role lines name, or the other while it is blocked. -/
def driveLane (s : State) : Lane :=
  let l := timeLane s
  if blocked s l then l.other else l

/-- A slot's output register as readers take it (R273): what was written last. -/
def loopReg (s : State) (n : Nat) : Option LoopOut := (slotSt s (driveLane s) n).outs.head?

/-- Output of a slot as readers take it. -/
def loopOut (s : State) (n : Nat) : F64 := ((loopReg s n).map (·.u)).getD 0#64

/-- A source's value at an instant with the value's own instant (R259); none where it is not valid. -/
def srcValue (s : State) (l : Lane) (r : SrcRef) (tk : Time) : Option (F64 × Time) :=
  match r.cls with
  | 2 =>
    match (s.lane l).met.last, metQuantity s l r.index r.sub with
    | some m, some v => if atOrAfter tk m then some (v, m) else none
    | _, _ => none
  | 3 =>
    let d := driveLane s
    if modeSl s d r.index = 0 then none
    else (latestAt LoopOut.inst tk (slotSt s d r.index).outs).map (fun o => (o.u, o.inst))
  | 4 =>
    match ((alGet (s.lane l).hri.disp r.index).getD []).filter (fun p => atOrAfter tk p.tAcc) with
    | p :: _ => if p.valid && (p.life == 0 || decide (since tk p.tAcc ≤ p.life * ms)) then some (p.val, p.tAcc) else none
    | [] => none
  | 5 =>
    let v := (s.lane l).slv
    match actPkg s l, [v.disp.last, v.prior].findSome? (fun q => q.filter (fun a => atOrAfter tk a.stamp)) with
    | some p, some q =>
      let x := prevAlloc p { v.disp with last := some q } r.sub r.index
      if x.2 then some (x.1, q.stamp) else none
    | _, _ => none
  | 6 => canField s r.index r.sub tk
  | 7 => serValue s l r.index tk
  | _ => none

/-- A measurement or feed-forward as usable: valid and within the age limit. -/
def srcFresh (s : State) (l : Lane) (n : Nat) (r : SrcRef) (tk : Time) : Option F64 :=
  match srcValue s l r tk with
  | some (v, x) => if since tk x ≤ recN s n 12 2 * ms then some v else none
  | none => none

/-- Setpoint at a sample (R258, R265, R271, R274): value and whether it is stale. An inner slot takes its outer slot's latest output
in every case. -/
def setpointAt (s : State) (l : Lane) (n : Nat) (tk : Time) : F64 × Bool :=
  let held := (slotSt s l n).w
  if (srcW s n).cls = 0 then (held, false)
  else if (srcW s n).cls = 3 then
    if modeSl s (driveLane s) (srcW s n).index = 0 then (held, true)
    else match loopReg s (srcW s n).index with
      | some o => (o.u, false)
      | none => (held, true)
  else match srcValue s l (srcW s n) tk with
    | some (v, _) => (v, false)
    | none => (held, true)

/-! The laws (R262-R264, R269). -/

/-- What a sample reads: y, w, f with whether a feed-forward is configured, and the first inner slot's held setpoint where the
slot is to track. -/
structure LoopIn where
  y : F64
  w : F64
  f : Option F64
  sp : Bool
  deriving DecidableEq, Repr

/-- Result of a law: the slot with its new states, the integral before its limits, the terms P, D, F and e, and the flags hi, lo,
rlim. -/
structure LoopRes where
  v : LoopSt
  raw : F64
  e : F64
  p : F64
  d : F64
  f : F64
  hi : Bool
  lo : Bool
  rlim : Bool
  deriving DecidableEq, Repr

/-- Control error: σ(w − y). -/
def errOf (rev : Bool) (w y : F64) : F64 := let x := F64.sub w y; if rev then F64.neg x else x

/-- Whether a value is positive, negative. -/
def pos (x : F64) : Bool := F64.lt 0#64 x
def negv (x : F64) : Bool := F64.lt x 0#64

/-- Sign of a number: 1, −1, or 0 where it has none. -/
def sgnOf (x : F64) : Int := if pos x then 1 else if negv x then -1 else 0

/-- The first of two signs that is not 0. -/
def sgnOr (a b : Int) : Int := if a = 0 then b else a

/-- Sign of c·B of a state-space slot: the way an error moves the output of the next sample. -/
def cB (s : State) (n b : Nat) : Int :=
  let c := coef s n b
  sgnOf (F64.add (F64.mul (c 10) (c 8)) (F64.mul (c 11) (c 9)))

/-- The way in which the advance of a slot's integrator or state by a positive error moves its output: that of Ki, or of c·B
(log entry 70). -/
def advSign (s : State) (l : Lane) (n : Nat) : Int := if lawOf s n = 1 then 1 else cB s n (bankSl s l n)

/-- The way in which a rising setpoint moves a slot's pre-limit output: that of Kp, else of Kd, else of Ki, or that of d, else of
c·B, turned by rev (log entry 70). -/
def spSign (s : State) (l : Lane) (n : Nat) : Int :=
  let b := bankSl s l n
  let c := coef s n b
  let d := if lawOf s n = 1 then sgnOr (sgnOf (c 4)) (sgnOr (if loopFlag s n 1 then 0 else sgnOf (c 6)) (sgnOf (c 5)))
    else sgnOr (sgnOf (c 12)) (cB s n b)
  if loopFlag s n 0 then -d else d

/-- Whether an inner slot forbids the advance of its outer slot by an error (R266): its limit in force and the direction its
pre-limit output would move in. -/
def innerBlocks (s : State) (l : Lane) (n : Nat) (e : F64) : Bool :=
  (innersOf s n).any (fun k =>
    let dir := sgnOf e * advSign s l n * spSign s l k
    let up := dir == 1
    let dn := dir == -1
    (getB s (Reg.LPE_SLn_STAT_hi k) l && up) || (getB s (Reg.LPE_SLn_STAT_lo k) l && dn))

/-- Limits and rate (R262): limited value, and whether the rate limit changed it. -/
def limitRate (lo hi rate ts uPrev v : F64) : F64 × Bool :=
  let u0 := F64.clamp lo hi v
  let step := F64.mul rate ts
  let u1 := F64.clamp (F64.sub uPrev step) (F64.add uPrev step) u0
  (u1, !F64.eq u1 u0)

/-- States preset so that the output equals a reference (R269): for PID the integral, for a state-space section the state; and
whether the section can reach it. -/
def presetSlot (s : State) (n b : Nat) (x : LoopSt) (i : LoopIn) (uref : F64) : LoopSt × Bool :=
  let c := coef s n b
  let e := errOf (loopFlag s n 0) i.w i.y
  let ff := match i.f with
    | some f => F64.mul (c 3) f
    | none => 0#64
  let y1 := { x with dPrev := 0#64, ePrev := e, yPrev := i.y }
  if lawOf s n = 1 then ({ y1 with i := F64.sub (F64.sub uref (F64.mul (c 4) e)) ff }, true)
  else
    let g := F64.sub (F64.sub uref (F64.mul (c 12) e)) ff
    let q := F64.add (F64.mul (c 10) (c 10)) (F64.mul (c 11) (c 11))
    if F64.isZero (c 10) && F64.isZero (c 11) then
      ({ y1 with x1 := 0#64, x2 := 0#64 }, F64.eq g 0#64)
    else ({ y1 with x1 := F64.div (F64.mul (c 10) g) q, x2 := F64.div (F64.mul (c 11) g) q }, true)

/-- A PID update (R262); `fix` gives the pre-limit output of a preset sample (R269). -/
def pidStep (s : State) (l : Lane) (n b : Nat) (x : LoopSt) (i : LoopIn) (fix : Option F64) : LoopRes :=
  let c := coef s n b
  let ts := tsSec s n
  let e := errOf (loopFlag s n 0) i.w i.y
  let p := F64.mul (c 4) e
  let dlt := if loopFlag s n 1 then
      (let z := F64.sub i.y x.yPrev; if loopFlag s n 0 then z else F64.neg z)
    else F64.sub e x.ePrev
  let tt := F64.add (c 7) ts
  let d := F64.add (F64.mul (F64.div (c 7) tt) x.dPrev) (F64.mul (F64.div (c 6) tt) dlt)
  let ff := match i.f with
    | some f => F64.mul (c 3) f
    | none => 0#64
  let v := fix.getD (F64.add (F64.add (F64.add p x.i) d) ff)
  let r := limitRate (c 0) (c 1) (c 2) ts x.u v
  let u := r.1
  let adv := F64.add x.i (F64.mul (F64.mul (c 5) ts) e)
  let further := (F64.lt u v && pos e) || (F64.lt v u && negv e)
  let i1 := if innerBlocks s l n e then x.i
    else if loopFlag s n 2 then (if !F64.eq u v && further then x.i else adv)
    else F64.add adv (F64.mul (F64.div ts (c 8)) (F64.sub u v))
  ⟨{ x with i := F64.clamp (c 0) (c 1) i1, dPrev := d, ePrev := e, yPrev := i.y, u := u, w := i.w, v := v, lastY := i.y },
   i1, e, p, d, ff, F64.lt (c 1) v, F64.lt v (c 0), r.2⟩

/-- A state-space update (R263). -/
def ssStep (s : State) (l : Lane) (n b : Nat) (x : LoopSt) (i : LoopIn) (fix : Option F64) : LoopRes :=
  let c := coef s n b
  let e := errOf (loopFlag s n 0) i.w i.y
  let ff := match i.f with
    | some f => F64.mul (c 3) f
    | none => 0#64
  let v := fix.getD
    (F64.add (F64.add (F64.add (F64.mul (c 10) x.x1) (F64.mul (c 11) x.x2)) (F64.mul (c 12) e)) ff)
  let r := limitRate (c 0) (c 1) (c 2) (tsSec s n) x.u v
  let hold := !F64.eq r.1 v || innerBlocks s l n e
  let nx (p q w : Nat) : F64 := F64.add (F64.add (F64.mul (c p) x.x1) (F64.mul (c q) x.x2)) (F64.mul (c w) e)
  ⟨{ x with x1 := if hold then x.x1 else nx 4 5 8, x2 := if hold then x.x2 else nx 6 7 9, ePrev := e, yPrev := i.y, u := r.1,
            w := i.w, v := v, lastY := i.y },
   0#64, e, 0#64, 0#64, ff, F64.lt (c 1) v, F64.lt v (c 0), r.2⟩

/-- The law of a slot. -/
def lawStep (s : State) (l : Lane) (n b : Nat) (x : LoopSt) (i : LoopIn) (fix : Option F64) : LoopRes :=
  if lawOf s n = 1 then pidStep s l n b x i fix else ssStep s l n b x i fix

/-- A value that is not finite or of magnitude at least 2^1001 (R264). -/
def tooBig (x : F64) : Bool := decide (2024 ≤ F64.expo x)

/-- Whether a result holds such a value. -/
def badRes (r : LoopRes) : Bool :=
  tooBig r.e || tooBig r.p || tooBig r.d || tooBig r.f || tooBig r.v.v || tooBig r.v.u || tooBig r.v.i || tooBig r.raw || tooBig r.v.x1 || tooBig r.v.x2 || tooBig r.v.dPrev || tooBig r.v.ePrev

/-! Modes (R266-R271). -/

/-- Show the flags of a sample. -/
def showFlags (l : Lane) (n : Nat) (hi lo rlim spst : Bool) (s : State) : State :=
  setB (Reg.LPE_SLn_STAT_hi n) hi l (setB (Reg.LPE_SLn_STAT_lo n) lo l
    (setB (Reg.LPE_SLn_STAT_rlim n) rlim l (setB (Reg.LPE_SLn_STAT_spst n) spst l s)))

/-- Enter HOLD (R271): cause 1 y, 2 f, 3 a non-finite value. -/
def enterHold (l : Lane) (n cause : Nat) (s : State) : State :=
  let x := slotSt s l n
  raise (lpeSrc l) Ev.LPE_HOLD (n + 2 ^ 8 * cause)
    (when (cause == 3) (raise (lpeSrc l) Ev.LPE_NONFIN n)
      (incF Reg.LPE_CNT_hold l (setB (Reg.LPE_SLn_STAT_nonf n) (cause == 3) l
        (setSlot l n { x with prevMode := modeSl s l n, from' := 4 } (setF (Reg.LPE_SLn_STAT_mode n) 4 l s)))))

/-- The terms of a sample for the trace; e, P, D, F are 0 where the law was not computed. -/
structure Terms where
  e : F64 := 0#64
  p : F64 := 0#64
  d : F64 := 0#64
  f : F64 := 0#64
  deriving DecidableEq, Repr

/-- A law sample in AUTO or TRACK (R262-R271): preset first where one is due, HOLD on a non-finite value with the states of the
previous sample. `back` marks the return from HOLD. -/
def autoSample (l : Lane) (n : Nat) (i : LoopIn) (track : Option F64) (back : Bool) (s : State) : Terms × State :=
  let x := slotSt s l n
  let b := bankSl s l n
  let c := coef s n b
  let uref : Option F64 := match track with
    | some h => some h
    | none => if x.from' = 2 then none else if x.from' ≤ 1 then some x.man else some x.u
  let pre := uref.map (presetSlot s n b x i)
  let fix := match uref, pre with
    | some r, some (_, true) => some r
    | _, _ => none
  let r0 := lawStep s l n b ((pre.map (·.1)).getD x) i fix
  let r : LoopRes := match track, uref with
    | some _, some h => { r0 with v := { r0.v with u := F64.clamp (c 0) (c 1) h, i := ((pre.map (·.1)).getD x).i,
                                                   x1 := ((pre.map (·.1)).getD x).x1, x2 := ((pre.map (·.1)).getD x).x2 },
                                  rlim := false }
    | _, _ => r0
  let m := if track.isSome then 3 else 2
  if badRes r then (if back then ({}, s) else ({}, enterHold l n 3 s))
  else
    let bump := match track, uref with
      | none, some h => !F64.le (c 0) h || !F64.le h (c 1) || fix.isNone
      | _, _ => false
    let s1 := setSlot l n { r.v with from' := m } (setF (Reg.LPE_SLn_STAT_mode n) m l s)
    let s2 := when bump (raise (lpeSrc l) Ev.LPE_BUMP n) (showFlags l n r.hi r.lo r.rlim i.sp s1)
    (⟨r.e, r.p, r.d, r.f⟩, when back (raise (lpeSrc l) Ev.LPE_HOLDEND n) s2)

/-- A sample in MAN (R267): manual output limited, states preset while y is usable. -/
def manSample (l : Lane) (n : Nat) (y : Option F64) (i : LoopIn) (s : State) : Terms × State :=
  let x := slotSt s l n
  let b := bankSl s l n
  let c := coef s n b
  let x1 := match y with
    | some v => let p := (presetSlot s n b x i x.man).1
                { p with w := if loopFlag s n 3 then v else x.w, lastY := v }
    | none => x
  let s1 := setSlot l n { x1 with u := F64.clamp (c 0) (c 1) x.man, v := x.man, from' := 1 } s
  ({ e := x1.ePrev }, showFlags l n (F64.lt (c 1) x.man) (F64.lt x.man (c 0)) false i.sp s1)

/-- The inner slot that makes a slot TRACK (R266): the first that is in MAN, TRACK or HOLD; its held setpoint. -/
def trackRef (s : State) (l : Lane) (n : Nat) : Option F64 :=
  ((innersOf s n).find? (fun k => let m := modeSl s l k; m == 1 || m == 3 || m == 4)).map (fun k => (slotSt s l k).w)

/-- A sample computed by its mode (R262-R272). -/
def loopCompute (l : Lane) (n : Nat) (tk : Time) (s : State) : Terms × State :=
  let w := setpointAt s l n tk
  let y := srcFresh s l n (srcY s n) tk
  let fOn := (srcF s n).cls != 0
  let f := srcFresh s l n (srcF s n) tk
  let i : LoopIn := ⟨y.getD 0#64, w.1, if fOn then some (f.getD 0#64) else none, w.2⟩
  match modeSl s l n with
  | 0 => ({}, setSlot l n { slotSt s l n with from' := 0, w := if loopFlag s n 3 then y.getD (slotSt s l n).w else (slotSt s l n).w } s)
  | 1 => manSample l n y i s
  | 4 =>
    let s1 := setSlot l n { slotSt s l n with from' := 4, w := if loopFlag s n 3 then y.getD (slotSt s l n).w else (slotSt s l n).w } s
    if y.isNone || (fOn && f.isNone) then ({}, s1) else autoSample l n i (trackRef s l n) true s1
  | _ =>
    if y.isNone then ({}, enterHold l n 1 s)
    else if fOn && f.isNone then ({}, enterHold l n 2 s)
    else autoSample l n i (trackRef s l n) false s

/-! Commands (R268, R270). -/

/-- The persistent copy of a slot's mode (R280): the mode last ordered (log entry 69). -/
def keepMode (n m : Nat) (s : State) : State := { s with cfg := { s.cfg with slModes := Sparse.set (fun _ => 0) s.cfg.slModes n m } }

/-- A loop command takes effect in a lane. A slot whose law has been turned off stays OFF (log entry 68). -/
def applyLoop (l : Lane) (n : Nat) (c : LoopCmd) (s : State) : State :=
  let x := slotSt s l n
  match c with
  | .mode m =>
    let m := if lawOf s n = 0 then 0 else m
    let s1 := setF (Reg.LPE_SLn_STAT_mode n) m l s
    showLpe l (setSlot l n { x with prevMode := 2 } (when (isActive s l) (keepMode n m) s1))
  | .man v => setSlot l n { x with man := v } s
  | .sp v => setSlot l n { x with w := v } s
  | .bank b =>
    let rebump := loopFlag s n 4 && lawOf s n == 1 && x.from' == 2
    raise (lpeSrc l) Ev.LPE_SWAP (n + 2 ^ 8 * b)
      (setSlot l n { x with from' := if rebump then 3 else x.from' } (setF (Reg.LPE_SLn_STAT_bank n) b l s))

/-- The loop orders of an authority state on a slot that are due at a sample instant, in the order of acceptance. -/
def dueLoops (u : Auth) (n : Nat) (tk : Time) : List (PendOrd × LoopCmd) :=
  u.orders.filterMap (fun o => match o.val with
    | .loop k c => if k = n && atOrAfter tk o.earliest then some (o, c) else none
    | _ => none)

/-- Whether a slot has a command waiting. -/
def loopWaits (u : Auth) (n : Nat) : Bool := u.orders.any (fun o => match o.val with
  | .loop k _ => k == n
  | _ => false)

/-- Loop commands due at a sample (R268): the Active lane applies them and they have taken effect; the Standby applies its own
copies. -/
def takeLoops (l : Lane) (n : Nat) (tk : Time) (s : State) : State :=
  if isActive s l then
    let due := dueLoops s.auth n tk
    if due.isEmpty then s
    else
      let s1 := forEach (fun d s => applyLoop l n d.2 s) due s
      let s2 := authChange (fun u => { u with orders := u.orders.filter (fun o => !due.any (fun d => d.1.tkt == o.tkt)) }) s1
      sweep (setB (Reg.LPE_SLn_STAT_pend n) (loopWaits s2.auth n) l (forEach (fun d s => effected d.1.tkt tk s) due s2))
  else
    let due := (s.lane l).lpe.cmds.filter (fun c => c.2.1 == n && atOrAfter tk c.2.2.2)
    let s1 := forEach (fun (d : Nat × Nat × LoopCmd × Time) s => applyLoop l n d.2.2.1 s) due s
    let s2 := onLpe l (fun p => { p with cmds := p.cmds.filter (fun c => !due.any (fun d => d.1 == c.1)) }) s1
    if due.isEmpty then s else setB (Reg.LPE_SLn_STAT_pend n) ((s2.lane l).lpe.cmds.any (fun c => c.2.1 == n)) l s2

/-- A Standby adopts the loop commands of an authority state (R268, R291): new ones wait for their samples; one that is gone
before its instant was dropped. -/
def adoptLoops (l : Lane) (u : Auth) (s : State) : State :=
  let cs := u.orders.filterMap (fun o => match o.val with
    | .loop n c => some (o.tkt, n, c, o.earliest)
    | _ => none)
  let old := (s.lane l).lpe.cmds.filter (fun c => cs.any (fun d => d.1 == c.1) || atOrAfter s.now c.2.2.2)
  let new := cs.filter (fun c => !(s.lane l).lpe.cmds.any (fun d => d.1 == c.1) && !s.authMir.orders.any (fun o => o.tkt == c.1))
  forEach (fun (c : Nat × Nat × LoopCmd × Time) s => setF (Reg.LPE_SLn_STAT_pend c.2.1) 1 l s) new
    (onLpe l (fun p => { p with cmds := old ++ new }) s)

/-- Record a rejection (R280). -/
def loopErr (l : Lane) (n err : Nat) (s : State) : State := setF Reg.LPE_ERR_slot n l (setF Reg.LPE_ERR_err err l s)

/-- Place a loop command (R268): due 1 ms after acceptance. -/
def placeLoop (info : OrdInfo) (n : Nat) (c : LoopCmd) (s : State) : State × Reply :=
  match active s with
  | none => (s, .code Code.STATE)
  | some l => placeOrder (some info) info.station info.tAcc (.loop n c) (plus info.tAcc ms) (setF (Reg.LPE_SLn_STAT_pend n) 1 l) s

/-- LOOP_MODE's operation (R255, R268, R374). -/
def doLoopMode (o : Order) (info : OrdInfo) (s : State) : State × Reply :=
  let n := bodyN o 0 2
  let m := bodyN o 2 2
  let l := timeLane s
  if 256 ≤ n || 2 < m then (s, .code Code.RANGE)
  else if m ≠ 0 && lawOf s n = 0 then (loopErr l n 5 s, .codeD Code.ERR 5)
  else if m ≠ 0 && modeSl s l n = 0 && !loadOk s l (some n) then (loopErr l n 1 s, .codeD Code.ERR 1)
  else placeLoop info n (.mode m) s

/-- LOOP_MODE (R268, R374). -/
def execLoopMode (t : Time) (o : Order) (s : State) : Host.Outcome State Fault Refusal :=
  run t s (serve o 1 5 [(0, 64)] [(0, 4, 4)] false (doLoopMode o))

/-- A loop order that sets a value. -/
def doLoopVal (o : Order) (mk : F64 → LoopCmd) (info : OrdInfo) (s : State) : State × Reply :=
  if 256 ≤ bodyN o 0 4 || !finite (bodyF o 8) then (s, .code Code.RANGE) else placeLoop info (bodyN o 0 4) (mk (bodyF o 8)) s

/-- LOOP_MAN (R268, R374). -/
def execLoopMan (t : Time) (o : Order) (s : State) : Host.Outcome State Fault Refusal :=
  run t s (serve o 1 6 [(0, 192)] [(0, 4, 4), (8, 16, 8)] false (doLoopVal o .man))

/-- LOOP_SP (R268, R374). -/
def execLoopSp (t : Time) (o : Order) (s : State) : Host.Outcome State Fault Refusal :=
  run t s (serve o 1 7 [(0, 192)] [(0, 4, 4), (8, 16, 8)] false (doLoopVal o .sp))

/-- LOOP_BANK's operation (R268, R270). -/
def doLoopBank (o : Order) (info : OrdInfo) (s : State) : State × Reply :=
  if 256 ≤ bodyN o 0 2 || 1 < bodyN o 2 2 then (s, .code Code.RANGE) else placeLoop info (bodyN o 0 2) (.bank (bodyN o 2 2)) s

/-- LOOP_BANK (R268, R374). -/
def execLoopBank (t : Time) (o : Order) (s : State) : Host.Outcome State Fault Refusal :=
  run t s (serve o 1 8 [(0, 64)] [(0, 4, 4)] false (doLoopBank o))

/-! Trace capture (R278, R279). -/

/-- Node of a slot (R278). -/
def traceNode (s : State) (l : Lane) (n : Nat) (q : Terms) (dly : Nat) (node : Nat) : F32 :=
  let x := slotSt s l n
  let g (f : Fld) : Nat := getF s f l
  let m := modeSl s l n
  let fl := g (Reg.LPE_SLn_STAT_hi n) + 2 * g (Reg.LPE_SLn_STAT_lo n) + 4 * g (Reg.LPE_SLn_STAT_rlim n) + 8 * b2n (m == 4)
    + 16 * b2n (m == 1) + 32 * b2n (m == 3) + 64 * g (Reg.LPE_SLn_STAT_spst n) + 128 * bankSl s l n
  match node with
  | 0 => F64.to32 x.w
  | 1 => F64.to32 x.lastY
  | 2 => F64.to32 q.e
  | 3 => F64.to32 q.p
  | 4 => F64.to32 x.i
  | 5 => F64.to32 q.d
  | 6 => F64.to32 q.f
  | 7 => F64.to32 x.v
  | 8 => F64.to32 x.u
  | 9 => BitVec.ofNat 32 fl
  | 10 => F64.to32 x.x1
  | 11 => F64.to32 x.x2
  | _ => F64.to32 (F64.ratio dly 1000)

/-- State of the capture: 0 IDLE, 1 ARMED, 2 TRIGGERED, 3 DONE. -/
def trcState (s : State) (l : Lane) : Nat := getF s Reg.LPE_TRC_STAT_state l

/-- Change the trace. -/
def onTrc (l : Lane) (f : TraceSt → TraceSt) : State → State := onLpe l (fun p => { p with trace := f p.trace })

/-- The enabled channels of a lane. -/
def trcChans (s : State) (l : Lane) : List Nat := (List.range 8).filter (fun c => getB s (Reg.LPE_TRCn_CFG_en c) l)

/-- Samples a channel holds. -/
def trcHeld (s : State) (l : Lane) (c : Nat) : List (Time × F32) := (alGet (s.lane l).lpe.trace.chans c).getD []

/-- Show the count: the least of the enabled channels. -/
def showTrc (l : Lane) (s : State) : State :=
  let ns := (trcChans s l).map (fun c => (trcHeld s l c).length)
  setF Reg.LPE_TRC_STAT_count (match ns with | [] => 0 | x :: xs => xs.foldl min x) l s

/-- Header of a channel in a trace record (R380). -/
def trcHeader (s : State) (l : Lane) (c : Nat) : List Byte :=
  let h := trcHeld s l c
  if getB s (Reg.LPE_TRCn_CFG_en c) l then
    leBytes 2 (getF s (Reg.LPE_TRCn_CFG_slot c) l) ++ leBytes 1 (getF s (Reg.LPE_TRCn_CFG_node c) l)
      ++ leBytes 1 (getF s (Reg.LPE_TRCn_CFG_dec c) l) ++ leBytes 4 h.length
      ++ leBytes 8 ((h.getLast?.map (·.1)).getD 0#64).toNat ++ List.replicate 16 0#8
  else List.replicate 32 0#8

/-- The capture ends DONE and is written to the trace ring (R279). -/
def trcDone (l : Lane) (s : State) : State :=
  let data := ((trcChans s l).map (fun c => ((trcHeld s l c).reverse.map (fun x => leBytes 4 x.2.toNat)).flatten)).flatten
  streamRec l 0x15 0 s.now (((List.range 8).map (trcHeader s l)).flatten ++ data) (setF Reg.LPE_TRC_STAT_state 3 l s)

/-- Whether the trigger of an armed capture occurs at a sample of its slot. -/
def trcTrips (s : State) (l : Lane) (n : Nat) (node : F64) (sat : Bool × Bool) : Bool :=
  let tr := (s.lane l).lpe.trace
  let lvl := F64.of32 (BitVec.ofNat 32 (rdK s (Reg.LPE_TRC_LVL + laneSpan * (1 + l.idx))).toNat)
  match getF s Reg.LPE_TRC_TRIG_kind l with
  | 0 => true
  | 1 => (tr.lastNode.map (fun p => F64.lt p lvl && F64.le lvl node)).getD false
  | 2 => (tr.lastNode.map (fun p => F64.lt lvl p && F64.le node lvl)).getD false
  | 3 => (tr.lastSat.map (fun p => (!p.1 && sat.1) || (!p.2 && sat.2))).getD false
  | 4 => (tr.lastMode.map (fun p => p != modeSl s l n)).getD false
  | _ => false

/-- The trigger of an armed capture at a sample of its slot (R279). -/
def trcTrigger (l : Lane) (n : Nat) (q : Terms) (dly : Nat) (s : State) : State :=
  if trcState s l == 1 && getF s Reg.LPE_TRC_TRIG_slot l == n then
    let node := F64.of32 (traceNode s l n q dly (getF s Reg.LPE_TRC_TRIG_node l))
    let sat := (getB s (Reg.LPE_SLn_STAT_hi n) l, getB s (Reg.LPE_SLn_STAT_lo n) l)
    let s2 := onTrc l (fun t => { t with lastNode := some node, lastSat := some sat, lastMode := some (modeSl s l n) }) s
    if trcTrips s l n node sat then setF Reg.LPE_TRC_STAT_state 2 l s2 else s2
  else s

/-- A sample of a slot passes the trace: trigger first, then the channels of the slot take every dec-th sample. -/
def trcSample (l : Lane) (n : Nat) (tk : Time) (q : Terms) (dly : Nat) (s : State) : State :=
  let st := trcState s l
  if !(st == 1 || st == 2) then s
  else
    let s1 := trcTrigger l n q dly s
    let s2 := forEach (fun c s =>
      if getF s (Reg.LPE_TRCn_CFG_slot c) l ≠ n then s
      else
        let k := (alGet (s.lane l).lpe.trace.counts c).getD 0
        let dec := getF s (Reg.LPE_TRCn_CFG_dec c) l + 1
        let s3 := onTrc l (fun t => { t with counts := alSet t.counts c ((k + 1) % dec) }) s
        if k ≠ 0 then s3
        else
          let held := trcHeld s l c
          let all := (tk, traceNode s l n q dly (getF s (Reg.LPE_TRCn_CFG_node c) l)) :: held
          let kept := if trcState s l = 1 then all.take (getF s Reg.LPE_TRC_TRIG_pre l)
            else if held.length < 16384 then all else held
          onTrc l (fun t => { t with chans := alSet t.chans c kept }) s3) (trcChans s1 l) s1
    let s3 := showTrc l s2
    if trcState s3 l = 2 && (trcChans s3 l).all (fun c => decide (16384 ≤ (trcHeld s3 l c).length)) && !(trcChans s3 l).isEmpty then
      trcDone l s3
    else s3

/-- Arm the enabled channels (R279): a capture armed or triggered restarts. -/
def trcArm (l : Lane) (s : State) : State :=
  showTrc l (setF Reg.LPE_TRC_STAT_state (if getF s Reg.LPE_TRC_TRIG_kind l = 0 then 2 else 1) l
    (onTrc l (fun _ => {}) s))

/-- End a capture without writing it (R280). -/
def trcAbort (l : Lane) (s : State) : State :=
  let st := trcState s l
  if st = 1 || st = 2 then showTrc l (setF Reg.LPE_TRC_STAT_state 0 l (onTrc l (fun _ => {}) s)) else s

/-! Samples. -/

/-- The mirrored state of a slot (R276): that after its last sample computed. -/
def loopMir (s : State) (l : Lane) (n : Nat) : LoopMir :=
  let x := slotSt s l n
  ⟨n, x.done.getD 0#64, x.i, x.x1, x.x2, x.dPrev, x.ePrev, x.yPrev, x.u, modeSl s l n, bankSl s l n, x.w, x.man⟩

/-- Whether the engine of a lane computes (R272, R277): out of Lay-up, and after a lane reset once mirrored state has come. -/
def lpeRuns (s : State) (l : Lane) : Bool :=
  modeNow s != .layup && (isActive s l || (s.lane l).mir.loopsIn)

/-- Whether an instant is one of a slot's samples (R254). A slot without a record has those of the shortest period (log entry 68). -/
def onGrid (s : State) (n : Nat) (tk : Time) : Bool :=
  let p := max 1 (periodOf s n) * 100000
  let ph := recN s n 8 4 * 100000
  decide (p ≠ 0) && decide ((tk.toNat + p - ph % p) % p = 0)

/-- Levels of the chain above a slot; none where it loops. -/
def chainUp (s : State) : Nat → Nat → Option Nat
  | 0, _ => none
  | k + 1, n => match outerOf s n with
    | some m => (chainUp s k m).map (· + 1)
    | none => some 1

/-- Whether a slot of a lane has a sample at an instant that is neither computed nor dropped yet (R254, R272). -/
def sampleDue (s : State) (l : Lane) (n : Nat) (tk : Time) : Bool :=
  decide (n < 256) && lpeRuns s l && onGrid s n tk && atOrAfter s.now tk && atOrAfter tk (s.lane l).lpe.start
    && (match (slotSt s l n).inst with
        | some x => atOrAfter tk x && tk != x
        | none => true)

/-- The place of a sample in the order of R256: instant, chain level, period, slot. -/
def orderKey (s : State) (n : Nat) (tk : Time) : Time × Nat × Nat × Nat := (tk, (chainUp s 6 n).getD 6, periodOf s n, n)

/-- Whether one place comes before another. -/
def keyBefore (a b : Time × Nat × Nat × Nat) : Bool :=
  if a.1 ≠ b.1 then atOrAfter b.1 a.1
  else decide (a.2.1 < b.2.1) || (a.2.1 == b.2.1
    && (decide (a.2.2.1 < b.2.2.1) || (a.2.2.1 == b.2.2.1 && decide (a.2.2.2 < b.2.2.2))))

/-- Whether a sample comes after every sample the lane has computed (R256). -/
def inOrder (s : State) (l : Lane) (n : Nat) (tk : Time) : Bool :=
  match (s.lane l).lpe.last with
  | some k => keyBefore k (orderKey s n tk)
  | none => true

/-- The outer slots of a slot, outermost first, that have a sample at an instant (R256, R265). -/
def outersAt (s : State) (l : Lane) (tk : Time) : Nat → Nat → List Nat
  | 0, _ => []
  | k + 1, n => match outerOf s n with
    | some m => outersAt s l tk k m ++ (if sampleDue s l m tk && lawOf s m != 0 && modeSl s l m != 0 then [m] else [])
    | none => []

/-- Write a computed sample's output register, and what else it leaves (R257, R273, R276). -/
def loopWrite (l : Lane) (n : Nat) (tk : Time) (q : Terms) (s : State) : State :=
  let x := slotSt s l n
  let dly := since s.now tk
  let sat := getB s (Reg.LPE_SLn_STAT_hi n) l || getB s (Reg.LPE_SLn_STAT_lo n) l || getB s (Reg.LPE_SLn_STAT_rlim n) l
  let h := (loopMir s l n :: x.hist).filter (fun m => decide (since tk m.inst ≤ 2 * ms))
  let s1 := onLpe l (fun p => { p with last := some (orderKey s n tk) })
    (setSlot l n { x with hist := h, outs := trimOld LoopOut.inst tk (⟨tk, x.w, x.lastY, x.u, sat⟩ :: x.outs) } s)
  let d10 := min (dly / 100) 0xFFFF
  let s2 := setF (Reg.LPE_SLn_OUT_u n) (F64.to32 x.u).toNat l
    (setF (Reg.LPE_SLn_DLY_last n) d10 l
      (setF (Reg.LPE_SLn_DLY_max n) (max d10 (getF s1 (Reg.LPE_SLn_DLY_max n) l)) l
        (setB (Reg.LPE_SLn_STAT_shadow n) (!isActive s1 l) l s1)))
  let s3 := trcSample l n tk q dly s2
  if driveLane s3 = l then loopTx (loopOut s3) n s3.mbc.objs s3 else s3

/-- A sample of a slot that is OFF: a change to OFF is a change of mode for the trace (R279). -/
def offSample (l : Lane) (n : Nat) (s : State) : State := when (trcState s l == 1) (trcTrigger l n {} 0) s

/-- One sample of a slot (R254-R274): its orders first; one not started before the slot's next instant is dropped and counted, and
one out of the order of R256 is not computed (log entry 71). -/
def loopOne (l : Lane) (tk : Time) (n : Nat) (s : State) : State :=
  let s0 := takeLoops l n tk s
  let law := lawOf s0 n
  if law = 0 then s0
  else if periodOf s0 n * 100000 + 500 * law ≤ since s0.now tk then
    if modeSl s0 l n = 0 then s0
    else incF Reg.LPE_CNT_ovr l (incF (Reg.LPE_SLn_STAT_ovr n) l (setSlot l n { slotSt s0 l n with inst := some tk } s0))
  else if !inOrder s0 l n tk then s0
  else
    let r := loopCompute l n tk s0
    let s1 := setSlot l n { slotSt r.2 l n with inst := some tk, done := some tk } r.2
    if modeSl s1 l n = 0 then offSample l n s1 else loopWrite l n tk r.1 s1

/-- LOOP_SAMPLE (R254-R274): the sample of instant `tk`, written now; the samples of its outer slots at the same instant come before
it (R265). -/
def execLoopSample (t : Time) (l : Lane) (slot : Nat) (tk : Time) (s : State) : Host.Outcome State Fault Refusal :=
  runLane t l s (fun s =>
    if !sampleDue s l slot tk then s else loopOne l tk slot (forEach (loopOne l tk) (outersAt s l tk 4 slot) s))

/-! Lay-up (R272). -/

/-- The engine stops: a capture in progress ends with the samples taken. -/
def lpeStop (l : Lane) (s : State) : State :=
  let s1 := setF Reg.LPE_STAT_run 0 l s
  if trcState s1 l = 1 || trcState s1 l = 2 then trcDone l s1 else s1

/-- The engine starts at this instant: every AUTO slot goes through R269 with its last output. -/
def lpeStart (l : Lane) (s : State) : State :=
  showLpe l (setF Reg.LPE_STAT_run 1 l (onLpe l (fun p => { p with start := s.now, last := none })
    (forEach (fun n s => if modeSl s l n = 2 || modeSl s l n = 3 then setSlot l n { slotSt s l n with from' := 4 } s else s) allSlots s)))

/-- The loop engine as a start from stored records leaves it (R258): held setpoint and manual output of each slot. The output registers
are in NIO and stay (R273, R290). -/
def lpeInit (l : Lane) (s : State) : State :=
  let put (m : Sparse LoopSt) (r : Nat × List Byte) : Sparse LoopSt :=
    Sparse.set slotDef m r.1 { Sparse.get slotDef m r.1 with w := BitVec.ofNat 64 (leAt r.2 40 8), man := BitVec.ofNat 64 (leAt r.2 48 8) }
  onLpe l (fun p => { slots := s.cfg.loops.foldl put (Sparse.mapVals slotDef (fun _ x => { outs := x.outs }) p.slots) }) s

/-- The modes of a lane's slots at module reset (R11, R280): those of their persistent copy. -/
def modesInit (l : Lane) (s : State) : State :=
  forEach (fun n s => when (modeSl s l n != Sparse.get (fun _ => 0) s.cfg.slModes n)
    (setF (Reg.LPE_SLn_STAT_mode n) (Sparse.get (fun _ => 0) s.cfg.slModes n) l) s) allSlots s

/-! Mirror (R276). -/

/-- The last MTC multiple of 10 ms. -/
def mirAt (t : Time) : Time := t - BitVec.ofNat 64 (t.toNat % (10 * ms))

/-- What is mirrored of a slot for an instant (R276): the state after its last sample at or before it. -/
def loopMirAt (s : State) (l : Lane) (tm : Time) (n : Nat) : LoopMir :=
  let x := loopMir s l n
  match (slotSt s l n).hist.find? (fun h => atOrAfter tm h.inst) with
  | some h => if atOrAfter tm x.inst then x else { h with mode := x.mode, bank := x.bank, w := x.w, man := x.man }
  | none => x

/-- LOOP_MIRROR (R276, R312): for every MTC multiple of 10 ms the Active lane sends the state of every slot not OFF, also to a standby module,
once the samples of that instant are written (log entry 71). -/
def execLoopMirror (t : Time) (s : State) : Host.Outcome State Fault Refusal :=
  run t s (fun s =>
    match active s with
    | some l =>
      let tm := mirAt s.now
      if decide (since s.now tm ≤ 2 * ms) && (s.lane l).lpe.sentAt != some tm && ready s l then
        let it := MirItem.loops ((allSlots.filter (fun n => modeSl s l n != 0)).map (loopMirAt s l tm))
        onLpe l (fun p => { p with sentAt := some tm }) (sendModule it (sendItem it s))
      else s
    | none => s)

/-- The Standby's correction of one slot (R276): to each state is added the Active value minus its own at the same instant; older
than 2 ms, or without a sample of that instant, the states are replaced. Mode, bank, setpoint and manual output are copied. -/
def correctSlot (l : Lane) (m : LoopMir) (s : State) : State :=
  let x := slotSt s l m.slot
  let own := if since s.now m.inst ≤ 2 * ms then x.hist.find? (fun h => h.inst == m.inst) else none
  let y := match own with
    | some h =>
      let add (z a b : F64) : F64 := F64.add z (F64.sub a b)
      { x with i := add x.i m.i h.i, x1 := add x.x1 m.x1 h.x1, x2 := add x.x2 m.x2 h.x2, dPrev := add x.dPrev m.dPrev h.dPrev,
               ePrev := add x.ePrev m.ePrev h.ePrev, yPrev := add x.yPrev m.yPrev h.yPrev, u := add x.u m.u h.u }
    | none =>
      { x with i := m.i, x1 := m.x1, x2 := m.x2, dPrev := m.dPrev, ePrev := m.ePrev, yPrev := m.yPrev, u := m.u,
               inst := some (match x.inst with | some z => if atOrAfter z m.inst then z else m.inst | none => m.inst), done := some m.inst }
  let from1 := if m.mode = 2 && modeSl s l m.slot = 4 then 2 else y.from'
  setF (Reg.LPE_SLn_STAT_bank m.slot) m.bank l (setF (Reg.LPE_SLn_STAT_mode m.slot) m.mode l
    (setSlot l m.slot { y with w := m.w, man := m.man, from' := if m.mode = 2 && own.isNone then 2 else from1 } s))

/-- The Standby applies a mirrored loop item: a slot the item leaves out is OFF in the Active lane. -/
def correctLoops (l : Lane) (ms' : List LoopMir) (s : State) : State :=
  showLpe l (onLane l (fun a => { a with mir := { a.mir with loopsIn := true } })
    (forEach (fun n s => if ms'.any (fun m => m.slot == n) then s else setF (Reg.LPE_SLn_STAT_mode n) 0 l s) allSlots
      (forEach (correctSlot l) ms' s)))

/-! Configuration (R258-R261, R265). -/

/-- Whether a source is one slot `n` accepts (R259): class 3 names another slot. `sp` allows what a setpoint may take. -/
def srcOk (n : Nat) (r : SrcRef) (none' sp : Bool) : Bool :=
  match r.cls with
  | 0 => none'
  | 2 => within 0x10 0x19 r.sub && decide (r.index < 96)
  | 3 => r.sub == 2 && decide (r.index < 256) && r.index != n
  | 4 => r.sub == 0
  | 5 => sp && decide (r.sub ≤ 1)
  | 6 => decide (r.index < 512)
  | 7 => r.sub == 0 && decide (r.index < 192)
  | _ => false

/-- Whether every chain is at most 4 levels deep without a loop (R265). -/
def chainsOk (s : State) : Bool := allSlots.all (fun n => match chainUp s 6 n with
  | some k => decide (k ≤ 4)
  | none => false)

/-- Whether a record's own fields are in range (R258). -/
def recordOk (bs : List Byte) (n : Nat) : Bool :=
  bs.length == 64 && leAt bs 0 2 == n && decide (leAt bs 2 1 ≤ 2) && decide (leAt bs 3 1 < 32) && within 1 100000 (leAt bs 4 4)
    && decide (leAt bs 8 4 < leAt bs 4 4) && within 1 60000 (leAt bs 12 2) && leAt bs 14 2 == 0 && leAt bs 56 8 == 0
    && finite (BitVec.ofNat 64 (leAt bs 40 8)) && finite (BitVec.ofNat 64 (leAt bs 48 8))

/-- What a slot record's write answers (R258, R259, R265): err, or 0xFF for a field out of range, or the new state. -/
def putRecord (n : Nat) (bs : List Byte) (s : State) : Nat ⊕ State :=
  let l := timeLane s
  let r := srcAt bs
  if !recordOk bs n then .inl 0xFF
  else if modeSl s l n ≠ 0 then .inl 5
  else if leAt bs 2 1 ≠ 0 && !(srcOk n (r 16) false false && srcOk n (r 24) true true && srcOk n (r 32) true false) then .inl 3
  else
    let s1 := { s with cfg := { s.cfg with loops := Sparse.set recDef s.cfg.loops n bs } }
    if !chainsOk s1 then .inl 4
    else if startsSoon s n && !loadOk s1 l none then .inl 1
    else .inr (keepMode n 0 (bothLanes (fun k s =>
      setF (Reg.LPE_SLn_STAT_mode n) 0 k (setF (Reg.LPE_SLn_STAT_law n) (leAt bs 2 1) k
        (setSlot k n { w := BitVec.ofNat 64 (leAt bs 40 8), man := BitVec.ofNat 64 (leAt bs 48 8), u := (slotSt s k n).u, outs := (slotSt s k n).outs } s))) s1))

/-- Whether the words of a bank keep R261 for a slot. -/
def coefOk (s : State) (n : Nat) (ws : List F64) : Bool :=
  let w (i : Nat) : F64 := ws.getD i 0#64
  let pid := lawOf s n == 1
  let ts := tsSec s n
  let last := if pid then 8 else 12
  ws.length == 16
    && (List.range 16).all (fun i => F64.isFin (w i) || (i == 2 && F64.eq (w i) (F64.inf false)))
    && F64.lt (w 0) (w 1) && F64.lt 0#64 (w 2)
    && ((List.range 16).filter (fun i => decide (last < i))).all (fun i => w i == 0#64)
    && (!pid || (!negv (w 5) && !negv (w 6) && !negv (w 7)
      && !(pos (w 6) && F64.lt (F64.add (w 7) (w 7)) ts) && !(!loopFlag s n 2 && pos (w 5) && F64.lt (w 8) ts)))

/-- What a bank write answers (R261). -/
def putBank (n b : Nat) (bs : List Byte) (s : State) : Nat ⊕ State :=
  let ws := words64 bs
  if bs.length ≠ 128 then .inl 0xFF
  else if bankSl s (timeLane s) n = b then .inl 5
  else if !coefOk s n ws then .inl 2
  else .inr { s with cfg := { s.cfg with banks := Sparse.set coefDef s.cfg.banks (2 * n + b) ws } }

end Sys2Proof.Machine
end

