-- ==== Sys2Proof/Machine/Ptp.lean ====
section
/-!
DEFINITION. PTP on the eight Ethernet ports (R331-R335). Path delay, offset and the best master clock algorithm follow IEEE
1588-2019 as R331 and R334 name it (PRESUMED, log entry 17).
-/

namespace Sys2Proof.Machine

/-- Unlisted ports. -/
def ptpDef (_ : Nat) : PtpPort := {}

/-- A port's state in NIO. -/
def ptpPort (s : State) (n : Nat) : PtpPort := Sparse.get ptpDef s.ptp.ports n

/-- Replace a port's state. -/
def setPort (n : Nat) (p : PtpPort) (s : State) : State := { s with ptp := { s.ptp with ports := Sparse.set ptpDef s.ptp.ports n p } }

/-- The clockIdentity: EUI-64 of the module address (R334). -/
def clockId : BitVec 64 :=
  BitVec.ofNat 64 (Config.modMac.toNat / 2 ^ 24 * 2 ^ 40 + 0xFFFE * 2 ^ 24 + Config.modMac.toNat % 2 ^ 24)

/-- The port identity of port `n`: clockIdentity and portNumber n + 1. -/
def portId (n : Nat) : BitVec 80 := BitVec.ofNat 80 (clockId.toNat * 2 ^ 16 + n + 1)

/-- Whether a message belongs to a port's PTP instance: enabled, its domain and transport (R331). -/
def ptpTakes (s : State) (n dom : Nat) (udp : Bool) : Bool :=
  decide (n < 8) && getB s (Reg.TMB_PTPn_CFG_en n) && getF s (Reg.TMB_PTPn_CFG_dom n) == dom
    && getB s (Reg.TMB_PTPn_CFG_udp n) == udp

/-- Whether a port's profile measures path delay peer to peer (R331): profiles 1 and 2. -/
def ptpP2p (s : State) (n : Nat) : Bool := decide (getF s (Reg.TMB_PTPn_CFG_prof n) ≠ 0)

/-- A port's state code. -/
def ptpState (s : State) (n : Nat) : Nat := getF s (Reg.TMB_PTPn_STAT_pst n)

/-- The configured delay asymmetry of a port in ns (R332). -/
def ptpAsym (s : State) (n : Nat) : Int := sgn 32 (rdK s (Reg.TMB_PTPn_ASYM n)).toNat

/-- Message kinds on a port, as IEEE 1588-2019 numbers messageType. -/
def ptpKindSync : Nat := 0x0
def ptpKindDelayReq : Nat := 0x1
def ptpKindPdelayReq : Nat := 0x2
def ptpKindPdelayResp : Nat := 0x3
def ptpKindDelayResp : Nat := 0x9
def ptpKindAnnounce : Nat := 0xB
def ptpKindManagement : Nat := 0xD

/-- Send a message (R333, R334): only the Active lane's instance transmits, in the port's domain and transport; the seconds of a
timestamp carry 48 bits. -/
def ptpSend (n kind : Nat) (seq : BitVec 16) (ts corr : Int) (dat : List Nat) (s : State) : State :=
  when ((active s).isSome)
    (emit (.ptp n kind (getF s (Reg.TMB_PTPn_CFG_dom n)) (getB s (Reg.TMB_PTPn_CFG_udp n)) seq (ts % (2 ^ 48 * sec)) corr dat)) s

/-- Unlisted sequence counters. -/
def seqDef (_ : Nat) : BitVec 16 := 0#16

/-- The sequenceId of a port's next message of a kind, and the state with the counter advanced (R334: held in NIO). -/
def ptpSeq (n kind : Nat) (s : State) : BitVec 16 × State :=
  let q := Sparse.get seqDef s.ptp.seqs (16 * n + kind)
  (q, { s with ptp := { s.ptp with seqs := Sparse.set seqDef s.ptp.seqs (16 * n + kind) (q + 1#16) } })

/-- Set a port's path delay. -/
def setMpd (n : Nat) (d : Int) (s : State) : State :=
  setF2 (Reg.TMB_PTPn_STAT_mpd n) (min d.toNat 0xFFFFFF) (setPort n { ptpPort s n with mpd := d } s)

/-- Mean path delay in ns from twice the delay, the correctionFields in 2^-16 ns and the asymmetry (R332). -/
def pathDelay (twice corr asym : Int) : Int := (twice * 65536 - corr - asym * 65536) / 131072

/-- Foreign masters a port holds (log entry 17). -/
def foreignMax : Nat := 5

/-- The announce-receipt timeout of a port: three announce intervals, of 1 s in the power utility profile and 2 s in the default ones (log
entry 17). -/
def annTimeout (s : State) (n : Nat) : Nat := if getF s (Reg.TMB_PTPn_CFG_prof n) = 2 then 3 * sec else 6 * sec

/-- A port drops the foreign masters that have fallen silent. -/
def dropSilent (n : Nat) (s : State) : State :=
  let p := ptpPort s n
  setPort n { p with foreign := p.foreign.filter (fun f => decide (since s.now f.at' < annTimeout s n)) } s

/-- A data set as a list of numbers, compared from the left. -/
def annKey (a : PtpAnn) : List Nat := [a.prio1, a.cls, a.acc, a.var, a.prio2, a.gm.toNat, a.steps, a.src.toNat]

/-- Lexicographic order. -/
def lexLt : List Nat → List Nat → Bool
  | x :: xs, y :: ys => decide (x < y) || (decide (x = y) && lexLt xs ys)
  | [], _ :: _ => true
  | _, [] => false

/-- The better of two candidates, each a data set with its port. -/
def better (x y : Option (PtpAnn × Nat)) : Option (PtpAnn × Nat) :=
  match x, y with
  | some a, some b => if lexLt (annKey b.1) (annKey a.1) then some b else some a
  | some a, none => some a
  | none, y => y

/-- The best qualified foreign master of a port: two Announces seen; master-only ports have none (R331). -/
def erBest (s : State) (n : Nat) : Option PtpAnn :=
  if !getB s (Reg.TMB_PTPn_CFG_mo n) && getB s (Reg.TMB_PTPn_CFG_en n) then
    (((ptpPort s n).foreign.filter (fun f => decide (2 ≤ f.n))).foldl (fun b f => better b (some (f.ann, n))) none).map (·.1)
  else none

/-- A message comes from the master of a port. -/
def fromMaster (s : State) (n : Nat) (m : PtpMsg) : Bool := (erBest s n).map (·.src) == some m.src

/-- An observation from the port's last Sync, once its timestamp is known (R326, R332): θ is the origin time with corrections,
path delay and asymmetry, minus local time at the Sync's stamp. Each ready lane observes with its own local time (R325). -/
def ptpObserve (n : Nat) (s : State) : State :=
  let p := ptpPort s n
  match p.sync with
  | some (_, t2, ts, corr, false) =>
    if ptpState s n = 9 then
      readyLanes (fun l s => observe l true t2 (ts + corr / 65536 + ptpAsym s n + p.mpd - ltAt s l t2) s)
        (setPort n { p with sync := none } s)
    else s
  | _ => s

/-- PTP_SYNC (R332): stamped as it passes the connector; two-step Syncs wait for their Follow_Up. Taken from the port's master. -/
def execPtpSync (t : Time) (n : Nat) (m : PtpMsg) (s : State) : Host.Outcome State Fault Refusal :=
  run t s (fun s =>
    let p := ptpPort s n
    if ptpTakes s n m.dom m.udp && ptpState s n == 9 && fromMaster s n m then
      setPort n { p with sync := some (m.seq, s.now, m.ts, m.corr, m.twoStep) } s
    else s)

/-- PTP_FOLLOW_UP (R331): the origin timestamp of a two-step Sync. -/
def execPtpFollowUp (t : Time) (n : Nat) (m : PtpMsg) (s : State) : Host.Outcome State Fault Refusal :=
  run t s (fun s =>
    let p := ptpPort s n
    match p.sync with
    | some (q, t2, _, c, true) =>
      if ptpTakes s n m.dom m.udp && q == m.seq && fromMaster s n m then
        setPort n { p with sync := some (q, t2, m.ts, c + m.corr, false) } s
      else s
    | _ => s)

/-- PTP_DELAY_REQ (R331, R332): a MASTER port answers with the stamp of the request in local time. -/
def execPtpDelayReq (t : Time) (n : Nat) (m : PtpMsg) (s : State) : Host.Outcome State Fault Refusal :=
  run t s (fun s =>
    if ptpTakes s n m.dom m.udp && ptpState s n == 6 && !ptpP2p s n then
      ptpSend n ptpKindDelayResp m.seq (ltAt s (timeLane s) s.now) m.corr [m.src.toNat] s
    else s)

/-- PTP_DELAY_RESP (R331): path delay of the request-response mechanism, then an observation. -/
def execPtpDelayResp (t : Time) (n : Nat) (m : PtpMsg) (s : State) : Host.Outcome State Fault Refusal :=
  run t s (fun s =>
    let p := ptpPort s n
    match p.req, p.sync with
    | some (q, t3), some (_, t2, t1, c, false) =>
      if ptpTakes s n m.dom m.udp && ptpState s n == 9 && !ptpP2p s n && q == m.seq && m.req == portId n then
        let l := timeLane s
        let d := pathDelay (ltAt s l t2 - ltAt s l t3 + (m.ts - t1)) (c + m.corr) (ptpAsym s n)
        ptpObserve n (setMpd n d (setPort n { p with req := none } s))
      else s
    | _, _ => s)

/-- PTP_PDELAY_REQ (R333): a one-step Pdelay_Resp with the request's stamp; its correction carries the part of the stamp below 1 ns and
the turnaround time, which the spec does not give (log entry 17). -/
def execPtpPdelayReq (t : Time) (n : Nat) (m : PtpMsg) (s : State) : Host.Outcome State Fault Refusal :=
  run t s (fun s =>
    if ptpTakes s n m.dom m.udp && ptpP2p s n then
      ptpSend n ptpKindPdelayResp m.seq (ltAt s (timeLane s) s.now)
        (m.corr + ltSub s (timeLane s) s.now + (Config.openVal 17 s.now.toNat).toNat) [m.src.toNat] s
    else s)

/-- PTP_PDELAY_RESP (R331): a one-step response completes the measurement; a two-step one waits for its follow-up. -/
def execPtpPdelayResp (t : Time) (n : Nat) (m : PtpMsg) (s : State) : Host.Outcome State Fault Refusal :=
  run t s (fun s =>
    let p := ptpPort s n
    match p.req with
    | some (q, t1) =>
      if ptpTakes s n m.dom m.udp && ptpP2p s n && q == m.seq && m.req == portId n then
        let l := timeLane s
        if m.twoStep then setPort n { p with resp := some (m.seq, s.now, m.ts, m.corr) } s
        else
          let d := pathDelay (ltAt s l s.now - ltAt s l t1) m.corr (ptpAsym s n)
          ptpObserve n (setMpd n d (setPort n { p with req := none } s))
      else s
    | none => s)

/-- PTP_PDELAY_RESP_FOLLOW_UP (R331): completes a two-step measurement, then an observation. -/
def execPtpPdelayRespFollowUp (t : Time) (n : Nat) (m : PtpMsg) (s : State) : Host.Outcome State Fault Refusal :=
  run t s (fun s =>
    let p := ptpPort s n
    match p.req, p.resp with
    | some (q, t1), some (q', t4, t2, c) =>
      if ptpTakes s n m.dom m.udp && ptpP2p s n && q == m.seq && q' == m.seq && m.req == portId n then
        let l := timeLane s
        let d := pathDelay (ltAt s l t4 - ltAt s l t1 - (m.ts - t2)) (c + m.corr) (ptpAsym s n)
        ptpObserve n (setMpd n d (setPort n { p with req := none, resp := none } s))
      else s
    | _, _ => s)

/-! The best master clock algorithm (R334, R335). -/

/-- The clockClass and timeSource the module announces as grandmaster (R334): with a step refused above maxstep those of HOLDOVER (R349);
in SYNC on PTP the class of FREE (log entry 17). -/
def ownClass (s : State) : Nat × Nat :=
  let l := timeLane s
  if getB s Reg.TMB_STAT_big l then (7, 0xA0)
  else match getF s Reg.TMB_STAT_state l with
  | 1 => if getF s Reg.TMB_STAT_src l = 8 then (6, 0x20) else (248, 0xA0)
  | 2 => (7, 0xA0)
  | _ => (248, 0xA0)

/-- The module's own data set: priorities of configuration item 0x000B (R331); accuracy and variance are free. -/
def ownSet (s : State) : PtpAnn :=
  ⟨BitVec.ofNat 80 (clockId.toNat * 2 ^ 16), 0, false, clockId, s.cfg.prio1.toNat, (ownClass s).1,
    (Config.openVal 18 0).toNat % 256, (Config.openVal 18 1).toNat % 65536, s.cfg.prio2.toNat, 0, (ownClass s).2, none⟩

/-- The best foreign master over all ports. -/
def eBest (s : State) : Option (PtpAnn × Nat) :=
  [0, 1, 2, 3, 4, 5, 6, 7].foldl (fun b n => better b ((erBest s n).map (fun a => (a, n)))) none

/-- Whether a port still listens: it is new, has no foreign master, and its announce-receipt timeout has not passed. -/
def listens (s : State) (n : Nat) : Bool :=
  (ptpState s n == 1 || ptpState s n == 4) && (erBest s n).isNone && decide (since s.now (ptpPort s n).heard < annTimeout s n)

/-- The state the algorithm gives a port: 6 MASTER, 7 PASSIVE, 9 SLAVE, 3 DISABLED; 4 LISTENING before its timeout. -/
def bmcaState (s : State) (n : Nat) : Nat :=
  let d0 := annKey (ownSet s)
  if !getB s (Reg.TMB_PTPn_CFG_en n) then 3
  else if listens s n then 4
  else if getB s (Reg.TMB_PTPn_CFG_mo n) then 6
  else if (ownSet s).cls ≤ 127 then
    match erBest s n with
    | some e => if lexLt (annKey e) d0 then 7 else 6
    | none => 6
  else
    match eBest s with
    | none => 6
    | some (e, p) =>
      if lexLt d0 (annKey e) then 6
      else if p = n then 9
      else match erBest s n with
        | some e' => if e'.gm = e.gm then 7 else 6
        | none => 6

/-- Give a port the state the algorithm decides; a port that leaves SLAVE loses the PTP reference (R326). -/
def bmcaPort (want : Nat → Nat) (n : Nat) (s : State) : State :=
  let old := ptpState s n
  let new := want n
  let s1 := if old = 9 && new ≠ 9 then readyLanes (fun l => refLost l true n) s else s
  setF2 (Reg.TMB_PTPn_STAT_pst n) new s1

/-- The best master clock algorithm runs over all ports, once silent foreign masters are gone (R331, R334). -/
def bmca (s : State) : State :=
  let ps := List.range 8
  let s1 := forEach dropSilent ps s
  forEach (bmcaPort (bmcaState s1)) ps s1

/-- A port's foreign-master records after an Announce at an instant: the sender's is renewed and its Announces counted, or one is added
while there is room (log entry 17). -/
def takeAnn (m : Time) (a : PtpAnn) (l : List Foreign) : List Foreign :=
  if l.any (fun f => f.ann.src == a.src) then l.map (fun f => if f.ann.src == a.src then ⟨a, f.n + 1, m⟩ else f)
  else if l.length < foreignMax then l ++ [⟨a, 1, m⟩] else l

/-- The data set the module announces: its own, or in state SLAVE that of the grandmaster, one step further away (R334). -/
def outSet (s : State) : PtpAnn :=
  match (slavePort s).bind (erBest s) with
  | some g => { g with steps := g.steps + 1 }
  | none => ownSet s

/-- The answer to a GET of a data set (R331), with the members IEEE 1588-2019 gives it (log entry 17). -/
def ptpDataSet (s : State) (n id : Nat) : Option (List Nat) :=
  let o := ownSet s
  let g := outSet s
  let mpd (n : Nat) := getF s (Reg.TMB_PTPn_STAT_mpd n)
  match id with
  | 0x2000 => some [0, 8, o.prio1, o.cls, o.acc, o.var, o.prio2, clockId.toNat, getF s (Reg.TMB_PTPn_CFG_dom n)]
  | 0x2001 => some [g.steps, getF s Reg.TMB_THETA_theta (timeLane s), match slavePort s with | some p => mpd p | none => 0]
  | 0x2002 => some [g.src.toNat, g.gm.toNat, g.cls, g.acc, g.var, g.prio1, g.prio2]
  | 0x2003 => some [getF s Reg.RTC_UTCOFS_ofs, getF s Reg.RTC_UTCOFS_valid, 1, g.tsrc]
  | 0x2004 => some [n + 1, ptpState s n, mpd n, if ptpP2p s n then 2 else 1, 2]
  | _ => none

/-- PTP_ANNOUNCE (R334, R335): the port's foreign-master records are updated and the best master clock algorithm runs. A valid
currentUtcOffset is taken into RTC_UTCOFS (R342). -/
def execPtpAnnounce (t : Time) (n : Nat) (a : PtpAnn) (s : State) : Host.Outcome State Fault Refusal :=
  run t s (fun s =>
    if !ptpTakes s n a.dom a.udp || getB s (Reg.TMB_PTPn_CFG_mo n) then s
    else
      let p := ptpPort s n
      let s2 := bmca (setPort n { p with foreign := takeAnn s.now a p.foreign } s)
      match a.utc with
      | some u => if ptpState s2 n = 9 && (erBest s2 n).map (·.src) == some a.src then setF Reg.RTC_UTCOFS_valid 1 .a (setF Reg.RTC_UTCOFS_ofs u.toNat .a s2) else s2
      | none => s2)

/-- PTP_SIGNALING (R331): the module supports no unicast negotiation; the message changes nothing. -/
def execPtpSignaling (t : Time) (_ : Nat) (_ : PtpMsg) (s : State) : Host.Outcome State Fault Refusal :=
  run t s id

/-- PTP_MANAGEMENT (R331): GET (action 0) of the five data sets is answered, another identifier with NO_SUCH_ID (log entry 17);
every SET (action 1) is answered NOT_SUPPORTED. -/
def execPtpManagement (t : Time) (n : Nat) (m : PtpMsg) (action id : Nat) (s : State) : Host.Outcome State Fault Refusal :=
  run t s (fun s =>
    if !ptpTakes s n m.dom m.udp then s
    else if action = 0 then
      ptpSend n ptpKindManagement m.seq 0 0 (match ptpDataSet s n id with | some d => id :: 0 :: d | none => [id, 2]) s
    else if action = 1 then ptpSend n ptpKindManagement m.seq 0 0 [id, 6] s
    else s)

/-- PTP_TX_INTERVAL (R333, R334): Sync and Announce from MASTER ports, requests of the path-delay mechanism in use. At an announce interval the
best master clock algorithm runs first, so that a port with no master becomes MASTER. -/
def execPtpTxInterval (t : Time) (n : Nat) (k : PtpTx) (s : State) : Host.Outcome State Fault Refusal :=
  run t s (fun s =>
    if !(decide (n < 8) && getB s (Reg.TMB_PTPn_CFG_en n)) || (active s).isNone then s
    else
      match k with
      | .sync =>
        if ptpState s n = 6 then
          let (q, s1) := ptpSeq n ptpKindSync s
          ptpSend n ptpKindSync q (ltAt s (timeLane s) s.now) (ltSub s (timeLane s) s.now) [] s1
        else s
      | .announce =>
        let s := bmca s
        if ptpState s n = 6 then
          let (q, s1) := ptpSeq n ptpKindAnnounce s
          let g := outSet s
          ptpSend n ptpKindAnnounce q 0 0 [g.prio1, g.cls, g.acc, g.var, g.prio2, g.gm.toNat, g.steps, g.tsrc, getF s Reg.RTC_UTCOFS_ofs,
            getF s Reg.RTC_UTCOFS_valid] s1
        else s
      | .delayReq =>
        if ptpState s n = 9 && !ptpP2p s n then
          let (q, s1) := ptpSeq n ptpKindDelayReq s
          ptpSend n ptpKindDelayReq q 0 (-ptpAsym s n * 65536) [] (setPort n { ptpPort s1 n with req := some (q, s.now) } s1)
        else s
      | .pdelayReq =>
        if ptpP2p s n then
          let (q, s1) := ptpSeq n ptpKindPdelayReq s
          ptpSend n ptpKindPdelayReq q 0 (-ptpAsym s n * 65536) []
            (setPort n { ptpPort s1 n with req := some (q, s.now), resp := none } s1)
        else s)

end Sys2Proof.Machine
end

