-- ==== Sys2Proof/Machine/Recorder.lean ====
section
/-!
DEFINITION. The event recorder (R434-R447): the appender, its two modes, suppression, clearing, and the counters stamped into every
record.
-/

namespace Sys2Proof.Machine

/-- Number of a source (R336): the safety island is 8, the appender 32; where the spec names only the owner's range, the number in
it is free (log entry 12). -/
def srcNum : Src → Nat
  | .keeper => Config.srcLocal 0 0 % 8
  | .safety => 8
  | .timebase => 16 + Config.srcLocal 1 0 % 16
  | .rtc => 16 + Config.srcLocal 1 1 % 16
  | .wake => 16 + Config.srcLocal 1 2 % 16
  | .appender => 32
  | .lane .a b => 64 + Config.srcLocal 2 b % 192
  | .lane .b b => 256 + Config.srcLocal 3 b % 192
  | .bus b => 448 + Config.srcLocal 4 b % 192
  | .host n => n.toNat

/-- A slot that holds no record: its first word reads 0xFFFF_FFFF (R436); the other words of a wiped slot are 0 (log entry 3). -/
def slotEmpty (_ : Nat) : BitVec 256 := 0xFFFFFFFF#256

/-- The record of an event (R435). -/
def recordOf (s : State) (seq : Nat) (e : Event) (unstored : Bool) : BitVec 256 :=
  let late := atOrAfter s.now e.stamp && decide (5 * ms < since s.now e.stamp)
  let fl := b2n (getB s Reg.REC_STAT_osmax) + 2 * b2n (getB s Reg.REC_STAT_pcmax) + 4 * b2n e.alm + 8 * b2n e.clr + 16 * b2n late
    + 32 * b2n unstored
  let w7 : Word := BitVec.ofNat 32 (srcNum e.src % 2 ^ 10 + 2 ^ 10 * fl + 2 ^ 16 * e.code.toNat)
  w7 ++ e.data ++ e.pwrcyc ++ e.opsec ++ e.stamp ++ BitVec.ofNat 32 seq

/-- Slot of record `q` (R441, R442), none when the recorder is full. -/
def slotFor (split : Bool) (n q : Nat) : Option Nat :=
  if split then some (if q < n then q else n + (q - n) % n)
  else if q < 32768 then some q else none

/-- The sequence number after one (R436). -/
def nextSeq (q : Nat) : Nat := if q + 1 = 0xFFFFFFFF then 0 else q + 1

/-- Number and store one record (R436, R441, R442) and deliver it on both event streams (R446). -/
def storeRec (e : Event) (s : State) : State :=
  let r := s.rec'
  let split := getB s Reg.REC_STAT_split
  let slot := slotFor split r.n r.q
  let rec' := recordOf s r.next e slot.isNone
  let s1 := { s with rec' := { r with q := r.q + 1, next := nextSeq r.next,
                                      slots := match slot with
                                        | some k => Sparse.set slotEmpty r.slots k rec'
                                        | none => r.slots } }
  let lost := slot.isNone || (split && decide (2 * r.n ≤ r.q))
  let s2 := when lost (incF Reg.REC_OVF_ovf .a) s1
  let s3 := setF Reg.REC_SEQ_seq r.next .a (setF Reg.REC_STAT_wslot ((slotFor split r.n (r.q + 1)).getD 32767) .a s2)
  readyLanes (fun l => streamRec l 0x14 0 e.stamp (leBytes 32 rec'.toNat)) s3

/-- An event of the appender itself, stamped now. -/
def ownEvent (s : State) (code data : Nat) (alm : Bool) : Event :=
  ⟨s.now, rdK s Reg.REC_OPSEC, rdK s Reg.REC_PWRCYC, BitVec.ofNat 64 data, .appender, BitVec.ofNat 16 code, alm, false⟩

/-- Append a record; in stop-when-full mode the record that takes slot 32,766 is followed by REC_FULL, and the recorder is full
(R441). -/
def appendRec (e : Event) (s : State) : State :=
  let last := !getB s Reg.REC_STAT_split && s.rec'.q == 32766
  let s1 := storeRec e s
  if last then
    bothLanes (sysStat Reg.HRI_SYS_STAT_alarm)
      (setF Reg.REC_STAT_full 1 .a
        { storeRec (ownEvent s1 Ev.REC_FULL 0 true) s1 with alarms := s1.alarms ++ [(Ev.REC_FULL, 0)] })
  else s1

/-- A record of the appender (R438). -/
def ownRec (code data : Nat) (s : State) : State := appendRec (ownEvent s code data false) s

/-- Occurrences of a source and code in the present second: how many, and how many of them suppressed. -/
def countOf (s : State) (e : Event) : Nat × Nat :=
  ((s.rec'.counts.find? (fun c => c.1 == e.src && c.2.1 == e.code)).map (fun c => (c.2.2.1, c.2.2.2))).getD (0, 0)

/-- Set an occurrence count. -/
def setCount (e : Event) (n sup : Nat) (s : State) : State :=
  { s with rec' := { s.rec' with
      counts := s.rec'.counts.filter (fun c => !(c.1 == e.src && c.2.1 == e.code)) ++ [(e.src, e.code, n, sup)] } }

/-- Take one record from a source group's queue into the appender (R434, R444). -/
def takeRec (g : Nat) (s : State) : State :=
  match s.rec'.queues.getD g {} with
  | ⟨[], _⟩ => s
  | ⟨e :: q, d⟩ =>
    let s1 := { s with rec' := { s.rec' with queues := listSet s.rec'.queues g ⟨q, d⟩ } }
    if e.src == .appender then appendRec e s1
    else
      let c := countOf s e
      if 10 ≤ c.1 && !e.alm && !e.clr then incF Reg.REC_CNT_suppr .a (setCount e (c.1 + 1) (c.2 + 1) s1)
      else appendRec e (setCount e (c.1 + 1) c.2 s1)

/-- RECORD_APPEND (R436): the appender takes the oldest record of a source group's queue. While AO runs on its backup input it writes
nothing (R447). -/
def execRecordAppend (t : Time) (g : Nat) (s : State) : Host.Outcome State Fault Refusal := run t s (takeRec g)

/-- Report what was suppressed of each source and code (R444). -/
def reportSuppressed : List (Src × BitVec 16 × Nat × Nat) → State → State
  | [], s => s
  | c :: cs, s =>
    reportSuppressed cs
      (when (decide (0 < c.2.2.2)) (ownRec Ev.REC_SUPPR (srcNum c.1 % 2 ^ 10 + 2 ^ 16 * c.2.1.toNat + 2 ^ 32 * c.2.2.2)) s)

/-- SUPPRESSION_SECOND_END (R444): an MTC second ends. -/
def execSuppressionSecondEnd (t : Time) (s : State) : Host.Outcome State Fault Refusal :=
  run t s (fun s =>
    if s.now.toNat % sec ≠ 0 then s
    else reportSuppressed s.rec'.counts { s with rec' := { s.rec' with counts := [] } })

/-- REC_ANCHOR (R438): every hour of SYNC, at an MTC multiple of 3,600 s. -/
def execRecAnchor (t : Time) (s : State) : Host.Outcome State Fault Refusal :=
  run t s (fun s =>
    if s.now.toNat % (3600 * sec) = 0 && getF s Reg.TMB_STAT_state (timeLane s) == 1 then recAnchor s else s)

/-- Both counters are written to the slot of AO MRAM that was not written last (R437). -/
def countSave (s : State) : State :=
  let r := s.rec'
  let v := (rdK s Reg.REC_OPSEC, rdK s Reg.REC_PWRCYC)
  { s with rec' := if r.cntLast then { r with cnt0 := v, cntLast := false } else { r with cnt1 := v, cntLast := true } }

/-- OPERATING_SECOND (R437): a second with at least one supply input present; at its maximum the count sticks. The counters are
written to AO MRAM. -/
def execOperatingSecond (t : Time) (s : State) : Host.Outcome State Fault Refusal :=
  runAny t s (fun s =>
    if getB s Reg.PWR_STAT_sup1 || getB s Reg.PWR_STAT_sup2 then
      let s1 := incF Reg.REC_OPSEC_s .a s
      countSave (if getF s1 Reg.REC_OPSEC_s = 0xFFFFFFFF then setF Reg.REC_STAT_osmax 1 .a s1 else s1)
    else s)

/-- Empty every slot and start slot assignment afresh (R443). -/
def emptySlots (s : State) : State :=
  { setF Reg.REC_OVF_ovf 0 .a (setF Reg.REC_STAT_full 0 .a s) with rec' := { s.rec' with slots := [], q := 0 } }

/-- The recording mode follows the life-cycle state (R440). -/
def recMode (s : State) : State := setB Reg.REC_STAT_split (getF s Reg.UPD_LCS_state != 2) .a s

/-- Wipe of the recorder at a life-cycle change (R443): the sequence restarts with REC_LCCHG, in the mode of state `new`, with the
split size `n` that was configured when the wipe began (R440). -/
def recWipe (old new n : Nat) (s : State) : State :=
  let s1 := emptySlots { s with rec' := { s.rec' with next := 0 } }
  let s2 := setB Reg.REC_STAT_split (new != 2) .a
    { s1 with rec' := { s1.rec' with n := 1024 * n, queues := [{}, {}, {}, {}, {}, {}], counts := [] } }
  ownRec Ev.REC_LCCHG (old + 2 ^ 8 * new) s2

/-- A write of REC_CLR (R443, R456): the key with its complement, in Service or with the expert level open, clears the recorder. -/
def recClear (ep : Lane) (v : Word) (s : State) : State :=
  let key := v.toNat % 2 ^ 16
  let good := key == 0x5EC0 && v.toNat / 2 ^ 16 == 0xFFFF - key
  if good && (getB s Reg.HRI_AUTH_STAT_xp || getF s Reg.UPD_LCS_state == 3) then
    let s1 := appendRec ⟨s.now, rdK s Reg.REC_OPSEC, rdK s Reg.REC_PWRCYC, BitVec.ofNat 64 (2 ^ 32 * Reg.REC_CLR),
      laneSrc ep 11, BitVec.ofNat 16 Ev.HRI_XOP, false, false⟩ s
    let ovf := getF s1 Reg.REC_OVF_ovf
    let last := getF s1 Reg.REC_SEQ_seq
    clearAlarm .appender Ev.REC_FULL 0 0 (ownRec Ev.REC_CLEAR (last + 2 ^ 32 * ovf) (emptySlots s1))
  else
    sysStat Reg.HRI_SYS_STAT_reject ep
      (incF Reg.HRI_CNT_reject ep (raise (laneSrc ep 11) Ev.HRI_BADBELL (Reg.REC_CLR + 2 ^ 32 * v.toNat) s))

/-- REC_START (R438): the first record of a run, with its cause and the calendar. -/
def recStart (cause : Nat) (s : State) : State :=
  let c := calBytes s.rtc.cal
  ownRec Ev.REC_START (cause + 2 ^ 8 * (c / 2 ^ 48 % 256) + 2 ^ 16 * (c % 2 ^ 48)) { s with rec' := { s.rec' with anchored := false } }

end Sys2Proof.Machine
end

