-- ==== Sys2Proof/Machine/Reset.lean ====
section
/-!
DEFINITION. The role lines (R286-R290), and the three kinds of reset (R467-R471): lane reset, dual lane reset, module reset.
-/

namespace Sys2Proof.Machine

/-! The role lines. -/

/-- Name of the output pin MHLT among the pins of `Emit.pin`. -/
def pinMhlt : Nat := 8

/-- Change the Keeper's view of a lane. -/
def onKpr (l : Lane) (f : KprLane → KprLane) (s : State) : State :=
  match l with
  | .a => { s with kpr := { s.kpr with la := f s.kpr.la } }
  | .b => { s with kpr := { s.kpr with lb := f s.kpr.lb } }

/-- The admitted bit of a lane (R301). -/
def admFld : Lane → Fld
  | .a => Reg.KPR_STAT_aadm
  | .b => Reg.KPR_STAT_badm

/-- The blocked bit of a lane (R289). -/
def blkFld : Lane → Fld
  | .a => Reg.KPR_STAT_ablk
  | .b => Reg.KPR_STAT_bblk

/-- The role-change interrupt (R296, R361): on both endpoints, that of a blocked lane too (R353), when the bit becomes set. -/
def roleIrq : State → State :=
  bothLanes (fun l s => if getB s Reg.HRI_SYS_STAT_role l then s
    else raiseVec l (getF s Reg.HRI_SYS_CFG_vec l) (setF Reg.HRI_SYS_STAT_role 1 l s))

/-- What the registers of a lane show of the role. -/
def showRole (l : Lane) (s : State) : State :=
  forEach (fun n s => setB (Reg.LPE_SLn_STAT_shadow n) (!isActive s l) l s) allSlots
   (forEach (fun n s => setB (Reg.MET_POn_STAT_shadow n) (!isActive s l) l s) (List.range 8)
    (forEach (fun n s => setB (Reg.TMB_TPn_STAT_shadow n) (!isActive s l) l s) (List.range 4)
      (setB Reg.LPE_STAT_shadow (!isActive s l) l (setB Reg.HRI_STAT_active (isActive s l) l s))))

/-- Output pins that lose their drive: each that is high falls. -/
def lowPins (name k w : Nat) (s : State) : State :=
  forEach (fun n s => when (w.testBit n) (emit (.pin name n false)) s) (List.range k) s

/-- Put the role lines (R288): the paths of NIO follow the lane they name. MHLT is asserted while a lane is Active (R290). The
feature engine and solver of the other lane are not clocked (R38). -/
def setRole (r : Option Lane) (s : State) : State :=
  let was := s.kpr.role
  let s1 := { s with kpr := { s.kpr with role := r } }
  let s2 := when (was.isSome != r.isSome) (emit (.pin pinMhlt 0 r.isSome)) s1
  let s3 := match r with
    | some l => setF Reg.KPR_STAT_nolane 0 .a (setF Reg.KPR_STAT_act l.idx .a (setF (admFld l) 1 .a (setF (blkFld l) 0 .a (setF Reg.TMB_STAT_aln 1 l s2))))
    | none => s2
  showMclk (tpDrive (poDrive (bothLanes (fun l s => holdClocks l (if ready s l then showRole l s else s)) s3)))

/-! Lane reset. -/

/-- A register after a reset (R11): the bits its column gives a value take it, the others stay. -/
def resetWord (module : Bool) (k : Nat) (v : Word) : Word :=
  match regRow (k % laneSpan) with
  | some r => if module then (v &&& ~~~r.mMask) ||| r.mVal else (v &&& ~~~r.lMask) ||| r.lVal
  | none => if module then 0#32 else v

/-- The gap seconds of a point as AO MRAM holds them, with the latest billing slot (R251, log entry 96). -/
def gapsKept (s : State) (n : Nat) : Nat := ((latestSlot s).bind (fun x => alGet x.gaps n)).getD 0

/-- The registers of a lane after lane reset: its slots are in HOLD with shadow set (R277), its points count gap seconds from those of the
MRAM (R251), its MTC is not yet loaded. -/
def laneRegs (l : Lane) (s : State) : State :=
  let s1 := { s with regs := Sparse.mapVals regDef (fun k v => if k / laneSpan = 1 + l.idx then resetWord false k v else v) s.regs }
  forEach (fun n s => setF (Reg.LPE_SLn_STAT_shadow n) 1 l (setF (Reg.LPE_SLn_STAT_mode n) 4 l s)) allSlots
    (forEach (fun n s => setF (Reg.MET_PTn_STAT_gaps n) (gapsKept s n) l s) (List.range 96) (setF Reg.TMB_STAT_aln 0 l s1))

/-- What of a package bank outlives a reset (R92): its blocks in flash. A bank that was LOADING counts as incomplete, so that its
re-verification fails with LENGTH. -/
def bankKeep (s : State) (l : Lane) (net : Bool) (k : Nat) : Bank :=
  let b := bankOf (s.lane l) net k
  { blocks := b.blocks, complete := b.complete && getF s (bankFld net k) l ≠ 1, reverify := true }

/-- A package bank after a reset (R92, R93): its registers stand at their reset value and it is verified again. -/
def bankReset (l : Lane) (net : Bool) (k : Nat) (s : State) : State :=
  setF (if net then Reg.FUS_NPKG_BANK_verif else Reg.SLV_PKG_BANK_verif) 1 l
    (setF (bankFld net k) 0 l (onBank l net k (fun b => { blocks := b.blocks, complete := b.complete, reverify := true }) s))

/-- The image slot a lane runs from. -/
def runSlot (s : State) : Lane → Nat
  | .a => s.upd.runA
  | .b => s.upd.runB

/-- The firmware fields of JX_REV name the image the lane runs (R503). -/
def showRev (l : Lane) (s : State) : State :=
  let n := runSlot s l
  setF Reg.JX_REV_fwmaj (getF s (Reg.UPD_SLOTn_maj n) l) l (setF Reg.JX_REV_fwmin (getF s (Reg.UPD_SLOTn_min n) l) l s)

/-- The wipe bit of a lane. -/
def wipeFld : Lane → Fld
  | .a => Reg.PWR_STAT_awipe
  | .b => Reg.PWR_STAT_bwipe

/-- A lane at the start of its reset (R467, R471, R277, R92): SRAM cleared, DRAM being wiped, everything but its flash and the loop output registers in NIO lost. The Keeper
waits for its first watch word, and it is no longer admitted. -/
def laneInit (l : Lane) (ph : LanePh) (s : State) : State :=
  let x := s.lane l
  let sp := getF s Reg.PWR_CFG_spread
  let s1 := s.setLane l { ph := ph, pllOff := [.fen, .slv], spread := (sp, sp, sp), bank0 := bankKeep s l false 0, bank1 := bankKeep s l false 1,
                          nbank0 := bankKeep s l true 0, nbank1 := bankKeep s l true 1, health := { dieWarn := x.health.dieWarn }
                          lpe := { slots := x.lpe.slots } }
  let s2 := lpeInit l (laneRegs l s1)
  let s3 := forEach (fun p s => bankReset l p.1 p.2 s) [(false, 0), (false, 1), (true, 0), (true, 1)] s2
  let s4 := showRev l (setB (wipeFld l) (ph == .wiping) .a (setF (admFld l) 0 .a s3))
  let s5 := onKpr l (fun k => { fpwrAt := k.fpwrAt, offAt := k.offAt, offForGood := k.offForGood, returning := true }) s4
  if isActive s l then s5 else { s5 with authMir := {}, mirTx := [] }

/-- Lane reset (R467). An unpowered lane has nothing to reset. -/
def laneReset (l : Lane) (s : State) : State :=
  if (s.lane l).ph == .off then s else laneInit l (if (s.lane l).ph == .rst then .rst else .wiping) s

/-- Power a lane (R41, R44, R459, R463): BASE and the domains of the mode in force and of a pending one; the lane starts as after lane
reset. -/
def lanePower (l : Lane) (s : State) : State :=
  laneInit l .wiping (domSet (2 ^ domBit l + needDoms s l * 2 ^ (domBit l + 1)) s)

/-- Remove a lane's supplies (R459). -/
def laneUnpower (l : Lane) (s : State) : State :=
  let s1 := laneInit l .off (domClr (15 * 2 ^ domBit l) s)
  onKpr l (fun k => { k with returning := false }) s1

/-! Alarms that end with a reset. -/

/-- Alarms of conditions that do not end with a dual lane reset: those of the lanes' work are lost with it. -/
def dropAlarms (codes : List Nat) (s : State) : State := endAlarms (fun c => codes.contains c) s

/-! The cycle at a new run of MTC. -/

/-- A new run of MTC (R17, R319): MTC restarts at 0 and the first epoch is the first on the grid; a pending cycle set stays pending
and has its own first epoch (R26). -/
def newRun (s : State) : State :=
  let ph := (rdK s Reg.JX_CYC_PHASE).toNat
  let first (c : CycSet) : Time := BitVec.ofNat 64 (gridFrom (max 1 c.ns) ph 0)
  let pend := s.cyc.pend.map (fun p => (p.1, first p.1))
  { s with now := 0#64, cyc := { nextE := (pend.map (·.2)).getD (first s.cyc.set), set := s.cyc.set, cur := s.cyc.set,
                                 pend := pend, gridE := first s.cyc.set } }

/-- The alarm and mark of the fallback end (R46), recorded by the Active lane, or by Lane A where there is none. -/
def endAutojoy (s : State) : State :=
  clearAlarm (laneSrc ((active s).getD .a) 0) Ev.JX_AUTOJOY 0 0 (setF Reg.JX_MODE_autojoy 0 .a s)

/-- The mode becomes Lay-up without an order (R42, R48, R290); a pending mode command is lost. -/
def toLayup (s : State) : State :=
  endAutojoy
    (when (getF s Reg.JX_MODE_mode ≠ 0) (setF Reg.JX_MODE_since 0 .a) (setF Reg.JX_MODE_pwarm 0 .a (setF Reg.JX_MODE_pmode 0 .a (setF Reg.JX_MODE_pend 0 .a
      (setF Reg.JX_MODE_warm 0 .a (setF Reg.JX_MODE_mode 0 .a s))))))

/-- The authority state and all that waits on it is lost (R42, R290): a change that raises the version (R369), ends the expert session and
withdraws the joystick's setpoints (R398). -/
def loseAuth (s : State) : State :=
  let s1 := when s.auth.expert.isSome expertEnds s
  showJoy (showAuthStat { s1 with auth := { ver := s.auth.ver + 1#32 }, authMir := {}, waits := [], mirTx := [] })

/-- Life-cycle state Decommissioned (R475). -/
def decommissioned (s : State) : Bool := getF s Reg.UPD_LCS_state == 4

/-! Module reset. -/

/-- Entry into module reset (R462, R469), which ends an expert session (R378): KPR, SAF, NIO and the lanes stop; the safety outputs, the pulse and time-pulse outputs, the clocks of
NIO and MHLT go off. What waited in memory of those domains is lost; the recorder is AO's and keeps what it counts (R444, R467); a shift of the calendar that waits is dropped, since RTC_SHIFT.busy is reset. -/
def moduleDown (s : State) : State :=
  let s1 := both (dropOuts 0xFF) (when s.auth.expert.isSome expertEnds s)
  let s2 := lowPins 1 4 s.tpOut.toNat (lowPins 5 4 s.ifen.toNat (lowPins 6 24 s.mclk.toNat (lowPins 7 8 s.poOut.toNat
    (when s1.kpr.role.isSome (emit (.pin pinMhlt 0 false)) s1))))
  let off (l : Lane) : LaneSt :=
    { ph := .off, pllOff := [.fen, .slv], bank0 := bankKeep s l false 0, bank1 := bankKeep s l false 1,
      nbank0 := bankKeep s l true 0, nbank1 := bankKeep s l true 1 }
  { s2 with up := false, la := off .a, lb := off .b, kpr := { up := false }, auth := {}, authMir := {}, waits := [], ackVer := 0#32,
            mirTx := [], linkSeq := 0#16, net := {}, netPend := [], netPort := [], ptp := {}, mbc := { objs := s2.mbc.objs }, saf := { stored := s2.saf.stored },
            ifen := 0#4, mclk := 0#24, tpOut := 0#4, poOut := 0#8, slvCfg := {}, fresh := s2.fresh,
            rtc := { s2.rtc with snapReq := false, shifts := [] } }

/-- Code of the first check a cycle set fails, 0 when it passes (R27), but for the check of the mode. -/
def setErr (c : CycSet) : Nat :=
  if !within 50 1000 c.period || !within 2 20 c.xwin then 1
  else if !(decide (2 ≤ c.intake) && decide (c.intake + 10 ≤ c.fusion) && decide (c.fusion + 3 ≤ c.assembly)
      && decide (c.assembly + 15 ≤ c.deadline)) then 2
  else if c.mirror < c.deadline + 3 then 3
  else if c.period < c.mirror + 8 + c.xwin then 4
  else 0

/-- The written cycle set (R25, R26). -/
def writtenSet (s : State) : CycSet :=
  ⟨getF s Reg.JX_CYC_PERIOD_period, getF s Reg.JX_CYC_PERIOD_xwin, getF s Reg.JX_CYC_MARK0_intake, getF s Reg.JX_CYC_MARK0_fusion,
   getF s Reg.JX_CYC_MARK1_assembly, getF s Reg.SLV_DEADLINE_deadline, getF s Reg.JX_CYC_MARK1_mirror⟩

/-- The cycle set at module reset (R25): the written values when they pass, else the set in force before, with the failing code. -/
def cycRestore (s : State) : State :=
  let w := writtenSet s
  let e := setErr w
  let c := if e = 0 then w else s.cyc.set
  setF Reg.JX_CYC_STATUS_err e .a { s with cyc := { set := c, cur := c } }

/-- The keys of a persistent register's copies (R495): the module's one, or both lanes' own. A lane's key names that copy alone. -/
def regCopies (k : Nat) : List Nat := if k < laneSpan then [k, k + laneSpan, k + 2 * laneSpan] else [k]

/-- Registers whose persistent pair fails take their default (R498). -/
def badRegs (keys : List Nat) (s : State) : State :=
  forEach (fun k s =>
    match regRow (k % laneSpan) with
    | some r => if r.mram then
        raiseAlarm (laneSrc .a 0) Ev.JX_CFG 0 0 (raise (laneSrc .a 0) Ev.JX_CFGPAIR (k % laneSpan)
          (forEach (fun q => wrK q (regDef q)) (regCopies k) s)) else s
    | none => s) keys s

/-- What registers show of a configuration item that is not valid any more: a reference's group, a point's kind, a slot's mode, law and
bank, a message object's kind. -/
def unshowItem (code n : Nat) (s : State) : State :=
  match code with
  | 3 => when (decide (n < 16)) (setF2 (Reg.FUS_REFn_group n) 0) s
  | 5 => when (decide (n < 96)) (setF (Reg.MET_PTn_CFG_kind n) 0 .a) s
  | 7 => when (decide (n < 256)) (fun s =>
      setF2 (Reg.LPE_SLn_STAT_mode n) 0 (setF2 (Reg.LPE_SLn_STAT_law n) 0 (setF2 (Reg.LPE_SLn_STAT_bank n) 0
        { s with cfg := { s.cfg with slModes := Sparse.erase s.cfg.slModes n } }))) s
  | 12 => when (decide (n < 512)) (setF (Reg.MBC_OBJk_STAT_kind n) 0 .a) s
  | _ => s

/-- A configuration item without a good copy is not valid: it is as if it had not been written (R16, R376). -/
def dropItem (code n : Nat) (s : State) : State :=
  let c := { s.cfg with raw := Sparse.erase s.cfg.raw (65536 * code + n) }
  match code with
  | 1 => { s with cfg := { c with keys := Sparse.erase c.keys n } }
  | 2 => { s with cfg := { c with streams := alDel c.streams n } }
  | 3 => { s with cfg := { c with refs := alDel c.refs n } }
  | 4 => { s with cfg := { c with cals := alDel c.cals n } }
  | 5 => { s with cfg := { c with points := alDel c.points n } }
  | 7 => { s with cfg := { c with loops := Sparse.erase c.loops n } }
  | 8 => { s with cfg := { c with banks := Sparse.erase c.banks n } }
  | 9 => { s with cfg := { c with antenna := [] } }
  | 10 => { s with cfg := c, rtc := { s.rtc with curve := [] } }
  | 11 => { s with cfg := { c with prio1 := 128#8, prio2 := 128#8 } }
  | 12 => { s with cfg := c, mbc := { s.mbc with objs := Sparse.erase s.mbc.objs n } }
  | 13 => { s with cfg := { c with sers := alDel c.sers n } }
  | 14 => { s with cfg := { c with filter := none } }
  | _ => { s with cfg := c }

/-- A value of AO MRAM without a good copy is marked failed (R451): its event names it, and the alarm stands, which is the mark: an item
marked failed is not counted or recorded again. -/
def aoFailed (l : Lane) (off : Nat) (s : State) : State :=
  if s.alarms.contains (Ev.TND_MRAM, off) then s
  else raiseAlarm (laneSrc l 16) Ev.TND_MRAM off off (raise (laneSrc l 16) Ev.TND_MRAMPAIR off (incF Reg.TND_MRAM_failed .a s))

/-- What a value without a good copy does at a start (R16): the life-cycle record stays as AO last held it; an update journal is as
none; a bank pointer names no bank; a configuration item is not valid (log entry 65). -/
def badVal (v : AoVal) (s : State) : State :=
  match v with
  | .lifecycle => s
  | .journal => setF Reg.UPD_SEQ_step 0 .a s
  | .bankPtr net => { s with upd := { s.upd with ptrBad := net :: s.upd.ptrBad.filter (· != net) } }
  | .item code n => unshowItem code n (dropItem code n s)

/-- The values that the start sequence finds without a good copy. -/
def badVals (vs : List (AoVal × Nat)) (s : State) : State := forEach (fun v s => badVal v.1 (aoFailed .a v.2 s)) vs s

/-- The update sequence returns to IDLE. -/
def seqIdle (s : State) : State :=
  { setF Reg.UPD_TL_t 0 .a (setF Reg.UPD_TH_t 0 .a (setF Reg.UPD_SEQ_left 0 .a (setF Reg.UPD_SEQ_cyc 0 .a (setF Reg.UPD_SEQ_step 0 .a s)))) with
    upd := { s.upd with newA := none, newB := none, newK := none, startA := none, startB := none, startK := none, rbStep := 0,
                        pref := none, swapE := none, cntA := 0, cntB := 0 } }

/-- The slot to run once an image being activated is given up: the other one. -/
def oldSlot (new : Option Nat) (run : Nat) : Nat := if new = some run then 1 - run else run

/-- Everything runs its old image, and the sequence ends in rollback (R487, R489). -/
def rolledBack (kind : Nat) (s : State) : State :=
  seqIdle (setF Reg.UPD_SEQ_rb 1 .a (raise .keeper Ev.UPD_ROLLBACK (kind + 2 ^ 8 * getF s Reg.UPD_SEQ_step)
    { s with upd := { s.upd with runA := oldSlot s.upd.newA s.upd.runA, runB := oldSlot s.upd.newB s.upd.runB,
                                 runK := oldSlot s.upd.newK s.upd.runK } }))

/-- A sequence whose lane 1 has confirmed resumes at L2 in Lay-up (R489): lane 1 is made Active first, lane 2 has a fresh 120 s. -/
def seqResume (s : State) : State :=
  let l1 : Lane := if getF s Reg.UPD_SEQ_lane1 = 0 then .a else .b
  setF Reg.UPD_SEQ_step 4 .a
    { s with upd := { s.upd with pref := some l1, swapE := none, cntA := 0, cntB := 0, okA := true, okB := true,
                                 runA := s.upd.newA.getD s.upd.runA, runB := s.upd.newB.getD s.upd.runB,
                                 startA := if l1 = .b then some 0#64 else none, startB := if l1 = .a then some 0#64 else none } }

/-- The update journal at a module reset (R489). -/
def journal (s : State) : State :=
  let kind := getF s Reg.UPD_SEQ_kind
  match getF s Reg.UPD_SEQ_step with
  | 1 => seqIdle (raise .keeper Ev.UPD_CANCEL 0 s)
  | 2 => rolledBack kind s
  | 3 => seqResume s
  | 4 => seqResume s
  | 6 => rolledBack kind s
  | 7 => rolledBack 1 s
  | 8 => seqIdle { s with upd := { s.upd with runA := oldSlot s.upd.newA s.upd.runA, runB := oldSlot s.upd.newB s.upd.runB } }
  | _ => seqIdle s

/-- The update journal at a dual lane reset for want of an Active lane (R487): a sequence with an unconfirmed lane image ends. -/
def journalDual (s : State) : State :=
  let kind := getF s Reg.UPD_SEQ_kind
  match getF s Reg.UPD_SEQ_step with
  | 2 => rolledBack kind s
  | 3 => seqResume s
  | 4 => rolledBack kind s
  | 6 => rolledBack kind s
  | 8 => seqIdle { s with upd := { s.upd with runA := oldSlot s.upd.newA s.upd.runA, runB := oldSlot s.upd.newB s.upd.runB } }
  | _ => s

/-- Records waiting in the queues reach the appender (R434, R439: within 2 ms). -/
def drainGroup (g : Nat) : Nat → State → State
  | 0, s => s
  | n + 1, s => drainGroup g n (takeRec g s)

/-- All queues. -/
def drainAll (s : State) : State :=
  forEach (fun g s => drainGroup g (s.rec'.queues.getD g {}).q.length s) (List.range 6) s

/-- A lane of the dual lane reset: Lay-up keeps only its BASE powered (R41); one left without power stays so. -/
def dualLane (l : Lane) (s : State) : State :=
  if (s.lane l).ph == .off then s else laneReset l (domClr (14 * 2 ^ domBit l) s)

/-- Alarms of the lanes' work, which is lost with a dual lane reset. -/
def laneAlarms : List Nat :=
  [Ev.SLV_REUSE, Ev.FUS_CONTRA, Ev.FUS_REFSUS, Ev.FUS_TRUSTLOST, Ev.FUS_G2, Ev.FUS_DR, Ev.FUS_LOST, Ev.KPR_MIRROR, Ev.KPR_LOST,
   Ev.MET_HEADFLT]

/-! Instants across a new run of MTC. -/

/-- Instants that every key has, counted in a new run of MTC: intervals stay what they were. -/
def shiftAll (t0 : Time) (m : Sparse Time) : Sparse Time := n16.foldl (fun r i => Sparse.set timeDef r i (Sparse.get timeDef m i - t0)) []

/-- Instants of listed keys, counted in a new run. -/
def shiftSome (t0 : Time) (m : List (Nat × Time)) : List (Nat × Time) := m.map (fun p => (p.1, p.2 - t0))

/-- A channel of the island across a new run of MTC: its intervals go on (R408). -/
def shiftChan (t0 : Time) (a : SafCh) : SafCh :=
  { a with rawAt := shiftAll t0 a.rawAt, disAt := shiftSome t0 a.disAt, pressAt := shiftSome t0 a.pressAt, onAt := shiftAll t0 a.onAt,
           reqAt := shiftAll t0 a.reqAt, holdAt := a.holdAt.map (· - t0),
           fns := n16.foldl (fun m f => let x := Sparse.get fnDef a.fns f
             Sparse.set fnDef m f { x with due := x.due - t0, runAt := x.runAt.map (· - t0), hand := x.hand.map (· - t0) }) [] }

/-- The island across a new run of MTC (R408). -/
def shiftSaf (t0 : Time) (a : SafSt) : SafSt :=
  { a with toSafCh := shiftChan t0 a.toSafCh, y := a.y.map (fun c => { c with core := shiftChan t0 c.core }),
           tsDue := shiftAll t0 a.tsDue, offDue := shiftAll t0 a.offDue }

/-- A PTP port across a new run of MTC. -/
def shiftPort (t0 : Time) (p : PtpPort) : PtpPort :=
  { p with sync := p.sync.map (fun x => (x.1, x.2.1 - t0, x.2.2)), req := p.req.map (fun x => (x.1, x.2 - t0)),
           resp := p.resp.map (fun x => (x.1, x.2.1 - t0, x.2.2)), foreign := p.foreign.map (fun f => { f with at' := f.at' - t0 }),
           heard := p.heard - t0 }

/-- The message buses across a new run of MTC. -/
def shiftMbc (t0 : Time) (m : MbcSt) : MbcSt :=
  { m with rx := m.rx.map (fun p => (p.1, p.2.map (fun x => (x.1 - t0, x.2)))), joyAt := m.joyAt - t0, heard := shiftSome t0 m.heard,
           grams := m.grams.map (fun g => (g.1, g.2.1, g.2.2 - t0)) }

/-- The networks across a new run of MTC. -/
def shiftNet (t0 : Time) (n : NetSt) : NetSt :=
  { n with nodes := n.nodes.map (fun p => (p.1, { p.2 with heard := p.2.heard - t0, recent := p.2.recent.map (fun r => (r.1, r.2.1, r.2.2 - t0)) })),
           srcs := n.srcs.map (fun p => (p.1, { p.2 with last := p.2.last - t0 })), lastSync := n.lastSync.map (· - t0), probeAt := n.probeAt - t0,
           arbHeard := n.arbHeard.map (· - t0), partnerHeard := n.partnerHeard.map (· - t0), actHeard := n.actHeard.map (· - t0),
           stbyHeard := n.stbyHeard.map (· - t0), grantAt := n.grantAt - t0 }

/-- What goes on in other domains while MTC restarts at 0 (R17, R290, R408): instants they hold are counted in the new run, so that
every interval they measure stays what it was (log entry 60). The ten minutes of R463 are the wake controller's. -/
def carryTimes (s : State) : State :=
  let t := s.now
  let k (x : KprLane) : KprLane := { x with fpwrAt := x.fpwrAt.map (· - t), offAt := x.offAt.map (· - t) }
  { s with saf := shiftSaf t s.saf, kpr := { s.kpr with la := k s.kpr.la, lb := k s.kpr.lb }, mbc := shiftMbc t s.mbc, net := shiftNet t s.net,
           ptp := { s.ptp with ports := s.ptp.ports.map (fun p => (p.1, shiftPort t p.2)) } }

/-- Dual lane reset (R290, R467, R468): both lanes restart on a common strobe, the mode is Lay-up, REC_START carries the cause. The
journal is resolved by `jr`. Whether the pairs of the billing slots check is open (log entry 95). -/
def dualReset (cause : Nat) (jr : State → State) (s : State) : State :=
  let s1 := drainAll (jr (setRole none (loseAuth (toLayup s))))
  let s2 := carryTimes (bothLanes dualLane s1)
  let k (x : KprLane) : KprLane := { offAt := x.offAt, fpwrAt := x.fpwrAt, offForGood := x.offForGood, returning := true }
  let s3 := newRun
    { s2 with kpr := { up := s2.kpr.up, role := none, la := k s2.kpr.la, lb := k s2.kpr.lb }, ifen := 0#4, netPend := [] }
  let s4 := recStart cause (setF Reg.PWR_STAT_cause cause .a (dropAlarms laneAlarms s3))
  let ok (n : Nat) (x : Option MetSlot) : Bool := x.isNone || Config.pairOk s.fresh n
  metRestore (ok 0 s.met0) (ok 1 s.met1) { s4 with fresh := s.fresh + 1 }

/-- Alarms that a module reset leaves: of AO, of the supplies, and of a configuration. JX_AUTOJOY ends by its own rule (R46). -/
def startAlarms : List Nat :=
  [Ev.REC_FULL, Ev.PWR_SUP, Ev.PWR_BKP, Ev.PWR_HOT, Ev.PWR_RSTSTUCK, Ev.TND_MRAM, Ev.JX_CFG, Ev.JX_AUTOJOY]

/-- Start from module reset (R467-R470): what AO kept is restored, every other register takes its reset value, both lanes await their
supplies. A life-cycle change found in step WIPE wipes before anything else runs (R472). -/
def moduleUp (cause : Nat) (i : StartIn) (s : State) : State :=
  let s0 := { s with up := true, now := 0#64, kpr := {}, upd := { s.upd with inReset := false },
                     regs := Sparse.mapVals regDef (fun k v => resetWord true k v) s.regs }
  let s1 := when (getB s0 Reg.RTC_STATUS_oscfail) (raise .rtc Ev.RTC_OSC 0) <| endAlarms (fun c => !startAlarms.contains c)
    (when (!s0.upd.wiping) (recStart cause) (setF Reg.PWR_STAT_cause cause .a s0))
  let s2 := endAutojoy s1
  let s3 := if s2.upd.wiping then newRun (cycRestore s2)
    else canStart (metRestore i.met0Ok i.met1Ok (journal (newRun (cycRestore (badVals i.badVals (badRegs i.badRegs s2))))))
  let s4 := forEach (fun p s => bankReset p.1 p.2.1 p.2.2 s)
    [(.a, false, 0), (.a, false, 1), (.a, true, 0), (.a, true, 1), (.b, false, 0), (.b, false, 1), (.b, true, 0), (.b, true, 1)]
    (bothLanes (fun l s => modesInit l (lpeInit l s)) s3)
  showPart (showAuthStat (showRev .b (showRev .a s4)))

end Sys2Proof.Machine
end

