-- ==== Sys2Proof/Machine/Keeper.lean ====
section
/-!
DEFINITION. The Keeper (R281-R290, R296-R303): watch words, its checks, declaration of a failed lane, takeover, the loss of every
lane, admission, and the lane's own side of the Keeper link.
-/

namespace Sys2Proof.Machine

/-! Which lane may lead. -/

/-- When a lane started an image it has not confirmed. -/
def startOf (s : State) : Lane → Option Time
  | .a => s.upd.startA
  | .b => s.upd.startB

/-- Whether a lane may become Active as far as its image goes (R487): it runs none that waits for its confirmation. In step LAYUP both
lanes do, and one of them leads (log entry 42). -/
def mayLead (s : State) (l : Lane) : Bool := (startOf s l).isNone || getF s Reg.UPD_SEQ_step == 6

/-- The health vector of a lane's last valid watch word (R283). -/
def healthOf (s : State) : Lane → Nat
  | .a => getF s Reg.KPR_HLTHA_health
  | .b => getF s Reg.KPR_HLTHB_health

/-- The fusion of the new Active lane continues from the mirrored item, with `cap` cycles under the takeover cap; without one it starts at
the next epoch (R186, R532). A mirrored grade G4 in an automatic mode owes the fallback of R46 at that epoch. -/
def fusTake (cap : Nat) (l : Lane) (s : State) : State :=
  let auto := modeNow s == .approach || modeNow s == .berth
  if !fusionRuns (modeNow s) (getB s Reg.JX_MODE_warm) then s
  else if (s.lane l).mir.fusAdopted then
    showFus l (onFus l (fun f =>
      let k := f.key.getD ([], f.orgX, f.orgY)
      { f with run := true, tkLeft := cap, prevGrid := fromKeyframe k.1, curGrid := [], hasPrev := f.key.isSome, orgX := k.2.1,
               orgY := k.2.2, autojoy := auto && f.grd.grade == 4 }) s)
  else s

/-- The paths that follow the role from one lane to the other (R288, R296, R306, R186, R190, R250), with `cap` cycles of fusion under the
takeover cap: two after a takeover, none after a swap, whose cycle runs normally (R302). -/
def roleMove (cap : Nat) (old new : Lane) (s : State) : State :=
  let s1 := prpSend none (.arp new (macOf none) (ipOf none)) (roleIrq (setRole (some new) s))
  let s2 := metTakeover old new (readyLanes clkMoves (fusTake cap new s1))
  onLpe new (fun p => { p with cmds := [] })
    { s2 with kpr := { s2.kpr with mtcRun := 0, cmpRuns := [] } }

/-- What waits and was never acknowledged by the lane that takes over is lost with the failed lane; a pending swap is CANCELLED
(R303). Domains that only a lost mode command needed go off (R41). -/
def takeAuth (s : State) : State :=
  let u := s.authMir
  let s1 := { s with auth := { u with lastSign := s.auth.lastSign }, authMir := {}, mirTx := [],
                     waits := s.waits.filter (fun w => verReached u.ver w.verAcc) }
  let swaps := s1.auth.orders.filter (fun o => match o.val with
    | .swap _ => true
    | _ => false)
  let s2 := if swaps.isEmpty then s1 else authChange id (forEach (fun p s => dropOrder p Code.CANCELLED s) swaps s1)
  dropDoms (showAuth s2)

/-- Takeover by a lane (R296-R300): it becomes Active with the adopted authority state; a takeover publication is owed unless the
Keeper holds the failed lane's pub toggle of the cycle. -/
def takeover (old new : Lane) (s : State) : State :=
  let owes := modeNow s != .layup && s.cyc.begun && !(kprLane s old).pubSeen
  let s1 := { s with kpr := { s.kpr with tkE := some s.cyc.e, owed := if owes then some s.cyc.e else none } }
  let s2 := incF Reg.KPR_CNT1_takeov .a (roleMove 2 old new s1)
  let s3 := onKpr new (fun k => { k with pubSeen := !owes }) s2
  let s4 := onLane new (fun a => { a with slv := { a.slv with tkov := true }, mir := { a.mir with held := [], cur := [] } }) s3
  sweep (takeAuth { s4 with cyc := { s4.cyc with published := true, fusionOpen := false, mirrorOpen := false } })

/-- No lane is left to be Active (R290). -/
def noLane (cause : Nat) (s : State) : State :=
  let s1 := when (!decommissioned s) (raise .keeper Ev.KPR_NOLANE cause) s
  setF Reg.KPR_STAT_nolane 1 .a (dualReset 4 journalDual s1)

/-- The Keeper's record of a declaration (R296, R289): the lane is blocked, no longer admitted, and due for lane reset. -/
def fail (cause : Nat) (l : Lane) (s : State) : State :=
  let s1 := raise .keeper Ev.KPR_FAIL
    (cause + 2 ^ 8 * l.idx + 2 ^ 16 * getF s Reg.KPR_HLTHA_health + 2 ^ 32 * getF s Reg.KPR_HLTHB_health) s
  onKpr l (fun k => { k with failed := true, returning := false, readyAt := none, adm := false, okRun := 0,
                             resetDue := if getB s Reg.KPR_CFG_hold then none else some (plus s.now (10 * ms)) })
    (setF (admFld l) 0 .a (setF (blkFld l) 1 .a (setF Reg.KPR_STAT_cause cause .a s1)))

/-- Declare a lane failed (R284, R289, R290, R487). -/
def declare (cause : Nat) (l : Lane) (s : State) : State :=
  if (kprLane s l).failed then s
  else
    let heir := admitted s l.other && !blocked s l.other && ready s l.other && mayLead s l.other
    let lead := isActive s l
    let s1 := fail cause l s
    if !lead then sweep s1
    else if heir then takeover l l.other s1
    else noLane cause s1

/-- Both lanes declared failed within one slot (R290). -/
def declareBoth (cause : Nat) (s : State) : State :=
  if s.kpr.role.isSome then noLane cause (fail cause .b (fail cause .a s)) else fail cause .b (fail cause .a s)

/-! Watch words. -/

/-- Make a lane Active where none is (R287, R290): the preferred lane (or the one the update journal names, R489), the other one once
5 s have passed, and either after the loss of all lanes. Without mirrored loop states its slots take their persistent modes (log entry 69). -/
def tryActive (l : Lane) (s : State) : State :=
  let pref : Lane := s.upd.pref.getD (if getB s Reg.KPR_CFG_pref then .b else .a)
  if s.kpr.role.isSome || decommissioned s || !ready s l || !mayLead s l then s
  else if l = pref || s.kpr.late || (getB s Reg.KPR_STAT_nolane && s.upd.pref.isNone) then
    let s1 := roleIrq (prpSend none (.arp l (macOf none) (ipOf none)) (setRole (some l) s))
    onKpr l (fun k => { k with failed := false, resetDue := none })
      (showAuth { when (!(s1.lane l).mir.loopsIn) (modesInit l) s1 with upd := { s1.upd with pref := none }, kpr := { s1.kpr with mtcRun := 0, cmpRuns := [] } })
  else s

/-- The register of a lane's last valid watch word. -/
def showWord (l : Lane) (seq health : Nat) (s : State) : State :=
  match l with
  | .a => setF Reg.KPR_HLTHA_seq seq .a (setF Reg.KPR_HLTHA_health health .a s)
  | .b => setF Reg.KPR_HLTHB_seq seq .a (setF Reg.KPR_HLTHB_health health .a s)

/-- A lane whose supply is out of range loses its supplies (R463): for 100 ms, or for good when it is the second time within 10 min of
the restore. -/
def powerCycle (l : Lane) (s : State) : State :=
  let again := match (kprLane s l).fpwrAt with
    | some r => decide (since s.now r ≤ 600 * sec)
    | none => false
  let s1 := onKpr l (fun k => { k with failed := true, resetDue := none }) (setF (blkFld l) 1 .a (laneUnpower l s))
  if again then
    raiseAlarm .wake Ev.PWR_LANE l.idx l.idx (raise .wake Ev.PWR_LANEOFF l.idx (setF Reg.PWR_STAT_laneoff 1 .a
      (onKpr l (fun k => { k with offForGood := true, offAt := none }) s1)))
  else onKpr l (fun k => { k with offAt := some s.now }) (incF Reg.PWR_CNT_lanepc .a s1)

/-- WATCH_WORD (R284, R287): complement, sequence, reserved bits, then the fatal bits; a valid word without one may make its lane
Active. -/
def execWatchWord (t : Time) (l : Lane) (w : BitVec 64) (s : State) : Host.Outcome State Fault Refusal :=
  run t s (fun s =>
    let k := kprLane s l
    let lo := w.toNat % 2 ^ 32
    let seq := lo % 2 ^ 16
    let health := lo / 2 ^ 16
    if !s.kpr.up || k.failed || !ready s l then s
    else if w.toNat / 2 ^ 32 ≠ 2 ^ 32 - 1 - lo then declare 3 l s
    else
      let inSeq := !k.known || seq == (k.seq.toNat + 1) % 2 ^ 16
      let okRsv := health / 2 ^ 6 % 4 == 0 && health / 2 ^ 14 == 0
      let s1 := onKpr l (fun k => { k with known := true, seq := BitVec.ofNat 16 seq }) s
      if !(inSeq && okRsv) then s1
      else
        let pub := bit health 2
        let s2 := showWord l seq health
          (onKpr l (fun x => { x with valid := true, pub := pub, adm := bit health 3,
                                      pubSeen := k.pubSeen || pub != k.pub }) s1)
        if health / 2 ^ 8 % 64 ≠ 0 then
          let s3 := declare 2 l s2
          if bit health 13 then powerCycle l s3 else s3
        else tryActive l s2)

/-! The lane's side. -/

/-- Key of the image slot `n` of a lane among the slots of the update (R480). -/
def slotKey (l : Lane) (n : Nat) : Nat := 2 * l.idx + n

/-- Unlisted image slots. -/
def imgDef (_ : Nat) : ImgSlot := {}

/-- An image slot. -/
def imgSlot (s : State) (k : Nat) : ImgSlot := Sparse.get imgDef s.upd.slots k

/-- The stored bytes of an image: its blocks in order. -/
def imgBytes (x : ImgSlot) : List Byte := joinBlocks x.blocks

/-- Whether a lane holds VERIFIED the package of a kind that the Active lane has active (R91, R300). -/
def samePkg (s : State) (l m : Lane) (net : Bool) : Bool :=
  match activeBank s m net with
  | none => true
  | some k =>
    let st := getF s (bankFld net k) l
    within 2 4 st && bankDig (bankOf (s.lane l) net k) == bankDig (bankOf (s.lane m) net k)

/-- The first condition of R301 a lane does not meet, none when all hold. Condition 1 gives way to an update sequence; in Lay-up no set
is mirrored and condition 4 is not asked (log entry 43). -/
def admCond (s : State) (l : Lane) : Option Nat :=
  match active s with
  | none => some 1
  | some m =>
    let step := getF s Reg.UPD_SEQ_step
    let upd := [2, 3, 4, 6, 8].contains step
    let img (k : Lane) : List Byte := imgBytes (imgSlot s (slotKey k (runSlot s k)))
    if !upd && img l != img m then some 1
    else if !(samePkg s l m false && samePkg s l m true) then some 2
    else if (kprLane s l).okRun < 100 then some 3
    else if modeNow s != .layup && !((s.lane l).mir.oneSet && (s.lane l).mir.loopsIn) then some 4
    else if getB s Reg.MET_STAT_ldr l then some 5
    else none

/-- Whether an acquisition port of a lane is faulty: LOCKED, and its head reports a supply, MCLK or temperature fault (R219). -/
def apFaulty (s : State) (l : Lane) (n : Nat) : Bool :=
  getF s (Reg.MET_APn_STAT_state n) l == 3 && getF s (Reg.MET_APn_STAT_status n) l / 2 % 8 != 0

/-- Whether a lane has a non-fatal fault (R283, R450, R452, R453, R527): an error rate above its limit, spares low, the reference
apart, a port of the lane faulty, an assembly fault, the die warm (log entry 99). -/
def warnOf (s : State) (l : Lane) : Bool :=
  getB s Reg.TND_STAT_cerate l || getB s Reg.TND_STAT_flashlow l || getB s Reg.TND_STAT_oscdiff l || (s.lane l).health.dieWarn
    || getF s Reg.SLV_ASM_STAT_fault l != 0 || (List.range 4).any (fun n => getB s (Reg.GNB_IFn_STAT_fault n) l)
    || (List.range 24).any (apFaulty s l)

/-- The health vector a lane sends (R283). Of the conditions of R301 the Active lane meets those that compare it with the Active lane. -/
def healthVec (s : State) (l : Lane) : Nat :=
  let a := s.lane l
  let act := a.health.kword == some l
  let mir := if act then a.mir.sent else a.mir.adoptedCyc.isSome && a.mir.missRun == 0
  1 + 2 * b2n act + 4 * b2n a.health.pub + 8 * b2n (if act then !getB s Reg.MET_STAT_ldr l else (admCond s l).isNone) + 16 * b2n mir + 32 * b2n (warnOf s l)
    + a.health.fatal.toNat % 2 ^ 14 / 2 ^ 8 * 2 ^ 8

/-- WATCH_WORD_SEND (R282): every 1 ms of its MTC a lane sends a watch word. -/
def execWatchWordSend (t : Time) (l : Lane) (s : State) : Host.Outcome State Fault Refusal :=
  runLane t l s (fun s =>
    if s.now.toNat % ms ≠ 0 then s
    else
      let h := healthVec s l
      let seq := (s.lane l).health.seq + 1#16
      let lo := seq.toNat + 2 ^ 16 * h
      emit (.watch l (BitVec.ofNat 64 (lo + 2 ^ 32 * (2 ^ 32 - 1 - lo))))
        (onLane l (fun a => { a with health := { a.health with seq := seq, vec := BitVec.ofNat 16 h, adm := bit h 3 } }) s))

/-- KEEPER_WORD (R286): a lane takes the role the word carries; the Keeper is heard again. -/
def execKeeperWord (t : Time) (l : Lane) (role : Option Lane) (s : State) : Host.Outcome State Fault Refusal :=
  runLane t l s (fun s =>
    clearAlarm (laneSrc l 1) Ev.KPR_LOST l.idx l.idx
      (onLane l (fun a => { a with health := { a.health with kword := role, kwordAt := s.now } }) s))

/-- KEEPER_WORD_TIMEOUT (R286): a lane that receives no Keeper word for 10 ms raises KPR_LOST and keeps its role. -/
def execKeeperWordTimeout (t : Time) (l : Lane) (s : State) : Host.Outcome State Fault Refusal :=
  runLane t l s (fun s =>
    if since s.now (s.lane l).health.kwordAt < 10 * ms then s
    else raiseAlarm (laneSrc l 1) Ev.KPR_LOST l.idx l.idx (sysStat Reg.HRI_SYS_STAT_kprlost l s))

/-- LANE_FATAL_FAULT (R283): a fault of a lane sets its fatal bit, 8 to 13. -/
def execLaneFatalFault (t : Time) (l : Lane) (bit : Nat) (s : State) : Host.Outcome State Fault Refusal :=
  runLane t l s (fun s =>
    if within 8 13 bit then
      onLane l (fun a => { a with health := { a.health with fatal := putBit a.health.fatal bit true } }) s
    else s)

/-- REFERENCE_OSCILLATOR_LOSS (R283): the lane's 25 MHz reference is lost or a timebase PLL is unlocked: bit f_clk. -/
def execReferenceOscillatorLoss (t : Time) (l : Lane) (s : State) : Host.Outcome State Fault Refusal :=
  runLane t l s (onLane l (fun a => { a with health := { a.health with fatal := putBit a.health.fatal 12 true } }))

/-! The checks of a slot. -/

/-- Whether the Keeper watches a lane in its slots: it runs, the lane has a role or has sent a word since its reset, and it is not
declared failed. -/
def watched (s : State) (l : Lane) : Bool :=
  s.kpr.up && ((kprLane s l).known || admitted s l) && !(kprLane s l).failed

/-- The cycle in progress does not count toward a lane's confirmation (R485). -/
def notOk (l : Lane) (s : State) : State :=
  match l with
  | .a => { s with upd := { s.upd with okA := false } }
  | .b => { s with upd := { s.upd with okB := false } }

/-- Close a lane's slot (R284): a slot without a valid word is missed and counted. -/
def slotLane (l : Lane) (s : State) : State :=
  if !watched s l then s
  else if (kprLane s l).valid then onKpr l (fun k => { k with valid := false, missRun := 0 }) s
  else
    let s1 := notOk l (incF Reg.KPR_CNT0_miss .a (onKpr l (fun k => { k with missRun := k.missRun + 1 }) s))
    when (admitted s l) (fun s => { s with upd := { s.upd with kGood := s.now } }) s1

/-- A sample of the lanes' MTC (R284, R301), where both lanes run: one beyond 8 ns is counted, and recorded when it is the first of a run; one
within the bound counts toward the admission of a lane that is not Active. -/
def mtcSample (d : Int) (s : State) : State :=
  let other (f : KprLane → KprLane) (s : State) : State := bothLanes (fun l s => if isActive s l then s else onKpr l f s) s
  if !(ready s .a && ready s .b) then s
  else if d.natAbs ≤ 8 then
    other (fun k => { k with okRun := min (k.okRun + 1) 100 }) { s with kpr := { s.kpr with mtcRun := 0 } }
  else
    let s1 := bothLanes notOk (when (s.kpr.mtcRun == 0) (raise .keeper Ev.KPR_MTCDIFF (satInt 16 d)) s)
    incF Reg.KPR_CNT1_mtcx .a (other (fun k => { k with okRun := 0 }) { s1 with kpr := { s1.kpr with mtcRun := s.kpr.mtcRun + 1 } })

/-- The MTC check (R284): the 100th consecutive sample beyond 8 ns fails the Standby. -/
def mtcCheck (d : Int) (s : State) : State :=
  match standby s with
  | some l => if 8 < d.natAbs ∧ 100 ≤ s.kpr.mtcRun then declare 7 l { s with kpr := { s.kpr with mtcRun := 0 } } else s
  | none => s

/-- KEEPER_SLOT (R284, R286, R290): a 1 ms slot of the Keeper ends. `d` is MTC_A − MTC_B as it sampled them. -/
def execKeeperSlot (t : Time) (d : BitVec 64) (s : State) : Host.Outcome State Fault Refusal :=
  run t s (fun s =>
    if !s.kpr.up then s
    else
      let s1 := setF Reg.KPR_MTCD_d (satInt 16 d.toInt) .a s
      let s2 := mtcSample d.toInt (bothLanes slotLane s1)
      let gone (l : Lane) : Bool := watched s2 l && decide (3 ≤ (kprLane s2 l).missRun)
      let s3 := if gone .a && gone .b then declareBoth 1 s2
        else if gone .a then declare 1 .a s2
        else if gone .b then declare 1 .b s2
        else mtcCheck d.toInt s2
      bothLanes (fun l s => if ready s l then emit (.keeper l s.kpr.role) s else s) s3)

/-- PUB_CHECK (R284): no toggle of the Active lane's pub bit by the bound of the cycle. -/
def execPubCheck (t : Time) (s : State) : Host.Outcome State Fault Refusal :=
  run t s (fun s =>
    match active s with
    | none => s
    | some l =>
      let add := if s.kpr.grantE == some s.cyc.e then 22 else if s.kpr.tkE == some s.cyc.e then 7 else 2
      if !s.kpr.up || modeNow s == .layup || !s.cyc.begun || (kprLane s l).pubSeen then s
      else if since s.now s.cyc.e < (s.cyc.cur.deadline + add) * ms then s
      else declare 4 l s)

/-- MLINK_TIMEOUT (R284): no mirror-link frame either way for 25 ms while both lanes pass MISS. -/
def execMlinkTimeout (t : Time) (s : State) : Host.Outcome State Fault Refusal :=
  run t s (fun s =>
    match standby s with
    | none => s
    | some l =>
      if s.kpr.up && decide (25 * ms ≤ since s.now s.kpr.linkAt) && s.kpr.la.missRun == 0 && s.kpr.lb.missRun == 0 then
        declare 8 l s
      else s)

/-- FAILED_LANE_RESET (R296): 10 ms after its declaration a failed lane is placed in lane reset, unless it is held. -/
def execFailedLaneReset (t : Time) (l : Lane) (s : State) : Host.Outcome State Fault Refusal :=
  run t s (fun s =>
    match (kprLane s l).resetDue with
    | some d => if s.kpr.up && atOrAfter s.now d && !isActive s l then laneReset l s else s
    | none => s)

/-- PREFERRED_LANE_TIMEOUT (R287): the preferred lane has not become Active within 5 s; the other is made Active. -/
def execPreferredLaneTimeout (t : Time) (s : State) : Host.Outcome State Fault Refusal :=
  run t s (fun s =>
    if s.kpr.up && s.kpr.role.isNone && decide (5 * sec ≤ since s.now s.kpr.tStart) then
      let s1 := { s with kpr := { s.kpr with late := true } }
      forEach (fun l s => if watched s l && (kprLane s l).missRun == 0 then tryActive l s else s) [.a, .b] s1
    else s)

/-- ADMISSION_TIMEOUT (R301): a lane that has not set adm within 60 s of leaving reset stays blocked until a lane reset. -/
def execAdmissionTimeout (t : Time) (l : Lane) (s : State) : Host.Outcome State Fault Refusal :=
  run t s (fun s =>
    match (kprLane s l).readyAt with
    | none => s
    | some r =>
      if !s.kpr.up || isActive s l || admitted s l || (kprLane s l).adm || (kprLane s l).admFail || (active s).isNone
          || decide (since s.now r < 60 * sec) then s
      else
        setF (blkFld l) 1 .a (onKpr l (fun k => { k with admFail := true })
          (raise .keeper Ev.KPR_ADMFAIL (l.idx + 2 ^ 8 * (admCond s l).getD 4) s)))

/-- KEEPER_FAULT (R286): the Keeper is absent; the role lines keep their state. -/
def execKeeperFault (t : Time) (s : State) : Host.Outcome State Fault Refusal :=
  run t s (fun s => { s with kpr := { s.kpr with up := false } })

/-- The Keeper starts again and resumes its checks from the latched role lines; what it holds of the pub toggles stays (log entry 99). -/
def keeperStart (s : State) : State :=
  let k (x : KprLane) : KprLane := { x with known := false, valid := false, missRun := 0, okRun := 0 }
  { s with kpr := { s.kpr with up := true, la := k s.kpr.la, lb := k s.kpr.lb, mtcRun := 0, cmpRuns := [], linkAt := s.now },
           upd := { s.upd with kGood := s.now } }

/-- KEEPER_RESTART (R286): within 50 ms of a fault of its own. -/
def execKeeperRestart (t : Time) (s : State) : Host.Outcome State Fault Refusal :=
  run t s (fun s => if s.kpr.up then s else keeperStart s)

/-! Comparison of the lanes (R285). -/

/-- Disagreement (R285): the Standby is declared failed, or the Active where its warn bit is set. -/
def disagree (cause : Nat) (s : State) : State :=
  match active s with
  | some m => if bit (healthOf s m) 5 then declare cause m s else declare cause m.other s
  | none => s

/-- Whether two outputs differ beyond the loop bound (R285), exactly. -/
def loopApart (s : State) (m : Lane) (n : Nat) (x y : F64) : Bool :=
  let b := bankSl s m n
  let d := Dy.add (F64.val x) (Dy.neg (F64.val y))
  let d : Dy := ⟨d.m.natAbs, d.e⟩
  let span := Dy.add (F64.val (coef s n b 1)) (Dy.neg (F64.val (coef s n b 0)))
  Dy.lt (Dy.mul (Dy.ofInt (getF s Reg.KPR_CFG_loopb)) span) (Dy.mul (Dy.ofInt 1000) d)

/-- Compare one slot's outputs of one instant. -/
def cmpSlot (m : Lane) (x : Nat × Time × F64) (s : State) : State :=
  match (kprLane s m.other).loopRep.find? (fun y => y.1 == x.1 && y.2.1 == x.2.1) with
  | none => s
  | some y =>
    if loopApart s m x.1 x.2.2 y.2.2 then
      bothLanes notOk (incF Reg.KPR_CNT0_cmp .a
        { s with kpr := { s.kpr with cmpRuns := Sparse.set (fun _ => 0) s.kpr.cmpRuns x.1 (Sparse.get (fun _ => 0) s.kpr.cmpRuns x.1 + 1) } })
    else { s with kpr := { s.kpr with cmpRuns := Sparse.set (fun _ => 0) s.kpr.cmpRuns x.1 0 } }

/-- The outputs a lane reports (R285): of each slot that is not OFF, the last sample's instant and output, before correction. -/
def reportOf (s : State) (l : Lane) : List (Nat × Time × F64) :=
  allSlots.filterMap (fun n =>
    match modeSl s l n, (slotSt s l n).hist with
    | 0, _ => none
    | _, h :: _ => some (n, h.inst, h.u)
    | _, [] => (slotSt s l n).done.map (fun i => (n, i, (slotSt s l n).u)))

/-- LOOP_OUTPUT_REPORT (R285): at each MTC multiple of 10 ms a lane reports its outputs, the Standby before correction; the Keeper
compares once it has both reports of the instant. -/
def execLoopOutputReport (t : Time) (l : Lane) (s : State) : Host.Outcome State Fault Refusal :=
  runLane t l s (fun s =>
    if s.now.toNat % (10 * ms) ≠ 0 || !s.kpr.up then s
    else
      let s1 := onKpr l (fun k => { k with loopAt := some s.now, loopRep := reportOf s l }) s
      match active s1, standby s1 with
      | some m, some _ =>
        if (kprLane s1 l.other).loopAt == some s.now then
          let s2 := forEach (cmpSlot m) (kprLane s1 m).loopRep s1
          if s2.kpr.cmpRuns.any (fun r => decide (3 ≤ r.2)) then disagree 5 { s2 with kpr := { s2.kpr with cmpRuns := [] } } else s2
        else s1
      | _, _ => s1)

/-- METROLOGY_TOTAL_REPORT (R285): at each MTC multiple of 1 s a lane reports codes 0x00 and 0x01 of every valid point at the sample referred
to that instant; a total that differs beyond the bound is a disagreement. -/
def execMetrologyTotalReport (t : Time) (l : Lane) (s : State) : Host.Outcome State Fault Refusal :=
  runLane t l s (fun s =>
    match (s.lane l).met.last with
    | none => s
    | some r =>
      if r.toNat % sec ≠ 0 || !s.kpr.up then s
      else
        let rep := ((metPoints s).filter (fun q => getB s (Reg.MET_PTn_STAT_valid q.1) l)).flatMap (fun q => [0, 1].map (fun c => (q.1, c, BitVec.ofNat 64 (metReg (metPt s l q.1) c))))
        let s1 := onKpr l (fun k => { k with metAt := some r, metRep := rep }) s
        match active s1, standby s1 with
        | some m, some _ =>
          if (kprLane s1 l.other).metAt == some r then
            let apart (x : Nat × Nat × BitVec 64) : Bool :=
              match (kprLane s1 m.other).metRep.find? (fun y => y.1 == x.1 && y.2.1 == x.2.1) with
              | some y => decide (getF s1 Reg.KPR_CFG_metb < (x.2.2 - y.2.2).toInt.natAbs)
              | none => false
            let bad := ((kprLane s1 m).metRep.filter apart).length
            if bad = 0 then s1 else disagree 6 (bothLanes notOk (incF Reg.KPR_CNT0_cmp .a s1 bad))
          else s1
        | _, _ => s1)

/-! Takeover publication and admission. -/

/-- TAKEOVER_PUBLICATION (R297, R298): the new Active lane publishes the mirrored solution, shifted under R122, for the cycle of the
takeover. The count rises by the epochs passed since the mirrored solution's; a solution of that very cycle has been counted already. -/
def execTakeoverPublication (t : Time) (s : State) : Host.Outcome State Fault Refusal :=
  run t s (fun s =>
    match s.kpr.owed, active s with
    | some e, some l =>
      let s1 := { s with kpr := { s.kpr with owed := none } }
      if e ≠ s.cyc.e || !ready s l || modeNow s == .layup then s1
      else
        let v := (s.lane l).slv
        let p := actPkg s l
        let passed := if v.sol.isSome || v.shcnt ≠ 0 then (rdK s Reg.JX_CYC_COUNT - v.solCyc).toNat else 1
        publish l p ⟨.shifted, min (v.shcnt + passed) 255, shiftedNow s l p, false, true⟩ s1
    | _, _ => s)

/-- Admission at an epoch (R301): a lane whose adm is set becomes Standby and is unblocked; it is sent the authority state. -/
def admitLane (l : Lane) (s : State) : State :=
  let k := kprLane s l
  if s.kpr.up && s.kpr.role == some l.other && ready s l && !admitted s l && k.adm && !k.failed && !k.admFail then
    let s1 := setF (admFld l) 1 .a (setF (blkFld l) 0 .a s)
    sendItem (.authority s1.auth) { s1 with kpr := { s1.kpr with linkAt := s.now } }
  else s

end Sys2Proof.Machine
end

