-- ==== Sys2Proof/Machine/Mirror.lean ====
section
/-!
DEFINITION. The mirror link (R291-R295): sending the mirrored set in its window, its frames and their checks, adoption by the
Standby, acknowledgement; and the power-down after the mirror window of a mode's last cycle (R44).
-/

namespace Sys2Proof.Machine

/-- Change a lane's mirroring state. -/
def onMir (l : Lane) (f : MirSt → MirSt) : State → State := onLane l (fun a => { a with mir := f a.mir })

/-! Sending. -/

/-- Whether the keyframe travels in this cycle (R185): every cycle when P ≥ 100 ms, else every ⌈100 ms / P⌉-th. -/
def keyDue (s : State) (n : Nat) : Bool :=
  let p := s.cyc.cur.period
  decide (100 ≤ p) || decide (p = 0) || n % ((100 + p - 1) / p) == 0

/-- The FUSION item of a cycle (R185), with the keyframe where it travels. -/
def fusMir (s : State) (l : Lane) (key : Bool) : FusMir :=
  let f := (s.lane l).fus
  ⟨f.items, f.filter, f.grd, s.auth.trust, f.prov, if key && f.hasPrev then some (keyframeOf f.prevGrid, f.orgX, f.orgY) else none⟩

/-- The items of the cycle's set (R291), without the SEAL. -/
def cycleItems (s : State) (l : Lane) : List MirItem :=
  let a := s.lane l
  let f := a.fus
  let sol := [MirItem.solution (rdK s (Reg.SLV_OUT_STAT + laneSpan * (1 + l.idx))) a.slv.sol]
  let fus : List MirItem := if f.run then
      [.fusion (fusMir s l (keyDue s f.keyCnt))]
    else []
  sol ++ fus ++ [.dispatch a.slv.disp,
    .recorder ⟨getF s Reg.REC_STAT_wslot, rdK s Reg.REC_SEQ, rdK s Reg.REC_OVF⟩]

/-- An item of the set as it goes to the standby module (R312): the keyframe every ⌈1 s / P⌉ cycles. -/
def moduleItem (s : State) (l : Lane) (it : MirItem) : MirItem :=
  let p := max 1 s.cyc.cur.period
  match it with
  | .fusion _ => .fusion (fusMir s l ((s.lane l).fus.keyCnt % ((1000 + p - 1) / p) == 0))
  | it => it

/-- A set closed by its SEAL. -/
def sealed (its : List MirItem) : List MirItem := its ++ [.seal (its.map sealEnt)]

/-- MIRROR_WINDOW_OPEN (R24, R291): at its mark the Active lane sends the set of the cycle, closed by the SEAL. In Lay-up no set is
mirrored (R485). -/
def execMirrorWindowOpen (t : Time) (s : State) : Host.Outcome State Fault Refusal :=
  run t s (fun s =>
    match active s with
    | none => s
    | some l =>
      if !atMark s s.cyc.cur.mirror || modeNow s == .layup || !ready s l then s
      else
        let s1 := { s with cyc := { s.cyc with mirrorOpen := true }, kpr := { s.kpr with recOpen := rdK s Reg.REC_SEQ } }
        let its := cycleItems s1 l
        let s2 := forEach sendModule (sealed (its.map (moduleItem s1 l))) (forEach sendItem (sealed its) s1)
        let keyed := (s1.lane l).fus.run && keyDue s1 (s1.lane l).fus.keyCnt && (s1.lane l).fus.hasPrev
        onFus l (fun f => { f with keyCnt := f.keyCnt + 1,
                                   lastKey := if keyed then some (keyframeOf f.prevGrid, f.orgX, f.orgY) else f.lastKey }) (onMir l (fun m => { m with sent := false }) s2))

/-! Adoption. -/

/-- A mirrored solution is adopted (R293, R90): the count continues from the status word, also where that cycle repeated an allocation
and had no solution (R121, R122); the solution clears cold when it is of the lane's own active package and descends from an
accepted one. -/
def adoptSolution (l : Lane) (cyc w : Word) (x : Option Solution) (s : State) : State :=
  let st := w.toNat
  let own := match x, actPkg s l with
    | some x, some p => x.dig == BitVec.ofNat 64 (leNat (p.dig.take 8))
    | _, _ => false
  when (own && (decide (st % 8 ≤ 2) || !bit st 15)) (setF Reg.SLV_PKG_BANK_cold 0 l)
    (onSlv l (fun v => { v with sol := x, solCyc := cyc, shcnt := st / 2 ^ 24 }) s)

/-- A mirrored fusion item is adopted (R185): the Standby's FUS_STAT reports the record with mirr set (R187), the grade state's trust and
votes with it. -/
def adoptFusion (l : Lane) (x : FusMir) (s : State) : State :=
  let s1 := onFus l (fun f =>
    { f with items := x.items, filter := x.filter, grd := x.grd, prov := x.prov, key := x.key.or f.key, lastKey := x.key.or f.lastKey }) s
  let s2 := onMir l (fun m => { m with fusAdopted := true }) s1
  let fl := (F64.val (x.items.getD 21 0#64)).floor.toNat
  let g3 := Dy.floor (Dy.mul (F64.val (x.items.getD 17 0#64)) ⟨2, 0⟩)
  setF Reg.FUS_STAT_mirr 1 l (setF Reg.FUS_STAT_off 0 l (setF Reg.FUS_STAT_grade x.grd.grade l
    (setB Reg.FUS_STAT_late (bit fl 0) l (setB Reg.FUS_STAT_ego (bit fl 1) l (setB Reg.FUS_STAT_tkcap (bit fl 2) l
      (setB Reg.FUS_STAT_prov (bit fl 3) l (setF Reg.FUS_STAT_nagree (min (F64.val (x.items.getD 16 0#64)).floor.toNat 15) l
        (setB Reg.FUS_STAT_suspect x.grd.suspect l (setB Reg.FUS_STAT_nohdg x.grd.nohdg l
          (setB Reg.FUS_STAT_datum s.authMir.datum.isSome l (setB Reg.FUS_STAT_trusten x.trust.isSome l (setF Reg.FUS_STAT_trust (x.trust.getD 0) l
            (setF Reg.FUS_STAT_drtime (min g3.toNat 255) l s2)))))))))))))

/-- The Standby compares the mirrored recorder values with its own reading (R446). -/
def adoptRecorder (l : Lane) (x : RecMir) (s : State) : State :=
  let own := rdK s Reg.REC_SEQ
  let d := (own - x.seq).toInt.natAbs
  when (decide ((own - s.kpr.recOpen).toNat < d)) (raise (laneSrc l 5) Ev.REC_MIRDIFF (own.toNat + 2 ^ 32 * x.seq.toNat)) s

/-- One item of an adopted set. -/
def adoptItem (l : Lane) (cyc : Word) (it : MirItem) (s : State) : State :=
  match it with
  | .solution w x => adoptSolution l cyc w x s
  | .fusion x => adoptFusion l x s
  | .dispatch d => onSlv l (fun v => { v with disp := d, prior := v.disp.last, newPkg := false }) s
  | .recorder x => adoptRecorder l x s
  | _ => s

/-- Adoption of the set of a cycle at its SEAL (R294). -/
def adoptSet (l : Lane) (cyc : Word) (s : State) : State :=
  let s1 := forEach (adoptItem l cyc) (s.lane l).mir.held s
  let s2 := onMir l (fun m => { m with held := [], adoptedCyc := some cyc, missRun := 0, oneSet := true }) s1
  emit (.ack s2.authMir.ver cyc)
    (setF Reg.KPR_STAT_mirok 1 .a (clearAlarm (laneSrc l 1) Ev.KPR_MIRROR 0 0 s2))

/-- An authority item is adopted on arrival (R294): the arms and the loop commands it carries follow, and it is acknowledged. -/
def adoptAuth (l : Lane) (u : Auth) (s : State) : State :=
  let s1 := setB Reg.FUS_STAT_datum u.datum.isSome l (armSync l u { adoptLoops l u s with authMir := u })
  emit (.ack u.ver ((s1.lane l).mir.adoptedCyc.getD 0xFFFFFFFF#32)) s1

/-- A complete item whose complement pair checks (R294): AUTHORITY and LOOP at once, the others held aside for the SEAL. -/
def takeItem (l : Lane) (cyc : Word) (it : MirItem) (s : State) : State :=
  let m := (s.lane l).mir
  match it with
  | .authority u => adoptAuth l u s
  | .loops x => correctLoops l x s
  | .seal es =>
    if s.cyc.mirrorOpen && (es.isEmpty || m.heldCyc == cyc) && sealMet es m.held then
      adoptSet l cyc s
    else onMir l (fun m => { m with held := [] }) s
  | it => onMir l (fun m => { m with heldCyc := cyc, held := (if m.heldCyc = cyc then m.held else []) ++ [it] }) s

/-! Frames. -/

/-- The first queued item of a type, and the queue without it. -/
def popItem (c : Nat) : List MirItem → Option (MirItem × List MirItem)
  | [] => none
  | i :: is => if i.code = c then some (i, is) else (popItem c is).map (fun r => (r.1, i :: r.2))

/-- A frame with a correct CRC at the receiving lane (R292, R294): the last frame of an item completes it; an item with a gap is lost, one
with a failing pair is rejected whole. -/
def takeFrame (l : Lane) (f : List Byte) (s : State) : State :=
  let c := frTyp f
  let lost (s : State) : State := { s with mirTx := ((popItem c s.mirTx).map (·.2)).getD s.mirTx }
  let s1 := onMir l (fun m => { m with cur := alDel m.cur c }) s
  match joined (s.lane l).mir.cur f with
  | none => if frLast f then lost s1 else s1
  | some x =>
    if !frLast f then onMir l (fun m => { m with cur := alSet m.cur c x }) s
    else if !complOf x.main x.cpl then raise (laneSrc l 1) Ev.KPR_MIRPAIR (c + 2 ^ 32 * (frCyc f).toNat) (lost s1)
    else
      match takeFlight c (secsAll x) s1.mirTx with
      | some (it, rest) => takeItem l (frCyc f) it { s1 with mirTx := rest }
      | none => lost s1

/-- MIRROR_FRAME (R292, R294): a frame of the mirror link reaches the Standby or a returning lane (R295). -/
def execMirrorFrame (t : Time) (f : List Byte) (s : State) : Host.Outcome State Fault Refusal :=
  run t s (fun s =>
    match active s with
    | none => s
    | some m =>
      if !linkSends s then s
      else
        let s1 := { s with kpr := { s.kpr with linkAt := s.now } }
        if frCrcOk f then takeFrame m.other f s1 else s1)

/-- MIRROR_ACK (R294, R295): an acknowledgement reaches the Active lane; that of a lane not admitted counts for nothing. -/
def execMirrorAck (t : Time) (ver _cyc : Word) (crcOk : Bool) (s : State) : Host.Outcome State Fault Refusal :=
  run t s (fun s =>
    if (active s).isNone || !linkSends s then s
    else
      let s1 := { s with kpr := { s.kpr with linkAt := s.now } }
      if !crcOk || (standby s).isNone then s1
      else if verReached ver s1.ackVer then sweep { s1 with ackVer := ver } else s1)

/-! The close of the window. -/

/-- The mode change due at the next epoch, if any. -/
def dueMode (s : State) : Option (Mode × Bool) :=
  s.auth.orders.reverse.findSome? (fun o => match o.val with
    | .mode m w => if isDue s s.cyc.nextE o then some (m, w) else none
    | _ => none)

/-- A set that was not adopted by the close of its window is a miss (R29, R294). -/
def mirrorMiss (l : Lane) (s : State) : State :=
  let s1 := raise (laneSrc l 1) Ev.KPR_MIRMISS (2 ^ 32 * (rdK s Reg.JX_CYC_COUNT).toNat)
    (incF Reg.KPR_CNT1_mirmiss .a (setF Reg.KPR_STAT_mirok 0 .a s))
  let s2 := onMir l (fun m => { m with missRun := m.missRun + 1, held := [] }) s1
  if 3 ≤ (s2.lane l).mir.missRun then raiseAlarm (laneSrc l 1) Ev.KPR_MIRROR 0 0 s2 else s2

/-- MIRROR_WINDOW_CLOSE (R24, R29, R44): 8 ms after its opening the window closes; what was not transferred is dropped; in the last cycle
of a mode, the domains the new mode does not need are powered down. A module off the ring has no exchange window: the cores' clocks
stop with this last stage of the cycle (R28, log entry 66). -/
def execMirrorWindowClose (t : Time) (s : State) : Host.Outcome State Fault Refusal :=
  run t s (fun s =>
    if !atMark s (s.cyc.cur.mirror + 8) then s
    else
      let s1 := match s.cyc.mirrorOpen, active s with
        | true, some m =>
          let left := s.mirTx.any (fun i => i.code != 4 && i.code != 5)
          let sends := linkSends s
          let s2 := onMir m (fun x => { x with sent := sends && !left })
            { s with mirTx := s.mirTx.filter (fun i => i.code == 4 || i.code == 5), cyc := { s.cyc with mirrorOpen := false } }
          if (standby s).isSome && (s.lane m.other).mir.adoptedCyc != some (rdK s Reg.JX_CYC_COUNT) then mirrorMiss m.other s2 else s2
        | _, _ => s
      let s2 := match dueMode s1 with
        | some (m, w) => bothLanes (powerDown (modeDoms m w)) s1
        | none => s1
      if getB s2 Reg.NET_RING_CFG_en then s2 else readyLanes (stopPll .cores) s2)

end Sys2Proof.Machine
end

