-- ==== Sys2Proof/Machine/Ring.lean ====
section
/-!
DEFINITION. The vessel network's PRP (R304, R305) and the Ramjor ring (R307-R316): frames and forwarding, cycle synchronisation, the
exchange window, module mirroring, and installations with a standby module. The payload layout of SYNC is the model's (log entry 44).
-/

namespace Sys2Proof.Machine

/-- Change the network state. -/
def onNet (f : NetSt → NetSt) (s : State) : State := { s with net := f s.net }

/-! PRP. -/

/-- Forget time of the node table (R305). -/
def forgetNs : Nat := 60 * sec

/-- Set a node of the table. -/
def setNode (mac : BitVec 48) (x : PrpNode) : State → State :=
  onNet (fun n => { n with nodes := n.nodes.filter (fun p => p.1 != mac) ++ [(mac, x)] })

/-- PRP_FRAME (R305): a frame on LAN A or B from a node. `rct` holds the LAN identifier and the sequence number of its trailer, none
for a node without one. The second copy is discarded; a copy missing for the forget time is counted. -/
def execPrpFrame (t : Time) (lanB : Bool) (src : BitVec 48) (rct : Option (Nat × BitVec 16)) (s : State) :
    Host.Outcome State Fault Refusal :=
  run t s (fun s =>
    match rct with
    | none => s
    | some (lan, seq) =>
      let s1 := when (lan != (if lanB then 0xB else 0xA)) (incF Reg.NET_PRP_CNT_wlan .a) s
      let old := (s1.net.nodes.find? (fun p => p.1 == src)).map (·.2)
      match old with
      | none =>
        if s1.net.nodes.length < 256 then setNode src ⟨s.now, [(seq, lanB, s.now)]⟩ s1 else s1
      | some x =>
        let late := x.recent.filter (fun r => decide (forgetNs ≤ since s.now r.2.2))
        let live := x.recent.filter (fun r => !decide (forgetNs ≤ since s.now r.2.2))
        let s2 := incF Reg.NET_PRP_CNT_miss .a s1 late.length
        if live.any (fun r => r.1 == seq && r.2.1 != lanB) then
          setNode src ⟨s.now, live.filter (fun r => !(r.1 == seq && r.2.1 != lanB))⟩ s2
        else setNode src ⟨s.now, live ++ [(seq, lanB, s.now)]⟩ s2)

/-- Source addresses the module uses on the vessel network (R305, R306): each ready lane's own, and the module address while a lane answers it. -/
def prpSources (s : State) : List (Option Lane) :=
  [Lane.a, .b].filterMap (fun l => if ready s l then some (some l) else none) ++ (if (active s).isSome then [none] else [])

/-- PRP_SUPERVISION (R305): every 2 s, on both LANs, for each source address. -/
def execPrpSupervision (t : Time) (s : State) : Host.Outcome State Fault Refusal :=
  run t s (fun s => forEach (fun a s => prpSend a (.prpSup (macOf a)) s) (prpSources s) s)

/-- NODE_FORGET (R305): a node not heard for the forget time leaves the table. -/
def execNodeForget (t : Time) (mac : BitVec 48) (s : State) : Host.Outcome State Fault Refusal :=
  run t s (fun s =>
    match s.net.nodes.find? (fun p => p.1 == mac) with
    | some (_, x) =>
      if since s.now x.heard < forgetNs then s
      else incF Reg.NET_PRP_CNT_miss .a (onNet (fun n => { n with nodes := n.nodes.filter (fun p => p.1 != mac) }) s) x.recent.length
    | none => s)

/-! Ramjor frames. -/

/-- `n` bytes of a frame's header at an offset, as a number. -/
def hdrN (f : RingFrame) (o n : Nat) : Nat := f.hdr.toNat / 2 ^ (8 * o) % 2 ^ (8 * n)

/-- Fields of the header (R307). -/
def rfSrc (f : RingFrame) : Nat := hdrN f 2 2 % 1024
def rfDest (f : RingFrame) : Nat := hdrN f 8 2 % 1024
def rfHops (f : RingFrame) : Nat := hdrN f 10 1

/-- Whether a frame's FCS and header pair check. -/
def hdrOk (f : RingFrame) : Bool := f.fcsOk && hdrN f 24 8 == 2 ^ 64 - 1 - hdrN f 0 8

/-- Whether the payload of an ARB or GRANT frame ends with the complement of its first 16 bytes (R315). -/
def payPairOk (f : RingFrame) : Bool :=
  f.payload.length == 32 && leAt f.payload 16 16 == 2 ^ 128 - 1 - leAt f.payload 0 16

/-- Originate a frame (R308): on WA and WB where the link is up, with as many hops as the ring has modules. -/
def originate (typ dest : Nat) (payload : List Byte) (s : State) : State :=
  if !getB s Reg.NET_RING_CFG_en then s
  else
    let seq := s.net.seq + 1#32
    let s1 := onNet (fun n => { n with seq := seq }) s
    let tx (wb : Bool) (s : State) : State := emit (.ring wb typ (mkHdr s typ dest (ringCount s) 1 wb seq) payload) s
    when (getB s Reg.NET_RING_STAT_wb) (tx true) (when (getB s Reg.NET_RING_STAT_wa) (tx false) s1)

/-- The delivery window of a source (R308): whether this copy is the first, the window after it, whether it leaps past the window. -/
def window (o : Option RingSrc) (seq : Word) (now : Time) : Bool × RingSrc × Bool :=
  match o with
  | none => (true, ⟨seq, 0#64, now⟩, false)
  | some x =>
    let up := (seq - x.hi).toNat
    let down := (x.hi - seq).toNat
    if up = 0 then (false, x, false)
    else if up < 2 ^ 31 then
      (true, ⟨seq, if up ≤ 64 then (x.mask <<< up) ||| BitVec.ofNat 64 (2 ^ (up - 1)) else 0#64, now⟩, decide (64 < up))
    else if down ≤ 64 && !x.mask.getLsbD (down - 1) then
      (true, { x with mask := x.mask ||| BitVec.ofNat 64 (2 ^ (down - 1)), last := now }, false)
    else (false, x, false)

/-- Alarm NET_XWIN (R310): the modules of the ring need more than the window. -/
def checkXwin (s : State) : State :=
  let n := ringCount s
  if s.cyc.cur.xwin * ms < n * 31208 then raiseAlarm (.bus 12) Ev.NET_XWIN 0 n s else clearAlarm (.bus 12) Ev.NET_XWIN 0 n s

/-- Membership shown and checked. -/
def showMembers (s : State) : State := checkXwin (setF Reg.NET_RING_RTT_nmod (members s).length .a s)

/-- Forward a frame on the other port with one hop less (R308). -/
def forward (port : Bool) (typ : Nat) (f : RingFrame) (s : State) : State :=
  let up := if port then getB s Reg.NET_RING_STAT_wa else getB s Reg.NET_RING_STAT_wb
  when up (emit (.ring (!port) typ (BitVec.ofNat 256 (f.hdr.toNat - 2 ^ 80)) f.payload)) s

/-- A frame of type `typ` arrives on WA (false) or WB (true) (R307, R308): header check, drop, forwarding, and delivery of the first
copy of each source and sequence by `k`. -/
def ringArrive (port : Bool) (typ : Nat) (f : RingFrame) (k : State → State) (s : State) : State :=
  if !getB s Reg.NET_RING_CFG_en then s
  else if !hdrOk f then incF Reg.NET_RING_CNT_hdr .a s
  else if hdrN f 0 1 ≠ 1 || hdrN f 1 1 ≠ typ || rfSrc f = ringNum s || rfHops f = 0 then s
  else
    let mine := rfDest f == ringNum s
    let s1 := when (!mine && (typ != 2 || winOpen s)) (forward port typ f) s
    if !mine && rfDest f ≠ 0x3FF then s1
    else
      let w := window (alGet s1.net.srcs (rfSrc f)) (BitVec.ofNat 32 (hdrN f 4 4)) s.now
      if !w.1 then s1
      else
        let s2 := when w.2.2 (incF Reg.NET_RING_CNT_gap .a) (onNet (fun n => { n with srcs := alSet n.srcs (rfSrc f) w.2.1 }) s1)
        k (showMembers s2)

/-! Cycle synchronisation (R309). -/

/-- Payload of SYNC: E, local time at E (TAI seconds, ns), P, xwin and the sender's priority (log entry 44). -/
def syncBytes (s : State) (e : Time) : List Byte :=
  let lt := ltAt s (timeLane s) e
  leBytes 8 e.toNat ++ leBytes 8 (lt / sec).toNat ++ leBytes 4 (lt % sec).toNat ++ leBytes 2 s.cyc.set.period
    ++ leBytes 1 s.cyc.set.xwin ++ leBytes 1 (getF s Reg.NET_RING_CFG_prio)

/-- The order of sync masters: priority, then module number. -/
def before (p n q m : Nat) : Bool := decide (p < q) || (decide (p = q) && decide (n < m))

/-- The phase the master's epoch has here (R309): the MTC at which its local time falls, modulo P. -/
def phaseOf (s : State) (lt : Int) : Nat := (mtcReaching (s.lane (timeLane s)).tmb.clk lt).toNat % max 1 s.cyc.set.ns

/-- New ranks (R310): this module's place among the modules of the ring, counted from 0. -/
def rankNow (s : State) : State :=
  let k := ((members s).filter (fun m => decide (m < ringNum s))).length
  onNet (fun n => { n with rank := some k, nRanked := ringCount s }) (checkXwin s)

/-- A SYNC taken from the sync master. -/
def takeSync (f : RingFrame) (s : State) : State :=
  let src := rfSrc f
  let prio := leAt f.payload 23 1
  let me := before (getF s Reg.NET_RING_CFG_prio) (ringNum s) prio src
  let known := s.net.lastSync.isSome && !getB s Reg.NET_RING_STAT_master
  let yields := known && src != getF s Reg.NET_RING_STAT_mnum && before s.net.masterPrio (getF s Reg.NET_RING_STAT_mnum) prio src
  if me || yields || f.payload.length < 24 || (active s).isNone then s
  else
    let lt : Int := (leAt f.payload 8 8 * sec + leAt f.payload 16 4 : Nat)
    let bad := leAt f.payload 20 2 != s.cyc.set.period || leAt f.payload 22 1 != s.cyc.set.xwin
    let s1 := when (bad && !s.net.mismatch) (raise (.bus 12) Ev.NET_CYCMIS src) s
    let s2 := setF Reg.NET_RING_STAT_mnum src .a (setF Reg.NET_RING_STAT_master 0 .a
      (onNet (fun n => { n with lastSync := some s.now, masterPrio := prio, mismatch := bad, toMaster := false }) s1))
    let s3 := takePhase (phaseOf s2 lt) s2
    if hdrN f 12 4 % 100 = 0 then rankNow s3 else s3

/-- SYNC_FRAME (R309). -/
def execSyncFrame (t : Time) (port : Bool) (f : RingFrame) (s : State) : Host.Outcome State Fault Refusal :=
  run t s (ringArrive port 1 f (takeSync f))

/-- SYNC_LOSS (R309): SYNC has been absent for 3 cycles; this module, the next in order, becomes sync master at its next epoch. -/
def execSyncLoss (t : Time) (s : State) : Host.Outcome State Fault Refusal :=
  run t s (fun s =>
    let absent := match s.net.lastSync with
      | some x => decide (3 * s.cyc.set.ns ≤ since s.now x)
      | none => true
    if getB s Reg.NET_RING_CFG_en && !getB s Reg.NET_RING_STAT_master && absent then onNet (fun n => { n with toMaster := true }) s
    else s)

/-- What the ring does at an epoch (R309, R310): a new master takes over, the master sends SYNC, ranks are recomputed by its count, the
first PROBE after the ring is enabled. -/
def ringEpoch (e : Time) (s : State) : State :=
  let s := flushModule s
  if !getB s Reg.NET_RING_CFG_en || (active s).isNone then s
  else
    let s1 := if s.net.toMaster then
        setF Reg.NET_RING_STAT_mnum (ringNum s) .a (setF Reg.NET_RING_STAT_master 1 .a
          (onNet (fun n => { n with toMaster := false, mismatch := false }) s))
      else s
    let s2 := if getB s1 Reg.NET_RING_STAT_master then
        let s := originate 1 0x3FF (syncBytes s1 e) s1
        if (rdK s Reg.JX_CYC_COUNT).toNat % 100 = 0 then rankNow s else s
      else s1
    if s2.net.probed then s2
    else
      let s3 := originate 5 0x3FF [] s2
      onNet (fun n => { n with probed := true, probeSeq := n.seq, probeAt := e, probeWa := false, probeWb := false }) s3

/-! The exchange window (R310, R311). -/

/-- A field as it leaves the module (R151): a drive field from the drive part, any other from stage 1 of the solution part. -/
def exchField (r : AllocRec) (c : Nat) : Option (Bool × F64) :=
  if isDrive c then (r.drive.find? (fun d => d.code == c)).map (fun d => (d.valid, d.val))
  else (r.sol.find? (fun e => e.code == c && e.stage == 1)).map (fun e => (e.valid, e.val))

/-- The fields a module exchanges, in ascending code, of the codes of R140. -/
def exchFields (r : AllocRec) : List (Nat × Bool × F64) := (List.range 0x419).filterMap (fun c => (exchField r c).map (fun x => (c, x)))

/-- The EXCH payload: E, stamp, status, then up to 90 fields. -/
def exchBytes (r : AllocRec) : List Byte :=
  leBytes 8 r.e.toNat ++ leBytes 8 r.stamp.toNat ++ leBytes 4 r.status.toNat
    ++ ((exchFields r).take 90).flatMap (fun e => leBytes 2 e.1 ++ leBytes 2 (b2n e.2.1) ++ leBytes 4 0 ++ leBytes 8 e.2.2.toNat)

/-- EXCHANGE_SLOT (R310, R311): the module's slot starts; it sends the data of the cycle, where its slot fits. -/
def execExchangeSlot (t : Time) (s : State) : Host.Outcome State Fault Refusal :=
  run t s (fun s =>
    match active s, s.net.rank with
    | some l, some k =>
      let fits := (k + 1) * 17704 + s.net.nRanked * 13504 ≤ s.cyc.cur.xwin * ms
      if !getB s Reg.NET_RING_CFG_en || s.net.mismatch || s.now ≠ plus (winStart s) (k * 17704) || !fits then s
      else
        match (s.lane l).slv.disp.last with
        | some r =>
          if r.e ≠ s.cyc.e then s
          else
            let n := (exchFields r).length
            let s1 := if 90 < n && !s.net.exchFullDone then
                onNet (fun x => { x with exchFullDone := true }) (raise (.bus 12) Ev.NET_EXCHFULL n s)
              else s
            originate 2 0x3FF (exchBytes r) s1
        | none => s
    | _, _ => s)

/-- EXCH_FRAME (R311): the entries are delivered on the ring data stream of the Active lane (R380). -/
def execExchFrame (t : Time) (port : Bool) (f : RingFrame) (s : State) : Host.Outcome State Fault Refusal :=
  run t s (ringArrive port 2 f (fun s =>
    match active s with
    | some l =>
      if winOpen s && !s.net.mismatch && ready s l then
        streamRec l 0x17 0 s.now (leBytes 2 (rfSrc f) ++ [0#8, 0#8] ++ f.payload) s
      else s
    | none => s))

/-- PROBE_TIMER (R310): every 10 s the module sends PROBE round the ring. -/
def execProbeTimer (t : Time) (s : State) : Host.Outcome State Fault Refusal :=
  run t s (fun s =>
    if !getB s Reg.NET_RING_CFG_en || (active s).isNone then s
    else
      let s1 := when (!(s.net.probeWa && s.net.probeWb)) (setF Reg.NET_RING_STAT_closed 0 .a) s
      let s2 := originate 5 0x3FF [] s1
      showMembers (onNet (fun n =>
        { n with probed := true, probeSeq := n.seq, probeAt := s.now, probeWa := false, probeWb := false }) s2))

/-- PROBE_FRAME (R310): another module's PROBE is counted; the module's own comes back and is measured. -/
def execProbeFrame (t : Time) (port : Bool) (f : RingFrame) (s : State) : Host.Outcome State Fault Refusal :=
  run t s (fun s =>
    let own := getB s Reg.NET_RING_CFG_en && hdrOk f && hdrN f 0 1 == 1 && hdrN f 1 1 == 5 && rfSrc f == ringNum s
    if own && hdrN f 4 4 == s.net.probeSeq.toNat then
      let s1 := onNet (fun n => { n with probeWa := n.probeWa || !port, probeWb := n.probeWb || port }) s
      when (s1.net.probeWa && s1.net.probeWb) (setF Reg.NET_RING_STAT_closed 1 .a)
        (setF Reg.NET_RING_RTT_rtt (min (since s.now s.net.probeAt / 1000) 0xFFFF) .a s1)
    else ringArrive port 5 f id s)

/-- RING_MEMBER_EXPIRY (R310): a module not heard for 20 s is no longer of the ring. -/
def execRingMemberExpiry (t : Time) (m : Nat) (s : State) : Host.Outcome State Fault Refusal :=
  run t s (fun s =>
    match alGet s.net.srcs m with
    | some x => if 20 * sec ≤ since s.now x.last then showMembers (onNet (fun n => { n with srcs := alDel n.srcs m }) s) else s
    | none => s)

/-- RING_LINK_CHANGE (R317): NET_RING_STAT.wa or wb follows the port's link. -/
def execRingLinkChange (t : Time) (port up : Bool) (s : State) : Host.Outcome State Fault Refusal :=
  run t s (setB (if port then Reg.NET_RING_STAT_wb else Reg.NET_RING_STAT_wa) up .a)

/-! Module mirroring (R312). -/

/-- A standby module takes an item of the active module: authority and loop items at once, the others at their SEAL (R312, R294). -/
def takeModule (cyc : Word) (it : MirItem) (s : State) : State :=
  match active s with
  | none => s
  | some l =>
    match it with
    | .authority u => showAuth { s with auth := u }
    | .loops x => correctLoops l x s
    | .seal es =>
      if sealMet es s.net.modHeld then
        onNet (fun n => { n with modHeld := [], lastMod := some cyc })
          (forEach (adoptItem l (rdK s Reg.JX_CYC_COUNT)) s.net.modHeld s)
      else onNet (fun n => { n with modHeld := [] }) s
    | it => onNet (fun n => { n with modHeld := n.modHeld.filter (fun i => i.code != it.code) ++ [it] }) s

/-- A MIRROR frame's piece at the standby module: the last one completes an item, whose pair is checked; `it` is what its bytes spell. -/
def takePiece (p : List Byte) (it : Option MirItem) (s : State) : State :=
  let c := frTyp p
  match joined s.net.modCur p with
  | none => onNet (fun n => { n with modCur := alDel n.modCur c }) s
  | some x =>
    if !frLast p then onNet (fun n => { n with modCur := alSet n.modCur c x }) s
    else
      let s1 := onNet (fun n => { n with modCur := alDel n.modCur c }) s
      if !complOf x.main x.cpl then raise (hriSrc s) Ev.KPR_MIRPAIR (c + 2 ^ 32 * (frCyc p).toNat) s1
      else
        match it.filter (fun i => i.code == c && itemSecs i == x) with
        | some i => takeModule (frCyc p) i s1
        | none => s1

/-- RING_MIRROR_FRAME (R312): a MIRROR frame of the active module reaches the standby module. -/
def execRingMirrorFrame (t : Time) (port : Bool) (f : RingFrame) (it : Option MirItem) (s : State) : Host.Outcome State Fault Refusal :=
  run t s (ringArrive port 3 f (fun s =>
    if getF s Reg.NET_RING_CFG_role ≠ 2 || !outReleased s || rfSrc f ≠ getF s Reg.NET_RING_PEER_partner then s
    else takePiece f.payload it s))

/-! Installations with a standby module (R313-R316). -/

/-- Module number held to have the active part: as configured until a grant says otherwise. -/
def actPart (s : State) : Nat :=
  if s.net.actNum = 0x3FF then
    match getF s Reg.NET_RING_CFG_role with
    | 1 => ringNum s
    | 2 => getF s Reg.NET_RING_PEER_partner
    | _ => 0x3FF
  else s.net.actNum

/-- Whether a module was heard in the last `n` ms. -/
def heard (s : State) (o : Option Time) (n : Nat) : Bool :=
  match o with
  | some x => decide (since s.now x < n * ms)
  | none => false

/-- Release the output paths at once (R314): as when no lane is Active (R290). -/
def releaseOut (s : State) : State :=
  tpDrive (poDrive (showPart (onNet (fun n => { n with released := true }) s)))

/-- The module is granted the active part (R314): its Active lane continues from the adopted module-mirror set, owes the publication of
R297, and its output paths are enabled. -/
def takeGrant (s : State) : State :=
  let s1 := showPart (onNet (fun n => { n with released := false, modHeld := [], modCur := [] }) s)
  match active s with
  | none => s1
  | some l =>
    let s3 := fusTake 2 l (onSlv l (fun v => { v with tkov := true }) s1)
    let owes := modeNow s != .layup && s.cyc.begun
    tpDrive (poDrive { s3 with kpr := { s3.kpr with grantE := some s.cyc.e, owed := if owes then some s.cyc.e else none } })

/-- A frame with a higher term names the module that has the active part (R314, R315). -/
def newTerm (term act : Nat) (s : State) : State :=
  let mine := act == ringNum s
  let s1 := onNet (fun n => { n with term := BitVec.ofNat 32 term, actNum := act }) s
  let pair := getF s Reg.NET_RING_CFG_role == 1 || getF s Reg.NET_RING_CFG_role == 2
  if !pair then s1
  else if mine then takeGrant s1
  else releaseOut s1

/-- Payload of an ARB frame (R315). -/
def arbBytes (s : State) : List Byte :=
  let flags := b2n (active s).isSome + 2 * b2n (heard s s.net.arbHeard 10) + 4 * b2n (heard s s.net.partnerHeard 10)
  let lo := getF s Reg.NET_RING_CFG_role + 2 ^ 8 * flags + 2 ^ 16 * actPart s + 2 ^ 32 * s.net.term.toNat
    + 2 ^ 64 * (s.net.lastMod.getD 0xFFFFFFFF#32).toNat
  leBytes 16 lo ++ leBytes 16 (2 ^ 128 - 1 - lo)

/-- Payload of a GRANT frame (R315). -/
def grantBytes (s : State) : List Byte :=
  let lo := s.net.actNum + 2 ^ 16 * s.net.grantLoser + 2 ^ 32 * s.net.term.toNat + 2 ^ 64 * s.net.grantAt.toNat
  leBytes 16 lo ++ leBytes 16 (2 ^ 128 - 1 - lo)

/-- The arbiter grants the standby module the active part (R314): the term rises by 1 and the GRANT is sent three times. -/
def doGrantModule (s : State) : State :=
  let s1 := onNet (fun n => { n with term := n.term + 1#32, grantLoser := n.actNum, grantAt := s.now, actNum := n.stbyNum, grantsLeft := 2,
                                     stbyNum := n.actNum, actHeard := n.stbyHeard, stbyHeard := none, actHasLane := true }) s
  originate 6 0x3FF (grantBytes s1) s1

/-- Whether this module is the arbiter and may decide: it hears the standby module, and its Keeper runs. -/
def mayGrant (s : State) : Bool :=
  getF s Reg.NET_RING_CFG_role == 3 && s.kpr.up && heard s s.net.stbyHeard 10 && decide (s.net.stbyNum ≠ 0x3FF)

/-- What an ARB frame tells (R313-R315). -/
def takeArb (f : RingFrame) (s : State) : State :=
  if !payPairOk f then incF Reg.NET_RING_CNT_hdr .a s
  else
    let src := rfSrc f
    let part := leAt f.payload 0 1
    let hasLane := bit (leAt f.payload 1 1) 0
    let act := leAt f.payload 2 2 % 1024
    let term := leAt f.payload 4 4
    let role := getF s Reg.NET_RING_CFG_role
    let s1 := if part = 3 && src = getF s Reg.NET_RING_PEER_arb && role ≠ 3 then
        clearAlarm .keeper Ev.KPR_ARBLOST 0 0 (onNet (fun n => { n with arbHeard := some s.now }) s) else s
    let s2 := when (src == getF s Reg.NET_RING_PEER_partner) (onNet (fun n => { n with partnerHeard := some s.now })) s1
    let s3 := if role = 3 then
        let isAct := if s2.net.actNum = 0x3FF then part == 1 else src == s2.net.actNum
        if isAct then onNet (fun n => { n with actNum := src, actHeard := some s.now, actHasLane := hasLane }) s2
        else if part = 1 || part = 2 then onNet (fun n => { n with stbyNum := src, stbyHeard := some s.now }) s2
        else s2
      else s2
    let s4 := if s3.net.term.toNat < term && (role = 1 || role = 2) then newTerm term act s3
      else if s3.net.term.toNat < term then onNet (fun n => { n with term := BitVec.ofNat 32 term, actNum := act }) s3
      else s3
    if role = 3 && src = s4.net.actNum && !hasLane && mayGrant s4 then doGrantModule s4 else s4

/-- ARB_FRAME (R313-R315). -/
def execArbFrame (t : Time) (port : Bool) (f : RingFrame) (s : State) : Host.Outcome State Fault Refusal :=
  run t s (ringArrive port 4 f (takeArb f))

/-- GRANT_FRAME (R315): acted on only when its term is higher than the highest held. -/
def execGrantFrame (t : Time) (port : Bool) (f : RingFrame) (s : State) : Host.Outcome State Fault Refusal :=
  run t s (ringArrive port 6 f (fun s =>
    if !payPairOk f then incF Reg.NET_RING_CNT_hdr .a s
    else if rfSrc f ≠ getF s Reg.NET_RING_PEER_arb && getF s Reg.NET_RING_CFG_role ≠ 3 then s
    else
      let term := leAt f.payload 4 4
      if s.net.term.toNat < term then newTerm term (leAt f.payload 0 2 % 1024) s else s))

/-- ARB_TIMER (R313, R315): every 1 ms the Keeper of a module of the pair, or the arbiter, sends ARB; the arbiter repeats its GRANT. -/
def execArbTimer (t : Time) (s : State) : Host.Outcome State Fault Refusal :=
  run t s (fun s =>
    if getF s Reg.NET_RING_CFG_role = 0 || !s.kpr.up then s
    else
      let s1 := originate 4 0x3FF (arbBytes s) s
      if 0 < s1.net.grantsLeft then
        originate 6 0x3FF (grantBytes s1) (onNet (fun n => { n with grantsLeft := n.grantsLeft - 1 }) s1)
      else s1)

/-- ACTIVE_MODULE_ABSENCE (R314): the arbiter has not heard the active module for 10 ms. -/
def execActiveModuleAbsence (t : Time) (s : State) : Host.Outcome State Fault Refusal :=
  run t s (fun s =>
    if mayGrant s && decide (s.net.actNum ≠ 0x3FF) && !heard s s.net.actHeard 10 then doGrantModule s else s)

/-- QUORUM_TIMEOUT (R314): an active module that hears neither the arbiter nor the standby module for 20 ms releases its outputs. -/
def execQuorumTimeout (t : Time) (s : State) : Host.Outcome State Fault Refusal :=
  run t s (fun s =>
    let part := getF s Reg.NET_RING_CFG_role == 1 || getF s Reg.NET_RING_CFG_role == 2
    if part && actPart s == ringNum s && !outReleased s && s.kpr.up
        && !heard s s.net.arbHeard 20 && !heard s s.net.partnerHeard 20 then
      raise .keeper Ev.KPR_QUORUM s.net.term.toNat (releaseOut s)
    else s)

/-- ARBITER_LOSS (R314): a module of a pair no longer hears the arbiter; roles stay. -/
def execArbiterLoss (t : Time) (s : State) : Host.Outcome State Fault Refusal :=
  run t s (fun s =>
    let part := getF s Reg.NET_RING_CFG_role == 1 || getF s Reg.NET_RING_CFG_role == 2
    if part && !heard s s.net.arbHeard 10 then raiseAlarm .keeper Ev.KPR_ARBLOST 0 0 s else s)

end Sys2Proof.Machine
end

