-- ==== Sys2Proof/Machine/Tender.lean ====
section
/-!
DEFINITION. The Tender (R448-R455): scrubbing and its findings, flash wear, the lane's calibrations of R452, health frames.
-/

namespace Sys2Proof.Machine

/-- Change a lane's Tender state. -/
def onTnd (l : Lane) (f : TndSt → TndSt) : State → State := onLane l (fun a => { a with tnd := f a.tnd })

/-- The Tender of a lane as a source of events. -/
def tndSrc (l : Lane) : Src := laneSrc l 16

/-- Set a fatal bit of a lane (R450). -/
def setFatal (l : Lane) (bit : Nat) : State → State :=
  onLane l (fun a => { a with health := { a.health with fatal := putBit a.health.fatal bit true } })

/-! Scrubbing. -/

/-- TND_CE for the first correctable error in each hour (R450). -/
def firstCe (l : Lane) (mem addr : Nat) (s : State) : State :=
  if (s.lane l).tnd.ceRec then s
  else raise (tndSrc l) Ev.TND_CE (mem + 2 ^ 8 * (addr % 2 ^ 56)) (onTnd l (fun d => { d with ceRec := true }) s)

/-- The rate limits (R450): more than 16 in one hour in a 64 MiB region, more than 64 in all DRAM. -/
def ceRate (l : Lane) (region : Nat) (s : State) : State :=
  let d := (s.lane l).tnd
  let n := (alGet d.region region).getD 0
  if d.excess || (n ≤ 16 && d.dram ≤ 64) then s
  else
    let data := if 16 < n then n + 2 ^ 32 * (region % 256) else d.dram + 2 ^ 32 * 0xFF
    raise (tndSrc l) Ev.TND_CERATE data
      (setF Reg.TND_STAT_cerate 1 l (onTnd l (fun d => { d with excess := true }) s))

/-- The second correctable error at one address within 24 h retires its page (R450). -/
def cePage (l : Lane) (addr : Nat) (s : State) : State :=
  let d := (s.lane l).tnd
  let page := addr / 4096
  let recent := d.addrs.filter (fun a => decide (since s.now a.2 < 86400 * sec))
  if d.pages.contains page then s
  else if recent.any (fun a => a.1 == addr) then
    raise (tndSrc l) Ev.TND_PAGERET (page * 4096) (incF Reg.TND_DRAM_retired l
      (onTnd l (fun d => { d with pages := d.pages ++ [page], addrs := recent.filter (fun a => a.1 / 4096 != page) }) s))
  else onTnd l (fun d => { d with addrs := recent ++ [(addr, s.now)] }) s

/-- DRAM_PATROL (R449, R450): progress of the patrol and what it found. -/
def execDramPatrol (t : Time) (l : Lane) (f : Scrub) (progress : Nat) (s : State) : Host.Outcome State Fault Refusal :=
  runLane t l s (fun s =>
    let s1 := setF Reg.TND_STAT_patrol (min progress 1000) l s
    let s2 := when (decide (1000 ≤ progress)) (setF Reg.TND_STAT_bpatrol 0 l) s1
    match f with
    | .none' => s2
    | .ce addr =>
      let r := addr / 2 ^ 26
      let s3 := onTnd l (fun d => { d with dram := d.dram + 1, region := alSet d.region r ((alGet d.region r).getD 0 + 1) }) s2
      cePage l addr (ceRate l r (firstCe l 0 addr (incF Reg.TND_ECC_dram l s3)))
    | .ue _ => setFatal l 8 s2)

/-- CE_RATE_HOUR (R450): an hour ends; below the limits the warning ends. -/
def execCeRateHour (t : Time) (l : Lane) (s : State) : Host.Outcome State Fault Refusal :=
  runLane t l s (fun s =>
    let s1 := when (!(s.lane l).tnd.excess) (setF Reg.TND_STAT_cerate 0 l) s
    onTnd l (fun d => { d with lastDram := d.dram, lastSram := d.sram, dram := 0, sram := 0, region := [], ceRec := false,
                               excess := false }) s1)

/-- The behind bit of a sweep. -/
def sweepFld : Nat → Fld
  | 1 => Reg.TND_STAT_blsram
  | 2 => Reg.TND_STAT_bssram
  | _ => Reg.TND_STAT_bfsram

/-- SRAM_SWEEP (R449, R450): lane (1), solver (2) or feature (3) SRAM is swept, the last two while their domain is powered. -/
def execSramSweep (t : Time) (l : Lane) (mem : Nat) (f : Scrub) (s : State) : Host.Outcome State Fault Refusal :=
  runLane t l s (fun s =>
    if !within 1 3 mem || (mem ≠ 1 && !domOn s (domBit l + mem - 1)) then s
    else
      let s1 := setF (sweepFld mem) 0 l s
      match f with
      | .none' => s1
      | .ce addr => firstCe l mem addr (incF Reg.TND_ECC_sram l (onTnd l (fun d => { d with sram := d.sram + 1 }) s1))
      | .ue _ =>
        if mem ≠ 3 then setFatal l 9 s1
        else
          let s2 := raise (tndSrc l) Ev.TND_FENUE 0 s1
          if isActive s2 l && (s2.lane l).fus.run && s2.cyc.fusionOpen then fusionLate l s2 else s2)

/-- A slot rewritten from the other one (R451), none where the other holds nothing either. The update journal's slots hold one value, that
of the registers. -/
def rewriteSlot (v : MramSlot) (s : State) : Option State :=
  match v with
  | .met 0 => s.met1.map (fun m => { s with met0 := some m })
  | .met _ => s.met0.map (fun m => { s with met1 := some m })
  | .counter 0 => some { s with rec' := { s.rec' with cnt0 := s.rec'.cnt1 } }
  | .counter _ => some { s with rec' := { s.rec' with cnt1 := s.rec'.cnt0 } }
  | .journal _ => some s

/-- An MRAM value whose pair fails (R451): an event names it in every case (R16). -/
def mramBad (f : MramFind) (s : State) : State :=
  let repaired (off : Nat) (s : State) : State := raise (tndSrc (timeLane s)) Ev.TND_MRAMPAIR off (incF Reg.TND_MRAM_repair .a s)
  match f with
  | .slotPair off v => ((rewriteSlot v s).map (repaired off)).getD (aoFailed (timeLane s) off s)
  | .config off => if (active s).isSome then repaired off s else aoFailed (timeLane s) off s
  | .lone off => aoFailed (timeLane s) off s
  | .recSlot k =>
    if 32768 ≤ k then s
    else
      raise (tndSrc (timeLane s)) Ev.TND_RECLOST k (incF Reg.TND_MRAM_lost .a
        { s with rec' := { s.rec' with
            slots := Sparse.set slotEmpty s.rec'.slots k (Sparse.get slotEmpty s.rec'.slots k ||| 0xFFFFFFFF#256) } })

/-- MRAM_VERIFY (R449, R451): the hourly pass over the MRAM. -/
def execMramVerify (t : Time) (f : List MramFind) (s : State) : Host.Outcome State Fault Refusal := run t s (forEach mramBad f)

/-! Flash (R453): what it holds is unchanged by levelling, refresh, patrol and retirement. -/

/-- A load, verification or swap of a package bank is in progress in a lane (R453). -/
def bankWork (s : State) (l : Lane) : Bool :=
  [(false, 0), (false, 1), (true, 0), (true, 1)].any (fun p =>
    getF s (bankFld p.1 p.2) l == 1 || (bankOf (s.lane l) p.1 p.2).reverify || getF s (bankFld p.1 p.2) l == 3)

/-- Whether a flash block holds part of a package bank (R85): the spec gives no placement (log entry 103). -/
def bankBlock (s : State) (l : Lane) (b : Nat) : Bool :=
  [(false, 0), (false, 1), (true, 0), (true, 1)].any (fun p =>
    (bankOf (s.lane l) p.1 p.2).blocks.any (fun x => Config.flashPlace p.1 p.2 x.1 == b))

/-- Whether the data of a block may be moved or rewritten now (R453): not a retired block's, and not a package bank's while one is worked
on. -/
def mayMove (s : State) (l : Lane) (b : Nat) : Bool :=
  (flashOf s l).bad.all (fun x => x.1 != b) && !(bankBlock s l b && bankWork s l)

/-- Erases of a block. -/
def erases (s : State) (l : Lane) (b : Nat) : Nat := Sparse.get noCount (flashOf s l).erase b

/-- FLASH_LEVELLING (R453): static data of block `src` move to block `dst` when their erase counts differ by more than 500. -/
def execFlashLevelling (t : Time) (l : Lane) (src dst : Nat) (s : State) : Host.Outcome State Fault Refusal :=
  runLane t l s (fun s =>
    let d := max (erases s l src) (erases s l dst) - min (erases s l src) (erases s l dst)
    if 500 < d && mayMove s l src && mayMove s l dst then onFlash l (fun f => flashWrite dst (flashRead src f)) s else s)

/-- READ_DISTURB_REFRESH (R453): a block is rewritten with its own content after 100,000 reads since its last program. -/
def execReadDisturbRefresh (t : Time) (l : Lane) (blk : Nat) (s : State) : Host.Outcome State Fault Refusal :=
  runLane t l s (fun s =>
    if 100000 ≤ Sparse.get noCount (flashOf s l).reads blk && mayMove s l blk then onFlash l (flashWrite blk) s else s)

/-- RETENTION_PATROL (R453): every programmed block has been read, those in `weak`, whose pages show more than half the correctable bits,
are rewritten: the patrol is not behind. -/
def execRetentionPatrol (t : Time) (l : Lane) (weak : List Nat) (s : State) : Host.Outcome State Fault Refusal :=
  runLane t l s (fun s =>
    let s1 := onFlash l (fun f => f.erase.foldl (fun f b => flashRead b.1 f) f) s
    setF Reg.TND_STAT_bflash 0 l (forEach (fun b s => if mayMove s l b then onFlash l (flashWrite b) s else s) weak s1))

/-- Spares that remain, in 0.1 % of their original count; the rounding is open (log entry 11). -/
def sparePm (f : FlashSt) : Nat :=
  min (rndOpen 346 ((Config.flashSpares - f.bad.length) * 1000) Config.flashSpares).toNat 1000

/-- BAD_BLOCK_RETIREMENT (R453): block `blk` is retired, and spare block `spare` takes its data. Data of a package bank that is worked on
move once that ends. -/
def execBadBlockRetirement (t : Time) (l : Lane) (blk spare : Nat) (s : State) : Host.Outcome State Fault Refusal :=
  runLane t l s (fun s =>
    if (flashOf s l).bad.any (fun x => x.1 == blk) then s
    else
      let s0 := onFlash l (fun f => flashWrite spare { f with bad := f.bad ++ [(blk, spare)] }) s
      let n := sparePm (flashOf s0 l)
      let s1 := setF Reg.TND_FLASH_spare n l (incF Reg.TND_FLASH_retired l s0)
      let s2 := if n < 250 && !getB s Reg.TND_STAT_flashlow l then
          raise (tndSrc l) Ev.TND_FLASHLOW n (setF Reg.TND_STAT_flashlow 1 l s1)
        else s1
      if n < 50 then raiseAlarm (tndSrc l) Ev.TND_FLASH l.idx n s2 else s2)

/-- TENDER_BEHIND (R448): an activity has not completed within twice its period. -/
def execTenderBehind (t : Time) (l : Lane) (bit : Nat) (s : State) : Host.Outcome State Fault Refusal :=
  runLane t l s (fun s =>
    let f : Fld := { Reg.TND_STAT_bpatrol with lsb := bit }
    if 6 ≤ bit || getB s f l then s else raise (tndSrc l) Ev.TND_BEHIND bit (setF f 1 l s))

/-! Calibrations. -/

/-- OSCILLATOR_RECORD (R452): the mean rate of an hour of SYNC, written by the Active lane only. -/
def execOscillatorRecord (t : Time) (l : Lane) (mean : Int) (s : State) : Host.Outcome State Fault Refusal :=
  runLane t l s (fun s =>
    if isActive s l && getF s Reg.TMB_STAT_state l == 1 then { s with oscRec := some mean } else s)

/-- LANE_REFERENCE_CHECK (R452): the own reference against the other lane's MTC; above 80 ppm apart it is recorded. -/
def execLaneReferenceCheck (t : Time) (l : Lane) (ppb : Int) (s : State) : Host.Outcome State Fault Refusal :=
  runLane t l s (fun s =>
    let bad := decide (80000 < ppb.natAbs)
    let s1 := when (bad && !getB s Reg.TND_STAT_oscdiff l) (raise (tndSrc l) Ev.TND_OSCDIFF (satInt 32 ppb)) s
    setB Reg.TND_STAT_oscdiff bad l (onTnd l (fun d => { d with ppb := ppb }) s1))

/-! Health frames (R454). -/

/-- The largest of the given differences in ppm (their rounding is open, log entry 11). -/
def ppmMax (ds : List Dy) : Nat :=
  ds.foldl (fun m d => max m (rndOpen 339 (d.m.natAbs * 1000000 * 2 ^ d.e.toNat) (2 ^ (-d.e).toNat)).toNat) 0

/-- Differences of the match gains in force from the reference values. -/
def gainDrift (s : State) (l : Lane) : Nat :=
  ppmMax (s.cfg.cals.map (fun c =>
    (F64.val (((metCh s l c.1).ab.map (·.1)).getD c.2.aL)).add (F64.val c.2.aL0).neg))

/-- Differences of the Standby's fits from the Active's. -/
def fitDiff (s : State) (l : Lane) : Nat :=
  if isActive s l then 0
  else ppmMax ((List.range 192).filterMap (fun c =>
    match (metCh s l c).fit, (metCh s l.other c).fit with
    | some x, some y => some ((F64.val x).add (F64.val y).neg)
    | _, _ => none))

/-- Rate of local time against MTC in ppb. -/
def ratePpb (s : State) (l : Lane) : Int := rndOpen 340 (rateOf (s.lane l).tmb.clk * 1000000000) (2 ^ 48)

/-- The 128 bytes of a health frame. -/
def healthBytes (s : State) (l : Lane) (m : Time) (die plate : BitVec 16) : List Byte :=
  let dom := getF s Reg.PWR_STAT_dom
  let own := dom % 16 + 16 * (dom / 2 ^ domBit l % 16)
  let calf := ((List.range 192).filter (fun c => getB s (Reg.MET_CHn_STAT_calf c) l)).length
  leBytes 8 m.toNat ++ leBytes 8 (ltAt s l m / sec).toNat ++ leBytes 1 (l.idx + 2 ^ 7 * b2n (isActive s l))
    ++ leBytes 1 (modeCode (modeNow s)) ++ leBytes 1 (getF s Reg.TMB_STAT_state l)
    ++ leBytes 1 (if isActive s l then (if (s.lane l).fus.run then (s.lane l).fus.grd.grade else 4) else 0xFF)
    ++ leBytes 4 (s.lane l).health.vec.toNat ++ leBytes 2 die.toNat ++ leBytes 2 plate.toNat
    ++ leBytes 2 (getF s Reg.PWR_SUP_v1) ++ leBytes 2 (getF s Reg.PWR_SUP_v2) ++ leBytes 2 own
    ++ leBytes 2 (getF s { Reg.TND_STAT_bpatrol with w := 8 } l) ++ leBytes 4 (s.lane l).tnd.lastDram
    ++ leBytes 4 (s.lane l).tnd.lastSram ++ leBytes 2 (getF s Reg.TND_DRAM_retired l) ++ leBytes 2 (getF s Reg.TND_STAT_patrol l)
    ++ leBytes 2 (getF s Reg.TND_FLASH_spare l) ++ leBytes 2 (getF s Reg.TND_FLASH_retired l)
    ++ leBytes 4 (getF s Reg.TND_MRAM_repair l) ++ leBytes 4 (rdK s Reg.REC_SEQ).toNat ++ leBytes 4 (rdK s Reg.REC_OVF).toNat
    ++ leBytes 4 (satInt 32 (ratePpb s l)) ++ leBytes 4 (getF s Reg.TMB_THETA_theta l)
    ++ leBytes 4 (satInt 32 (s.rtc.err / 1000)) ++ leBytes 4 (satInt 32 (s.lane l).tnd.ppb) ++ leBytes 2 calf
    ++ leBytes 2 (min (gainDrift s l) 0xFFFF) ++ leBytes 2 (min (fitDiff s l) 0xFFFF)
    ++ leBytes 2 (getF s Reg.SLV_CNT0_fallback l) ++ List.replicate 40 0#8

/-- HEALTH_FRAME (R454): within 100 ms of an MTC multiple of 1 s, on the telemetry stream ring. -/
def execHealthFrame (t : Time) (l : Lane) (die plate : BitVec 16) (s : State) : Host.Outcome State Fault Refusal :=
  runLane t l s (fun s =>
    let m : Time := BitVec.ofNat 64 (s.now.toNat / sec * sec)
    if 100 * ms < since s.now m then s else streamRec l 0x13 1 m (healthBytes s l m die plate) s)

end Sys2Proof.Machine
end

