-- ==== Sys2Proof/Machine/Power.lean ====
section
/-!
DEFINITION. Power and resets from outside (R458-R471, R512-R517, R527): supplies, the backup input, MRST_N, the power-up of domains,
the wipe of a lane's DRAM, heat, and the life-cycle wipe (R472-R477).
-/

namespace Sys2Proof.Machine

/-! Supplies (R461, R462). -/

/-- Voltage register of a supply input, 0 for SUP1. -/
def supV (input : Nat) : Fld := if input = 0 then Reg.PWR_SUP_v1 else Reg.PWR_SUP_v2

/-- Presence bit of a supply input. -/
def supBit (input : Nat) : Fld := if input = 0 then Reg.PWR_STAT_sup1 else Reg.PWR_STAT_sup2

/-- Whether a supply input is present. -/
def anySupply (s : State) : Bool := getB s Reg.PWR_STAT_sup1 || getB s Reg.PWR_STAT_sup2

/-- Raise the alarm of a low backup input with its event (R515). -/
def backupAlarm (mv : Nat) (s : State) : State :=
  raiseAlarm .wake Ev.PWR_BKP 0 mv (raise .wake Ev.PWR_BKPLOW mv s)

/-- The alarm of the backup input at a start: what it did while the recorder could not write is recorded now. -/
def backupShow (s : State) : State :=
  let on := s.alarms.contains (Ev.PWR_BKP, 0)
  let v := getF s Reg.PWR_BKP_v
  if getB s Reg.PWR_STAT_bkplow && !on then backupAlarm v s
  else if !getB s Reg.PWR_STAT_bkplow && on then clearAlarm .wake Ev.PWR_BKP 0 v s
  else s

/-- The power-cycle count of a start after loss of both inputs (R437). -/
def countStart (s : State) : State :=
  let s1 := incF Reg.REC_PWRCYC_c .a s
  if getF s1 Reg.REC_PWRCYC_c = 0xFFFFFFFF then setF Reg.REC_STAT_pcmax 1 .a s1 else s1

/-- The counters of the records at a start after loss of both inputs (R437): of the slot written last whose pairs check; without one
they are free (log entry 104). -/
def countLoad (i : StartIn) (s : State) : State :=
  let r := s.rec'
  let good (k : Nat) : Bool := i.cntBad.all (fun b => b.1 != k)
  let lst := b2n r.cntLast
  let at' (k : Nat) : Word × Word := if k = 0 then r.cnt0 else r.cnt1
  let c := if good lst then at' lst else if good (1 - lst) then at' (1 - lst)
    else ((Config.openVal 48 s.fresh).truncate 32, (Config.openVal 49 s.fresh).truncate 32)
  setB Reg.REC_STAT_pcmax (c.2 == 0xFFFFFFFF#32) .a (setB Reg.REC_STAT_osmax (c.1 == 0xFFFFFFFF#32) .a
    (wrK Reg.REC_PWRCYC c.2 (wrK Reg.REC_OPSEC c.1 { s with fresh := s.fresh + 1 })))

/-- What the start found of the counters' slots (R451): a slot whose pair fails is repaired from the other; with both bad the counters are
marked failed. -/
def countFaults (i : StartIn) (s : State) : State :=
  if i.cntBad.any (fun b => b.1 == 0) && i.cntBad.any (fun b => b.1 == 1) then forEach (fun b => aoFailed .a b.2) (i.cntBad.take 1) s
  else forEach (fun b s => raise (laneSrc .a 16) Ev.TND_MRAMPAIR b.2 (incF Reg.TND_MRAM_repair .a s)) i.cntBad s

/-- The return of an input beside another one (R461). -/
def supplyBack (input mv : Nat) (s : State) : State :=
  clearAlarm .wake Ev.PWR_SUP input input (raise .wake Ev.PWR_SUPBACK (input + 2 ^ 16 * mv) s)

/-- SUPPLY_PRESENT (R461, R462, R468, R470): an input has been above 17.0 V for 10 ms. The first one starts the module by power-up
reset, cause 1. -/
def execSupplyPresent (t : Time) (input mv : Nat) (i : StartIn) (s : State) : Host.Outcome State Fault Refusal :=
  runAny t s (fun s =>
    if 1 < input then s
    else
      let v := min mv 0xFFFF
      let was := getB s (supBit input)
      let first := !anySupply s
      let s1 := setF (supBit input) 1 .a (setF (supV input) v .a s)
      if was then s1
      else if first then
        let s2 := backupShow (countFaults i (moduleUp 1 i (countStart (countLoad i s1))))
        if s2.alarms.contains (Ev.PWR_SUP, input) then supplyBack input v s2 else s2
      else supplyBack input v s1)

/-- SUPPLY_LOST (R461, R462): an input has been below 16.0 V for 200 µs; `mv1` and `mv2` are the last voltages. With the last one the
recorder writes REC_PWRLOSS and everything but AO loses its supply. -/
def execSupplyLost (t : Time) (input mv1 mv2 : Nat) (s : State) : Host.Outcome State Fault Refusal :=
  runAny t s (fun s =>
    if 1 < input || !getB s (supBit input) then s
    else
      let s1 := setF (supBit input) 0 .a (setF Reg.PWR_SUP_v2 (min mv2 0xFFFF) .a (setF Reg.PWR_SUP_v1 (min mv1 0xFFFF) .a s))
      if anySupply s1 then
        raiseAlarm .wake Ev.PWR_SUP input input
          (raise .wake Ev.PWR_SUPLOST (input + 2 ^ 16 * min (if input = 0 then mv1 else mv2) 0xFFFF)
            (incF Reg.PWR_CNT_suplost .a s1))
      else
        let s2 := moduleDown (ownRec Ev.REC_PWRLOSS (min mv1 0xFFFF + 2 ^ 16 * min mv2 0xFFFF) s1)
        setF Reg.PWR_STAT_dom 1 .a { s2 with upd := { s2.upd with inReset := false },
                                             rec' := { s2.rec' with queues := [{}, {}, {}, {}, {}, {}], counts := [] } })

/-! The backup input (R515). -/

/-- BACKUP_LOW (R515): VBKP is below 2.4 V. Nothing is recorded while AO runs from it alone (R447). -/
def execBackupLow (t : Time) (mv : Nat) (s : State) : Host.Outcome State Fault Refusal :=
  runAny t s (fun s =>
    let was := getB s Reg.PWR_STAT_bkplow
    let s1 := setF Reg.PWR_STAT_bkplow 1 .a (setF Reg.PWR_BKP_v (min mv 0xFFFF) .a s)
    if was || !anySupply s then s1 else backupAlarm (min mv 0xFFFF) s1)

/-- BACKUP_RECOVERED (R515): VBKP is above 2.5 V. -/
def execBackupRecovered (t : Time) (mv : Nat) (s : State) : Host.Outcome State Fault Refusal :=
  runAny t s (fun s =>
    let s1 := setF Reg.PWR_STAT_bkplow 0 .a (setF Reg.PWR_BKP_v (min mv 0xFFFF) .a s)
    if anySupply s then clearAlarm .wake Ev.PWR_BKP 0 (min mv 0xFFFF) s1 else s1)

/-- BACKUP_EXHAUSTED (R348, R515): with no supply input and VBKP below 2.0 V the AO domain stops; the calendar stands at its start,
and RTC_STATUS.oscfail is set on return. -/
def execBackupExhausted (t : Time) (s : State) : Host.Outcome State Fault Refusal :=
  runAny t s (fun s =>
    if anySupply s then s else setF Reg.RTC_STATUS_oscfail 1 .a (forgetFired { s with rtc := { s.rtc with cal := 0, shifts := [], load := none } }))

/-! MRST_N (R469). -/

/-- MRST_TAKEN (R469): MRST_N has been asserted for 10 ms: module reset begins. -/
def execMrstTaken (t : Time) (s : State) : Host.Outcome State Fault Refusal :=
  run t s (fun s =>
    if s.upd.masked then s
    else
      let s1 := moduleDown (drainAll (incF Reg.PWR_CNT_mrst .a s))
      { s1 with upd := { s1.upd with inReset := true } })

/-- MRST_RELEASE (R469): the module leaves reset, cause 2. -/
def execMrstRelease (t : Time) (i : StartIn) (s : State) : Host.Outcome State Fault Refusal :=
  runAny t s (fun s => if s.upd.inReset then moduleUp 2 i s else s)

/-- MRST_STUCK (R469): after 10 s of assertion MRST_N is declared stuck and masked; the module leaves reset, cause 3. -/
def execMrstStuck (t : Time) (i : StartIn) (s : State) : Host.Outcome State Fault Refusal :=
  runAny t s (fun s =>
    if s.upd.inReset then
      let s1 := moduleUp 3 i (setF Reg.PWR_STAT_mstuck 1 .a (incF Reg.PWR_CNT_stuck .a s))
      raiseAlarm .wake Ev.PWR_RSTSTUCK 0 0 { s1 with upd := { s1.upd with masked := true } }
    else s)

/-- MRST_UNMASK (R469): MRST_N has been released for 1 s: it is taken again. -/
def execMrstUnmask (t : Time) (s : State) : Host.Outcome State Fault Refusal :=
  run t s (fun s =>
    if s.upd.masked then
      clearAlarm .wake Ev.PWR_RSTSTUCK 0 0 (raise .wake Ev.PWR_RSTFREE 0
        (setF Reg.PWR_STAT_mstuck 0 .a { s with upd := { s.upd with masked := false } }))
    else s)

/-! Domains (R459, R470, R471). -/

/-- Whether a lane's die protection holds it off (R527). -/
def dieHot (s : State) : Lane → Bool
  | .a => s.upd.hotA
  | .b => s.upd.hotB

/-- Set the die-protection mark of a lane. -/
def setHot (l : Lane) (h : Bool) (s : State) : State :=
  match l with
  | .a => { s with upd := { s.upd with hotA := h } }
  | .b => { s with upd := { s.upd with hotB := h } }

/-- A lane powered at a module reset (R470): its SRAM is clear, its DRAM is being wiped; its registers stand at module reset. -/
def laneStart (l : Lane) (s : State) : State :=
  onKpr l (fun k => { k with returning := true })
    (setF (wipeFld l) 1 .a (domSet (2 ^ domBit l) (onLane l (fun a => { a with ph := .wiping }) s)))

/-- Whether the wake controller powers a lane that is off: not while it is decommissioned, left off, in its 100 ms, or hot. -/
def mayPower (s : State) (l : Lane) : Bool :=
  !decommissioned s && !(kprLane s l).offForGood && (kprLane s l).offAt.isNone && !dieHot s l

/-- DOMAIN_READY (R459, R470): a domain of a lane (0 BASE, 1 SLV, 2 FEN, 3 GNB) is powered, its SRAM cleared. -/
def execDomainReady (t : Time) (l : Lane) (d : Nat) (s : State) : Host.Outcome State Fault Refusal :=
  run t s (fun s =>
    match d with
    | 0 => if (s.lane l).ph == .off && mayPower s l then laneStart l s else s
    | 1 => if modeNow s == .layup && domOn s (domBit l + 1) then slvOff l s else s
    | 2 => if domOn s (domBit l + 2) && !(s.lane l).fus.run then clearGrids l s else s
    | _ => s)

/-- A lane whose DRAM is wiped (R470): its firmware runs, its registers can be used, its ports align, its loop engine starts where the
mode runs one. -/
def laneReady (l : Lane) (s : State) : State :=
  let hot := dieHot s l
  let s1 := setF Reg.HRI_STAT_ready 1 l (onLane l (fun a => { a with ph := .ready, health := { a.health with kwordAt := s.now } }) s)
  let s2 := sysStat Reg.HRI_SYS_STAT_ready l (showRole l s1)
  let s3 := onKpr l (fun k => { k with readyAt := some s.now }) (metStart l s2)
  let s4 := if modeNow s3 != .layup then lpeStart l s3 else showLpe l s3
  when hot (raise .wake Ev.PWR_DIEHOT l.idx) (setHot l false s4)

/-- DRAM_WIPE_COMPLETE (R470, R471): a lane's DRAM is wiped. During a life-cycle wipe nothing else runs yet (R472). -/
def execDramWipeComplete (t : Time) (l : Lane) (s : State) : Host.Outcome State Fault Refusal :=
  run t s (fun s =>
    if (s.lane l).ph == .wiping && getB s (wipeFld l) then
      let s1 := setF (wipeFld l) 0 .a s
      if s1.upd.wiping then s1 else laneReady l s1
    else s)

/-- LANE_POWER_RESTORE (R463): 100 ms after they were removed the wake controller restores a lane's supplies. -/
def execLanePowerRestore (t : Time) (l : Lane) (s : State) : Host.Outcome State Fault Refusal :=
  run t s (fun s =>
    match (kprLane s l).offAt with
    | some x =>
      if decide (100 * ms ≤ since s.now x) && !(kprLane s l).offForGood && !decommissioned s && !dieHot s l then
        lanePower l (onKpr l (fun k => { k with fpwrAt := some s.now, offAt := none }) s)
      else s
    | none => s)

/-! Heat (R527). -/

/-- PLATE_HOT (R527): the plate has been above +70 °C for 10 s. Event and alarm share their name: one record with alm (R530). -/
def execPlateHot (t : Time) (temp : BitVec 16) (s : State) : Host.Outcome State Fault Refusal :=
  run t s (fun s =>
    if s.alarms.contains (Ev.PWR_HOT, 0) then s
    else raiseAlarm .wake Ev.PWR_HOT 0 temp.toNat s)

/-- PLATE_COOLED (R527): the plate has been below +67 °C for 60 s. -/
def execPlateCooled (t : Time) (temp : BitVec 16) (s : State) : Host.Outcome State Fault Refusal :=
  run t s (clearAlarm .wake Ev.PWR_HOT 0 temp.toNat)

/-- DIE_WARN (R527): a lane's die is above +110 °C. -/
def execDieWarn (t : Time) (l : Lane) (s : State) : Host.Outcome State Fault Refusal :=
  runLane t l s (onLane l (fun a => { a with health := { a.health with dieWarn := true } }))

/-- DIE_PROTECTION (R527): above +125 °C a lane's hardware removes its supplies. The Keeper is not told: it finds the lane's words
missing. -/
def execDieProtection (t : Time) (l : Lane) (s : State) : Host.Outcome State Fault Refusal :=
  run t s (fun s =>
    if (s.lane l).ph == .off then s
    else
      let k := kprLane s l
      let adm := admitted s l
      setB (admFld l) adm .a (onKpr l (fun _ => { k with readyAt := none, valid := false }) (laneUnpower l (setHot l true s))))

/-- DIE_COOLED (R527): a die that is below +100 °C gives no warning any more; a lane held off by its protection restarts as after lane
reset. -/
def execDieCooled (t : Time) (l : Lane) (s : State) : Host.Outcome State Fault Refusal :=
  run t s (fun s =>
    let s1 := onLane l (fun a => { a with health := { a.health with dieWarn := false } }) s
    if dieHot s l && (s.lane l).ph == .off && (kprLane s l).offAt.isNone && !(kprLane s l).offForGood && !decommissioned s then
      lanePower l s1
    else s1)

/-! The life-cycle wipe (R472, R477). -/

/-- Persistent registers take their defaults (R472). -/
def wipeRegs (s : State) : State :=
  { s with regs := Sparse.mapVals regDef (fun k v =>
      match regRow (k % laneSpan) with
      | some r => if r.mram then regDef k else v
      | none => v) s.regs }

/-- A lane's user flash is erased: its package banks are empty (R472). -/
def wipeBanks (l : Lane) (s : State) : State :=
  forEach (fun p s => setF (bankFld p.1 p.2) 0 l s) [(false, 0), (false, 1), (true, 0), (true, 1)]
    (forEach (fun f s => setF f 0 l s) [Reg.SLV_PKG_BANK_act, Reg.FUS_NPKG_BANK_act, Reg.SLV_PKG_BANK_verif, Reg.FUS_NPKG_BANK_verif]
      (onLane l (fun a => { a with bank0 := {}, bank1 := {}, nbank0 := {}, nbank1 := {} }) s))

/-- What registers show of wiped items: slot modes, groups, gap seconds, object kinds. -/
def wipeShown (s : State) : State :=
  let s1 := bothLanes (fun l s =>
    forEach (fun n s => setF (Reg.LPE_SLn_STAT_mode n) 0 l (setF (Reg.LPE_SLn_STAT_law n) 0 l (setF (Reg.LPE_SLn_STAT_bank n) 0 l s))) allSlots
      (forEach (fun n s => setF (Reg.MET_PTn_STAT_gaps n) 0 l s) (List.range 96)
        (forEach (fun n s => setF (Reg.FUS_REFn_group n) 0 l s) (List.range 16) s))) s
  forEach (fun k s => setF (Reg.MBC_OBJk_STAT_kind k) 0 .a s) (List.range 512) s1

/-- The safety configuration is gone: an island that runs one enters NOCFG, its outputs off, its functions unused and no lockout left
(R431, log entry 91). -/
def wipeSafety (s : State) : State :=
  let s1 := both (dropOuts 0xFF) s
  let s2 := forEach (fun f => wrK (Reg.SAF_FNn f) 0#32) n16
    (setF Reg.SAF_OUT_nopt 0 .a (setF Reg.SAF_OUT_lock 0 .a (setF Reg.SAF_IN_flt 0 .a
      (showSafCfg (onSaf (fun a => { a with stored := [], load := none, cfg := none, y := none, fns := [], edmLock := 0#8, edmFree := 0#8 }) s1)))))
  if getF s2 Reg.SAF_STAT_state = 2 then setF Reg.SAF_STAT_state 1 .a s2 else s2

/-- What a life-cycle change wipes besides the recorder (R472): configuration, keys, safety configuration, energy registers and pulse
state, calibration, journals, package banks. -/
def wipeAll (s : State) : State :=
  let s1 := wipeSafety (wipeShown (bothLanes wipeBanks (wipeRegs (seqIdle (setF Reg.UPD_SEQ_rb 0 .a s)))))
  { s1 with cfg := {}, mbc := { s1.mbc with objs := [] }, met0 := none, met1 := none,
            upd := { s1.upd with ptrBad := [] }, oscRec := none, rtc := { s1.rtc with curve := [] }, cyc := { s1.cyc with set := CycSet.dflt, cur := CycSet.dflt } }

/-- A transition entered in the life-cycle record (R476): its states with the calendar instant and the operating seconds; the last 16
are kept. -/
def logChange (old new : Nat) (s : State) : State :=
  incF Reg.UPD_LCS_count .a
    { s with upd := { s.upd with
        log := ((old, new, BitVec.ofNat 56 (calBytes s.rtc.cal), rdK s Reg.REC_OPSEC) :: s.upd.log).take 16 } }

/-- The lanes of a Decommissioned module have no supply (R475). -/
def lanesOff (s : State) : State :=
  setF Reg.PWR_STAT_dom 0xF .a (bothLanes (fun l s => if (s.lane l).ph == .off then s else laneUnpower l s) s)

/-- The first epoch after the wipe, on the grid of the default set (R17, R25). -/
def regrid (s : State) : State :=
  { s with cyc := { s.cyc with nextE := BitVec.ofNat 64 (gridFrom s.cyc.set.ns (rdK s Reg.JX_CYC_PHASE).toNat (s.now.toNat + 1)) } }

/-- LIFECYCLE_WIPE_COMPLETE (R472, R477): the wipe is complete; the recorder starts afresh with REC_LCCHG and the record of this start;
the state becomes the target, or for target Operational the step becomes SEAL. -/
def execLifecycleWipeComplete (t : Time) (s : State) : Host.Outcome State Fault Refusal :=
  run t s (fun s =>
    if !s.upd.wiping then s
    else
      let old := getF s Reg.UPD_LCS_state
      let new := getF s Reg.UPD_LCS_target
      let s1 := recWipe old new (getF s Reg.REC_CFG_n) (wipeAll s)
      let s2 := if new = 2 then setF Reg.UPD_LCS_seal 1 .a s1
        else setF Reg.UPD_LCS_chg 0 .a (setF Reg.UPD_LCS_target 0 .a (setF Reg.UPD_LCS_seal 0 .a
          (setF Reg.UPD_LCS_state new .a (logChange old new s1))))
      let s3 := setF Reg.UPD_LCS_wipe 100 .a { s2 with upd := { s2.upd with wiping := false } }
      let s4 := dropAlarms [Ev.JX_CFG, Ev.REC_FULL] (metRestore true true (recStart (getF s3 Reg.PWR_STAT_cause) (regrid s3)))
      if new = 4 then lanesOff s4
      else
        bothLanes (fun l s => if (s.lane l).ph == .wiping && !getB s (wipeFld l) then laneReady l s else s) (showAuthStat s4))

end Sys2Proof.Machine
end

