-- ==== Sys2Proof/Machine/Update.lean ====
section
/-!
DEFINITION. Life cycle and update (R473-R489): LIFECYCLE and SEAL, firmware images, the activation of an image in both lanes and in
the Keeper, confirmation and rollback.
-/

namespace Sys2Proof.Machine

/-! The life cycle (R473-R478). -/

/-- Whether a transition may be ordered (R474). -/
def lcAllowed (frm to' : Nat) : Bool :=
  match frm with
  | 0 => to' == 1 || to' == 4
  | 1 => to' == 2 || to' == 4
  | 2 => to' == 1 || to' == 3 || to' == 4
  | 3 => to' == 1 || to' == 2 || to' == 4
  | _ => false

/-- Put a number into an ascending list. -/
def insNat (n : Nat) : List Nat → List Nat
  | [] => [n]
  | m :: l => if n ≤ m then n :: m :: l else m :: insNat n l

/-- Offsets of all registers in ascending order. -/
def allOffsets : List Nat :=
  ((List.range 32).flatMap blockRows).foldl (fun m r => (List.range r.count).foldl (fun m i => insNat (r.base + r.stride * i) m) m) []

/-- The value of a register with every field other than its LK fields 0. -/
def lkPart (r : RegRow) (v : Word) : Word :=
  v &&& r.fields.foldl (fun m f => if f.acc == .lk then m ||| BitVec.ofNat 32 ((2 ^ f.w - 1) * 2 ^ f.lsb) else m) 0#32

/-- The part of the digest that a register row gives (R478); each lane's copy of a register of its own, Lane A first. -/
def lkBytes (s : State) (off : Nat) (r : RegRow) : List Byte :=
  if r.fields.any (fun f => f.acc == .lk) then
    let one (k : Nat) : List Byte := leBytes 4 off ++ leBytes 4 (lkPart r (rdK s k)).toNat
    if r.perLane then one (off + laneSpan) ++ one (off + 2 * laneSpan) else one off
  else []

/-- The configuration as the digest takes it (R478): LK registers in ascending offset, stored CONFIG items in ascending code and
index, the safety configuration. -/
def cfgBytes (s : State) : List Byte :=
  (allOffsets.flatMap (fun o => match regRow o with
    | some r => lkBytes s o r
    | none => []))
  ++ s.cfg.raw.flatMap (fun x => leBytes 2 (x.1 / 65536) ++ leBytes 2 (x.1 % 65536) ++ leBytes 4 x.2.length ++ x.2)
  ++ s.saf.stored

/-- Bytes 0-15 of the present configuration digest (R478). -/
def cfgDig (s : State) : List Byte := (sha (cfgBytes s)).take 16

/-- UPD_DIGn as it reads (R491): recomputed at every change of the configuration. -/
def digWord (s : State) (n : Nat) : Word := BitVec.ofNat 32 (leAt (cfgDig s) (4 * n) 4)

/-- The committed digest (R476). -/
def committed (s : State) : List Byte := [0, 1, 2, 3].flatMap (fun n => leBytes 4 (rdK s (Reg.UPD_CMTn n)).toNat)

/-- Write the committed digest. -/
def setCommitted (v : Nat) (s : State) : State :=
  forEach (fun n s => setF (Reg.UPD_CMTn_cmt n) (v / 2 ^ (32 * n)) .a s) [0, 1, 2, 3] s

/-- LIFECYCLE's operation (R474, R477): the order is complete before the module reset it causes. -/
def doLifecycle (o : Order) (info : OrdInfo) (s : State) : State × Reply :=
  let new := bodyN o 0 1
  let old := getF s Reg.UPD_LCS_state
  if 4 < new || (new ≠ 2 && bodyN o 8 16 ≠ 0) then (s, .code Code.RANGE)
  else if !lcAllowed old new then (s, .code Code.TRANSITION)
  else if modeNow s != .layup || getF s Reg.UPD_SEQ_step ≠ 0 then (s, .code Code.STATE)
  else
    let s1 := complete info Code.ACCEPTED 0 0#64 [] false s
    let s2 := setCommitted (if new = 2 then bodyN o 8 16 else 0)
      (setF Reg.UPD_LCS_wipe 0 .a (setF Reg.UPD_LCS_seal 0 .a (setF Reg.UPD_LCS_chg 1 .a (setF Reg.UPD_LCS_target new .a s1))))
    let s3 := drainAll (raise .keeper Ev.UPD_LCCHG (old + 2 ^ 8 * new) s2)
    (moduleUp 6 ⟨[], [], true, true, []⟩ (moduleDown { s3 with upd := { s3.upd with wiping := true } }), .later)

/-- LIFECYCLE (R474, R477, R482). -/
def execLifecycle (t : Time) (o : Order) (s : State) : Host.Outcome State Fault Refusal :=
  run t s (serve o 1 0x0E [(0, 8), (32, 32), (64, 256)] [(0, 4, 4), (8, 24, 16)] false (doLifecycle o))

/-- SEAL's operation (R477 step 6): a digest equal to the committed one makes the module Operational. -/
def doSeal (_ : OrdInfo) (s : State) : State × Reply :=
  if !getB s Reg.UPD_LCS_seal then (s, .code Code.STATE)
  else if cfgDig s != committed s then (s, .code Code.MISMATCH)
  else
    let s1 := logChange (getF s Reg.UPD_LCS_state) 2 s
    let s2 := setF Reg.UPD_LCS_seal 0 .a (setF Reg.UPD_LCS_chg 0 .a (setF Reg.UPD_LCS_target 0 .a (setF Reg.UPD_LCS_state 2 .a s1)))
    (showAuthStat (raise .keeper Ev.UPD_SEALED (leAt (committed s) 0 8) s2), .code Code.ACCEPTED)

/-- SEAL (R477, R482). -/
def execSeal (t : Time) (o : Order) (s : State) : Host.Outcome State Fault Refusal := run t s (serve o 1 0x0F [] [] false doSeal)

/-! LANE_RESET (R374). -/

/-- LANE_RESET's operation: refused for the Active lane. -/
def doLaneReset (o : Order) (_ : OrdInfo) (s : State) : State × Reply :=
  if 1 < bodyN o 0 4 then (s, .code Code.RANGE)
  else
    let l : Lane := if bodyN o 0 4 = 0 then .a else .b
    if isActive s l then (s, .code Code.REFUSED) else (laneReset l s, .code Code.ACCEPTED)

/-- LANE_RESET (R374, R467). -/
def execLaneReset (t : Time) (o : Order) (s : State) : Host.Outcome State Fault Refusal :=
  run t s (serve o 1 0x0D [(0, 64)] [(0, 4, 4)] false (doLaneReset o))

/-! Firmware images (R479, R480). -/

/-- Fields of an image slot's register (R491): a lane's, or the Keeper's laid out alike. -/
def slotMaj (k : Bool) (n : Nat) : Fld := if k then ⟨Reg.UPD_KSLOTn n, 0, 8, false⟩ else Reg.UPD_SLOTn_maj n
def slotMin (k : Bool) (n : Nat) : Fld := if k then ⟨Reg.UPD_KSLOTn n, 8, 8, false⟩ else Reg.UPD_SLOTn_min n
def slotSt' (k : Bool) (n : Nat) : Fld := if k then ⟨Reg.UPD_KSLOTn n, 16, 3, false⟩ else Reg.UPD_SLOTn_st n
def slotConf (k : Bool) (n : Nat) : Fld := if k then ⟨Reg.UPD_KSLOTn n, 19, 1, false⟩ else Reg.UPD_SLOTn_conf n
def slotErr (k : Bool) (n : Nat) : Fld := if k then ⟨Reg.UPD_KSLOTn n, 24, 8, false⟩ else Reg.UPD_SLOTn_err n

/-- Key of an image slot: a lane's, or the Keeper's. -/
def imgKey (l : Lane) (k : Bool) (n : Nat) : Nat := if k then 4 + n else slotKey l n

/-- Replace an image slot. -/
def setImg (key : Nat) (x : ImgSlot) (s : State) : State :=
  { s with upd := { s.upd with slots := Sparse.set imgDef s.upd.slots key x } }

/-- The slot a lane or the Keeper runs from. -/
def runOf (s : State) (l : Lane) (k : Bool) : Nat := if k then s.upd.runK else runSlot s l

/-- LOAD_FIRMWARE's operation (R376, R480): the load takes the slot that does not run. -/
def doLoadFirmware (o : Order) (b : HostBuf) (_ : OrdInfo) (s : State) : State × Reply :=
  let l := ownLane o
  let blk := bodyN o 4 4
  if 1 < bodyN o 0 4 then (s, .code Code.RANGE)
  else
    match loadErr o b with
    | some c => (s, .code c)
    | none =>
      let k := bodyN o 0 4 == 1
      let n := 1 - runOf s l k
      if getF s Reg.UPD_SEQ_step ≠ 0 then (s, .code Code.BUSY)
      else if blk ≠ 0 && getF s (slotSt' k n) l ≠ 1 then (s, .code Code.STATE)
      else
        let old := if blk = 0 then [] else (imgSlot s (imgKey l k n)).blocks
        let bl := alSet old blk b.bytes
        if !blockFull bl 8 blk then (s, .code Code.RANGE) else
        (setF (slotConf k n) 0 l (setF (slotSt' k n) 1 l (setImg (imgKey l k n) { blocks := bl, complete := loadComplete bl 8 } s)),
         .code Code.ACCEPTED)

/-- LOAD_FIRMWARE (R480). -/
def execLoadFirmware (t : Time) (o : Order) (b : HostBuf) (s : State) : Host.Outcome State Fault Refusal :=
  run t s (serve o 4 3 [(0, 192)] [] false (doLoadFirmware o b))

/-- The firmware key of KPR ROM that an image's signature block names (R479): its identifier is the first 8 bytes of its digest (R63). -/
def romKey (s : State) (bs : List Byte) (sig : Nat) : Option (List Byte) :=
  s.upd.romKeys.find? (fun k => (sha k).take 8 == slice bs (sig + 8) 8)

/-- The checks of an image in order (R480): 0 when all pass. The signature block is laid out as R63, and its magic and algorithm are part
of HEADER as in R65 (log entry 93). -/
def imgErr (s : State) (l : Lane) (k : Bool) (bs : List Byte) : Nat :=
  let len := leAt bs 8 4
  let sig := len - 256
  let header := slice bs 0 4 == [0x4A#8, 0x58#8, 0x46#8, 0x57#8] && leAt bs 4 2 == 1 && leAt bs 12 1 == (if k then 2 else 1)
    && allZero (slice bs 0x14 4) && allZero (slice bs 0x20 224)
    && slice bs sig 4 == [0x4A#8, 0x58#8, 0x53#8, 0x47#8] && leAt bs (sig + 4) 2 == 1
  if bs.length ≠ len || (if k then 4194304 else 67108864) < len || len < 512 || len % 64 ≠ 0 then 0x01
  else if !header then 0x02
  else if (romKey s bs sig).isNone then 0x03
  else if !((romKey s bs sig).any (fun x => sigVerifies x bs sig)) then 0x04
  else if getF s Reg.JX_REV_hwmaj l < leAt bs 15 1 then 0x05
  else if leAt bs 18 2 < (imgSlot s (imgKey l k (runOf s l k))).sec && getF s Reg.UPD_LCS_state ≠ 3 then 0x06
  else 0

/-- FIRMWARE_VERIFIED (R480): the check of a complete image ends. -/
def execFirmwareVerified (t : Time) (l : Lane) (keeper : Bool) (slot : Nat) (s : State) :
    Host.Outcome State Fault Refusal :=
  run t s (fun s =>
    let x := imgSlot s (imgKey l keeper slot)
    if 1 < slot || getF s (slotSt' keeper slot) l ≠ 1 || !x.complete || !(keeper || ready s l) then s
    else
      let bs := imgBytes x
      match imgErr s l keeper bs with
      | 0 =>
        setF (slotSt' keeper slot) 2 l (setF (slotMaj keeper slot) (leAt bs 13 1) l (setF (slotMin keeper slot) (leAt bs 14 1) l
          (setImg (imgKey l keeper slot) { x with mirFmt := leAt bs 16 2, sec := leAt bs 18 2 } s)))
      | e => setF (slotErr keeper slot) e l (setF (slotSt' keeper slot) 5 l s))

/-! Activation (R481-R489). -/

/-- The slot of a lane or the Keeper that is in a state. -/
def slotIn (s : State) (l : Lane) (k : Bool) (st : Nat) : Option Nat := [0, 1].find? (fun n => getF s (slotSt' k n) l == st)

/-- Whether both lanes hold the same image in their slots of a state. -/
def sameImages (s : State) (st : Nat) : Bool :=
  match slotIn s .a false st, slotIn s .b false st with
  | some m, some n => imgBytes (imgSlot s (slotKey .a m)) == imgBytes (imgSlot s (slotKey .b n))
  | _, _ => false

/-- Whether the image to activate mirrors in another format than the running one. -/
def otherFormat (s : State) (st : Nat) : Bool :=
  [Lane.a, Lane.b].any (fun l => match slotIn s l false st with
    | some n => (imgSlot s (slotKey l n)).mirFmt != (imgSlot s (slotKey l (runSlot s l))).mirFmt
    | none => false)

/-- FW_ACTIVATE's operation (R481). -/
def doFwActivate (o : Order) (info : OrdInfo) (s : State) : State × Reply :=
  let kind := bodyN o 0 1
  let st := if bodyN o 1 1 % 2 = 1 then 4 else 2
  let lanes := kind ≠ 1
  let kpr := kind ≠ 0
  let out := modeNow s != .layup
  if 2 < kind || 1000000000 ≤ bodyN o 16 4 then (s, .code Code.RANGE)
  else if (lanes && !sameImages s st) || (kpr && (slotIn s .a true st).isNone) then (s, .code Code.MISMATCH)
  else if out && (standby s).isNone then (s, .code Code.NOT_READY)
  else if out && lanes && otherFormat s st then
    (bothLanes (fun l s => match slotIn s l false st with
      | some n => setF (slotErr false n) 7 l s
      | none => s) s, .codeD Code.STATE 7)
  else if getB s Reg.UPD_LCS_chg || getF s Reg.UPD_SEQ_step ≠ 0 then (s, .code Code.BUSY)
  else
    let s1 := setF Reg.UPD_TL_t (bodyN o 8 4) .a (setF Reg.UPD_TH_t (bodyN o 12 4) .a
      (setF Reg.UPD_SEQ_rb 0 .a (setF Reg.UPD_SEQ_kind kind .a (setF Reg.UPD_SEQ_step 1 .a s))))
    ({ s1 with upd := { s1.upd with acceptAt := info.tAcc, tNs := bodyN o 16 4, swapE := none, rbStep := 0,
                                    newA := if lanes then slotIn s .a false st else none,
                                    newB := if lanes then slotIn s .b false st else none,
                                    newK := if kpr then slotIn s .a true st else none } }, .code Code.ACCEPTED)

/-- FW_ACTIVATE (R481, R482). -/
def execFwActivate (t : Time) (o : Order) (s : State) : Host.Outcome State Fault Refusal :=
  run t s (serve o 1 0x10 [(0, 9), (32, 32), (64, 96)] [(0, 4, 4)] false (doFwActivate o))

/-- FW_CANCEL's operation (R481): before the activation starts it ends the order. -/
def doFwCancel (_ : OrdInfo) (s : State) : State × Reply :=
  match getF s Reg.UPD_SEQ_step with
  | 0 => (s, .code Code.STATE)
  | 1 => (seqIdle (raise .keeper Ev.UPD_CANCEL 0 s), .code Code.ACCEPTED)
  | _ => (s, .code Code.TOO_LATE)

/-- FW_CANCEL (R481, R482). -/
def execFwCancel (t : Time) (o : Order) (s : State) : Host.Outcome State Fault Refusal := run t s (serve o 1 0x11 [] [] false doFwCancel)

/-- The slot a sequence activates in a lane. -/
def newSlot (s : State) : Lane → Option Nat
  | .a => s.upd.newA
  | .b => s.upd.newB

/-- A lane starts an image: slot, and the instant it must confirm from (none for an image that needs no confirmation). -/
def startImage (l : Lane) (n : Nat) (at' : Option Time) (s : State) : State :=
  match l with
  | .a => { s with upd := { s.upd with runA := n, startA := at', cntA := 0, okA := true } }
  | .b => { s with upd := { s.upd with runB := n, startB := at', cntB := 0, okB := true } }

/-- Lane 1 of the sequence (R483). -/
def laneOne (s : State) : Lane := if getF s Reg.UPD_SEQ_lane1 = 0 then .a else .b

/-- A lane enters lane reset and starts the new image. -/
def beginLane (l : Lane) (e : Time) (s : State) : State :=
  laneReset l (startImage l ((newSlot s l).getD (runSlot s l)) (some e) s)

/-- A lane enters lane reset and starts the old image again. -/
def revertLane (l : Lane) (s : State) : State := laneReset l (startImage l (oldSlot (newSlot s l) (runSlot s l)) none s)

/-- Step KACT (R488): the Keeper restarts on the new image; the role lines stay latched. -/
def beginKeeper (e : Time) (s : State) : State :=
  let s1 := setF Reg.UPD_SEQ_step 7 .a s
  { s1 with upd := { s1.upd with runK := s.upd.newK.getD s.upd.runK, startK := some e, kGood := e }, kpr := { s1.kpr with up := false } }

/-- The planned role swap a sequence orders (R302, R483, R486): the first epoch at least 20 ms later. The number 8 is no station's. -/
def orderSwap (s : State) : State := (placeOrder none 8 s.now (.swap 0) (plus s.now (20 * ms)) id s).1

/-- The slots of an activated image become RUNNING, those of the old one PREVIOUS (R483). -/
def settleSlots (l : Lane) (k : Bool) (new : Option Nat) (s : State) : State :=
  match new with
  | some n => setF (slotSt' k n) 3 l (setF (slotSt' k (1 - n)) (if getF s (slotSt' k (1 - n)) l = 3 then 4 else getF s (slotSt' k (1 - n)) l) l s)
  | none => s

/-- Event UPD_DONE with the version of a slot. -/
def seqEvent (l : Lane) (k : Bool) (n : Nat) (s : State) : State :=
  raise .keeper Ev.UPD_DONE (getF s Reg.UPD_SEQ_kind + 2 ^ 8 * getF s (slotMaj k n) l + 2 ^ 16 * getF s (slotMin k n) l) s

/-- DONE (R483, R484): both lanes have confirmed; with kind 2 the Keeper's image follows (R488). -/
def lanesDone (s : State) : State :=
  let s1 := seqEvent .a false (s.upd.newA.getD s.upd.runA) (settleSlots .b false s.upd.newB (settleSlots .a false s.upd.newA s))
  if getF s1 Reg.UPD_SEQ_kind = 2 then
    beginKeeper s1.now { s1 with upd := { s1.upd with newA := none, newB := none, startA := none, startB := none, swapE := none } }
  else seqIdle s1

/-- Cycles a lane has counted toward confirmation (R485). -/
def confCount (s : State) : Lane → Nat
  | .a => s.upd.cntA
  | .b => s.upd.cntB

/-- HEALTH_CONFIRMATION (R483-R485): a lane with 50 good cycles writes its confirmation to the journal. -/
def execHealthConfirmation (t : Time) (l : Lane) (s : State) : Host.Outcome State Fault Refusal :=
  runLane t l s (fun s =>
    if (startOf s l).isNone || confCount s l < 50 then s
    else
      let s1 := setF (slotConf false (runSlot s l)) 1 l (startImage l (runSlot s l) none s)
      match getF s Reg.UPD_SEQ_step with
      | 2 => orderSwap (setF Reg.UPD_SEQ_step 3 .a s1)
      | 4 => lanesDone s1
      | 6 => if (startOf s1 l.other).isNone then lanesDone s1 else s1
      | _ => s1)

/-- Event UPD_ROLLBACK. -/
def rollEvent (kind : Nat) (s : State) : State := raise .keeper Ev.UPD_ROLLBACK (kind + 2 ^ 8 * getF s Reg.UPD_SEQ_step) s

/-- CONFIRMATION_TIMEOUT (R484-R486): a lane that has not confirmed within 120 s returns to its old image; its new slot is FAILED with
NOCONF, and the sequence rolls back: in Lay-up by a dual lane reset, else lane by lane. -/
def execConfirmationTimeout (t : Time) (l : Lane) (s : State) : Host.Outcome State Fault Refusal :=
  run t s (fun s =>
    match startOf s l with
    | none => s
    | some x =>
      if since s.now x < 120 * sec then s
      else
        let n := runSlot s l
        let s1 := setF (slotErr false n) 8 l (setF (slotSt' false n) 5 l s)
        let kind := getF s Reg.UPD_SEQ_kind
        let step := getF s Reg.UPD_SEQ_step
        if step = 6 || (step = 4 && modeNow s == .layup) then dualReset 5 id (rolledBack kind s1)
        else
          let s2 := setF Reg.UPD_SEQ_step 8 .a (rollEvent kind s1)
          revertLane l { s2 with upd := { s2.upd with rbStep := if step = 4 then 1 else 3 } })

/-- KEEPER_IMAGE_CONFIRM (R488): the new Keeper image has heard every admitted lane for 10 s. -/
def execKeeperImageConfirm (t : Time) (s : State) : Host.Outcome State Fault Refusal :=
  run t s (fun s =>
    match s.upd.startK with
    | some x =>
      if s.kpr.up && getF s Reg.UPD_SEQ_step = 7 && decide (10 * sec ≤ since s.now x) && decide (10 * sec ≤ since s.now s.upd.kGood) then
        let n := s.upd.runK
        seqIdle (seqEvent .a true n (setF (slotConf true n) 1 .a (settleSlots .a true (some n) s)))
      else s
    | none => s)

/-- KEEPER_CONFIRM_TIMEOUT (R488): without confirmation after 120 s the boot monitor restarts the PREVIOUS Keeper image. -/
def execKeeperConfirmTimeout (t : Time) (s : State) : Host.Outcome State Fault Refusal :=
  run t s (fun s =>
    match s.upd.startK with
    | some x =>
      if getF s Reg.UPD_SEQ_step = 7 && decide (120 * sec ≤ since s.now x) then
        let n := s.upd.runK
        let s1 := setF (slotErr true n) 8 .a (setF (slotSt' true n) 5 .a s)
        keeperStart (rolledBack 1 { s1 with upd := { s1.upd with newA := none, newB := none } })
      else s
    | none => s)

/-! The sequence at an epoch. -/

/-- A cycle that ends at an epoch counts toward a lane's confirmation when it kept every condition (R485); `cyc` is its number. -/
def countLane (cyc : Word) (l : Lane) (s : State) : State :=
  match startOf s l with
  | none => s
  | some _ =>
    let a := s.lane l
    let k := kprLane s l
    let sets := if modeNow s == .layup then k.known && k.missRun == 0 else a.mir.adoptedCyc == some cyc
    let kept := match l with
      | .a => s.upd.okA
      | .b => s.upd.okB
    let good := kept && sets && admitted s l && ready s l && a.health.fatal == 0#16
    let n := if good then min (confCount s l + 1) 50 else 0
    match l with
    | .a => { s with upd := { s.upd with cntA := n, okA := true } }
    | .b => { s with upd := { s.upd with cntB := n, okB := true } }

/-- UPD_SEQ.cyc and left: of the lane that has yet to confirm, or of the Keeper. -/
def showSeq (e : Time) (s : State) : State :=
  let left (x : Time) : Nat := (120 * sec - min (since e x) (120 * sec)) / (100 * ms)
  match s.upd.startA, s.upd.startB, s.upd.startK with
  | some x, none, _ => setF Reg.UPD_SEQ_left (left x) .a (setF Reg.UPD_SEQ_cyc s.upd.cntA .a s)
  | none, some x, _ => setF Reg.UPD_SEQ_left (left x) .a (setF Reg.UPD_SEQ_cyc s.upd.cntB .a s)
  | some x, some _, _ => setF Reg.UPD_SEQ_left (left x) .a (setF Reg.UPD_SEQ_cyc (min s.upd.cntA s.upd.cntB) .a s)
  | none, none, some x => setF Reg.UPD_SEQ_left (left x) .a (setF Reg.UPD_SEQ_cyc 0 .a s)
  | none, none, none => setF Reg.UPD_SEQ_left 0 .a (setF Reg.UPD_SEQ_cyc 0 .a s)

/-- Whether a scheduled activation starts at an epoch (R481). -/
def activates (s : State) (e : Time) : Bool :=
  let tai : Int := (((rdK s Reg.UPD_TL).toNat + 2 ^ 32 * (rdK s Reg.UPD_TH).toNat) * 1000000000 + s.upd.tNs : Nat)
  atOrAfter e (plus s.upd.acceptAt (20 * ms)) && decide (tai ≤ ltAt s (timeLane s) e)

/-- What the sequence waits for: a role swap to a lane. It is ordered again when none is pending; the epoch after the swap `k` follows. -/
def afterSwap (to' : Lane) (e : Time) (k : State → State) (s : State) : State :=
  if !isActive s to' then
    if s.auth.orders.any (fun o => match o.val with
      | .swap _ => true
      | _ => false) then s else orderSwap s
  else
    match s.upd.swapE with
    | none => { s with upd := { s.upd with swapE := some e } }
    | some x => if x = e then s else k { s with upd := { s.upd with swapE := none } }

/-- The update sequence at an epoch (R481-R486), after roles and admissions of the epoch. -/
def updEpoch (e : Time) (s : State) : State :=
  let one := laneOne s
  match getF s Reg.UPD_SEQ_step with
  | 1 =>
    if !activates s e then s
    else if getF s Reg.UPD_SEQ_kind = 1 then beginKeeper e s
    else if modeNow s == .layup then
      let s1 := bothLanes (fun l s => startImage l ((newSlot s l).getD (runSlot s l)) (some 0#64) s) (setF Reg.UPD_SEQ_step 6 .a s)
      dualReset 5 id s1
    else
      let l := (timeLane s).other
      beginLane l e (setF Reg.UPD_SEQ_lane1 l.idx .a (setF Reg.UPD_SEQ_step 2 .a s))
  | 3 => afterSwap one e (fun s => beginLane one.other e (setF Reg.UPD_SEQ_step 4 .a s)) s
  | 8 =>
    match s.upd.rbStep with
    | 1 => if admitted s one.other && (active s).isSome then
        afterSwap one.other e (fun s => revertLane one { s with upd := { s.upd with rbStep := 3 } }) s else s
    | _ => if admitted s one && !isActive s one then setF Reg.UPD_SEQ_rb 1 .a (seqIdle s) else s
  | _ => s

end Sys2Proof.Machine
end

