-- ==== Sys2Proof/Machine/Host.lean ====
section
/-!
DEFINITION. Posts, the safety load, configuration items, snapshots and the memory copy (R375-R378), and what a register reads
(R353, R475, R493-R497).
-/

namespace Sys2Proof.Machine

/-! Posts (R375). -/

/-- The lanes that take a post (R368): the endpoint's own, or for a network station the Active one, which relays it to the Standby. -/
def onPost (p : Path) (f : Lane → State → State) (s : State) : State :=
  match p with
  | .pcie ep _ => f ep s
  | _ =>
    match active s with
    | some l => match standby s with
      | some m => f m (f l s)
      | none => f l s
    | none => s

/-- The posts of one identifier with a new one: those of the last 10 s are kept, and the newest before them. -/
def addPost (now : Time) (v : DispVal) (old : List DispVal) : List DispVal :=
  v :: (old.filter (fun p => decide (since now p.tAcc ≤ 10 * sec)) ++ (old.filter (fun p => !decide (since now p.tAcc ≤ 10 * sec))).take 1)

/-- DISPATCH's operation: a post with valid clear needs no finite value. -/
def doDispatch (o : Order) (info : OrdInfo) (s : State) : State × Reply :=
  let id := bodyN o 0 4
  let life := bodyN o 24 4
  let valid := bodyN o 28 1 % 2 == 1
  if 60000 < life || (valid && !finite (bodyF o 8)) then (s, .code Code.RANGE)
  else
    (onPost o.path (fun l s => onLane l (fun a =>
      { a with hri := { a.hri with
          disp := alSet a.hri.disp id (addPost s.now ⟨info.tAcc, bodyF o 8, life, valid⟩ ((alGet a.hri.disp id).getD [])) } }) s) s,
     .code Code.ACCEPTED)

/-- DISPATCH (R375). -/
def execDispatch (t : Time) (o : Order) (s : State) : Host.Outcome State Fault Refusal :=
  run t s (serve o 3 1 [(0, 225)] [(0, 4, 4), (8, 16, 8)] false (doDispatch o))

/-- A standard deviation is finite and above 0. -/
def sigmaOk (x : F32) : Bool := F64.isFin (F64.of32 x) && F64.lt 0#64 (F64.of32 x)

/-- POST_REFERENCE's operation: a position needs two deviations, a heading one and 0 in the place of y. -/
def doPostReference (o : Order) (s : State) : State × Reply :=
  let id := bodyN o 0 1
  let kind := bodyN o 1 1
  let sx : F32 := BitVec.ofNat 32 (bodyN o 28 4)
  let sy : F32 := BitVec.ofNat 32 (bodyN o 32 4)
  if 7 < id || !(kind == 1 || kind == 2) || !finite (bodyF o 12) || !sigmaOk sx || (kind == 1 && !(finite (bodyF o 20) && sigmaOk sy))
      || (kind == 2 && bodyN o 20 8 != 0) then
    (s, .code Code.RANGE)
  else
    let r : RefIn := ⟨BitVec.ofNat 64 (bodyN o 4 8), kind, bodyF o 12, bodyF o 20, sx, sy⟩
    (onPost o.path (fun l => onFus l (fun f => { f with refIn := f.refIn ++ [(8 + id, r)] })) s, .code Code.ACCEPTED)

/-- POST_REFERENCE (R375, R155). -/
def execPostReference (t : Time) (o : Order) (s : State) : Host.Outcome State Fault Refusal :=
  run t s (serve o 3 2 [(0, 16), (32, 256)] [] false (fun _ => doPostReference o))

/-- EVENT's operation (R375, R336): recorded with the stamp its host gave it. -/
def doEvent (o : Order) (s : State) : State × Reply :=
  let src := bodyN o 0 2
  if !within 640 1023 src then (s, .code Code.RANGE)
  else
    (raiseAt (BitVec.ofNat 64 (bodyN o 8 8)) (.host (BitVec.ofNat 10 src)) (bodyN o 2 2) (bodyN o 16 8) false false s,
     .code Code.ACCEPTED)

/-- EVENT (R375). -/
def execEvent (t : Time) (o : Order) (s : State) : Host.Outcome State Fault Refusal :=
  run t s (serve o 3 5 [(0, 192)] [(0, 4, 4)] false (fun _ => doEvent o))

/-! The safety load (R376, R430). -/

/-- LOAD_SAFETY's operation: one block holds the whole configuration; the checks follow (SAFETY_CONFIG_CHECK). -/
def doLoadSafety (o : Order) (b : HostBuf) (s : State) : State × Reply :=
  match loadErr o b with
  | some c => (s, .code c)
  | none =>
    if bodyN o 4 4 ≠ 0 then (s, .code Code.STATE)
    else (setF Reg.SAF_CFG_busy 1 .a (onSaf (fun a => { a with load := some b.bytes }) s), .code Code.ACCEPTED)

/-- LOAD_SAFETY (R376, R430). -/
def execLoadSafety (t : Time) (o : Order) (b : HostBuf) (s : State) : Host.Outcome State Fault Refusal :=
  run t s (serve o 4 4 [(0, 192)] [] false (fun _ => doLoadSafety o b))

/-! Configuration items (R376). -/

/-- A change of keys (R64, R91): every bank that holds a load is verified again, in both lanes; one that is LOADING is verified once,
when its load ends. -/
def reverifyAll (s : State) : State :=
  bothLanes (fun l s => forEach (fun (p : Bool × Nat) s =>
    if !(bankOf (s.lane l) p.1 p.2).blocks.isEmpty && getF s (bankFld p.1 p.2) l ≠ 1 then
      onBank l p.1 p.2 (fun b => { b with reverify := true }) s
    else s) [(false, 0), (false, 1), (true, 0), (true, 1)] s) s

/-- A package key (R64): the uncompressed point of a P-384 public key. -/
def putKey (n : Nat) (bs : List Byte) (s : State) : Option State :=
  if 1 < n || bs.length ≠ 97 || bs.headD 0#8 ≠ 4#8 then none
  else
    some (reverifyAll (wrK (Reg.SLV_PKG_KEYnID n) (BitVec.ofNat 32 (leNat ((sha bs).take 4)))
      { s with cfg := { s.cfg with keys := Sparse.set (fun _ => []) s.cfg.keys n bs } }))

/-- A stream slot keeps the values of R158. -/
def streamOk (n : Nat) (c : StreamCfg) : Bool :=
  decide (n < 8) && decide (c.port < 4) && within 1 65535 c.dport && within 1 4096 c.packets && within (10 * ms) sec c.tf
    && decide (c.lat ≤ sec) && decide (c.extractor < 8) && [c.px, c.py, c.pz, c.roll, c.pitch, c.yaw].all F64.isFin
    && (if c.lidar then
      let fits (o n : Nat) : Bool := decide (o + n ≤ c.recLen)
      let pt (f : PtFld) : Bool := decide (f.typ ≤ 2) && F64.isFin f.scale && fits f.ofs (if f.typ = 0 then 2 else 4)
      pt c.ptX && pt c.ptY && pt c.ptZ && fits c.intOfs (if c.intWide then 2 else 1)
    else within 64 4096 c.width && within 64 4096 c.height)

/-- A reference slot (R156, R177): slot 0 stays in group 0. -/
def refOk (n : Nat) (c : RefCfg) : Bool :=
  let it (k : Option Nat) : Bool := k.all (fun k => decide (k < 192))
  decide (n < 16) && decide (c.group < 16) && (n != 0 || c.group == 0) && it (c.pos.map (·.1)) && it (c.pos.map (·.2)) && it c.hdg
    && [c.mot.rate, c.mot.roll, c.mot.pitch, c.mot.heave, c.mot.windA, c.mot.windS].all it
    && F64.isFin c.armX && F64.isFin c.armY && F64.isFin c.armZ

/-- Configure a reference slot: both lanes show its group. -/
def putRef (n : Nat) (c : RefCfg) (s : State) : State :=
  setF2 (Reg.FUS_REFn_group n) c.group { s with cfg := { s.cfg with refs := alSet s.cfg.refs n c } }

/-- Calibration constants are finite, the trim within 100 µs (R227). -/
def calOk (n : Nat) (c : ChanCal) : Bool :=
  decide (n < 192) && [c.fsH, c.kH, c.oH, c.aL, c.bL, c.aL0, c.bL0, c.trim].all F64.isFin
    && F64.le (F64.ratio 1 10000) (F64.sub (F64.ratio 2 10000) c.trim) && F64.le (F64.neg (F64.ratio 1 10000)) c.trim

/-- A compensation curve (R345): 16 points of rising temperature. -/
def curveOk (pts : List (Int × F64)) : Bool :=
  pts.length == 16 && pts.all (fun p => F64.isFin p.2)
    && (List.range 15).all (fun i => decide ((pts.getD i (0, 0#64)).1 < (pts.getD (i + 1) (0, 0#64)).1))

/-- A message object record (R391). -/
def readObj (bs : List Byte) : ObjCfg :=
  let f := leAt bs 3 1
  { kind := leAt bs 2 1, ide := bit f 0, fd := bit f 1, brs := bit f 2, fmt := bit f 3, id := BitVec.ofNat 32 (leAt bs 4 4),
    mask := BitVec.ofNat 32 (leAt bs 8 4), len := leAt bs 12 1, retry := leAt bs 13 1, dec := leAt bs 15 1, life := leAt bs 16 2,
    ents := (List.range (leAt bs 14 1)).map (fun i =>
      let o := 32 + 8 * i
      ⟨leAt bs o 2, leAt bs (o + 2) 1, leAt bs (o + 3) 1, BitVec.ofNat 32 (leAt bs (o + 4) 4)⟩) }

/-- Entries extend within the length and do not overlap. -/
def entsFit (len : Nat) (es : List ObjEnt) : Bool :=
  es.all (fun e => within 1 8 e.enc && decide (e.ofs + encLen e.enc ≤ len))
    && (List.range es.length).all (fun i => (List.range i).all (fun j =>
      let x := es.getD i ⟨0, 0, 0, 0#32⟩
      let y := es.getD j ⟨0, 0, 0, 0#32⟩
      decide (x.ofs + encLen x.enc ≤ y.ofs) || decide (y.ofs + encLen y.enc ≤ x.ofs)))

/-- The source of an entry suits the object (R391, R396): a field of the active package's OUTMAP or a pseudo field, a slot, or 0. With no
lane Active field sources are not checked, as with no ACTIVE bank (log entry 90). -/
def entSrcOk (s : State) (kind : Nat) (e : ObjEnt) : Bool :=
  match kind with
  | 3 => e.src == 0xF000 || e.src == 0xF001 || (match (active s).bind (actPkg s) with
      | some p => p.outmap.any (fun m => m.code == e.src)
      | none => true)
  | 4 => decide (e.src < 256)
  | _ => e.src == 0

/-- Whether a message object record is accepted (R391). -/
def objOk (s : State) (k : Nat) (bs : List Byte) : Bool :=
  let o := readObj bs
  decide (k < 512) && decide (bs.length = 32 + 8 * leAt bs 14 1) && leAt bs 0 2 == k && decide (o.kind ≤ 7) && decide (leAt bs 3 1 < 16)
    && (if o.fd then [0, 1, 2, 3, 4, 5, 6, 7, 8, 12, 16, 20, 24, 32, 48, 64].contains o.len else decide (o.len ≤ 8))
    && within 1 15 o.retry && decide (leAt bs 14 1 ≤ 8) && (o.kind != 4 || decide (1 ≤ o.dec)) && decide (o.life ≤ 60000)
    && allZero (slice bs 18 14) && decide (o.id.toNat < 2 ^ (if o.ide then 29 else 11)) && entsFit o.len o.ents
    && o.ents.all (entSrcOk s o.kind)
    && (!within 5 7 o.kind || !s.mbc.objs.any (fun p => p.2.kind == o.kind && p.1 / 128 != k / 128))

/-- A serial item (R402). -/
def readSer (bs : List Byte) : SerItem :=
  ⟨leAt bs 2 1, leAt bs 3 1, slice bs 4 6, leAt bs 10 1, leAt bs 11 1, bs.getD 12 0#8, leAt bs 13 1, bs.getD 14 0#8, leAt bs 15 1,
   bs.getD 16 0#8, leAt bs 18 2, slice bs 20 6, BitVec.ofNat 64 (leAt bs 32 8), BitVec.ofNat 64 (leAt bs 40 8)⟩

/-- Whether a serial item is accepted (R402). -/
def serOk (n : Nat) (bs : List Byte) : Bool :=
  let i := readSer bs
  decide (n < 192) && decide (bs.length = 48) && leAt bs 0 2 == n && decide (i.src ≤ 8) && within 1 3 i.conv && within 1 40 i.fld
    && bs.getD 17 0#8 == 0#8 && within 1 600 i.life && allZero (slice bs 26 6)

/-- Answer of a loop record or bank write: RANGE for a field out of range, else the err of R280. -/
def loopAnswer (n : Nat) (r : Nat ⊕ State) (s : State) : Option Reply × State :=
  match r with
  | .inl 0xFF => (some (.code Code.RANGE), s)
  | .inl e => (some (.codeD Code.ERR e), bothLanes (fun l => loopErr l n e) s)
  | .inr s1 => (none, s1)

/-- The binary64 values of a buffer, in order. -/
def bufF64s (bs : List Byte) : List F64 := (List.range (bs.length / 8)).map (fun i => BitVec.ofNat 64 (leAt bs (8 * i) 8))

/-- What an item's write does: the reply that refuses it, or the state with it. Its content is what the buffer holds; where the owner's rule
gives no byte layout the reading of the bytes is free (log entry 101). -/
def putItem (item n : Nat) (bs : List Byte) (s : State) : Option Reply × State :=
  let bad : Option Reply × State := (some (.code Code.RANGE), s)
  let put (ok : Bool) (t : State) : Option Reply × State := if ok then (none, t) else bad
  match item with
  | 1 =>
    match putKey n bs s with
    | some t => (none, t)
    | none => bad
  | 2 =>
    let x := Config.streamItem bs
    put (streamOk n x) { s with cfg := { s.cfg with streams := alSet s.cfg.streams n x } }
  | 3 => put (refOk n (Config.refItem bs)) (putRef n (Config.refItem bs) s)
  | 4 => put (calOk n (Config.calItem bs)) (setCal n (Config.calItem bs) s)
  | 5 => put (decide (n < 96) && pointOk s (Config.pointItem bs)) (setPoint n (Config.pointItem bs) s)
  | 6 =>
    let x := Config.presetItem bs
    put (decide (n < 96) && decide (x.1 ≤ 8) && metDefined (((alGet s.cfg.points n).map (·.kind)).getD 0) x.1) (metPreset n x.1 x.2 s)
  | 7 => if n < 256 then loopAnswer n (putRecord n bs s) s else bad
  | 8 => if n < 512 then loopAnswer (n % 256) (putBank (n % 256) (n / 256) bs s) s else bad
  | 9 =>
    let xs := Config.antennaItem bs
    put (xs.length == 6 && xs.all F64.isFin) { s with cfg := { s.cfg with antenna := xs } }
  | 10 => put (curveOk (Config.curveItem bs)) { s with rtc := { s.rtc with curve := Config.curveItem bs } }
  | 11 => (none, { s with cfg := { s.cfg with prio1 := (Config.prioItem bs).1, prio2 := (Config.prioItem bs).2 } })
  | 12 =>
    put (objOk s n bs)
      (setF (Reg.MBC_OBJk_STAT_kind n) (readObj bs).kind .a
        { s with mbc := { s.mbc with objs := Sparse.set objDef s.mbc.objs n (readObj bs) } })
  | 13 => put (serOk n bs) { s with cfg := { s.cfg with sers := alSet s.cfg.sers n (readSer bs) } }
  | 14 => put (bs.length == 384 && (bufF64s bs).all F64.isFin) { s with cfg := { s.cfg with filter := some (bufF64s bs) } }
  | _ => bad

/-- CONFIG_ITEM's operation; a stored item enters the configuration digest (R478), a preset is no stored item. -/
def doConfigItem (o : Order) (b : HostBuf) (s : State) : State × Reply :=
  let item := bodyN o 0 2
  let n := bodyN o 2 2
  if !b.dmaOk || b.bytes.length ≠ bodyN o 16 4 then (s, .code Code.BUFFER)
  else if (crc32c b.bytes).toNat ≠ bodyN o 20 4 then (s, .code Code.BADCRC)
  else
    match putItem item n b.bytes s with
    | (some r, s1) => (s1, r)
    | (none, s1) =>
      (if item = 6 then s1
       else { s1 with cfg := { s1.cfg with raw := Sparse.set (fun _ => []) s1.cfg.raw (65536 * item + n) b.bytes } }, .code Code.ACCEPTED)

/-- CONFIG_ITEM (R376): while Operational only loop records and banks are accepted. -/
def execConfigItem (t : Time) (o : Order) (b : HostBuf) (s : State) : Host.Outcome State Fault Refusal :=
  run t s (serve o 5 1 [(0, 32), (64, 128)] [] (!(bodyN o 0 2 == 7 || bodyN o 0 2 == 8)) (fun _ => doConfigItem o b))

/-! What a register reads. -/

/-- Blocks a Decommissioned module still answers (R475): KPR, PWR, RTC, REC, SAF, UPD, and the serial number. -/
def readsDecommissioned (off : Nat) : Bool := [1, 2, 4, 5, 15, 17].contains (off / 0x10000) || off == 8 || off == 12

/-- Bits of a register that read 0: those of fields that are write-only (R10). -/
def woMask (r : RegRow) : Word :=
  r.fields.foldl (fun m f => if f.acc == .wo || f.acc == .lkwo then m ||| BitVec.ofNat 32 ((2 ^ f.w - 1) * 2 ^ f.lsb) else m) 0#32

/-- The window of the recorder an endpoint has selected (R445). -/
def recWindow (s : State) (ep : Lane) (w : Nat) : Word :=
  BitVec.ofNat 32 ((Sparse.get slotEmpty s.rec'.slots (getF s Reg.REC_RDIDX_idx ep)).toNat / 2 ^ (32 * w))

/-- A serial item's status as it reads now (R403): the age of its value, which reads its reset value while there is none, and valid
only within its life. -/
def serStatus (s : State) (ep : Lane) (k : Nat) (v : Word) : Word :=
  match (alGet (s.lane ep).ser k).bind List.head?, alGet s.cfg.sers k with
  | some x, some i =>
    let age := ((x.took.map (fun t => since s.now t / ms)).getD 0xFFFF)
    let v1 := withField v 16 16 (min age 0xFFFF)
    if x.valid && decide (since s.now x.stamp ≤ i.life * 100 * ms) then v1 else withField v1 0 1 0
  | _, _ => v

/-- A serial port's status as it reads now (R405): act while a character was received in the last 1 s. -/
def portStatus (s : State) (n : Nat) (v : Word) : Word :=
  if (alGet s.mbc.heard n).any (fun t => decide (since s.now t ≤ 1000 * ms)) then v else withField v 0 1 0

/-- Key of a register as an endpoint reaches it. -/
def regKey (r : RegRow) (ep : Lane) (off : Nat) : Nat := if r.perLane then off + laneSpan * (1 + ep.idx) else off

/-- The data window of a receive object is module-wide, that of a host transmit object per lane (R404). -/
def windowKey (s : State) (ep : Lane) (off : Nat) : Nat :=
  if rxKind (objCfg s ((off - 0xD8000) / 0x40)).kind then off else off + laneSpan * (1 + ep.idx)

/-- What a register reads through an endpoint, without the effects of a read. -/
def regRead (s : State) (ep : Lane) (off : Nat) : Word :=
  match regRow off with
  | none => 0#32
  | some r =>
    let dead := shut s ep
    if off = 0 then 0x4A587400#32
    else if 0xD8000 ≤ off && off < 0xE0000 && windowKey s ep off == off && !decommissioned s then rdK s off
    else if r.perLane && dead && !(off == Reg.REC_RDIDX) && !(0x50040 ≤ off && off < 0x50060) then 0xFFFFFFFF#32
    else if decommissioned s && !readsDecommissioned off then 0#32
    else if 0x40000 ≤ off && off < 0x40010 then rtcRead s off
    else if 0x50040 ≤ off && off < 0x50060 then recWindow s ep ((off - 0x50040) / 4)
    else if 0x110004 ≤ off && off < 0x110014 then digWord s ((off - 0x110004) / 4)
    else if 0xD8000 ≤ off && off < 0xE0000 then rdK s (windowKey s ep off)
    else
      let v := rdK (if off = Reg.TMB_STAT then showHold ep s else s) (regKey r ep off) &&& ~~~woMask r
      if 0xE0400 ≤ off && off < 0xE0400 + 192 * 8 && off % 8 == 0 then serStatus s ep ((off - 0xE0400) / 8) v
      else if 0xE0000 ≤ off && off < 0xE0080 && off % 0x10 == 4 then portStatus s ((off - 0xE0000) / 0x10) v
      else v

/-- What an aligned read of 1, 2, 4 or 8 bytes returns (R493): a narrower one the addressed bytes of its word, a 64-bit one two words, the
lower offset first. -/
def hostRead (s : State) (ep : Lane) (off bytes : Nat) : Nat :=
  if bytes = 8 then (regRead s ep off).toNat + 2 ^ 32 * (regRead s ep (off + 4)).toNat
  else (regRead s ep (off - off % 4)).toNat / 2 ^ (8 * (off % 4)) % 2 ^ (8 * bytes)

/-- An endpoint's identity and limits (R352): PCIe device identifier, class code, maximum payload and maximum read request in bytes. -/
def pcieDevice : Nat := 0x7400
def pcieClass : Nat := 0x0880
def pciePayload : Nat := 256
def pcieReadRequest : Nat := 512

/-- What a 32-bit read of a word of BAR4 returns (R352): the MSI-X table, whose mask bit is kept inverted, and the pending-bit array; the rest
of the page holds nothing. -/
def barFourRead (s : State) (ep : Lane) (o : Nat) : Word :=
  if o < 1024 then (if o % 16 = 12 then ~~~(rdK s (msixKey ep o)) &&& 1#32 else rdK s (msixKey ep o))
  else if 0x1000 ≤ o && o < 0x1008 then rdK s (msixKey ep o) else 0#32

/-- What an aligned 32-bit read through a BAR of an endpoint returns (R352, R357): the doorbell page reads 0. -/
def barRead (s : State) (ep : Lane) (bar off : Nat) : Word :=
  match bar with
  | 0 => regRead s ep off
  | 4 => barFourRead s ep off
  | _ => 0#32

/-- The state after a read that starts in a word: one of RTC_TIME latches the calendar (R343). The reads with an effect that have a row of
their own are commands (R321, R341). -/
def afterRead (off : Nat) (s : State) : State := when (off - off % 4 == Reg.RTC_TIME) latchCal s

/-! Snapshots (R377). -/

/-- Write the content of a snapshot into the buffer a body names, when it is long enough. -/
def snapTo (o : Order) (dmaOk : Bool) (bytes : List Byte) (s : State) : State × Reply :=
  if !dmaOk || bodyN o 16 4 < bytes.length then (s, .code Code.BUFFER)
  else (emit (.dma (ownLane o) (BitVec.ofNat 64 (bodyN o 8 8)) bytes) s, .done Code.ACCEPTED 0 [] true)

/-- SNAPSHOT_METRO's operation: the point as it stands, latched now. -/
def doSnapshotMetro (o : Order) (dmaOk : Bool) (s : State) : State × Reply :=
  if 95 < bodyN o 0 4 then (s, .code Code.RANGE) else snapTo o dmaOk (metBytes s (ownLane o) (bodyN o 0 4)) s

/-- SNAPSHOT_METRO (R377). -/
def execSnapshotMetro (t : Time) (o : Order) (dmaOk : Bool) (s : State) : Host.Outcome State Fault Refusal :=
  run t s (serve o 6 1 [(0, 32), (64, 128)] [] false (fun _ => doSnapshotMetro o dmaOk))

/-- Registers whose read has an effect: they read 0 in a block snapshot. -/
def readEffect (off : Nat) : Bool := off == Reg.TMB_MTCL || (List.range 8).any (fun n => off == Reg.TMB_TCn_MTCL n)

/-- A block of the register space at one instant. -/
def blockBytes (s : State) (ep : Lane) (base : Nat) : List Byte :=
  (List.range 16384).flatMap (fun i =>
    let off := base + 4 * i
    leBytes 4 (if readEffect off then 0 else (regRead s ep off).toNat))

/-- SNAPSHOT_BLOCK's operation: the block at a BAR0 offset; one that holds RTC_TIME reads it, with its latch, before the registers after it
(R343, log entry 61). -/
def doSnapshotBlock (o : Order) (dmaOk : Bool) (s : State) : State × Reply :=
  let base := bodyN o 0 4
  if base % 0x10000 ≠ 0 || 0x200000 ≤ base then (s, .code Code.RANGE)
  else if !dmaOk || bodyN o 16 4 < 65536 then (s, .code Code.BUFFER)
  else
    let s := afterRead base s
    snapTo o dmaOk (blockBytes s (ownLane o) base) s

/-- SNAPSHOT_BLOCK (R377). -/
def execSnapshotBlock (t : Time) (o : Order) (dmaOk : Bool) (s : State) : Host.Outcome State Fault Refusal :=
  run t s (serve o 6 2 [(0, 32), (64, 128)] [] false (fun _ => doSnapshotBlock o dmaOk))

/-- GRID's operation, in the Active lane; while fusion runs it waits for the blend of the next cycle, else the grid stands as it
is. -/
def doGrid (o : Order) (dmaOk : Bool) (info : OrdInfo) (s : State) : State × Reply :=
  let l := ownLane o
  if 1 < bodyN o 0 4 then (s, .code Code.RANGE)
  else if !dmaOk || bodyN o 16 4 < 67108864 then (s, .code Code.BUFFER)
  else if (s.lane l).fus.run then
    (onLane l (fun a => { a with hri := { a.hri with gridWait := a.hri.gridWait ++ [⟨info, bodyN o 0 4 == 1, BitVec.ofNat 64 (bodyN o 8 8)⟩] } }) s,
     .later)
  else snapTo o dmaOk (gridBytes (if bodyN o 0 4 = 1 then (s.lane l).fus.prevGrid else (s.lane l).fus.curGrid)) s

/-- GRID (R377). -/
def execGrid (t : Time) (o : Order) (dmaOk : Bool) (s : State) : Host.Outcome State Fault Refusal :=
  run t s (serve o 6 3 [(0, 32), (64, 128)] [] false (doGrid o dmaOk))

/-- The last keyframe of a lane (R185): the Active one makes it, the Standby holds the mirrored one; before the first, a grid of zeros. -/
def lastKey (s : State) (l : Lane) : Sparse (BitVec 16) × Int × Int := (s.lane l).fus.lastKey.getD ([], 0, 0)

/-- The 64 bytes of a keyframe's origin, whose layout the spec does not give (log entry 13). -/
def originBytes (x y : Int) : List Byte :=
  (List.range 64).map (fun i => BitVec.ofNat 8 (Config.listVal 42 [i, (x % 2 ^ 64).toNat, (y % 2 ^ 64).toNat]))

/-- KEYFRAME's operation: 256 × 256 × 32 values and the origin. -/
def doKeyframe (o : Order) (dmaOk : Bool) (s : State) : State × Reply :=
  if !dmaOk || bodyN o 16 4 < 4194304 + 64 then (s, .code Code.BUFFER)
  else
    let k := lastKey s (ownLane o)
    snapTo o dmaOk (halfBytes (256 * 256 * 32) k.1 ++ originBytes k.2.1 k.2.2) s

/-- KEYFRAME (R377). -/
def execKeyframe (t : Time) (o : Order) (dmaOk : Bool) (s : State) : Host.Outcome State Fault Refusal :=
  run t s (serve o 6 4 [(0, 32), (64, 128)] [] false (fun _ => doKeyframe o dmaOk))

/-! The expert copy of memory (R378). -/

/-- Lane memory an expert may copy: solver vectors, the factor region, the grids, trace memory; as 8-, 2- or 4-byte values. -/
def memValue (s : State) (l : Lane) (region i : Nat) : List Byte :=
  let a := s.lane l
  match region with
  | 0 => leBytes 8 (Sparse.get (fun _ => 0#64) a.slv.vecs i).toNat
  | 1 => leBytes 8 (Sparse.get (fun _ => 0#64) a.slv.factor i).toNat
  | 2 => leBytes 2 (Sparse.get h16Def a.fus.curGrid i).toNat
  | 3 => leBytes 2 (Sparse.get h16Def a.fus.prevGrid i).toNat
  | _ => leBytes 4 (((trcHeld s l (i / 16384)).reverse.getD (i % 16384) (0#64, 0#32)).2).toNat

/-- Copy a run of values of a region; region, first value and count come from a body whose layout the spec does not give (log
entry 32). -/
def memBytes (s : State) (l : Lane) (o : Order) : List Byte :=
  (List.range (expertField o 2)).flatMap (fun i => memValue s l (expertField o 0 % 5) (expertField o 1 + i))

/-- MEM_READ's operation. -/
def doMemRead (o : Order) (dmaOk : Bool) (s : State) : State × Reply :=
  if !dmaOk then (s, .code Code.BUFFER)
  else
    (emit (.dma (ownLane o) (BitVec.ofNat 64 (expertField o 3)) (memBytes s (ownLane o) o)) s, .done Code.ACCEPTED 0 [] true)

/-- MEM_READ (R378). -/
def execMemRead (t : Time) (o : Order) (dmaOk : Bool) (s : State) : Host.Outcome State Fault Refusal :=
  run t s (serve o 7 4 [(0, 320)] [] false (fun _ s => doMemRead o dmaOk (expertDone o s)))

end Sys2Proof.Machine
end

