-- ==== Sys2Proof/Machine/Link.lean ====
section
/-!
DEFINITION. What reaches the module through its host and station links: doorbells, rings enabled and disabled, interrupt moderation and
PERST of an endpoint (R354-R361, R519), the datagrams of network stations (R383), the frames of station 7 (R393, R398, R399), and
the fast PLLs the cycle starts (R28, R465).
-/

namespace Sys2Proof.Machine

/-! Rings (R354-R357). -/

/-- Classes whose records may exceed the 32 bytes of an inline record (R379, R380): event records and time captures never do. -/
def longClass (cls : Nat) : Bool := [0x10, 0x11, 0x12, 0x13, 0x15, 0x17].contains cls

/-- The check of a ring's settings at its enable (R355): HRI_RGn_STAT.err, 0 when it passes. The base registers hold no bits below
the alignment, so ALIGN arises only where a data area or ring address has low bits, never. -/
def ringErr (s : State) (l : Lane) (n : Nat) (v : Word) : Nat :=
  let kind := fieldOf v 1 2
  let cring := fieldOf v 9 6
  let cls := fieldOf v 24 8
  if !within 4 16 (fieldOf v 4 5) then 1
  else if kind == 0 && !(cring != n && ringOn s l cring && getF s (Reg.HRI_RGn_CFG_kind cring) l == 1) then 2
  else if kind == 2 && (streamRing s l cls).isSome then 3
  else if kind == 2 && longClass cls && getF s (Reg.HRI_RGn_DSIZE_pages n) l == 0 then 4
  else 0

/-- A ring that passes its check starts (R355): both indices at 0, phase 1, state RUN. -/
def ringStart (l : Lane) (n : Nat) (s : State) : State :=
  onRing l n (fun _ => {})
    (setF (Reg.HRI_RGn_HOST_idx n) 0 l (setF (Reg.HRI_RGn_PTR_ph n) 1 l (setF (Reg.HRI_RGn_PTR_idx n) 0 l
      (setF (Reg.HRI_RGn_STAT_state n) 1 l s))))

/-- A ring that is disabled (R355): what it has not fetched, not written or not signalled is discarded. -/
def ringOff (l : Lane) (n : Nat) (s : State) : State :=
  if getB s (Reg.HRI_RGn_CFG_en n) l then
    onRing l n (fun _ => {}) (setF (Reg.HRI_RGn_STAT_state n) 0 l (setF (Reg.HRI_RGn_CFG_en n) 0 l s))
  else s

/-- The write of HRI_RGn_CFG (R355): while en is 1 it can only clear en; while en is 0 it stores the settings, and with en = 1 it checks
them and starts the ring or leaves it disabled with its error. -/
def ringCfg (l : Lane) (n : Nat) (v : Word) (s : State) : State :=
  if getB s (Reg.HRI_RGn_CFG_en n) l then (if bit v.toNat 0 then s else ringOff l n s)
  else
    let s1 := wrK (Reg.HRI_RGn_CFG n + laneSpan * (1 + l.idx)) (withField v 0 1 0) s
    if !bit v.toNat 0 then s1
    else
      let e := ringErr s1 l n v
      if e = 0 then ringStart l n (setF (Reg.HRI_RGn_CFG_en n) 1 l s1) else setF (Reg.HRI_RGn_STAT_err n) e l s1

/-- Write the completions that wait for space, oldest first, while there is space (R358). -/
def flushRing (l : Lane) (n : Nat) : Nat → State → State
  | 0, s => s
  | k + 1, s =>
    match (ringSt s l n).waitQ with
    | [] => s
    | e :: es =>
      if ringFull s l n then s
      else flushRing l n k (pushEntry l n (withPhase (leBytes 64 e.toNat)) (onRing l n (fun r => { r with waitQ := es }) s))

/-- Submission rings that were STALLED by a completion ring run again (R358). -/
def unstall (l : Lane) (c : Nat) (s : State) : State :=
  forEach (fun m s =>
    if getF s (Reg.HRI_RGn_STAT_state m) l == 2 && getF s (Reg.HRI_RGn_CFG_cring m) l == c then
      setF (Reg.HRI_RGn_STAT_state m) 1 l s else s) (List.range 64) s

/-- Entries from one index to another of a ring. -/
def ringDist (size a b : Nat) : Nat := (b + size - a % size) % size

/-- Whether a doorbell is ignored and counted (R357). -/
def badBell (s : State) (l : Lane) (n : Nat) (v : Word) : Bool :=
  let i := v.toNat % 2 ^ 16
  let size := ringSize s l n
  let h := getF s (Reg.HRI_RGn_HOST_idx n) l
  let p := getF s (Reg.HRI_RGn_PTR_idx n) l
  v.toNat / 2 ^ 16 != 0xFFFF - i || !ringOn s l n || decide (size ≤ i)
    || (if getF s (Reg.HRI_RGn_CFG_kind n) l == 0 then decide (size - 1 - ringDist size p h < ringDist size h i)
        else decide (ringDist size h p < ringDist size h i))

/-- What an accepted doorbell with a new index does (R356, R379): on a ring the module writes, returned entries give back their space in
the data area, and completions that waited are written. -/
def ringBell (l : Lane) (n i : Nat) (s : State) : State :=
  let k := ringDist (ringSize s l n) (getF s (Reg.HRI_RGn_HOST_idx n) l) i
  let s1 := setF (Reg.HRI_RGn_HOST_idx n) i l s
  if getF s (Reg.HRI_RGn_CFG_kind n) l == 1 then
    let s2 := flushRing l n (ringSt s1 l n).waitQ.length s1
    if ringFull s2 l n then s2 else unstall l n s2
  else if getF s (Reg.HRI_RGn_CFG_kind n) l == 2 then onRing l n (fun r => { r with used := r.used.drop k }) s1
  else s1

/-- DOORBELL (R356, R357, R501): a write to BAR2 at an offset; the doorbell of ring n is at n × 256, other writes are ignored. -/
def execDoorbell (t : Time) (ep : Lane) (ofs : Nat) (v : Word) (s : State) : Host.Outcome State Fault Refusal :=
  runLane t ep s (fun s =>
    let n := ofs / 256
    if shut s ep || decommissioned s || ofs % 256 != 0 || !decide (n < 64) then s
    else if badBell s ep n v then
      sysStat Reg.HRI_SYS_STAT_reject ep
        (incF Reg.HRI_CNT_badbell ep (raise (laneSrc ep 11) Ev.HRI_BADBELL (ofs + 2 ^ 32 * v.toNat) s))
    else if v.toNat % 2 ^ 16 == getF s (Reg.HRI_RGn_HOST_idx n) ep then s
    else ringBell ep n (v.toNat % 2 ^ 16) s)

/-- INTERRUPT_MODERATION (R360): the time HRI_RGn_MOD.usec has passed since the oldest entry not yet signalled. -/
def execInterruptModeration (t : Time) (l : Lane) (n : Nat) (s : State) : Host.Outcome State Fault Refusal :=
  runLane t l s (fun s =>
    let r := ringSt s l n
    if ringOn s l n && !shut s l && getB s (Reg.HRI_RGn_CFG_ie n) l && decide (0 < r.unsig)
        && decide (1000 * getF s (Reg.HRI_RGn_MOD_usec n) l ≤ since s.now r.oldest) then
      raiseVec l (getF s (Reg.HRI_RGn_CFG_vec n) l) (onRing l n (fun r => { r with unsig := 0 }) s)
    else s)

/-- PERST (R519): the endpoint's link and configuration space are reset, with its MSI-X table;
every ring of its lane is disabled and HRI_SYS_STAT cleared. -/
def execPerst (t : Time) (l : Lane) (s : State) : Host.Outcome State Fault Refusal :=
  runLane t l s (fun s =>
    forEach (fun o s => wrK (msixKey l (4 * o)) 0#32 s) (List.range 1026) (clrK Reg.HRI_SYS_STAT l (forEach (ringOff l) (List.range 64) s)))

/-! Network stations (R383). -/

/-- The enabled station whose address a datagram comes from (R383). -/
def netStation (s : State) (src : Word) : Option Nat :=
  if src = 0#32 then none
  else (firstBelow 5 (fun n => rdK s (Reg.HRI_NETSTn n) == src && stationEn s (n + 2)) 5).map (· + 2)

/-- STATION_DATAGRAM (R305, R306, R383): a datagram of 1-16 descriptors to the module address from an enabled source; its descriptors follow
as the order rows of that station. Copies of one datagram are one; what fails format or source is dropped and counted (R384). -/
def execStationDatagram (t : Time) (src dst : Word) (sport : Nat) (hdr : BitVec 64) (copies : Nat) (s : State) :
    Host.Outcome State Fault Refusal :=
  run t s (fun s =>
    match active s with
    | none => s
    | some l =>
      let n := hdr.toNat / 2 ^ 24 % 256
      if copies = 0 || dst ≠ ipOf none || decommissioned s then s
      else
        match if hdr.toNat % 2 ^ 24 = 0x01434A && within 1 16 n then netStation s src else none with
        | none => countReject l s
        | some st => { s with netPend := s.netPend ++ [(st, n, s.now, sport)], netPort := alSet s.netPort st sport })

/-! Station 7 (R398, R399). -/

/-- Discard a frame of station 7 (R398). -/
def joyReject (s : State) : State := incF Reg.MBC_JOY_rej .a s

/-- Accept a frame of station 7: its sequence is the last accepted one, and it is a sign of life (R372). -/
def joyAccept (sq : Byte) (s : State) : State :=
  signOfLife 7 (setF Reg.MBC_JOY_seq sq.toNat .a { s with mbc := { s.mbc with joySeq := some sq } })

/-- The order an order frame stands for (R398): its tag names the frame's op and sequence, for the reply. -/
def joyOrder (cls op : Byte) (fop sq : Byte) (body : BitVec 320) : Order :=
  let o : Order := ⟨.can, cls, op, 0#16, BitVec.ofNat 32 (fop.toNat + 256 * sq.toNat), 0#64, crc32c (leBytes 40 body.toNat), 0#32, body⟩
  { o with cpl := ~~~(orderHead o) }

/-- The body of MODE to Joystick: mode 4 with its complement. -/
def joyBody : BitVec 320 := BitVec.ofNat 320 (4 + 0xFFFFFFFB * 2 ^ 32)

/-- Serve a MODE order. -/
def serveMode (o : Order) : State → State := serve o 1 1 [(0, 16), (32, 32)] [(0, 4, 4)] false (doMode o)

/-- Serve an order frame (R373, R398): REQUEST, RELEASE, KEEPALIVE or MODE to Joystick; any other order completes ROLE. -/
def joyServe (fop sq : Byte) (s : State) : State :=
  match fop.toNat with
  | 0x01 => serve (joyOrder 2#8 1#8 fop sq 0#320) 2 1 [] [] false doRequest s
  | 0x04 => serve (joyOrder 2#8 4#8 fop sq 0#320) 2 4 [] [] false doRelease s
  | 0x05 => serve (joyOrder 2#8 5#8 fop sq 0#320) 2 5 [] [] false (fun _ s => (s, .code Code.ACCEPTED)) s
  | 0x81 => serveMode (joyOrder 1#8 1#8 fop sq joyBody) s
  | _ =>
    match arrive (joyOrder 0#8 fop fop sq 0#320) s with
    | (some info, s1) => answerAt (timeLane s1) info (s1, .code Code.ROLE)
    | (none, s1) => s1

/-- An order frame (R398): 8 bytes, complement and CRC-32C correct, a new sequence. -/
def joyOrderFrame (d : List Byte) (s : State) : State :=
  let sq := d.getD 1 0#8
  if d.length != 8 || !complOf (slice d 0 2) (slice d 2 2) || leAt d 4 4 != (crc32c (slice d 0 4)).toNat || s.mbc.joySeq == some sq then
    joyReject s
  else joyServe (d.getD 0 0#8) sq (joyAccept sq s)

/-- A demand of a frame (R398): raw / 32,767 × the scale of its entry. An entry the object lacks has no stated scale (log entry 45). -/
def joyVal (o : ObjCfg) (d : List Byte) (i : Nat) : F64 :=
  let sc : F32 := match o.ents[i]? with
    | some e => e.scale
    | none => (Config.openVal 45 i).setWidth 32
  F64.mul (F64.div (F64.ofInt (sgn 16 (leAt d (2 * i) 2))) (F64.ofInt 32767)) (F64.of32 sc)

/-- Station 7's setpoint orders (R398, R399): no completion is sent. A value that is not finite is no setpoint (R374). -/
def joySp (n : Nat) (v : Option F64) (s : State) : State :=
  if (v.map finite).getD true then
    sweep (placeOrder none 7 s.now (.sp (BitVec.ofNat 32 n) v) (plus s.now (5 * ms)) id s).1
  else s

/-- A demand frame (R398): 16 bytes in FD format, complement correct, a new sequence, from the holder. -/
def joyDemandFrame (o : ObjCfg) (fd : Bool) (d : List Byte) (s : State) : State :=
  let sq := d.getD 6 0#8
  if !fd || d.length != 16 || !complOf (slice d 0 8) (slice d 8 8) || s.mbc.joySeq == some sq then joyReject s
  else if s.auth.holder ≠ some 7 || !stationEn s 7 then
    let s1 := joyReject s
    if s.mbc.joyConf then s1 else conflict 7 1 2 { s1 with mbc := { s1.mbc with joyConf := true } }
  else
    let s1 := joyAccept sq s
    let s2 := setF Reg.MBC_JOY_lost 0 .a { s1 with mbc := { s1.mbc with joyAt := s1.now, joyOn := true } }
    forEach (fun (p : Nat × Nat) => joySp p.2 (some (joyVal o d p.1))) [(0, 0x00010010), (1, 0x00010011), (2, 0x00010012)] s2

/-- A frame received on a controller (R393, R398): stored by its object; a frame of station 7 is served while a lane is Active. -/
def canReceive (c : Nat) (f : CanFrame) (s : State) : State :=
  if !canLive s c then s
  else
    let s1 := canStore c f s
    match frameObj s c f with
    | none => s1
    | some k =>
      if (active s).isNone || decommissioned s then s1
      else
        match (objCfg s k).kind with
        | 5 => joyOrderFrame f.data s1
        | 6 => joyDemandFrame (objCfg s k) f.fd f.data s1
        | _ => s1

/-- Kind of the object a frame meets. -/
def frameKind (s : State) (c : Nat) (f : CanFrame) : Option Nat := (frameObj s c f).map (fun k => (objCfg s k).kind)

/-- CAN_FRAME_RECEIVED (R393): a data frame is stored in the lowest-numbered receive object it meets; a remote frame meets none
(R385). -/
def execCanFrameReceived (t : Time) (c : Nat) (f : CanFrame) (s : State) : Host.Outcome State Fault Refusal :=
  run t s (canReceive c f)

/-- JOYSTICK_ORDER_FRAME (R398): a frame that meets a station-7 order object. -/
def execJoystickOrderFrame (t : Time) (c : Nat) (f : CanFrame) (s : State) : Host.Outcome State Fault Refusal :=
  run t s (fun s => if frameKind s c f == some 5 then canReceive c f s else s)

/-- JOYSTICK_DEMAND_FRAME (R398): a frame that meets a station-7 demand object. -/
def execJoystickDemandFrame (t : Time) (c : Nat) (f : CanFrame) (s : State) : Host.Outcome State Fault Refusal :=
  run t s (fun s => if frameKind s c f == some 6 then canReceive c f s else s)

/-- JOYSTICK_DEMAND_TIMEOUT (R399): with station 7 the holder, no demand has been accepted for longer than MBC_JOY_CFG.tmo; the three
setpoints are withdrawn by orders of station 7. -/
def execJoystickDemandTimeout (t : Time) (s : State) : Host.Outcome State Fault Refusal :=
  run t s (fun s =>
    if (active s).isSome && s.auth.holder == some 7 && s.mbc.joyOn
        && decide (getF s Reg.MBC_JOY_CFG_tmo * 10 * ms < since s.now s.mbc.joyAt) then
      forEach (fun i => joySp i none) joyIds
        (raise (.bus 13) Ev.MBC_JOYLOST 0 (setF Reg.MBC_JOY_lost 1 .a { s with mbc := { s.mbc with joyOn := false } }))
    else s)

/-! Fast PLLs (R28, R465). -/

/-- Whether the cycle scheduler starts an engine of a lane at this instant (R28): the cores 200 µs before the next epoch; of the Active
lane, the feature engine 200 µs before the intake close mark and the solver 200 µs before the fusion end mark. -/
def wakeDue (s : State) (l : Lane) (e : Engine) : Bool :=
  let before (m : Nat) : Bool := s.cyc.begun && isActive s l && plus s.now 200000 == tickAt (plus s.cyc.e (m * ms))
  match e with
  | .cores => plus s.now 200000 == tickAt s.cyc.nextE
  | .fen => before s.cyc.cur.intake
  | .slv => before s.cyc.cur.fusion

/-- PLL_WAKE (R28, R465): the cycle scheduler starts a stopped fast PLL 200 µs before the work that needs it. The start at a stage that
completes early is part of that stage's completion. -/
def execPllWake (t : Time) (l : Lane) (e : Engine) (s : State) : Host.Outcome State Fault Refusal :=
  runLane t l s (fun s => if wakeDue s l e then startPll e l s else s)

end Sys2Proof.Machine
end

