-- ==== Sys2Proof/Machine/Access.lean ====
section
/-!
DEFINITION. Register writes (R10, R475, R493-R499): access width, scope, locks and ranges, the store, and what a write of each
register sets off. Every row of the table that is a write of one register goes through `hostWrite`.
-/

namespace Sys2Proof.Machine

/-! Checks. -/

/-- The source of a block's configuration event, for a write through an endpoint. -/
def cfgSrc (ep : Lane) (blk : Nat) : Src :=
  match blk with
  | 1 => .keeper
  | 2 => .wake
  | 3 => .timebase
  | 12 => .bus 12
  | 13 => .bus 13
  | 14 => .bus 14
  | _ => laneSrc ep blk

/-- The configuration event of a block (R496, R530); the RTC, LPE, REC and the blocks without a writable range have none. -/
def cfgCode (blk : Nat) : Option Nat :=
  match blk with
  | 1 => some Ev.KPRCFG
  | 2 => some Ev.PWRCFG
  | 3 => some Ev.TMBCFG
  | 6 => some Ev.SLVCFG
  | 7 => some Ev.FUSCFG
  | 8 => some Ev.GNBCFG
  | 9 => some Ev.METCFG
  | 11 => some Ev.HRICFG
  | 12 => some Ev.KPRCFG
  | 13 => some Ev.MBCCFG
  | 14 => some Ev.SERCFG
  | _ => none

/-- A write refused for its range (R496): nothing changes and the block's configuration event is recorded. -/
def cfgEvent (ep : Lane) (off : Nat) (s : State) : State :=
  match cfgCode (off / 0x10000) with
  | some c => raise (cfgSrc ep (off / 0x10000)) c off s
  | none => s

/-- Whether a row holds a locked field. -/
def lockable (r : RegRow) : Bool := r.fields.any (fun f => f.acc == .lk || f.acc == .lkwo)

/-- Whether locked fields refuse a write (R10, R495): the module is Operational, or a station other than the one the Active endpoint
is configured as holds authority. -/
def lockRefuses (s : State) : Bool :=
  getF s Reg.UPD_LCS_state == 2 ||
    match s.auth.holder, active s with
    | some h, some l => getF s Reg.HRI_EP_CFG_station l != h
    | some _, none => true
    | none, _ => false

/-- Registers of the cycle set, whose values only an apply checks (R26, R496). -/
def isCycleReg (off : Nat) : Bool := off == 0x100 || off == 0x104 || off == 0x108 || off == 0x60000

/-- A field's value is in its stated range (R496). -/
def fieldOk (v : Word) (f : WField) : Bool :=
  match f.acc with
  | .rw => within f.lo f.hi (fieldOf v f.lsb f.w)
  | .lk => within f.lo f.hi (fieldOf v f.lsb f.w)
  | _ => true

/-- Period of a time-pulse generator as its registers hold it. -/
def tpPeriod (s : State) (n : Nat) : Nat :=
  (rdK s (Reg.TMB_TPn_PERL n)).toNat + 2 ^ 32 * getF s ⟨Reg.TMB_TPn_PERH n, 0, 8, false⟩

/-- Ranges that rest on another register: SLV_TOLP up to SLV_ACCEPT and SLV_ACCEPT from SLV_TOLP on (R123), the time-pulse period of 1 µs to
1,000 s in two halves and at least four times the width, and the width of 8 ns to min(1 s, period / 4) (R337, log entry 100). -/
def linkedOk (s : State) (off : Nat) (v : Word) : Bool :=
  let n := (off - 0x30200) / 0x20
  let period (p : Nat) : Bool := within 1000 1000000000000 p && decide (getF s (Reg.TMB_TPn_WID_w n) ≤ p / 4)
  if off == 0x60014 then decide (v.toNat ≤ (rdK s 0x60010).toNat)
  else if off == 0x60010 then decide ((rdK s 0x60014).toNat ≤ v.toNat)
  else if 0x30200 ≤ off && off < 0x30280 then
    match off % 0x20 with
    | 0x10 => period (v.toNat + 2 ^ 32 * getF s ⟨Reg.TMB_TPn_PERH n, 0, 8, false⟩)
    | 0x14 => period ((rdK s (Reg.TMB_TPn_PERL n)).toNat + 2 ^ 32 * (v.toNat % 256))
    | 0x18 => within 8 (min 1000000000 (tpPeriod s n / 4)) (fieldOf v 0 30)
    | _ => true
  else true

/-- Whether every field of a write is in its range. -/
def rangeOk (s : State) (r : RegRow) (off : Nat) (v : Word) : Bool :=
  isCycleReg off || (r.fields.all (fieldOk v) && linkedOk s off v)

/-- A register after a write of its fields (R10, R496): stored fields take their bits, W1C bits written 1 clear, reserved bits and
triggers are discarded. -/
def storeFields (v : Word) : List WField → Word → Word
  | [], w => w
  | f :: fs, w =>
    storeFields v fs (match f.acc with
      | .rw => withField w f.lsb f.w (fieldOf v f.lsb f.w)
      | .lk => withField w f.lsb f.w (fieldOf v f.lsb f.w)
      | .w1c => withField w f.lsb f.w (fieldOf w f.lsb f.w &&& (2 ^ f.w - 1 - fieldOf v f.lsb f.w))
      | _ => w)

/-! What the write of a register sets off. -/

/-- JX_CYC_APPLY (R26, R27): the written set is checked; a valid one is scheduled for the first epoch of its own grid that is not
earlier than the next epoch of the old one, counted on the old grid from its epoch that the first apply found. -/
def cycApply (s : State) : State :=
  let w := writtenSet s
  let m := modeNow s
  let e := if setErr w ≠ 0 then setErr w
    else if !(m == .layup || m == .transit) || (pendingMode s.auth).isSome then 5 else 0
  if e ≠ 0 then setF Reg.JX_CYC_STATUS_err e .a s
  else
    let ph := (rdK s Reg.JX_CYC_PHASE).toNat
    let base := if s.cyc.pend.isNone then s.cyc.nextE else s.cyc.gridE
    let old := if s.cyc.pend.isNone then base.toNat else gridFrom s.cyc.set.ns base.toNat (s.now.toNat + 1)
    let new := BitVec.ofNat 64 (gridFrom w.ns ph old)
    setF Reg.JX_CYC_STATUS_err 0 .a
      (setF Reg.JX_CYC_STATUS_pending 1 .a { s with cyc := { s.cyc with pend := some (w, new), nextE := new, gridE := base } })

/-- Clears of the counters (R52, R499). -/
def metCntClear (l : Lane) (s : State) : State :=
  clrEach Reg.MET_CHn_STAT_clipcnt l 192
    (clrEach Reg.MET_APn_ERR_hflt l 24 (clrEach Reg.MET_APn_ERR_unlk l 24 (clrEach Reg.MET_APn_ERR_badfr l 24
      (clrK Reg.MET_CNT l s))))

/-- FUS_CNT_CLR (R187). -/
def fusCntClear (l : Lane) (s : State) : State :=
  clrEach Reg.FUS_STRn_ERR_stale l 8 (clrEach Reg.FUS_STRn_ERR_late l 8 (clrEach Reg.FUS_REFn_rejcnt l 16 (clrK Reg.FUS_CNT l s)))

/-- LPE_CNT_CLR (R280). -/
def lpeCntClear (l : Lane) (s : State) : State :=
  clrEach Reg.LPE_SLn_DLY_max l 256 (clrEach Reg.LPE_SLn_STAT_ovr l 256 (clrK Reg.LPE_CNT l s))

/-- JX_PUBDLY_MIN.clr (R31). -/
def pubdlyClear (l : Lane) (s : State) : State := setF Reg.JX_PUBDLY_MAX_max 0 l (setF Reg.JX_PUBDLY_MIN_min 0xFFFFF l s)

/-- A port's PTP configuration changed (R331): a disabled port is DISABLED, an enabled one starts again INITIALIZING without what
it held (IEEE 1588; log entry 17). -/
def ptpCfgWritten (n : Nat) (s : State) : State :=
  bmcaPort (fun _ => if getB s (Reg.TMB_PTPn_CFG_en n) then 1 else 3) n (setPort n { heard := s.now } s)

/-- Whether the time fields of an alarm may be written (R346): no nibble above 9, no impossible unmasked field. -/
def almTimeOk (s : State) (n : Nat) (v : Word) : Bool :=
  let f (lsb w i : Nat) (hi : Nat) : Bool := nibblesOk 2 (fieldOf v lsb w) && (almMask s n i || decide (ofBcd2 (fieldOf v lsb w) ≤ hi))
  f 0 7 1 59 && f 8 7 2 59 && f 16 6 3 23

/-- Whether the date fields of an alarm may be written (R346). -/
def almDateOk (s : State) (n : Nat) (v : Word) : Bool :=
  let d := ofBcd2 (fieldOf v 0 6)
  let m := ofBcd2 (fieldOf v 8 5)
  let y := ofBcd4 (fieldOf v 16 16)
  nibblesOk 2 (fieldOf v 0 6) && nibblesOk 2 (fieldOf v 8 5) && nibblesOk 4 (fieldOf v 16 16)
    && (almMask s n 5 || within 1 12 m) && (almMask s n 6 || within 2000 2199 y)
    && (almMask s n 4 || within 1 (if almMask s n 5 then 31 else monthLen (if almMask s n 6 then 2000 else y) m) d)

/-- Whether a write of an alarm register is accepted (R346): the fields written, or at an enable all of them. -/
def almWriteOk (s : State) (n reg : Nat) (v : Word) : Bool :=
  match reg with
  | 0 => almTimeOk s n v
  | 4 => almDateOk s n v
  | _ =>
    let s1 := wrK (Reg.RTC_ALMn_CTL n) v s
    !bit v.toNat 0 || (almTimeOk s1 n (rdK s (Reg.RTC_ALMn_TIME n)) && almDateOk s1 n (rdK s (Reg.RTC_ALMn_DATE n)))

/-- An alarm rewritten with another instant has not fired yet (R346). -/
def almForget (n : Nat) (s : State) : State :=
  { s with rtc := if n = 0 then { s.rtc with fired0 := none } else { s.rtc with fired1 := none } }

/-- A bit of a written value. -/
def wbit (v : Word) (i : Nat) : Bool := bit v.toNat i

/-- What follows a write of a JX, KPR, PWR, TMB or RTC register; `old` is its value before. -/
def afterLow (ep : Lane) (off : Nat) (old v : Word) (s : State) : State :=
  if off == 0x10C then when (wbit v 0) cycApply s
  else if off == 0x134 then when (wbit v 31) (pubdlyClear ep) s
  else if off == 0x1002C then when (wbit v 0) (fun s => wrK Reg.KPR_CNT0 0#32 (wrK Reg.KPR_CNT1 0#32 s)) s
  else if off == 0x30004 then when (wbit v 0) (acceptStep ep) s
  else if off == 0x30034 then when (wbit v 0) (tmbCntClear ep) s
  else if 0x30100 ≤ off && off < 0x30180 && off % 0x10 == 0 then
    when (rdK s off != old) (ptpCfgWritten ((off - 0x30100) / 0x10)) s
  else if 0x30200 ≤ off && off < 0x30280 && off % 0x20 == 0 then
    tpModeChange ((off - 0x30200) / 0x20) (fieldOf old 0 2) (fieldOf v 0 2) s
  else if off == 0x4001C then when (wbit v 0) calSet s
  else if off == 0x40020 then when (wbit v 16) (calOrder (fieldOf v 0 15) (wbit v 15)) s
  else if 0x40030 ≤ off && off < 0x40050 then
    let n := (off - 0x40030) / 0x10
    let mask : Word := if off % 0x10 == 8 then 0x7E#32 else 0xFFFFFFFF#32
    when (rdK s off &&& mask != old &&& mask) (almForget n) s
  else s

/-- What follows a write of a REC, SLV, FUS, GNB or MET register. -/
def afterMid (ep : Lane) (off : Nat) (old v : Word) (s : State) : State :=
  if off == 0x50060 then recClear ep v s
  else if off == 0x60060 then when (wbit v 0) (fun s => clrK Reg.SLV_CNT0 ep (clrK Reg.SLV_CNT1 ep s)) s
  else if off == 0x60240 then when (rdK s off != old) reverifyAll s
  else if off == 0x70038 then when (wbit v 0) (fusCntClear ep) s
  else if (0x80010 ≤ off && off < 0x80050 && off % 0x10 == 0) || off == 0x80050 then showIfen s
  else if off == 0x80068 then when (wbit v 0) (clrK Reg.GNB_CNT ep) s
  else if off == 0x9000C then when (wbit v 0) (metCntClear ep) s
  else if 0x90100 ≤ off && off < 0x90280 && off % 0x10 == 0 then apCfgWritten ((off - 0x90100) / 0x10) s
  else if 0x90C00 ≤ off && off < 0x90F00 && off % 8 == 0 then
    when (rdK s off != old) (iqChanged ((off - 0x90C00) / 8)) s
  else if off == 0x91000 then when (wbit v 8) (metLatch ep) s
  else if 0x91200 ≤ off && off < 0x91280 && (off % 0x10 == 0 || off % 0x10 == 4) then
    when (rdK s off != old) (poChanged ((off - 0x91200) / 0x10)) s
  else s

/-- The ring is disabled (R309-R311): the grid of epochs is the module's own, it is no sync master, and when the ring is enabled again it sends PROBE
first, has no rank until a recomputation, and its exchange is a new configuration. -/
def ringDown (s : State) : State :=
  let s1 := setF Reg.NET_RING_STAT_master 0 .a (takePhase 0 s)
  { s1 with net := { s1.net with rank := none, nRanked := 1, probed := false, exchFullDone := false, toMaster := false } }

/-- What follows a write of an LPE, HRI, NET, MBC, SER or TND register. A module taken off the ring returns to phase 0 (R18; the way
there, by a step or a slew as R309 has it, is log entry 64). -/
def afterHigh (ep : Lane) (off : Nat) (old v : Word) (s : State) : State :=
  if off == 0xA0008 then when (wbit v 0) (lpeCntClear ep) s
  else if off == 0xA0128 then when (wbit v 1) (trcAbort ep) (when (wbit v 0) (trcArm ep) s)
  else if off == 0xB003C then when (wbit v 0) (fun s => clrEach Reg.HRI_RGn_STAT_lost ep 64 (clrK Reg.HRI_CNT ep s)) s
  else if 0xD0000 ≤ off && off < 0xD0080 && off % 0x20 == 0 then
    let c := (off - 0xD0000) / 0x20
    if !wbit old 0 && wbit v 0 then canEnableOp c s
    else if wbit old 0 && !wbit v 0 then canDisableOp c s
    else s
  else if 0xD0000 ≤ off && off < 0xD0080 && off % 0x20 == 0x18 then
    let c := (off - 0xD0000) / 0x20
    when (wbit v 1) (canClear c) (when (wbit v 0) (canRecoverOp c) s)
  else if 0xD1000 ≤ off && off < 0xD3000 && off % 0x10 == 0xC then
    let k := (off - 0xD1000) / 0x10
    when (wbit v 1) (txAbortOp ep k) (when (wbit v 0) (txreqOp ep k) s)
  else if off == 0xE0104 then when (wbit v 0) (serCntClear ep) s
  else if off == 0x100014 then when (wbit v 0) (clrK Reg.TND_ECC ep) s
  else if off == 0xC0100 then showPart (when (wbit old 16 && !wbit v 16) ringDown s)
  else s

/-- What follows a write. -/
def afterWrite (ep : Lane) (off : Nat) (old v : Word) (s : State) : State :=
  if off < 0x50000 then afterLow ep off old v s
  else if off < 0xA0000 then afterMid ep off old v s
  else afterHigh ep off old v s

/-! The write. -/

/-- A ring's settings but HRI_RGn_CFG, which only a disabled ring takes (R355). -/
def ringSetting (off : Nat) : Bool := 0xB1000 ≤ off && off < 0xB2000 && off % 0x40 < 0x1C && off % 0x40 != 8

/-- Store the fields of a write that its checks let through, and what follows. -/
def commit (ep : Lane) (r : RegRow) (off : Nat) (v : Word) (s : State) : State :=
  let k := regKey r ep off
  let old := rdK s k
  afterWrite ep off old v (wrK k (storeFields v r.fields old) s)

/-- A write that scope and lock let through (R346, R355, R404, R496). -/
def checkedWrite (ep : Lane) (r : RegRow) (off : Nat) (v : Word) (s : State) : State :=
  let n := (off - 0xB1000) / 0x40
  if r.fields.isEmpty then s
  else if 0xD8000 ≤ off && off < 0xE0000 then
    if (objCfg s ((off - 0xD8000) / 0x40)).kind == 2 then commit ep r off v s else s
  else if ringSetting off && getB s (Reg.HRI_RGn_CFG_en n) ep then s
  else if 0xB1000 ≤ off && off < 0xB2000 && off % 0x40 == 8 then
    if getB s (Reg.HRI_RGn_CFG_en n) ep || rangeOk s r off v then ringCfg ep n (storeFields v r.fields 0#32) s
    else
      let s1 := if wbit v 0 && !within 4 16 (fieldOf v 4 5) then setF (Reg.HRI_RGn_STAT_err n) 1 ep s else s
      cfgEvent ep off s1
  else if !rangeOk s r off v then cfgEvent ep off s
  else if 0x40030 ≤ off && off < 0x40050 && !almWriteOk s ((off - 0x40030) / 0x10) (off % 0x10) v then
    raise .rtc Ev.RTC_BADWR ((off - 0x40030) / 0x10 + 1) (setF Reg.RTC_STATUS_badwrite 1 .a s)
  else commit ep r off v s

/-- Offsets of REGISTER_WRITE from here on name BAR4 of the endpoint (log entry 89). -/
def barFour : Nat := 0x40000000

/-- A 32-bit write of BAR4 (R352, R360): the MSI-X table of 64 entries. A vector that is pending when its mask is cleared is raised. The
pending-bit array takes no write. -/
def msixWrite (ep : Lane) (o : Nat) (v : Word) (s : State) : State :=
  if 1024 ≤ o then s
  else if o % 16 ≠ 12 then wrK (msixKey ep o) v s
  else
    let n := o / 16
    let s1 := wrK (msixKey ep o) (~~~v &&& 1#32) s
    let w := rdK s1 (pbaKey ep n)
    if vecOpen s1 ep n && bit w.toNat (n % 32) then
      raiseVec ep n (wrK (pbaKey ep n) (w &&& ~~~(BitVec.ofNat 32 (2 ^ (n % 32)))) s1)
    else s1

/-- One 32-bit write through an endpoint (R494-R497): an unlisted offset is ignored; a lane's own register takes no write while
the lane is blocked or not ready (R353); a module-wide register takes writes of the Active endpoint only; locked fields refuse. -/
def write32 (ep : Lane) (off : Nat) (v : Word) (s : State) : State :=
  if barFour ≤ off then msixWrite ep (off - barFour) v s
  else
  match regRow off with
  | none => s
  | some r =>
    if r.perLane && off != Reg.REC_RDIDX && shut s ep then s
    else if !r.perLane && !isActive s ep then
      raise (laneSrc ep 0) Ev.JX_STBYWR (off + (if (active s).isNone then 2 ^ 32 else 0)) s
    else if lockable r && lockRefuses s then raise (laneSrc ep 0) Ev.JX_LKWRITE off s
    else checkedWrite ep r off v s

/-- A write through an endpoint (R475, R493): a Decommissioned module ignores it; 64 bits are two words, lower first; any other
width, or an unaligned offset, is ignored and recorded. -/
def hostWrite (ep : Lane) (off bytes : Nat) (v : BitVec 64) (s : State) : State :=
  if decommissioned s then s
  else if bytes = 4 && off % 4 = 0 then write32 ep off (v.setWidth 32) s
  else if bytes = 8 && off % 8 = 0 then write32 ep (off + 4) ((v >>> 32).setWidth 32) (write32 ep off (v.setWidth 32) s)
  else raise (laneSrc ep 0) Ev.JX_BADACC (off + 2 ^ 32 * bytes) s

/-- A 32-bit write of one register, as the rows of the table name them. -/
def regWrite (t : Time) (ep : Lane) (off : Nat) (v : Word) (s : State) : Host.Outcome State Fault Refusal :=
  run t s (hostWrite ep off 4 (v.setWidth 64))

/-- A write of one of `count` like registers. -/
def regWriteN (t : Time) (ep : Lane) (count n off : Nat) (v : Word) (s : State) : Host.Outcome State Fault Refusal :=
  run t s (fun s => if n < count then hostWrite ep off 4 (v.setWidth 64) s else s)

/-! The rows. -/

/-- REGISTER_WRITE (R493-R499). -/
def execRegisterWrite (t : Time) (ep : Lane) (off bytes : Nat) (v : BitVec 64) (s : State) : Host.Outcome State Fault Refusal :=
  run t s (hostWrite ep off bytes v)

/-- CYCLE_SET_APPLY (R26, R27): a write of JX_CYC_APPLY. -/
def execCycleSetApply (t : Time) (ep : Lane) (v : Word) (s : State) : Host.Outcome State Fault Refusal :=
  regWrite t ep Reg.JX_CYC_APPLY v s

/-- PUBDLY_CLEAR (R31): a write of JX_PUBDLY_MIN. -/
def execPubdlyClear (t : Time) (ep : Lane) (v : Word) (s : State) : Host.Outcome State Fault Refusal :=
  regWrite t ep Reg.JX_PUBDLY_MIN v s

/-- SLV_CNT_CLR (R123). -/
def execSlvCntClr (t : Time) (ep : Lane) (v : Word) (s : State) : Host.Outcome State Fault Refusal :=
  regWrite t ep Reg.SLV_CNT_CLR v s

/-- FUS_CNT_CLR (R187). -/
def execFusCntClr (t : Time) (ep : Lane) (v : Word) (s : State) : Host.Outcome State Fault Refusal :=
  regWrite t ep Reg.FUS_CNT_CLR v s

/-- GNB_CNT_CLR (R213). -/
def execGnbCntClr (t : Time) (ep : Lane) (v : Word) (s : State) : Host.Outcome State Fault Refusal :=
  regWrite t ep Reg.GNB_CNT_CLR v s

/-- MET_CNT_CLR (R251). -/
def execMetCntClr (t : Time) (ep : Lane) (v : Word) (s : State) : Host.Outcome State Fault Refusal :=
  regWrite t ep Reg.MET_CNT_CLR v s

/-- LPE_CNT_CLR (R280). -/
def execLpeCntClr (t : Time) (ep : Lane) (v : Word) (s : State) : Host.Outcome State Fault Refusal :=
  regWrite t ep Reg.LPE_CNT_CLR v s

/-- KPR_CNT_CLR (R317). -/
def execKprCntClr (t : Time) (ep : Lane) (v : Word) (s : State) : Host.Outcome State Fault Refusal :=
  regWrite t ep Reg.KPR_CNT_CLR v s

/-- TMB_CNT_CLR (R350). -/
def execTmbCntClr (t : Time) (ep : Lane) (v : Word) (s : State) : Host.Outcome State Fault Refusal :=
  regWrite t ep Reg.TMB_CNT_CLR v s

/-- HRI_CNT_CLR (R384). -/
def execHriCntClr (t : Time) (ep : Lane) (v : Word) (s : State) : Host.Outcome State Fault Refusal :=
  regWrite t ep Reg.HRI_CNT_CLR v s

/-- SER_CNT_CLR (R405). -/
def execSerCntClr (t : Time) (ep : Lane) (v : Word) (s : State) : Host.Outcome State Fault Refusal :=
  regWrite t ep Reg.SER_CNT_CLR v s

/-- TND_CNT_CLR (R457). -/
def execTndCntClr (t : Time) (ep : Lane) (v : Word) (s : State) : Host.Outcome State Fault Refusal :=
  regWrite t ep Reg.TND_CNT_CLR v s

/-- RECORDER_CLEAR (R443): a write of REC_CLR. -/
def execRecorderClear (t : Time) (ep : Lane) (v : Word) (s : State) : Host.Outcome State Fault Refusal :=
  regWrite t ep Reg.REC_CLR v s

/-- STEP_ACCEPT (R329): a write of TMB_CTL. -/
def execStepAccept (t : Time) (ep : Lane) (v : Word) (s : State) : Host.Outcome State Fault Refusal :=
  regWrite t ep Reg.TMB_CTL v s

/-- TP_START (R337): a write of TMB_TPn_CFG. -/
def execTpStart (t : Time) (ep : Lane) (n : Nat) (v : Word) (s : State) : Host.Outcome State Fault Refusal :=
  regWriteN t ep 4 n (Reg.TMB_TPn_CFG n) v s

/-- TP_STOP (R337): a write of TMB_TPn_CFG. -/
def execTpStop (t : Time) (ep : Lane) (n : Nat) (v : Word) (s : State) : Host.Outcome State Fault Refusal :=
  regWriteN t ep 4 n (Reg.TMB_TPn_CFG n) v s

/-- AP_ENABLE (R216, R222): a write of MET_APn_CFG. -/
def execApEnable (t : Time) (ep : Lane) (n : Nat) (v : Word) (s : State) : Host.Outcome State Fault Refusal :=
  regWriteN t ep 24 n (Reg.MET_APn_CFG n) v s

/-- AP_DISABLE (R222): a write of MET_APn_CFG. -/
def execApDisable (t : Time) (ep : Lane) (n : Nat) (v : Word) (s : State) : Host.Outcome State Fault Refusal :=
  regWriteN t ep 24 n (Reg.MET_APn_CFG n) v s

/-- MET_SNAP_GO (R251): a write of MET_SNAP_CTL. -/
def execMetSnapGo (t : Time) (ep : Lane) (v : Word) (s : State) : Host.Outcome State Fault Refusal :=
  regWrite t ep Reg.MET_SNAP_CTL v s

/-- TRACE_ARM (R279): a write of LPE_TRC_CTL. -/
def execTraceArm (t : Time) (ep : Lane) (v : Word) (s : State) : Host.Outcome State Fault Refusal :=
  regWrite t ep Reg.LPE_TRC_CTL v s

/-- TRACE_ABORT (R279): a write of LPE_TRC_CTL. -/
def execTraceAbort (t : Time) (ep : Lane) (v : Word) (s : State) : Host.Outcome State Fault Refusal :=
  regWrite t ep Reg.LPE_TRC_CTL v s

/-- RING_ENABLE (R354, R355): a write of HRI_RGn_CFG. -/
def execRingEnable (t : Time) (ep : Lane) (n : Nat) (v : Word) (s : State) : Host.Outcome State Fault Refusal :=
  regWriteN t ep 64 n (Reg.HRI_RGn_CFG n) v s

/-- RING_DISABLE (R355): a write of HRI_RGn_CFG. -/
def execRingDisable (t : Time) (ep : Lane) (n : Nat) (v : Word) (s : State) : Host.Outcome State Fault Refusal :=
  regWriteN t ep 64 n (Reg.HRI_RGn_CFG n) v s

/-- CAN_ENABLE (R389): a write of MBC_Cn_CFG. -/
def execCanEnable (t : Time) (ep : Lane) (c : Nat) (v : Word) (s : State) : Host.Outcome State Fault Refusal :=
  regWriteN t ep 4 c (Reg.MBC_Cn_CFG c) v s

/-- CAN_RECOVER (R390): a write of MBC_Cn_CTL. -/
def execCanRecover (t : Time) (ep : Lane) (c : Nat) (v : Word) (s : State) : Host.Outcome State Fault Refusal :=
  regWriteN t ep 4 c (Reg.MBC_Cn_CTL c) v s

/-- MBC_COUNTER_CLEAR (R404): a write of MBC_Cn_CTL. -/
def execMbcCounterClear (t : Time) (ep : Lane) (c : Nat) (v : Word) (s : State) : Host.Outcome State Fault Refusal :=
  regWriteN t ep 4 c (Reg.MBC_Cn_CTL c) v s

/-- TXREQ (R395): a write of MBC_OBJk_CTL. -/
def execTxreq (t : Time) (ep : Lane) (k : Nat) (v : Word) (s : State) : Host.Outcome State Fault Refusal :=
  regWriteN t ep 512 k (Reg.MBC_OBJk_CTL k) v s

/-- TX_ABORT (R404): a write of MBC_OBJk_CTL. -/
def execTxAbort (t : Time) (ep : Lane) (k : Nat) (v : Word) (s : State) : Host.Outcome State Fault Refusal :=
  regWriteN t ep 512 k (Reg.MBC_OBJk_CTL k) v s

/-- CALENDAR_SET (R343): a write of RTC_WCTL, `k` crystal ticks after the calendar's last command (log entry 18); the calendar counts on
in a module that is in reset. -/
def execCalendarSet (t : Time) (ep : Lane) (v : Word) (k : Nat) (s : State) : Host.Outcome State Fault Refusal :=
  runAny t s (fun s => when s.up (hostWrite ep Reg.RTC_WCTL 4 (v.setWidth 64)) (rtcTicks k s))

/-- SUBSECOND_SHIFT (R344): a write of RTC_SHIFT. -/
def execSubsecondShift (t : Time) (ep : Lane) (v : Word) (k : Nat) (s : State) : Host.Outcome State Fault Refusal :=
  runAny t s (fun s => when s.up (hostWrite ep Reg.RTC_SHIFT 4 (v.setWidth 64)) (rtcTicks k s))

end Sys2Proof.Machine
end

