-- ==== Sys2Proof/Machine/Epoch.lean ====
section
/-!
DEFINITION. The epoch (R17-R21): what is still running is abandoned, a cycle set, a phase and orders take effect, both lanes latch
their references, roles and admissions change, and a new cycle begins.
-/

namespace Sys2Proof.Machine

/-- Whether an instant lies strictly before an epoch (R20). -/
def strictlyBefore (e t : Time) : Bool := atOrAfter e t && e != t

/-! The end of the cycle in progress (R29). -/

/-- Stages of the finished cycle that are still open in the Active lane, by their code in JX_STAGELATE. -/
def lateStages (s : State) (l : Lane) : List Nat :=
  let v := (s.lane l).slv
  (if s.cyc.intakeOpen then [1] else if s.cyc.fusionOpen then [2] else []) ++ (if v.asmRun then [3] else [])
    ++ (if v.solving then [4] else []) ++ (if s.cyc.mirrorOpen then [5] else [])

/-- The end of the cycle (R29, R485): tasks still running are abandoned, each with its event; the cycle counts toward the confirmation
of images. -/
def closeCycle (s : State) : State :=
  let n := rdK s Reg.JX_CYC_COUNT
  let s1 := bothLanes (countLane n) s
  let s2 := match active s1 with
    | some l =>
      if s1.cyc.begun then
        forEach (fun c s => raise (laneSrc l 0) Ev.JX_STAGELATE (c + 2 ^ 32 * n.toNat) s) (lateStages s1 l) s1
      else s1
    | none => s1
  if s2.cyc.mirrorOpen then { s2 with mirTx := s2.mirTx.filter (fun i => i.code == 4 || i.code == 5) } else s2

/-! The grid (R17, R21, R26, R309). -/

/-- Move of a slewed phase: at most 1 µs, the short way round. -/
def slewStep (p ph target : Nat) : Int :=
  let d : Int := ((target + p - ph % p) % p : Nat)
  let d := if (p : Int) < 2 * d then d - p else d
  if d < -1000 then -1000 else if 1000 < d then 1000 else d

/-- The set and phase from an epoch on, and the epoch after it: a pending cycle set takes effect (R26), a stepped phase lengthens the
cycle (R309), a slewed one moves its end by at most 1 µs. -/
def turnGrid (e : Time) (s : State) : State :=
  let s1 : State := match s.cyc.pend with
    | some (c, _) => setF Reg.JX_CYC_STATUS_pending 0 .a { s with cyc := { s.cyc with set := c, pend := none } }
    | none => s
  let p := s1.cyc.set.ns
  let ph := (rdK s1 Reg.JX_CYC_PHASE).toNat % max 1 p
  let to' (next : Time) (ph : Nat) (step slew : Option Nat) (s : State) : State :=
    wrK Reg.JX_CYC_PHASE (BitVec.ofNat 32 ph)
      { s with cyc := { s.cyc with nextE := next, cur := s.cyc.set, phaseStep := step, slewTo := slew } }
  match s1.cyc.phaseStep, s1.cyc.slewTo with
  | some x, _ =>
    let x := x % max 1 p
    raise (.bus 12) Ev.NET_PHSTEP ((rdK s Reg.JX_CYC_PHASE).toNat + 2 ^ 32 * x)
      (to' (BitVec.ofNat 64 (gridFrom p x (e.toNat + p))) x none none s1)
  | none, some x =>
    let d := slewStep (max 1 p) ph x
    let n := ((ph : Int) + d + p).toNat % max 1 p
    to' (plus e p + BitVec.ofInt 64 d) n none (if n = x % max 1 p then none else some x) s1
  | none, none => to' (plus e p) ph none none s1

/-! Orders that take effect (R49: packages, then the mode, then setpoints). -/

/-- A pending order takes effect: it leaves the authority state, changed by `f`, and its completion waits for the acknowledgement. -/
def takeEffect (o : PendOrd) (f : Auth → Auth) (e : Time) (s : State) : State :=
  effected o.tkt e (authChange (fun u => { f u with orders := u.orders.filter (fun x => x.tkt ≠ o.tkt) }) s)

/-- Write the active-bank pointer, one pair in AO MRAM that every lane shows (R88). -/
def setPtr (net : Bool) (k : Nat) (s : State) : State :=
  bothLanes (setF (if net then Reg.FUS_NPKG_BANK_act else Reg.SLV_PKG_BANK_act) k)
    { s with upd := { s.upd with ptrBad := s.upd.ptrBad.filter (· != net) } }

/-- Make a bank of a lane the ACTIVE one (R88, R90): pointer, cold start, no solution to shift, a new configuration of the exchange (R311). -/
def swapBank (l : Lane) (net : Bool) (k : Nat) (s : State) : State :=
  let s1 := if getF s (bankFld net (1 - k)) l = 4 then setBankSt l net (1 - k) 2 s else s
  let s2 := setBankSt l net k 4 (onBank l net k (fun b => { b with actNext := false }) s1)
  let s3 := setPtr net k s2
  if net then s3
  else onSlv l (fun v => { v with sol := none, newPkg := true })
    (setF Reg.SLV_PKG_BANK_cold 1 l { s3 with net := { s3.net with exchFullDone := false } })

/-- Banks that become ACTIVE at this epoch after a key change (R91 case 4). -/
def actLate (l : Lane) : State → State :=
  forEach (fun (p : Bool × Nat) s =>
    if !(bankOf (s.lane l) p.1 p.2).actNext then s
    else if getF s (bankFld p.1 p.2) l = 2 && (activeBank s l p.1).isNone then swapBank l p.1 p.2 s
    else onBank l p.1 p.2 (fun b => { b with actNext := false }) s) [(false, 0), (false, 1), (true, 0), (true, 1)]

/-- A package swap (R88, R171): both lanes swap; a lane that is not Standby follows where it holds the same digest. A network swap
clears the grids. -/
def applyArm (e : Time) (net : Bool) (k : Nat) (o : PendOrd) (s : State) : State :=
  match active s with
  | none => s
  | some l =>
    let m := l.other
    let st := getF s (bankFld net k) m
    let s1 := swapBank l net k s
    let s2 := if ready s m && (st == 2 || st == 3) && bankDig (bankOf (s.lane m) net k) == bankDig (bankOf (s.lane l) net k) then
        swapBank m net k s1 else s1
    takeEffect o id e (when net (bothLanes clearGrids) s2)

/-- Put a mode (R51). -/
def setMode (m : Mode) (warm : Bool) (s : State) : State :=
  setF Reg.JX_MODE_since 0 .a (setB Reg.JX_MODE_warm warm .a (setF Reg.JX_MODE_mode (modeCode m) .a s))

/-- Neither lane has adopted a FUSION item of the fusion to come (R186). -/
def forgetFusion : State → State := bothLanes (fun l => onMir l (fun m => { m with fusAdopted := false }))

/-- Fusion stops in the Active lane, and the Standby holds none (R532). -/
def stopFusion (l : Lane) (s : State) : State := showFus l.other (forgetFusion (fusStop l s))

/-- A change of mode in the Active lane `l` (R40, R272, R532, R180, R44): the loop engines stop or restart, fusion stops, trust ends in
Lay-up; a domain the mode does not need is off, also where the order came after the last mirror window of the old mode. -/
def changeMode (l : Lane) (m : Mode) (warm : Bool) (s : State) : State :=
  let was := modeNow s
  let ran := fusionRuns was (getB s Reg.JX_MODE_warm)
  let s1 := setMode m warm s
  let s2 := when (ran && !fusionRuns m warm) (stopFusion l) s1
  let s3 := if m == .layup && was != .layup then
      readyLanes lpeStop (if s2.auth.trust.isSome then authChange (fun u => { u with trust := none }) s2 else s2)
    else s2
  bothLanes (powerDown (modeDoms m warm)) (if was == .layup && m != .layup then readyLanes lpeStart s3 else s3)

/-- The published grade of the last fusion output (R45). -/
def lastGrade (s : State) (l : Lane) : Nat := if (s.lane l).fus.run then (s.lane l).fus.grd.grade else 4

/-- A mode command at its E_eff (R44, R45, R49). -/
def applyMode (e : Time) (m : Mode) (warm : Bool) (o : PendOrd) (s : State) : State :=
  match active s with
  | none => s
  | some l =>
    let same := m == modeNow s && warm == getB s Reg.JX_MODE_warm
    if !same && (m == .approach || m == .berth) && decide (2 < lastGrade s l) then
      dropDoms (authChange id (dropOrder o Code.NOT_READY s))
    else
      let s1 := endAutojoy s
      if same then dropDoms (takeEffect o id e s1) else takeEffect o id e (changeMode l m warm s1)

/-- The fallback into Joystick (R46, R49): fusion has reached G4 in Approach or Berth-hold. -/
def fallbackJoy (s : State) : State :=
  match active s with
  | none => s
  | some l =>
    let m := modeNow s
    if !(s.lane l).fus.autojoy || !(m == .approach || m == .berth) then s
    else
      let gone := s.auth.orders.filter (fun o => match o.val with
        | .mode x _ => x == .approach || x == .berth
        | _ => false)
      let s1 := if gone.isEmpty then s else authChange id (forEach (fun p s => dropOrder p Code.NOT_READY s) gone s)
      onFus l (fun f => { f with autojoy := false })
        (raiseAlarm (laneSrc l 0) Ev.JX_AUTOJOY 0 (modeCode m) (setF Reg.JX_MODE_autojoy 1 .a (setMode .joystick false s1)))

/-- A slot named trusted leaves SUSPECT, its group with it (R177, R180): its rejections and its cycles without a value count anew. -/
def nameTrust (l : Lane) (n : Nat) (s : State) : State :=
  let leave (k : Nat) (s : State) : State :=
    let r := Sparse.get refDef (s.lane l).fus.grd.refs k
    unsuspect l k (putRefSt l k { r with sus := false, rej := 0, state := if r.state = 3 then 0 else r.state,
                                         unus := if k = n then 0 else r.unus } s)
  let was := (Sparse.get refDef (s.lane l).fus.grd.refs n).sus
  forEach leave ((List.range 16).filter (fun k => k == n || (was && groupOf s l k == groupOf s l n))) s

/-- A datum takes effect (R162): the pose is transformed from the frame of the datum before it into the new frame, both grids are
cleared, and the provisional datum ends. -/
def applyDatum (l : Lane) (old : Option Datum) (d : Datum) (s : State) : State :=
  let f := (s.lane l).fus
  let filt := match old, f.filter with
    | some o, some x => some (reframe o d x)
    | _, x => x
  let items := match old, filt with
    | some _, some x => filterItems x ++ f.items.drop 15
    | _, _ => f.items
  clearGrids l (onFus l (fun f => { f with prov := none, items := if f.run then items else f.items,
                                           filter := if f.run then filt else f.filter }) s)

/-- The holder changes (R369, R371, R378, R398): its expert session ends; station 7 must confirm its demands anew. -/
def setHolder (h : Option Nat) (e : Time) (s : State) : State :=
  let s1 := closeExpert s
  let s2 : State := if h = some 7 then { s1 with mbc := { s1.mbc with joyConf := false, joyOn := false } } else s1
  { s2 with auth := { s2.auth with holder := h, lastSign := e } }

/-- What a pending order does at its epoch. -/
def applyOrder (e : Time) (o : PendOrd) (s : State) : State :=
  match o.val with
  | .arm net k _ => applyArm e net k o s
  | .mode m w => applyMode e m w o s
  | .sp id v =>
    takeEffect o (fun u => { u with sps := u.sps.filter (fun p => p.1 ≠ id) ++ (v.map (fun x => (id, x))).toList }) e s
  | .trust x =>
    let s1 := takeEffect o (fun u => { u with trust := x }) e s
    match active s with
    | some l => showFus l (match x with
      | some n => if (s1.lane l).fus.run then nameTrust l n s1 else s1
      | none => s1)
    | none => s1
  | .datum d =>
    let s1 := takeEffect o (fun u => { u with datum := some d }) e s
    match active s with
    | some l => showFus l (applyDatum l (datumOf s l) d s1)
    | none => s1
  | .release => takeEffect o id e (setHolder none e s)
  | .swap _ => s
  | .loop _ _ => s

/-- Order of effects at one epoch (R49, R171): the model package, the network package, mode, setpoints, the rest. -/
def ordRank : OrdVal → Nat
  | .arm net _ _ => b2n net
  | .mode _ _ => 2
  | .sp _ _ => 3
  | .loop _ _ => 5
  | .swap _ => 5
  | _ => 4

/-- The orders of a rank that are due and still pending. -/
def applyRank (e : Time) (r : Nat) (s : State) : State :=
  forEach (fun (o : PendOrd) s => if s.auth.orders.any (fun x => x.tkt == o.tkt) then applyOrder e o s else s)
    (s.auth.orders.filter (fun o => ordRank o.val == r && isDue s e o)) s

/-- The transfer of authority at its epoch E_x (R371), at least 20 ms after the grant. A request left without a holder to answer it
starts its transfer now. -/
def applyTransfer (e : Time) (s : State) : State :=
  let s1 := match s.auth.xfer with
    | some x =>
      if atOrAfter e (plus x.tGrant (20 * ms)) then
        forEach (fun k s => effected k e s) x.tkts
          (authChange (fun u => { u with xfer := none }) (setHolder (some x.dest) e s))
      else s
    | none => s
  match s1.auth.req, s1.auth.holder, s1.auth.xfer with
  | some q, none, none => authChange (fun u => { u with req := none, xfer := some ⟨q.stn, e, [q.tkt]⟩ }) s1
  | _, _, _ => s1

/-- All orders of the authority state that take effect at an epoch. -/
def applyOrders (e : Time) (s : State) : State :=
  if (active s).isNone then s
  else applyTransfer e (applyRank e 4 (applyRank e 3 (applyRank e 2 (fallbackJoy (applyRank e 1 (applyRank e 0 s))))))

/-! References (R155-R157). -/

/-- Latch a reference value: the latest of its slot and kind stands. -/
def putRefIn (l : Lane) (n : Nat) (r : RefIn) : State → State :=
  onFus l (fun f =>
    if f.latched.any (fun x => x.1 == n && x.2.kind == r.kind && !atOrAfter r.stamp x.2.stamp) then f
    else { f with latched := f.latched.filter (fun x => !(x.1 == n && x.2.kind == r.kind)) ++ [(n, r)] })

/-- Standard deviations of a fix along the quay axes of a datum azimuth (R208, R533): of its covariance, each at least 0.05 m. -/
def fixStd (x : FixRes) (azi : F64) : F64 × F64 :=
  let c := F64.cos azi
  let k := F64.sin azi
  let along (n e : F64) : F64 :=
    F64.max (F64.ratio 5 100) (F64.sqrt (F64.add (F64.add (F64.mul (F64.mul n n) x.varN) (F64.mul (F64.mul e e) x.varE))
      (F64.mul (F64.ofInt 2) (F64.mul (F64.mul n e) x.covEN))))
  (along c k, along (F64.neg k) c)

/-- Reference 0 (R155, R208): the fix and the two-antenna heading of this epoch, or no value. The deviation of the heading is not
given (log entry 13). -/
def latchGnss (l : Lane) (e : Time) (s : State) : State :=
  let g := (s.lane l).gnb
  let s1 := onFus l (fun f => { f with latched := f.latched.filter (fun x => x.1 ≠ 0) }) s
  let s2 := match g.fix with
    | some (x, at') =>
      let d := fixStd x (((datumOf s l).map (·.azi)).getD 0#64)
      if at' = e then putRefIn l 0 ⟨e, 1, x.lat, x.lon, F64.to32 d.1, F64.to32 d.2⟩ s1 else s1
    | none => s1
  match g.hdg with
  | some h => putRefIn l 0 ⟨e, 2, h, 0#64, (Config.openVal 46 0).setWidth 32, 0#32⟩ s2
  | none => s2

/-- References 1-7 (R155): the parsed items their configuration names, for a position, a heading or both; a position has the older of its
two stamps. -/
def latchSerial (l : Lane) (e : Time) (c : Nat × RefCfg) (s : State) : State :=
  if !within 1 7 c.1 then s
  else
    let rd (k : Option Nat) : Option (F64 × Time) := k.bind (fun k => serBefore s l k e)
    let s1 := match rd (c.2.pos.map (·.1)), rd (c.2.pos.map (·.2)) with
      | some x, some y => putRefIn l c.1 ⟨if atOrAfter x.2 y.2 then y.2 else x.2, 1, x.1, y.1, c.2.sd, c.2.sd⟩ s
      | _, _ => s
    match rd c.2.hdg with
    | some x => putRefIn l c.1 ⟨x.2, 2, x.1, 0#64, c.2.sdH, c.2.sdH⟩ s1
    | none => s1

/-- The motion data and wind at an epoch (R155, R174, R403): of each quantity the first item that a reference configuration names and that
has a value. -/
def latchMotion (l : Lane) (e : Time) (s : State) : State :=
  let rd (f : MotCfg → Option Nat) : Option F64 :=
    (s.cfg.refs.filterMap (fun c => (f c.2.mot).bind (fun k => (serBefore s l k e).map (·.1)))).head?
  onFus l (fun x => { x with motion := [rd MotCfg.rate, rd MotCfg.roll, rd MotCfg.pitch, rd MotCfg.heave, rd MotCfg.windA, rd MotCfg.windS] }) s

/-- References 8-15 (R155, R157): posted values whose time of validity lies strictly before the epoch; the others wait. -/
def latchPosted (l : Lane) (e : Time) (s : State) : State :=
  let q := (s.lane l).fus.refIn
  let s1 := onFus l (fun f => { f with refIn := q.filter (fun x => !strictlyBefore e x.2.stamp) }) s
  forEach (fun (x : Nat × RefIn) => putRefIn l x.1 x.2) (q.filter (fun x => strictlyBefore e x.2.stamp)) s1

/-- All references of a lane. -/
def latchRefs (e : Time) (l : Lane) (s : State) : State :=
  latchMotion l e (latchPosted l e (forEach (latchSerial l e) s.cfg.refs (latchGnss l e s)))

/-! Role swap (R302). -/

/-- The roles move at E_sw: the former Active lane becomes Standby without a reset and keeps what it held as the mirrored state. -/
def swapRoles (m : Lane) (s : State) : State :=
  let o := m.other
  let s1 := roleMove 0 m o { s with mirTx := [] }
  let s2 := onMir o (fun x => { x with held := [], cur := [] })
    (onFus m (fun f => { f with run := false, autojoy := false,
                                key := if f.hasPrev then some (keyframeOf f.prevGrid, f.orgX, f.orgY) else f.key })
      (onMir m (fun x => { x with held := [], cur := [], fusAdopted := (s.lane m).fus.run,
                                  adoptedCyc := (s.lane o).mir.adoptedCyc, missRun := 0 }) s1))
  let s3 := adoptLoops m s2.auth { s2 with authMir := {} }
  setF Reg.KPR_STAT_cause 0x09 .a { s3 with authMir := s3.auth, ackVer := s3.auth.ver }

/-- A role swap. -/
def isSwap : OrdVal → Bool
  | .swap _ => true
  | _ => false

/-- A pending role swap at an epoch: it needs an admitted Standby that adopted the set of the finished cycle `n`; it waits at most
three epochs. A lane whose image waits for its confirmation does not lead (R487), and the role lines move only while the Keeper runs (R286). -/
def applySwap (e : Time) (n : Word) (s : State) : State :=
  match active s, s.auth.orders.find? (fun o => ordRank o.val == 5 && isDue s e o) with
  | some m, some o =>
    let able := match standby s with
      | some k => (s.lane k).mir.adoptedCyc == some n && mayLead s k && s.kpr.up
      | none => false
    match able, o.val with
    | true, .swap _ =>
      swapRoles m (forEach (fun o => takeEffect o id e) (s.auth.orders.filter (fun o => isSwap o.val && isDue s e o)) s)
    | false, .swap w =>
      if 3 ≤ w then authChange id (dropOrder o Code.REFUSED s)
      else
        authChange (fun u => { u with orders := u.orders.map (fun x => if x.tkt = o.tkt then { x with val := .swap (w + 1) } else x) }) s
    | _, _ => s
  | _, _ => s

/-! The latch of the solver's inputs (R20, R60, R61, R123). -/

/-- A posted dispatch value in force at an epoch (R375, R20). -/
def dispatchAt (a : LaneSt) (id : Nat) (e : Time) : Option F64 :=
  match (((alGet a.hri.disp id).getD []).filter (fun p => strictlyBefore e p.tAcc)).head? with
  | some p => if p.valid && (p.life == 0 || decide (since e p.tAcc ≤ p.life * ms)) then some p.val else none
  | none => none

/-- A quantity of a loop slot latched at an epoch (R20, R60 class 3, R264): setpoint, measurement, output, saturation of the latest
sample strictly before it, as readers take them (R273). -/
def loopQuantity (s : State) (n sub : Nat) (e : Time) : Option F64 :=
  let d := driveLane s
  if modeSl s d n = 0 then none
  else (latestBefore LoopOut.inst e (slotSt s d n).outs).map (fun o =>
    match sub with
    | 0 => o.w
    | 1 => o.y
    | 2 => o.u
    | _ => F64.ofInt (b2n o.sat))

/-- A source of the measurement vector that is latched at E; fusion, the previous allocation and the constants are read when assembly
starts. -/
def latchM (s : State) (l : Lane) (e : Time) (m : MEnt) : F64 × Bool :=
  let v : Option F64 := match m.cls with
    | 2 => if decide (m.index < 96) then metQuantity s l m.index m.sub else none
    | 3 => loopQuantity s m.index m.sub e
    | 4 => dispatchAt (s.lane l) m.index e
    | 6 => (canBefore s m.index m.sub e).map (·.1)
    | 7 => (serBefore s l m.index e).map (·.1)
    | _ => none
  match v with
  | some x => (x, true)
  | none => (m.dflt, false)

/-- An element of the setpoint vector (R61). -/
def latchS (s : State) (m : SEnt) : F64 × Bool :=
  match s.auth.sps.find? (fun p => p.1 == m.id) with
  | some p => (p.2, true)
  | none => (m.dflt, false)

/-- The solver's configuration in force from an epoch (R123). -/
def latchCfg (s : State) : State :=
  { s with slvCfg :=
      { itcap := getF s Reg.SLV_ITCAP_itcap, pivlim := getF s Reg.SLV_PIVLIM_pivlim, shiftmax := getF s Reg.SLV_SHIFTMAX_shiftmax,
        accept := rdK s Reg.SLV_ACCEPT, tolp := rdK s Reg.SLV_TOLP, told := rdK s Reg.SLV_TOLD, tolmu := rdK s Reg.SLV_TOLMU,
        rp := getF s Reg.SLV_REG_rp, rd := getF s Reg.SLV_REG_rd } }

/-- A lane's solver at the start of a cycle: what outlives a cycle stays, and in the Active lane the inputs are latched. -/
def latchSlv (e : Time) (l : Lane) (s : State) : State :=
  let p := actPkg s l
  onSlv l (fun v =>
    { mvec := (p.map (fun p => p.mmap.map (latchM s l e))).getD []
      mAt := some (e - BitVec.ofNat 64 (10 * ms)), svec := (p.map (fun p => p.smap.map (latchS s))).getD [],
      image := v.image, vecs := v.vecs, bndClr := v.bndClr, factor := v.factor, signs := v.signs, sol := v.sol, disp := v.disp,
      shcnt := v.shcnt, newPkg := v.newPkg, solCyc := v.solCyc, tkov := v.tkov, coldAtE := cold s l }) s

/-! The new cycle. -/

/-- A fusion start owed at an epoch (R532, R186): the mode runs fusion and the Active lane does not yet. -/
def startFusion (s : State) : State :=
  match active s with
  | some l =>
    if fusionRuns (modeNow s) (getB s Reg.JX_MODE_warm) && !(s.lane l).fus.run then fusStart l (forgetFusion s) else s
  | none => s

/-- Whether a cycle computes nothing: no Active lane, or the module has not the active part (R313). -/
def idleCycle (s : State) : Bool := (active s).isNone || (outReleased s && getF s Reg.NET_RING_CFG_role == 2)

/-- The flags of the cycle that begins (R22, R24, R283). -/
def beginCycle (e : Time) (s : State) : State :=
  let fus := match active s with
    | some l => (s.lane l).fus.run && !idleCycle s
    | none => false
  let quiet := idleCycle s || modeNow s == .layup
  bothLanes (fun l => onKpr l (fun k => { k with pubSeen := quiet }))
    { s with cyc := { s.cyc with e := e, begun := true, intakeOpen := fus, fusionOpen := fus, published := quiet, mirrorOpen := false } }

/-- The GNSS part of an epoch in both lanes (R20, R211, R348). -/
def gnssEpoch (e : Time) (was : Mode) (ga gb : EpochIn) (s : State) : State :=
  let now' := s.rtc.snapReq
  let s1 : State := { s with rtc := { s.rtc with snapReq := false } }
  showIfen (readyLanes (fun l => gnbEpoch l e was now' (if l = .a then ga else gb)) s1)

/-- Everything an epoch brings (R17-R21), in the order of its parts. -/
def epoch (e : Time) (ga gb : EpochIn) (s : State) : State :=
  let n := rdK s Reg.JX_CYC_COUNT
  let was := modeNow s
  let s1 := when s.cyc.begun (incF Reg.JX_MODE_since .a) (wrK Reg.JX_CYC_COUNT (n + 1#32) (turnGrid e (closeCycle s)))
  let s2 := applyOrders e (readyLanes actLate s1)
  let s3 := readyLanes (latchRefs e) (gnssEpoch e was ga gb s2)
  let s4 := startFusion (bothLanes admitLane (applySwap e n s3))
  let s5 := beginCycle e (readyLanes (latchSlv e) (latchCfg s4))
  intakeEarly (updEpoch e (showSeq e (ringEpoch e (sweep s5))))

/-- EPOCH (R17): it comes at the next epoch and at no other instant; one that is no multiple of 8 ns takes effect at the first tick after it
and keeps its own value as E (R319). A module that wipes its life cycle begins no cycle (R472). -/
def execEpoch (t : Time) (ga gb : EpochIn) (s : State) : Host.Outcome State Fault Refusal :=
  run t s (fun s => if t ≠ tickAt s.cyc.nextE || s.upd.wiping then s else epoch s.cyc.nextE ga gb s)

end Sys2Proof.Machine
end

