-- ==== Sys2Proof/Machine/Dispatch.lean ====
section
/-!
DEFINITION. The dispatch: one arm per command, each one call of its meaning.
-/

namespace Sys2Proof.Machine

/-- The effect of a command on everything but the queue. -/
def exec (i : Instr) (s : State) : Host.Outcome State Fault Refusal :=
  match i with
  | .epoch t ga gb => Sys2Proof.Machine.execEpoch t ga gb s
  | .pllWake t l e => Sys2Proof.Machine.execPllWake t l e s
  | .intakeClose t => Sys2Proof.Machine.execIntakeClose t s
  | .fusionEnd t => Sys2Proof.Machine.execFusionEnd t s
  | .mirrorWindowOpen t => Sys2Proof.Machine.execMirrorWindowOpen t s
  | .mirrorWindowClose t => Sys2Proof.Machine.execMirrorWindowClose t s
  | .deadline t => Sys2Proof.Machine.execDeadline t s
  | .fusionComplete t => Sys2Proof.Machine.execFusionComplete t s
  | .asmBudget t => Sys2Proof.Machine.execAsmBudget t s
  | .asmEnd t q => Sys2Proof.Machine.execAsmEnd t q s
  | .ldm t q => Sys2Proof.Machine.execLdm t q s
  | .lds t q => Sys2Proof.Machine.execLds t q s
  | .ldp t q => Sys2Proof.Machine.execLdp t q s
  | .itp t q => Sys2Proof.Machine.execItp t q s
  | .mad t q => Sys2Proof.Machine.execMad t q s
  | .fop t q => Sys2Proof.Machine.execFop t q s
  | .cmp t q => Sys2Proof.Machine.execCmp t q s
  | .lda t q => Sys2Proof.Machine.execLda t q s
  | .loop t q => Sys2Proof.Machine.execLoop t q s
  | .brq t q => Sys2Proof.Machine.execBrq t q s
  | .sct t q => Sys2Proof.Machine.execSct t q s
  | .vst t q => Sys2Proof.Machine.execVst t q s
  | .bnd t q => Sys2Proof.Machine.execBnd t q s
  | .rtl t q => Sys2Proof.Machine.execRtl t q s
  | .sig t q => Sys2Proof.Machine.execSig t q s
  | .bar t n kind => Sys2Proof.Machine.execBar t n kind s
  | .pan t n sb sld scol db dld dcol => Sys2Proof.Machine.execPan t n sb sld scol db dld dcol s
  | .bld t n dst src len zero => Sys2Proof.Machine.execBld t n dst src len zero s
  | .dad t n c cnt f0 f1 f2 => Sys2Proof.Machine.execDad t n c cnt f0 f1 f2 s
  | .gmt t n m nn k ar br kc cr cc lower => Sys2Proof.Machine.execGmt t n m nn k ar br kc cr cc lower s
  | .pvs t n cnt c h mask => Sys2Proof.Machine.execPvs t n cnt c h mask s
  | .tsl t n cnt c => Sys2Proof.Machine.execTsl t n cnt c s
  | .tsu t n cnt c => Sys2Proof.Machine.execTsu t n cnt c s
  | .dsc t n row cnt => Sys2Proof.Machine.execDsc t n row cnt s
  | .gmv t n m k ar kc tt tr pool => Sys2Proof.Machine.execGmv t n m k ar kc tt tr pool s
  | .sca t n src p len zero => Sys2Proof.Machine.execSca t n src p len zero s
  | .rfn t n f0 f1 f2 => Sys2Proof.Machine.execRfn t n f0 f1 f2 s
  | .iterationComplete t => Sys2Proof.Machine.execIterationComplete t s
  | .allocationPublished t => Sys2Proof.Machine.execAllocationPublished t s
  | .packageVerified t l kind bank => Sys2Proof.Machine.execPackageVerified t l kind bank s
  | .mirrorFrame t f => Sys2Proof.Machine.execMirrorFrame t f s
  | .mirrorAck t ver cyc crcOk => Sys2Proof.Machine.execMirrorAck t ver cyc crcOk s
  | .loopMirror t => Sys2Proof.Machine.execLoopMirror t s
  | .watchWordSend t l => Sys2Proof.Machine.execWatchWordSend t l s
  | .watchWord t l w => Sys2Proof.Machine.execWatchWord t l w s
  | .keeperSlot t d => Sys2Proof.Machine.execKeeperSlot t d s
  | .takeoverPublication t => Sys2Proof.Machine.execTakeoverPublication t s
  | .failedLaneReset t l => Sys2Proof.Machine.execFailedLaneReset t l s
  | .pubCheck t => Sys2Proof.Machine.execPubCheck t s
  | .loopOutputReport t l => Sys2Proof.Machine.execLoopOutputReport t l s
  | .metrologyTotalReport t l => Sys2Proof.Machine.execMetrologyTotalReport t l s
  | .mlinkTimeout t => Sys2Proof.Machine.execMlinkTimeout t s
  | .keeperWord t l role => Sys2Proof.Machine.execKeeperWord t l role s
  | .keeperWordTimeout t l => Sys2Proof.Machine.execKeeperWordTimeout t l s
  | .keeperRestart t => Sys2Proof.Machine.execKeeperRestart t s
  | .preferredLaneTimeout t => Sys2Proof.Machine.execPreferredLaneTimeout t s
  | .admissionTimeout t l => Sys2Proof.Machine.execAdmissionTimeout t l s
  | .laneFatalFault t l bit => Sys2Proof.Machine.execLaneFatalFault t l bit s
  | .referenceOscillatorLoss t l => Sys2Proof.Machine.execReferenceOscillatorLoss t l s
  | .prpFrame t lanB src rct => Sys2Proof.Machine.execPrpFrame t lanB src rct s
  | .prpSupervision t => Sys2Proof.Machine.execPrpSupervision t s
  | .nodeForget t mac => Sys2Proof.Machine.execNodeForget t mac s
  | .syncFrame t port f => Sys2Proof.Machine.execSyncFrame t port f s
  | .exchFrame t port f => Sys2Proof.Machine.execExchFrame t port f s
  | .ringMirrorFrame t port f it => Sys2Proof.Machine.execRingMirrorFrame t port f it s
  | .arbFrame t port f => Sys2Proof.Machine.execArbFrame t port f s
  | .grantFrame t port f => Sys2Proof.Machine.execGrantFrame t port f s
  | .probeFrame t port f => Sys2Proof.Machine.execProbeFrame t port f s
  | .exchangeSlot t => Sys2Proof.Machine.execExchangeSlot t s
  | .probeTimer t => Sys2Proof.Machine.execProbeTimer t s
  | .syncLoss t => Sys2Proof.Machine.execSyncLoss t s
  | .ringMemberExpiry t m => Sys2Proof.Machine.execRingMemberExpiry t m s
  | .arbTimer t => Sys2Proof.Machine.execArbTimer t s
  | .activeModuleAbsence t => Sys2Proof.Machine.execActiveModuleAbsence t s
  | .quorumTimeout t => Sys2Proof.Machine.execQuorumTimeout t s
  | .clockWord t l pairOk => Sys2Proof.Machine.execClockWord t l pairOk s
  | .timebasePllLock t l => Sys2Proof.Machine.execTimebasePllLock t l s
  | .ptpSync t n m => Sys2Proof.Machine.execPtpSync t n m s
  | .ptpFollowUp t n m => Sys2Proof.Machine.execPtpFollowUp t n m s
  | .ptpDelayReq t n m => Sys2Proof.Machine.execPtpDelayReq t n m s
  | .ptpDelayResp t n m => Sys2Proof.Machine.execPtpDelayResp t n m s
  | .ptpPdelayReq t n m => Sys2Proof.Machine.execPtpPdelayReq t n m s
  | .ptpPdelayResp t n m => Sys2Proof.Machine.execPtpPdelayResp t n m s
  | .ptpPdelayRespFollowUp t n m => Sys2Proof.Machine.execPtpPdelayRespFollowUp t n m s
  | .ptpAnnounce t n a => Sys2Proof.Machine.execPtpAnnounce t n a s
  | .ptpSignaling t n m => Sys2Proof.Machine.execPtpSignaling t n m s
  | .ptpManagement t n m action id => Sys2Proof.Machine.execPtpManagement t n m action id s
  | .ptpTxInterval t n k => Sys2Proof.Machine.execPtpTxInterval t n k s
  | .ptpSyncTimeout t n => Sys2Proof.Machine.execPtpSyncTimeout t n s
  | .gnssReferenceLoss t l => Sys2Proof.Machine.execGnssReferenceLoss t l s
  | .holdoverExit t l => Sys2Proof.Machine.execHoldoverExit t l s
  | .timeStep t => Sys2Proof.Machine.execTimeStep t s
  | .rtcFirstSecond t k => Sys2Proof.Machine.execRtcFirstSecond t k s
  | .tpPulseStart t n => Sys2Proof.Machine.execTpPulseStart t n s
  | .tpPulseEnd t n => Sys2Proof.Machine.execTpPulseEnd t n s
  | .tpStart t ep n v => Sys2Proof.Machine.execTpStart t ep n v s
  | .tpStop t ep n v => Sys2Proof.Machine.execTpStop t ep n v s
  | .stepAccept t ep v => Sys2Proof.Machine.execStepAccept t ep v s
  | .tmbMtclRead t ep => Sys2Proof.Machine.execTmbMtclRead t ep s
  | .tcEdge t n rise held => Sys2Proof.Machine.execTcEdge t n rise held s
  | .tcFifoRead t ep n => Sys2Proof.Machine.execTcFifoRead t ep n s
  | .calendarSet t ep v k => Sys2Proof.Machine.execCalendarSet t ep v k s
  | .subsecondShift t ep v k => Sys2Proof.Machine.execSubsecondShift t ep v k s
  | .rtcAlarm t n k => Sys2Proof.Machine.execRtcAlarm t n k s
  | .calendarRollover t k => Sys2Proof.Machine.execCalendarRollover t k s
  | .rtcCompensation t temp k => Sys2Proof.Machine.execRtcCompensation t temp k s
  | .rtcTracking t k => Sys2Proof.Machine.execRtcTracking t k s
  | .correlatorDump t l d => Sys2Proof.Machine.execCorrelatorDump t l d s
  | .acqDetection t l ch d => Sys2Proof.Machine.execAcqDetection t l ch d s
  | .pullinTimeout t l ch => Sys2Proof.Machine.execPullinTimeout t l ch s
  | .phaseLock t l ch => Sys2Proof.Machine.execPhaseLock t l ch s
  | .trackLoss t l ch => Sys2Proof.Machine.execTrackLoss t l ch s
  | .lostTimeout t l ch => Sys2Proof.Machine.execLostTimeout t l ch s
  | .ifPortFault t l n stuck => Sys2Proof.Machine.execIfPortFault t l n stuck s
  | .ifPortOk t l n => Sys2Proof.Machine.execIfPortOk t l n s
  | .navigationMessageDecoded t l d => Sys2Proof.Machine.execNavigationMessageDecoded t l d s
  | .snapshotCaptureEnd t l x => Sys2Proof.Machine.execSnapshotCaptureEnd t l x s
  | .snapshotProcessed t l => Sys2Proof.Machine.execSnapshotProcessed t l s
  | .apFrame t l n bits => Sys2Proof.Machine.execApFrame t l n bits s
  | .apLineTimeout t l n => Sys2Proof.Machine.execApLineTimeout t l n s
  | .apPhaseFound t l n => Sys2Proof.Machine.execApPhaseFound t l n s
  | .apEnable t ep n v => Sys2Proof.Machine.execApEnable t ep n v s
  | .apDisable t ep n v => Sys2Proof.Machine.execApDisable t ep n v s
  | .channelSettle t l ch => Sys2Proof.Machine.execChannelSettle t l ch s
  | .metrologySample t l => Sys2Proof.Machine.execMetrologySample t l s
  | .pulseEnd t l n => Sys2Proof.Machine.execPulseEnd t l n s
  | .billingSave t => Sys2Proof.Machine.execBillingSave t s
  | .rangeMatchWindow t l ch => Sys2Proof.Machine.execRangeMatchWindow t l ch s
  | .metSnapGo t ep v => Sys2Proof.Machine.execMetSnapGo t ep v s
  | .loopSample t l slot tk => Sys2Proof.Machine.execLoopSample t l slot tk s
  | .traceArm t ep v => Sys2Proof.Machine.execTraceArm t ep v s
  | .traceAbort t ep v => Sys2Proof.Machine.execTraceAbort t ep v s
  | .streamPacket t sp dport payload => Sys2Proof.Machine.execStreamPacket t sp dport payload s
  | .doorbell t ep ofs v => Sys2Proof.Machine.execDoorbell t ep ofs v s
  | .ringEnable t ep n v => Sys2Proof.Machine.execRingEnable t ep n v s
  | .ringDisable t ep n v => Sys2Proof.Machine.execRingDisable t ep n v s
  | .interruptModeration t l n => Sys2Proof.Machine.execInterruptModeration t l n s
  | .perst t l => Sys2Proof.Machine.execPerst t l s
  | .stationDatagram t src dst sport hdr copies => Sys2Proof.Machine.execStationDatagram t src dst sport hdr copies s
  | .mode t o => Sys2Proof.Machine.execMode t o s
  | .setpoint t o => Sys2Proof.Machine.execSetpoint t o s
  | .arm t o => Sys2Proof.Machine.execArm t o s
  | .disarm t o => Sys2Proof.Machine.execDisarm t o s
  | .loopMode t o => Sys2Proof.Machine.execLoopMode t o s
  | .loopMan t o => Sys2Proof.Machine.execLoopMan t o s
  | .loopSp t o => Sys2Proof.Machine.execLoopSp t o s
  | .loopBank t o => Sys2Proof.Machine.execLoopBank t o s
  | .trust t o => Sys2Proof.Machine.execTrust t o s
  | .trustclr t o => Sys2Proof.Machine.execTrustclr t o s
  | .datum t o => Sys2Proof.Machine.execDatum t o s
  | .swap t o => Sys2Proof.Machine.execSwap t o s
  | .laneReset t o => Sys2Proof.Machine.execLaneReset t o s
  | .lifecycle t o => Sys2Proof.Machine.execLifecycle t o s
  | .seal t o => Sys2Proof.Machine.execSeal t o s
  | .fwActivate t o => Sys2Proof.Machine.execFwActivate t o s
  | .fwCancel t o => Sys2Proof.Machine.execFwCancel t o s
  | .request t o => Sys2Proof.Machine.execRequest t o s
  | .grant t o => Sys2Proof.Machine.execGrant t o s
  | .deny t o => Sys2Proof.Machine.execDeny t o s
  | .release t o => Sys2Proof.Machine.execRelease t o s
  | .keepalive t o => Sys2Proof.Machine.execKeepalive t o s
  | .expertOn t o => Sys2Proof.Machine.execExpertOn t o s
  | .expertOff t o => Sys2Proof.Machine.execExpertOff t o s
  | .authorityRequestTimeout t => Sys2Proof.Machine.execAuthorityRequestTimeout t s
  | .holderSilence t => Sys2Proof.Machine.execHolderSilence t s
  | .expertSessionTimeout t => Sys2Proof.Machine.execExpertSessionTimeout t s
  | .dispatch t o => Sys2Proof.Machine.execDispatch t o s
  | .postReference t o => Sys2Proof.Machine.execPostReference t o s
  | .aidNav t o b => Sys2Proof.Machine.execAidNav t o b s
  | .aidPos t o => Sys2Proof.Machine.execAidPos t o s
  | .event t o => Sys2Proof.Machine.execEvent t o s
  | .loadModel t o b => Sys2Proof.Machine.execLoadModel t o b s
  | .loadNetwork t o b => Sys2Proof.Machine.execLoadNetwork t o b s
  | .loadFirmware t o b => Sys2Proof.Machine.execLoadFirmware t o b s
  | .loadSafety t o b => Sys2Proof.Machine.execLoadSafety t o b s
  | .configItem t o b => Sys2Proof.Machine.execConfigItem t o b s
  | .snapshotMetro t o dmaOk => Sys2Proof.Machine.execSnapshotMetro t o dmaOk s
  | .snapshotBlock t o dmaOk => Sys2Proof.Machine.execSnapshotBlock t o dmaOk s
  | .grid t o dmaOk => Sys2Proof.Machine.execGrid t o dmaOk s
  | .keyframe t o dmaOk => Sys2Proof.Machine.execKeyframe t o dmaOk s
  | .gnbLoop t o => Sys2Proof.Machine.execGnbLoop t o s
  | .gnbPin t o => Sys2Proof.Machine.execGnbPin t o s
  | .gnbUnpin t o => Sys2Proof.Machine.execGnbUnpin t o s
  | .memRead t o dmaOk => Sys2Proof.Machine.execMemRead t o dmaOk s
  | .canFrameReceived t c f => Sys2Proof.Machine.execCanFrameReceived t c f s
  | .joystickOrderFrame t c f => Sys2Proof.Machine.execJoystickOrderFrame t c f s
  | .joystickDemandFrame t c f => Sys2Proof.Machine.execJoystickDemandFrame t c f s
  | .joystickDemandTimeout t => Sys2Proof.Machine.execJoystickDemandTimeout t s
  | .canTxComplete t c k => Sys2Proof.Machine.execCanTxComplete t c k s
  | .canTxFailure t c k x => Sys2Proof.Machine.execCanTxFailure t c k x s
  | .busOffRecovery t c => Sys2Proof.Machine.execBusOffRecovery t c s
  | .canRecover t ep c v => Sys2Proof.Machine.execCanRecover t ep c v s
  | .mbcCounterClear t ep c v => Sys2Proof.Machine.execMbcCounterClear t ep c v s
  | .canEnable t ep c v => Sys2Proof.Machine.execCanEnable t ep c v s
  | .txreq t ep k v => Sys2Proof.Machine.execTxreq t ep k v s
  | .txAbort t ep k v => Sys2Proof.Machine.execTxAbort t ep k v s
  | .serialSentence t n fr ch => Sys2Proof.Machine.execSerialSentence t n fr ch s
  | .sentenceDatagram t grp rct payload => Sys2Proof.Machine.execSentenceDatagram t grp rct payload s
  | .safetyCycle t x y => Sys2Proof.Machine.execSafetyCycle t x y s
  | .testPulse t src lvl => Sys2Proof.Machine.execTestPulse t src lvl s
  | .outputOffPulse t k b below => Sys2Proof.Machine.execOutputOffPulse t k b below s
  | .discrepancyTimeout t k => Sys2Proof.Machine.execDiscrepancyTimeout t k s
  | .category1DelayEnd t f => Sys2Proof.Machine.execCategory1DelayEnd t f s
  | .resetHeld t q => Sys2Proof.Machine.execResetHeld t q s
  | .edmTimeout t k => Sys2Proof.Machine.execEdmTimeout t k s
  | .requestStable t k => Sys2Proof.Machine.execRequestStable t k s
  | .requestHoldEnd t => Sys2Proof.Machine.execRequestHoldEnd t s
  | .outputShortTrip t k b => Sys2Proof.Machine.execOutputShortTrip t k b s
  | .romCheck t ok => Sys2Proof.Machine.execRomCheck t ok s
  | .ramTest t ok => Sys2Proof.Machine.execRamTest t ok s
  | .safetyConfigCheck t => Sys2Proof.Machine.execSafetyConfigCheck t s
  | .islandSelfTest t xOk yOk pairOk => Sys2Proof.Machine.execIslandSelfTest t xOk yOk pairOk s
  | .recordAppend t g => Sys2Proof.Machine.execRecordAppend t g s
  | .suppressionSecondEnd t => Sys2Proof.Machine.execSuppressionSecondEnd t s
  | .recAnchor t => Sys2Proof.Machine.execRecAnchor t s
  | .operatingSecond t => Sys2Proof.Machine.execOperatingSecond t s
  | .recorderClear t ep v => Sys2Proof.Machine.execRecorderClear t ep v s
  | .dramPatrol t l f progress => Sys2Proof.Machine.execDramPatrol t l f progress s
  | .ceRateHour t l => Sys2Proof.Machine.execCeRateHour t l s
  | .sramSweep t l mem f => Sys2Proof.Machine.execSramSweep t l mem f s
  | .mramVerify t f => Sys2Proof.Machine.execMramVerify t f s
  | .flashLevelling t l src dst => Sys2Proof.Machine.execFlashLevelling t l src dst s
  | .readDisturbRefresh t l blk => Sys2Proof.Machine.execReadDisturbRefresh t l blk s
  | .retentionPatrol t l weak => Sys2Proof.Machine.execRetentionPatrol t l weak s
  | .badBlockRetirement t l blk spare => Sys2Proof.Machine.execBadBlockRetirement t l blk spare s
  | .healthFrame t l die plate => Sys2Proof.Machine.execHealthFrame t l die plate s
  | .oscillatorRecord t l mean => Sys2Proof.Machine.execOscillatorRecord t l mean s
  | .laneReferenceCheck t l ppb => Sys2Proof.Machine.execLaneReferenceCheck t l ppb s
  | .tenderBehind t l bit => Sys2Proof.Machine.execTenderBehind t l bit s
  | .supplyPresent t input mv q => Sys2Proof.Machine.execSupplyPresent t input mv q s
  | .supplyLost t input mv1 mv2 => Sys2Proof.Machine.execSupplyLost t input mv1 mv2 s
  | .mrstTaken t => Sys2Proof.Machine.execMrstTaken t s
  | .mrstRelease t q => Sys2Proof.Machine.execMrstRelease t q s
  | .mrstStuck t q => Sys2Proof.Machine.execMrstStuck t q s
  | .mrstUnmask t => Sys2Proof.Machine.execMrstUnmask t s
  | .domainReady t l d => Sys2Proof.Machine.execDomainReady t l d s
  | .dramWipeComplete t l => Sys2Proof.Machine.execDramWipeComplete t l s
  | .lanePowerRestore t l => Sys2Proof.Machine.execLanePowerRestore t l s
  | .plateHot t temp => Sys2Proof.Machine.execPlateHot t temp s
  | .dieWarn t l => Sys2Proof.Machine.execDieWarn t l s
  | .dieProtection t l => Sys2Proof.Machine.execDieProtection t l s
  | .dieCooled t l => Sys2Proof.Machine.execDieCooled t l s
  | .backupLow t mv => Sys2Proof.Machine.execBackupLow t mv s
  | .backupRecovered t mv => Sys2Proof.Machine.execBackupRecovered t mv s
  | .lifecycleWipeComplete t => Sys2Proof.Machine.execLifecycleWipeComplete t s
  | .firmwareVerified t l keeper slot => Sys2Proof.Machine.execFirmwareVerified t l keeper slot s
  | .healthConfirmation t l => Sys2Proof.Machine.execHealthConfirmation t l s
  | .confirmationTimeout t l => Sys2Proof.Machine.execConfirmationTimeout t l s
  | .keeperImageConfirm t => Sys2Proof.Machine.execKeeperImageConfirm t s
  | .keeperConfirmTimeout t => Sys2Proof.Machine.execKeeperConfirmTimeout t s
  | .cycleSetApply t ep v => Sys2Proof.Machine.execCycleSetApply t ep v s
  | .pubdlyClear t ep v => Sys2Proof.Machine.execPubdlyClear t ep v s
  | .slvCntClr t ep v => Sys2Proof.Machine.execSlvCntClr t ep v s
  | .fusCntClr t ep v => Sys2Proof.Machine.execFusCntClr t ep v s
  | .gnbCntClr t ep v => Sys2Proof.Machine.execGnbCntClr t ep v s
  | .metCntClr t ep v => Sys2Proof.Machine.execMetCntClr t ep v s
  | .lpeCntClr t ep v => Sys2Proof.Machine.execLpeCntClr t ep v s
  | .kprCntClr t ep v => Sys2Proof.Machine.execKprCntClr t ep v s
  | .tmbCntClr t ep v => Sys2Proof.Machine.execTmbCntClr t ep v s
  | .hriCntClr t ep v => Sys2Proof.Machine.execHriCntClr t ep v s
  | .serCntClr t ep v => Sys2Proof.Machine.execSerCntClr t ep v s
  | .tndCntClr t ep v => Sys2Proof.Machine.execTndCntClr t ep v s
  | .registerWrite t ep off bytes v => Sys2Proof.Machine.execRegisterWrite t ep off bytes v s
  | .keeperFault t => Sys2Proof.Machine.execKeeperFault t s
  | .tickMarkerLoss t l => Sys2Proof.Machine.execTickMarkerLoss t l s
  | .plateCooled t temp => Sys2Proof.Machine.execPlateCooled t temp s
  | .arbiterLoss t => Sys2Proof.Machine.execArbiterLoss t s
  | .canBusError t c eight => Sys2Proof.Machine.execCanBusError t c eight s
  | .serialLineBreak t n brk => Sys2Proof.Machine.execSerialLineBreak t n brk s
  | .ringLinkChange t port up => Sys2Proof.Machine.execRingLinkChange t port up s
  | .backupExhausted t => Sys2Proof.Machine.execBackupExhausted t s

end Sys2Proof.Machine
end

