-- ==== Sys2Proof/Laws/Sparse.lean ====
section
/-!
SUPPORT. Laws of sparse maps: a read after a write of the same key gives the value, a write leaves every other key, and every operation
keeps the canonical form.
-/

namespace Sys2Proof.Machine.Sparse

variable {α : Type} (d : Nat → α)

theorem get_erase_same (m : Sparse α) (k : Nat) : get d (erase m k) k = d k := by
  induction m with
  | nil => rfl
  | cons p m ih => obtain ⟨j, v⟩ := p; by_cases h : j = k <;> simp [erase, get, h, ih]

theorem get_erase_ne (m : Sparse α) {k j : Nat} (h : j ≠ k) : get d (erase m k) j = get d m j := by
  induction m with
  | nil => rfl
  | cons p m ih =>
    obtain ⟨i, v⟩ := p
    by_cases hi : i = k
    · simp [erase, get, hi, ih, Ne.symm h]
    · simp [erase, get, hi, ih]

theorem get_insert_same (m : Sparse α) (k : Nat) (v : α) : get d (insert m k v) k = v := by
  induction m with
  | nil => simp [insert, get]
  | cons p m ih =>
    obtain ⟨j, w⟩ := p
    unfold insert
    split
    · simp [get]
    · split
      · simp [get]
      · rename_i h; simp [get, h, ih]

theorem get_insert_ne (m : Sparse α) {k j : Nat} (v : α) (h : j ≠ k) : get d (insert m k v) j = get d m j := by
  induction m with
  | nil => simp [insert, get, Ne.symm h]
  | cons p m ih =>
    obtain ⟨i, w⟩ := p
    unfold insert
    split
    · simp [get, Ne.symm h]
    · split
      · rename_i hi; subst hi; simp [get, Ne.symm h]
      · simp [get, ih]

/-- A read after a write of the same key gives the value written. -/
@[simp] theorem get_set_same [DecidableEq α] (m : Sparse α) (k : Nat) (v : α) : get d (set d m k v) k = v := by
  unfold set
  split
  · rename_i h; rw [get_erase_same, h]
  · exact get_insert_same d m k v

/-- A write leaves every other key as it reads. -/
theorem get_set_ne [DecidableEq α] (m : Sparse α) {k j : Nat} (v : α) (h : j ≠ k) : get d (set d m k v) j = get d m j := by
  unfold set
  split
  · exact get_erase_ne d m h
  · exact get_insert_ne d m v h

theorem rising_mono {lo lo' : Nat} (h : lo' ≤ lo) {m : Sparse α} (hm : rising lo m = true) : rising lo' m = true := by
  cases m with
  | nil => rfl
  | cons p m =>
    simp only [rising, Bool.and_eq_true, decide_eq_true_eq] at hm ⊢
    exact ⟨by omega, hm.2⟩

theorem rising_erase {lo k : Nat} {m : Sparse α} (h : rising lo m = true) : rising lo (erase m k) = true := by
  induction m generalizing lo with
  | nil => rfl
  | cons p m ih =>
    obtain ⟨j, v⟩ := p
    simp only [rising, Bool.and_eq_true, decide_eq_true_eq] at h
    unfold erase
    split
    · exact ih (rising_mono (by omega) h.2)
    · simpa [rising, h.1] using ih h.2

theorem rising_insert {lo k : Nat} {m : Sparse α} {v : α} (hk : lo ≤ k) (h : rising lo m = true) :
    rising lo (insert m k v) = true := by
  induction m generalizing lo with
  | nil => simp [insert, rising, hk]
  | cons p m ih =>
    obtain ⟨j, w⟩ := p
    simp only [rising, Bool.and_eq_true, decide_eq_true_eq] at h
    unfold insert
    split
    · rename_i hlt; simp [rising, hk, h.2]; omega
    · split
      · rename_i he; subst he; simp [rising, hk, h.2]
      · have hjk : j + 1 ≤ k := by omega
        simp [rising, h.1, ih hjk h.2]

theorem noDefault_erase [DecidableEq α] {k : Nat} {m : Sparse α} (h : noDefault d m = true) : noDefault d (erase m k) = true := by
  induction m with
  | nil => rfl
  | cons p m ih =>
    obtain ⟨j, v⟩ := p
    simp only [noDefault, Bool.and_eq_true, decide_eq_true_eq] at h
    unfold erase
    split
    · exact ih h.2
    · simpa [noDefault, h.1] using ih h.2

theorem noDefault_insert [DecidableEq α] {k : Nat} {m : Sparse α} {v : α} (hv : v ≠ d k) (h : noDefault d m = true) :
    noDefault d (insert m k v) = true := by
  induction m with
  | nil => simp [insert, noDefault, hv]
  | cons p m ih =>
    obtain ⟨j, w⟩ := p
    simp only [noDefault, Bool.and_eq_true, decide_eq_true_eq] at h
    unfold insert
    split
    · simp [noDefault, hv, h.1, h.2]
    · split
      · rename_i he; simp [noDefault, hv, h.2]
      · simp [noDefault, h.1, ih h.2]

/-- The empty map is canonical. -/
theorem wf_nil [DecidableEq α] : wf d ([] : Sparse α) = true := rfl

/-- A write keeps the canonical form. -/
theorem wf_set [DecidableEq α] {m : Sparse α} (k : Nat) (v : α) (h : wf d m = true) : wf d (set d m k v) = true := by
  simp only [wf, Bool.and_eq_true] at h ⊢
  unfold set
  split
  · exact ⟨rising_erase h.1, noDefault_erase d h.2⟩
  · rename_i hv; exact ⟨rising_insert (Nat.zero_le _) h.1, noDefault_insert d hv h.2⟩

theorem rising_keep {p : Nat → Bool} {lo : Nat} {m : Sparse α} (h : rising lo m = true) : rising lo (keep p m) = true := by
  induction m generalizing lo with
  | nil => rfl
  | cons q m ih =>
    obtain ⟨j, v⟩ := q
    simp only [rising, Bool.and_eq_true, decide_eq_true_eq] at h
    unfold keep
    split
    · simpa [rising, h.1] using ih h.2
    · exact ih (rising_mono (by omega) h.2)

theorem noDefault_keep [DecidableEq α] {p : Nat → Bool} {m : Sparse α} (h : noDefault d m = true) : noDefault d (keep p m) = true := by
  induction m with
  | nil => rfl
  | cons q m ih =>
    obtain ⟨j, v⟩ := q
    simp only [noDefault, Bool.and_eq_true, decide_eq_true_eq] at h
    unfold keep
    split
    · simpa [noDefault, h.1] using ih h.2
    · exact ih h.2

/-- Keeping some keys keeps the canonical form. -/
theorem wf_keep [DecidableEq α] {p : Nat → Bool} {m : Sparse α} (h : wf d m = true) : wf d (keep p m) = true := by
  simp only [wf, Bool.and_eq_true] at h ⊢
  exact ⟨rising_keep h.1, noDefault_keep d h.2⟩

theorem rising_mapVals [DecidableEq α] {f : Nat → α → α} {lo : Nat} {m : Sparse α} (h : rising lo m = true) :
    rising lo (mapVals d f m) = true := by
  induction m generalizing lo with
  | nil => rfl
  | cons q m ih =>
    obtain ⟨j, v⟩ := q
    simp only [rising, Bool.and_eq_true, decide_eq_true_eq] at h
    unfold mapVals
    split
    · exact ih (rising_mono (by omega) h.2)
    · simpa [rising, h.1] using ih h.2

theorem noDefault_mapVals [DecidableEq α] (f : Nat → α → α) (m : Sparse α) : noDefault d (mapVals d f m) = true := by
  induction m with
  | nil => rfl
  | cons q m ih =>
    obtain ⟨j, v⟩ := q
    unfold mapVals
    split
    · exact ih
    · rename_i h; simpa [noDefault, h] using ih

/-- Changing the listed values keeps the canonical form. -/
theorem wf_mapVals [DecidableEq α] {f : Nat → α → α} {m : Sparse α} (h : wf d m = true) : wf d (mapVals d f m) = true := by
  simp only [wf, Bool.and_eq_true] at h ⊢
  exact ⟨rising_mapVals d h.1, noDefault_mapVals d f m⟩

/-- Writing consecutive keys keeps the canonical form. -/
theorem wf_setRange [DecidableEq α] {m : Sparse α} (k : Nat) (vs : List α) (h : wf d m = true) : wf d (setRange d m k vs) = true := by
  induction vs generalizing m k with
  | nil => exact h
  | cons v vs ih => exact ih (k + 1) (wf_set d k v h)

end Sys2Proof.Machine.Sparse
end

