-- ==== Sys2Proof/Laws/Fields.lean ====
section
/-!
SUPPORT. Laws of the register file: a field read after it is set gives the value modulo its width, setting a field leaves the fields apart
from it, and every write keeps the canonical form.
-/

namespace Sys2Proof.Machine

/-- The register file is in its canonical form. -/
abbrev RegsWf (s : State) : Prop := Sparse.wf regDef s.regs = true

theorem fieldOf_lt (v : Word) (lsb w : Nat) : fieldOf v lsb w < 2 ^ w := Nat.mod_lt _ (Nat.two_pow_pos w)

theorem getF_lt (s : State) (f : Fld) (l : Lane) : getF s f l < 2 ^ f.w := fieldOf_lt _ _ _

theorem testBit_fieldOf (v : Word) (lsb w i : Nat) :
    (fieldOf v lsb w).testBit i = (decide (i < w) && v.toNat.testBit (lsb + i)) := by
  simp [fieldOf, Nat.testBit_mod_two_pow, Nat.testBit_div_two_pow, Nat.add_comm]

/-- A word's number split around a field. -/
theorem word_split (n lsb w : Nat) :
    n = 2 ^ lsb * (2 ^ w * (n / 2 ^ lsb / 2 ^ w) + n / 2 ^ lsb % 2 ^ w) + n % 2 ^ lsb := by
  rw [Nat.div_add_mod, Nat.div_add_mod]

theorem replaced_eq (n lsb w x : Nat) :
    n - n / 2 ^ lsb % 2 ^ w * 2 ^ lsb + x % 2 ^ w * 2 ^ lsb
      = 2 ^ lsb * (2 ^ w * (n / 2 ^ lsb / 2 ^ w) + x % 2 ^ w) + n % 2 ^ lsb := by
  have h := word_split n lsb w
  generalize n / 2 ^ lsb / 2 ^ w = a at h ⊢
  generalize n / 2 ^ lsb % 2 ^ w = b at h ⊢
  generalize n % 2 ^ lsb = c at h ⊢
  generalize x % 2 ^ w = y
  rw [Nat.mul_add] at h ⊢
  rw [Nat.mul_comm b, Nat.mul_comm y]
  omega

theorem testBit_replaced (n lsb w x i : Nat) :
    (n - n / 2 ^ lsb % 2 ^ w * 2 ^ lsb + x % 2 ^ w * 2 ^ lsb).testBit i
      = if i < lsb then n.testBit i else if i < lsb + w then x.testBit (i - lsb) else n.testBit i := by
  rw [replaced_eq, Nat.testBit_two_pow_mul_add _ (Nat.mod_lt _ (Nat.two_pow_pos lsb))]
  split
  · rename_i h; simp [Nat.testBit_mod_two_pow, h]
  · rename_i h
    rw [Nat.testBit_two_pow_mul_add _ (Nat.mod_lt _ (Nat.two_pow_pos w))]
    by_cases h2 : i - lsb < w
    · have h3 : i < lsb + w := by omega
      simp [h2, h3, Nat.testBit_mod_two_pow]
    · have h3 : ¬ i < lsb + w := by omega
      simp only [h2, h3, if_false, Nat.testBit_div_two_pow]
      congr 1; omega

theorem replaced_lt {n lsb w x : Nat} (hn : n < 2 ^ 32) (h : lsb + w ≤ 32) :
    n - n / 2 ^ lsb % 2 ^ w * 2 ^ lsb + x % 2 ^ w * 2 ^ lsb < 2 ^ 32 := by
  refine Nat.lt_pow_two_of_testBit _ fun i hi => ?_
  rw [testBit_replaced, if_neg (by omega), if_neg (by omega)]
  exact Nat.testBit_lt_two_pow (Nat.lt_of_lt_of_le hn (Nat.pow_le_pow_right (by decide) hi))

theorem fieldOf_withField (v : Word) (lsb w x lsb' w' : Nat) (h : lsb + w ≤ 32) :
    (lsb = lsb' ∧ w = w' → fieldOf (withField v lsb w x) lsb' w' = x % 2 ^ w) ∧
    (lsb + w ≤ lsb' ∨ lsb' + w' ≤ lsb → fieldOf (withField v lsb w x) lsb' w' = fieldOf v lsb' w') := by
  have hv : (withField v lsb w x).toNat = v.toNat - v.toNat / 2 ^ lsb % 2 ^ w * 2 ^ lsb + x % 2 ^ w * 2 ^ lsb := by
    unfold withField fieldOf
    rw [BitVec.toNat_ofNat]
    exact Nat.mod_eq_of_lt (replaced_lt v.isLt h)
  refine ⟨fun ⟨h1, h2⟩ => ?_, fun hs => ?_⟩
  · subst h1 h2
    refine Nat.eq_of_testBit_eq fun i => ?_
    rw [testBit_fieldOf, hv, testBit_replaced, Nat.testBit_mod_two_pow, if_neg (by omega)]
    by_cases hi : i < w
    · simp [hi]
    · simp [hi]
  · refine Nat.eq_of_testBit_eq fun i => ?_
    rw [testBit_fieldOf, testBit_fieldOf, hv, testBit_replaced]
    by_cases hi : i < w'
    · have : ¬ (¬ lsb' + i < lsb ∧ lsb' + i < lsb + w) := by omega
      by_cases h1 : lsb' + i < lsb
      · simp [h1]
      · have h2 : ¬ lsb' + i < lsb + w := fun hh => this ⟨h1, hh⟩
        simp [h1, h2]
    · simp [hi]

/-- Two fields that share no bit, whichever lanes they are read and set in. -/
def Fld.apart (f g : Fld) : Bool :=
  (f.off != g.off && decide (f.off < laneSpan) && decide (g.off < laneSpan)) || decide (f.lsb + f.w ≤ g.lsb) || decide (g.lsb + g.w ≤ f.lsb)

/-- A field lies in its 32-bit register. -/
def Fld.fits (f : Fld) : Bool := decide (f.lsb + f.w ≤ 32)

theorem Lane.idx_lt (l : Lane) : l.idx < 2 := by cases l <;> decide

theorem Fld.key_mod {f : Fld} (h : f.off < laneSpan) (l : Lane) : f.key l % laneSpan = f.off := by
  unfold Fld.key
  split
  · rw [Nat.add_mul_mod_self_left]; exact Nat.mod_eq_of_lt h
  · exact Nat.mod_eq_of_lt h

@[simp] theorem rdK_wrK_same (k : Nat) (v : Word) (s : State) : rdK (wrK k v s) k = v := Sparse.get_set_same _ _ _ _

theorem rdK_wrK_ne {k j : Nat} (v : Word) (s : State) (h : j ≠ k) : rdK (wrK k v s) j = rdK s j :=
  Sparse.get_set_ne _ _ _ h

/-- A field set and read in the same copy reads the value modulo its width. -/
theorem getF_setF_same {f : Fld} (h : f.fits = true) (x : Nat) (l : Lane) (s : State) :
    getF (setF f x l s) f l = x % 2 ^ f.w := by
  simp only [getF, setF, rdK_wrK_same]
  exact (fieldOf_withField _ _ _ _ _ _ (of_decide_eq_true h)).1 ⟨rfl, rfl⟩

/-- Setting a field leaves a field that lies apart from it. -/
theorem getF_setF_apart {f g : Fld} (h : f.fits = true) (ha : f.apart g = true) (x : Nat) (l l' : Lane) (s : State) :
    getF (setF f x l s) g l' = getF s g l' := by
  simp only [getF, setF]
  by_cases hk : g.key l' = f.key l
  · rw [hk, rdK_wrK_same]
    refine (fieldOf_withField _ _ _ _ _ _ (of_decide_eq_true h)).2 ?_
    simp only [Fld.apart, Bool.or_eq_true, Bool.and_eq_true, bne_iff_ne, ne_eq, decide_eq_true_eq] at ha
    rcases ha with (⟨⟨h1, h2⟩, h3⟩ | h1) | h1
    · exact absurd (by rw [← Fld.key_mod h2 l, ← Fld.key_mod h3 l', hk]) h1
    · exact Or.inl h1
    · exact Or.inr h1
  · rw [rdK_wrK_ne _ _ hk]

/-- Setting a field of one lane's copy leaves the other lane's. -/
theorem getF_setF_other {f g : Fld} (hf : f.perLane = true) (hg : g.perLane = true) (h1 : f.off < laneSpan) (h2 : g.off < laneSpan)
    (x : Nat) {l l' : Lane} (hl : l ≠ l') (s : State) : getF (setF f x l s) g l' = getF s g l' := by
  simp only [getF, setF]
  rw [rdK_wrK_ne]
  simp only [Fld.key, hf, hg, if_true]
  generalize laneSpan = n at h1 h2 ⊢
  cases l <;> cases l' <;> simp only [Lane.idx] <;> first | exact absurd rfl hl | omega

theorem setF_rdK_ne {f : Fld} (x : Nat) (l : Lane) (s : State) {k : Nat} (h : k ≠ f.key l) : rdK (setF f x l s) k = rdK s k :=
  rdK_wrK_ne _ _ h

theorem getB_setB_same {f : Fld} (h : f.fits = true) (hw : f.w = 1) (x : Bool) (l : Lane) (s : State) :
    getB (setB f x l s) f l = x := by
  unfold getB setB
  rw [getF_setF_same h, hw]
  cases x <;> rfl

theorem getB_setF_apart {f g : Fld} (h : f.fits = true) (ha : f.apart g = true) (x : Nat) (l l' : Lane) (s : State) :
    getB (setF f x l s) g l' = getB s g l' := by
  unfold getB; rw [getF_setF_apart h ha]

theorem getF_setB_apart {f g : Fld} (h : f.fits = true) (ha : f.apart g = true) (x : Bool) (l l' : Lane) (s : State) :
    getF (setB f x l s) g l' = getF s g l' := getF_setF_apart h ha _ _ _ _

theorem getB_setB_apart {f g : Fld} (h : f.fits = true) (ha : f.apart g = true) (x : Bool) (l l' : Lane) (s : State) :
    getB (setB f x l s) g l' = getB s g l' := by
  unfold getB; rw [getF_setB_apart h ha]

/-- Every write of a register keeps the register file canonical. -/
theorem RegsWf.wrK {s : State} (h : RegsWf s) (k : Nat) (v : Word) : RegsWf (wrK k v s) := Sparse.wf_set _ _ _ h

theorem RegsWf.setF {s : State} (h : RegsWf s) (f : Fld) (x : Nat) (l : Lane) : RegsWf (setF f x l s) := h.wrK _ _

theorem RegsWf.setB {s : State} (h : RegsWf s) (f : Fld) (x : Bool) (l : Lane) : RegsWf (setB f x l s) := h.setF _ _ _

theorem RegsWf.incF {s : State} (h : RegsWf s) (f : Fld) (l : Lane) (n : Nat) : RegsWf (incF f l s n) := h.setF _ _ _

theorem RegsWf.wrapF {s : State} (h : RegsWf s) (f : Fld) (l : Lane) : RegsWf (wrapF f l s) := h.setF _ _ _

theorem RegsWf.setF2 {s : State} (h : RegsWf s) (f : Fld) (x : Nat) : RegsWf (setF2 f x s) := (h.setF _ _ _).setF _ _ _

theorem RegsWf.clrK {s : State} (h : RegsWf s) (off : Nat) (l : Lane) : RegsWf (clrK off l s) := h.wrK _ _

end Sys2Proof.Machine
end

