-- ==== Sys2Proof/Safety.lean ====
section
/-!
DEFINITION. What counts as a safe run of the block: it never stops, and the sparse maps of its state keep their canonical form. With it
the words statements about one command are made of: that it answers a next state, and which registers it may change.
-/

namespace Sys2Proof

open Machine

/-- A step that answers a next state: it neither faults nor refuses. -/
def Safe (s : State) : Prop := ∃ t, step s = .next t

namespace Machine

/-- The command answers a next state, and that state has the property. -/
def Answers (i : Instr) (s : State) (P : State → Prop) : Prop := ∃ u, exec i s = .next u ∧ P u

/-- Key of a register in a lane's own copy (R495). -/
def laneKey (off : Nat) (l : Lane) : Nat := off + laneSpan * (1 + l.idx)

/-- Every register but those listed (by key) reads as before. -/
def OnlyRegs (ks : List Nat) (s u : State) : Prop := ∀ k, k ∉ ks → rdK u k = rdK s k

/-- The registers of the recorder that a record may touch when it finds its queue full (R444): the drop count and the flag of a dropped
alarm record. -/
def recKeys : List Nat := [Reg.REC_CNT, Reg.REC_STAT]

/-- The words of an endpoint that an interrupt may touch: its pending-bit array (R360). -/
def vecKeys (l : Lane) : List Nat := [pbaKey l 0, pbaKey l 32]

/-- The registers an alarm may touch beside those of its record: HRI_SYS_STAT and the pending-bit array of both endpoints (R360, R361). -/
def alarmKeys : List Nat := [laneKey Reg.HRI_SYS_STAT .a, laneKey Reg.HRI_SYS_STAT .b] ++ vecKeys .a ++ vecKeys .b ++ recKeys

/-- The state after a command at instant `t` that changed registers only: its time is `t`, its ports are silent. -/
def RegsOnly (t : Time) (s u : State) : Prop := u = { begin' t s with regs := u.regs }

/-- The state after a command at instant `t` that changed registers and handed records to the recorder's queues. -/
def RegsAndRecords (t : Time) (s u : State) : Prop := u = { begin' t s with regs := u.regs, rec' := u.rec' }

/-- The state after a command at instant `t` that changed registers, records, alarms and what it put on the ports (interrupts). -/
def RegsAndAlarms (t : Time) (s u : State) : Prop :=
  u = { begin' t s with regs := u.regs, rec' := u.rec', alarms := u.alarms, out := u.out }

/-- The state after a command at instant `t` that changed registers, records, alarms, ports and one lane's units. -/
def LaneAndAlarms (l : Lane) (t : Time) (s u : State) : Prop :=
  u = ({ begin' t s with regs := u.regs, rec' := u.rec', alarms := u.alarms, out := u.out }).setLane l (u.lane l)

/-- The module takes register writes of an endpoint into that lane's own registers (R353, R475). -/
def LaneWritable (s : State) (ep : Lane) : Prop := s.up = true ∧ decommissioned s = false ∧ shut s ep = false

/-- The module takes register writes of an endpoint into its module-wide registers (R475, R495). -/
def ModWritable (s : State) (ep : Lane) : Prop := s.up = true ∧ decommissioned s = false ∧ isActive s ep = true

/-- A lane of a module out of reset runs its start sequence or more. -/
def LaneRuns (s : State) (l : Lane) : Prop := s.up = true ∧ ready s l = true

end Machine

end Sys2Proof
end

