-- ==== Sys2Proof/Certificates/Slice0/Obligations.lean ====
section
/-!
DEFINITION. The statements for the provers.
-/

open Sys2Proof Sys2Proof.Machine

/-! The machine. -/

/-- A step takes the command at the front of the queue and is that command's effect on the state with the queue's rest. -/
def Obligations.StepRunsFrontCommand : Prop :=
  ∀ (c : Instr) (cs : List Instr) (s : State), step { s with pending := c :: cs } = exec c { s with pending := cs }

/-- Log entry 2 (DESIGN CHOICE): with no command waiting the block idles. -/
def Obligations.EmptyQueueIdles : Prop := ∀ s : State, s.pending = [] → step s = .next s

/-- Log entry 5 (DESIGN CHOICE): no step faults or refuses; it consumes the front command and keeps the register file canonical. -/
def Obligations.StepKeepsCanonicalRegisters : Prop :=
  ∀ s : State, RegsWf s → ∃ u, step s = .next u ∧ RegsWf u ∧ u.pending = s.pending.tail

/-! Counters that a host write clears. -/

/-- A counter-clear command of one lane: with bit 0 of the value set, the registers listed read 0 in that lane's copy; with the bit clear, or
through the endpoint of a lane that is shut, none changes; every other register, and all else, is as before. -/
def Sys2Proof.Machine.ClearsWords (i : Instr) (t : Time) (ep : Lane) (v : Word) (offs : List Nat) (s : State) : Prop :=
  s.up = true → decommissioned s = false →
    Answers i s (fun u => RegsOnly t s u ∧
      ∀ k, rdK u k = if shut s ep = false ∧ v.getLsbD 0 = true ∧ k ∈ offs.map (laneKey · ep) then 0#32 else rdK s k)

/-- SLV_CNT_CLR, GNB_CNT_CLR and TND_CNT_CLR clear their counters. -/
def Sys2Proof.Machine.CounterClearsZeroTheirWords : Prop :=
  (∀ t ep v s, ClearsWords (.slvCntClr t ep v) t ep v [Reg.SLV_CNT0, Reg.SLV_CNT1] s) ∧
  (∀ t ep v s, ClearsWords (.gnbCntClr t ep v) t ep v [Reg.GNB_CNT] s) ∧
  (∀ t ep v s, ClearsWords (.tndCntClr t ep v) t ep v [Reg.TND_ECC] s)

/-! The assembler (R70-R79). -/

/-- The Active lane's assembly runs within its budget, and the instruction stands at the program counter of its package. -/
def Sys2Proof.Machine.AsmAt (op : AsmOp) (i : AsmI) (s : State) (l : Lane) (p : PkgData) : Prop :=
  s.up = true ∧ active s = some l ∧ actPkg s l = some p ∧ (s.lane l).slv.asmRun = true ∧ (s.lane l).slv.steps < p.budget ∧
    p.prog[(s.lane l).slv.pc]? = some (asmEncode op i)

/-- R72: the fields of an assembler instruction stand in its 64 bits where R72 lays them out and are read back from there, every field at every
value; the effective index is imm + A[x] modulo 2³²; in an instruction that passes its static check the fields its opcode does not use are 0. -/
def Obligations.AssemblerDecodeOfEncode : Prop :=
  (∀ (op : AsmOp) (i : AsmI), asmDecode (asmEncode op i) = (op, i)) ∧
  (∀ (op : AsmOp) (i : AsmI) (w : BitVec 64), w = asmEncode op i → w.extractLsb' 60 4 = op.num ∧ w.extractLsb' 55 5 = i.d ∧ w.extractLsb' 50 5 = i.a ∧
    w.extractLsb' 45 5 = i.b ∧ w.extractLsb' 40 5 = i.c ∧ w.extractLsb' 36 4 = i.x ∧ w.extractLsb' 32 4 = i.m ∧ w.extractLsb' 0 32 = i.imm) ∧
  (∀ (v : SlvSt) (i : AsmI), effIdx v i = (i.imm.toNat + (aReg v i.x.toNat).toNat) % 2 ^ 32) ∧
  (∀ (k : AsmLim) (op : AsmOp) (i : AsmI), asmInstrOk k (asmEncode op i) = true →
    (op ∈ [.fin, .cmp, .loop, .brq, .sct, .vst, .sig] → i.d = 0#5) ∧ (op ∈ [.fin, .ldm, .lds, .ldp, .brq, .sig] → i.a = 0#5) ∧
    (op ∈ [.fin, .ldm, .lds, .ldp, .lda, .loop, .brq, .sct, .vst, .sig] → i.b = 0#5) ∧
    (op ∈ [.fin, .ldm, .lds, .ldp, .itp, .cmp, .lda, .loop, .brq, .sct, .bnd, .sig] → i.c = 0#5) ∧
    (op ∈ [.fin, .mad, .fop, .cmp, .lda, .loop, .brq, .sig] → i.x = 0#4) ∧ (op ∈ [.fin, .ldm, .lds, .ldp, .itp, .fop, .loop] → i.m = 0#4) ∧
    (op ∈ [.fin, .mad, .cmp] → i.imm = 0#32))

/-- R73: LDM, LDS, LDP and ITP write Fd (and Q, for LDM, LDS and ITP), count a step and go to the next instruction; nothing else of the
machine changes but the time and the silent ports. -/
def Obligations.AssemblerLoadsWriteDestination : Prop :=
  (∀ t i s l p x q, AsmAt .ldm i s l p → (s.lane l).slv.mvec[effIdx (s.lane l).slv i]? = some (x, q) →
    exec (.ldm t i) s = .next (onSlv l (fun v =>
      { v with fr := Sparse.set f64Def v.fr i.d.toNat x, q := q, steps := v.steps + 1, pc := v.pc + 1 }) (begin' t s))) ∧
  (∀ t i s l p x q, AsmAt .lds i s l p → (s.lane l).slv.svec[effIdx (s.lane l).slv i]? = some (x, q) →
    exec (.lds t i) s = .next (onSlv l (fun v =>
      { v with fr := Sparse.set f64Def v.fr i.d.toNat x, q := q, steps := v.steps + 1, pc := v.pc + 1 }) (begin' t s))) ∧
  (∀ t i s l p x, AsmAt .ldp i s l p → p.param[effIdx (s.lane l).slv i]? = some x →
    exec (.ldp t i) s = .next (onSlv l (fun v =>
      { v with fr := Sparse.set f64Def v.fr i.d.toNat x, steps := v.steps + 1, pc := v.pc + 1 }) (begin' t s))) ∧
  (∀ t i s l p tab, AsmAt .itp i s l p → p.tables[effIdx (s.lane l).slv i]? = some tab →
    exec (.itp t i) s = .next (onSlv l (fun v =>
      { v with fr := Sparse.set f64Def v.fr i.d.toNat (tableAt tab (fReg v i.a) (fReg v i.b)).1,
               q := (tableAt tab (fReg v i.a) (fReg v i.b)).2, steps := v.steps + 1, pc := v.pc + 1 }) (begin' t s)))

/-- R73, R74: MAD, FOP, CMP and LDA on the registers, a write of A0 being ignored (R70). -/
def Obligations.AssemblerArithmeticOnRegisters : Prop :=
  (∀ t i s l p, AsmAt .mad i s l p → exec (.mad t i) s = .next (onSlv l (fun v =>
    { v with fr := (Sparse.set f64Def v.fr i.d.toNat (F64.fma (if i.m.getLsbD 0 then F64.neg (fReg v i.a) else fReg v i.a) (fReg v i.b)
               (if i.m.getLsbD 1 then F64.neg (fReg v i.c) else fReg v i.c))), steps := v.steps + 1, pc := v.pc + 1 }) (begin' t s))) ∧
  (∀ t i s l p, AsmAt .fop i s l p → exec (.fop t i) s = .next (onSlv l (fun v =>
    { v with fr := Sparse.set f64Def v.fr i.d.toNat (fopVal i.c.toNat (fReg v i.a) (fReg v i.b) (aReg v i.a.toNat) i.imm),
             steps := v.steps + 1, pc := v.pc + 1 }) (begin' t s))) ∧
  (∀ t i s l p, AsmAt .cmp i s l p → exec (.cmp t i) s = .next (onSlv l (fun v =>
    { v with q := cmpFlag i.m.toNat (fReg v i.a) (fReg v i.b), steps := v.steps + 1, pc := v.pc + 1 }) (begin' t s))) ∧
  (∀ t i s l p, AsmAt .lda i s l p → exec (.lda t i) s = .next (onSlv l (fun v =>
    { v with ar := if i.d.toNat = 0 then v.ar else
               Sparse.set wordDef v.ar i.d.toNat (if i.m.getLsbD 0 then aReg v i.a.toNat + i.imm else i.imm),
             steps := v.steps + 1, pc := v.pc + 1 }) (begin' t s)))

/-- R73: LOOP counts A[a] down and jumps while it is not 0 (a static check keeps a from being 0, R79); BRQ jumps on m[1] or on Q = m[0]; SIG
records its code, counts it in SLV_ASM_DIAG (which sticks at its maximum), and with m[0] hands an event to the recorder. -/
def Obligations.AssemblerJumpsAndSignal : Prop :=
  (∀ t i s l p, AsmAt .loop i s l p → i.a.toNat ≠ 0 → exec (.loop t i) s = .next (onSlv l (fun v =>
    { v with ar := Sparse.set wordDef v.ar i.a.toNat (aReg v i.a.toNat - 1#32), steps := v.steps + 1,
             pc := if aReg v i.a.toNat = 1#32 then v.pc + 1 else i.imm.toNat }) (begin' t s))) ∧
  (∀ t i s l p, AsmAt .brq i s l p → exec (.brq t i) s = .next (onSlv l (fun v =>
    { v with steps := v.steps + 1,
             pc := if i.m.getLsbD 1 = true ∨ v.q = i.m.getLsbD 0 then i.imm.toNat else v.pc + 1 }) (begin' t s))) ∧
  (∀ t i s l p, AsmAt .sig i s l p → Answers (.sig t i) s (fun u =>
    u.lane l = { s.lane l with slv := { (s.lane l).slv with steps := (s.lane l).slv.steps + 1, pc := (s.lane l).slv.pc + 1 } } ∧
    getF u Reg.SLV_ASM_DIAG_code l = i.imm.toNat % 2 ^ 16 ∧
    getF u Reg.SLV_ASM_DIAG_count l = min (getF s Reg.SLV_ASM_DIAG_count l + 1) 0xFFFF ∧
    u.rec' = (if i.m.getLsbD 0 then
      (raise (laneSrc l 6) Ev.SLV_SIG (i.imm.toNat % 2 ^ 16 + 2 ^ 32 * (s.lane l).slv.pc) (begin' t s)).rec' else s.rec') ∧
    OnlyRegs (laneKey Reg.SLV_ASM_DIAG l :: recKeys) s u ∧ LaneAndAlarms l t s u ∧ u.alarms = s.alarms ∧ u.out = []))

/-- R73, R75, R77: SCT, VST, BND and RTL store, when the index is in range and the value may be stored. -/
def Obligations.AssemblerStoresWriteTargets : Prop :=
  (∀ t i s l p, AsmAt .sct i s l p → ∀ x, effIdx (s.lane l).slv i < p.kSlots →
    x = (if i.m.getLsbD 0 then F64.add (img (s.lane l).slv (effIdx (s.lane l).slv i)) (fReg (s.lane l).slv i.a)
      else fReg (s.lane l).slv i.a) → storeFin x = true →
    exec (.sct t i) s = .next (onSlv l (fun v =>
      { v with image := Sparse.set f64Def v.image (effIdx v i) x, steps := v.steps + 1, pc := v.pc + 1 }) (begin' t s))) ∧
  (∀ t i s l p, AsmAt .vst i s l p → ∀ x, effIdx (s.lane l).slv i < p.n →
    x = (if i.m.getLsbD 0 then F64.add (vec (s.lane l).slv (4 + i.c.toNat) (effIdx (s.lane l).slv i)) (fReg (s.lane l).slv i.a)
      else fReg (s.lane l).slv i.a) → storeOk i.c.toNat x = true →
    exec (.vst t i) s = .next (onSlv l (fun v =>
      { v with vecs := Sparse.set (vecDef v.bndClr) v.vecs (16384 * (4 + i.c.toNat) + effIdx v i) x, steps := v.steps + 1, pc := v.pc + 1 })
      (begin' t s))) ∧
  (∀ t i s l p lo hi w, AsmAt .bnd i s l p → effIdx (s.lane l).slv i < p.n →
    lo = fReg (s.lane l).slv i.a → hi = fReg (s.lane l).slv i.b →
    w = (if i.m.getLsbD 0 then fReg (s.lane l).slv i.d else 0#64) →
    storeBound lo = true → storeBound hi = true → storeSlack w = true →
    exec (.bnd t i) s = .next (onSlv l (fun v =>
      { setVec 8 (effIdx v i) w (setVec 7 (effIdx v i) hi (setVec 6 (effIdx v i) lo v)) with steps := v.steps + 1, pc := v.pc + 1 })
      (begin' t s))) ∧
  (∀ t i s l p lo hi w, AsmAt .rtl i s l p → effIdx (s.lane l).slv i < p.n →
    lo = F64.fma (F64.neg (fReg (s.lane l).slv i.b)) (fReg (s.lane l).slv i.c) (fReg (s.lane l).slv i.a) →
    hi = F64.fma (fReg (s.lane l).slv i.b) (fReg (s.lane l).slv i.c) (fReg (s.lane l).slv i.a) →
    w = (if i.m.getLsbD 0 then fReg (s.lane l).slv i.d else 0#64) →
    storeBound lo = true → storeBound hi = true → storeSlack w = true →
    exec (.rtl t i) s = .next (onSlv l (fun v =>
      { setVec 8 (effIdx v i) w (setVec 7 (effIdx v i) hi (setVec 6 (effIdx v i) lo v)) with steps := v.steps + 1, pc := v.pc + 1 })
      (begin' t s)))

/-- What an assembly fault of a code does (R78): the assembly ends, the cycle's condition is SHIFTED with cause asmf, SLV_ASM_STAT shows the
code and the steps executed, and event SLV_ASMFLT carries the code and `data`. -/
def Sys2Proof.Machine.AsmFaulted (l : Lane) (t : Time) (code data steps : Nat) (s u : State) : Prop :=
  (u.lane l).slv.asmRun = false ∧ (u.lane l).slv.asmFault = code ∧ (u.lane l).slv.cond = some .shifted ∧ (u.lane l).slv.fAsmf = true ∧
  (u.lane l).slv.t1 = some t ∧ (u.lane l).slv.image = (s.lane l).slv.image ∧ (u.lane l).slv.vecs = (s.lane l).slv.vecs ∧
  (u.lane l).slv.fr = (s.lane l).slv.fr ∧
  getF u Reg.SLV_ASM_STAT_fault l = code ∧ getF u Reg.SLV_ASM_STAT_steps l = steps % 2 ^ 24 ∧
  u.rec' = (raise (laneSrc l 6) Ev.SLV_ASMFLT (code + 2 ^ 32 * data) (begin' t s)).rec' ∧
  OnlyRegs (laneKey Reg.SLV_ASM_STAT l :: laneKey Reg.SLV_ASM_TIME l :: recKeys) s u ∧
  LaneAndAlarms l t s u ∧ u.alarms = s.alarms ∧ u.out = []

/-- R78: an index out of range is fault INDEX (2), a rejected store fault VALUE (3), steps at the budget fault BUDGET (1). -/
def Obligations.AssemblerFaultsAbandonTheCycle : Prop :=
  (∀ t i s l p, AsmAt .ldm i s l p → (s.lane l).slv.mvec.length ≤ effIdx (s.lane l).slv i →
    Answers (.ldm t i) s (AsmFaulted l t 2 (effIdx (s.lane l).slv i) ((s.lane l).slv.steps + 1) s)) ∧
  (∀ t i s l p, AsmAt .itp i s l p → p.tables.length ≤ effIdx (s.lane l).slv i →
    Answers (.itp t i) s (AsmFaulted l t 2 (effIdx (s.lane l).slv i) ((s.lane l).slv.steps + 1) s)) ∧
  (∀ t i s l p, AsmAt .sct i s l p → effIdx (s.lane l).slv i < p.kSlots → i.m.getLsbD 0 = false →
    storeFin (fReg (s.lane l).slv i.a) = false →
    Answers (.sct t i) s (AsmFaulted l t 3 (s.lane l).slv.pc ((s.lane l).slv.steps + 1) s)) ∧
  (∀ t s l p, s.up = true → active s = some l → actPkg s l = some p → (s.lane l).slv.asmRun = true →
    p.budget ≤ (s.lane l).slv.steps →
    Answers (.asmBudget t) s (AsmFaulted l t 1 (s.lane l).slv.pc (s.lane l).slv.steps s))

/-- R76: END stops the program. With a hard contradiction at the first index `k` the fault is BOUND, the solve is not started and the cycle's
condition is a model fault; with none the solve starts at its first iteration. -/
def Obligations.AssemblerEndChecksBounds : Prop :=
  (∀ t i s l p k, AsmAt .fin i s l p →
    (List.range p.n).find? (fun j => F64.isZero (vec (s.lane l).slv 8 j) && F64.lt (vec (s.lane l).slv 7 j) (vec (s.lane l).slv 6 j)) = some k →
    Answers (.asmEnd t i) s (fun u =>
      (u.lane l).slv.asmRun = false ∧ (u.lane l).slv.asmDone = true ∧ (u.lane l).slv.solving = (s.lane l).slv.solving ∧
      (u.lane l).slv.cond = some .mfault ∧ (u.lane l).slv.bound = some k ∧ getF u Reg.SLV_ASM_STAT_fault l = 4 ∧
      u.rec' = (raise (laneSrc l 6) Ev.SLV_ASMFLT (4 + 2 ^ 32 * k) (begin' t s)).rec' ∧
      OnlyRegs (laneKey Reg.SLV_ASM_STAT l :: laneKey Reg.SLV_ASM_TIME l :: recKeys) s u ∧ LaneAndAlarms l t s u)) ∧
  (∀ t i s l p, AsmAt .fin i s l p →
    (∀ j < p.n, F64.isZero (vec (s.lane l).slv 8 j) = false ∨ F64.lt (vec (s.lane l).slv 7 j) (vec (s.lane l).slv 6 j) = false) →
    Answers (.asmEnd t i) s (fun u =>
      (u.lane l).slv.asmRun = false ∧ (u.lane l).slv.asmDone = true ∧ (u.lane l).slv.solving = true ∧ (u.lane l).slv.k = 1 ∧
      (u.lane l).slv.seg = 1 ∧ (u.lane l).slv.win = p.fact ∧ (u.lane l).slv.t0 = some t ∧ (u.lane l).slv.r = 0 ∧
      getF u Reg.SLV_ASM_STAT_fault l = 0 ∧ u.rec' = s.rec' ∧
      OnlyRegs [laneKey Reg.SLV_ASM_STAT l, laneKey Reg.SLV_ASM_TIME l] s u ∧
      u.lane l.other = s.lane l.other ∧ u.alarms = s.alarms ∧ u.out = []))

/-! The schedule and the iteration controller (R80-R84, R94-R114). -/

/-- The Active lane's solve runs and instruction `n` of its schedule may execute now. -/
def Sys2Proof.Machine.SchedAt (n : Nat) (op : SOp) (s : State) (l : Lane) (p : PkgData) : Prop :=
  s.up = true ∧ active s = some l ∧ actPkg s l = some p ∧ inWindow p (s.lane l).slv n op = true

/-- What instruction `n` reads: the package, the configuration in force, the solver, and the panels of the last PAN before it. -/
def Sys2Proof.Machine.schedCtx (s : State) (l : Lane) (p : PkgData) (n : Nat) : SchCtx :=
  ⟨p, s.slvCfg, (s.lane l).slv, (panelAt p (segStart p (s.lane l).slv.seg) n).getD ⟨0, 1, 0, 0, 1, 0⟩⟩

/-- A schedule instruction whose writes break nothing: it has its operation's effect on the solver, is marked executed, and changes nothing
else of the machine. -/
def Sys2Proof.Machine.SchedRuns (i : Instr) (t : Time) (n : Nat) (op : SOp) (f : SchCtx → SlvSt × List (Nat × F64)) : Prop :=
  ∀ s l p, SchedAt n op s l p → (∀ w ∈ (f (schedCtx s l p n)).2, breaks w.2 = false) →
    exec i s = .next (onSlv l (fun v => { (f (schedCtx s l p n)).1 with done := n :: v.done }) (begin' t s))

/-- R82: each schedule instruction runs its operation on factor, vectors and image. -/
def Obligations.ScheduleInstructionsRunTheirOperation : Prop :=
  (∀ t n dst src len z, SchedRuns (.bld t n dst src len z) t n (.bld dst src len z) (schBld dst src len z)) ∧
  (∀ t n c cnt f0 f1 f2, SchedRuns (.dad t n c cnt f0 f1 f2) t n (.dad c cnt f0 f1 f2) (schDad c cnt f0 f1 f2)) ∧
  (∀ t n m nn k ar br kc cr cc lo, SchedRuns (.gmt t n m nn k ar br kc cr cc lo) t n (.gmt m nn k ar br kc cr cc lo)
    (schGmt m nn k ar br kc cr cc lo)) ∧
  (∀ t n cnt c h mask, SchedRuns (.pvs t n cnt c h mask) t n (.pvs cnt c h mask) (schPvs cnt c h mask)) ∧
  (∀ t n cnt c, SchedRuns (.tsl t n cnt c) t n (.tsl cnt c) (schTsl cnt c)) ∧
  (∀ t n cnt c, SchedRuns (.tsu t n cnt c) t n (.tsu cnt c) (schTsu cnt c)) ∧
  (∀ t n row cnt, SchedRuns (.dsc t n row cnt) t n (.dsc row cnt) (schDsc row cnt)) ∧
  (∀ t n m k ar kc tt tr pool, SchedRuns (.gmv t n m k ar kc tt tr pool) t n (.gmv m k ar kc tt tr pool) (schGmv m k ar kc tt tr pool)) ∧
  (∀ t n src q len z, SchedRuns (.sca t n src q len z) t n (.sca src q len z) (schSca src q len z)) ∧
  (∀ t n f0 f1 f2, SchedRuns (.rfn t n f0 f1 f2) t n (.rfn f0 f1 f2) (schRfn f0 f1 f2)) ∧
  (∀ t n sb sld scol db dld dcol s l p, SchedAt n (.pan sb sld scol db dld dcol) s l p →
    exec (.pan t n sb sld scol db dld dcol) s = .next (onSlv l (fun v => { v with done := n :: v.done }) (begin' t s)))

/-- R82: BLD leaves image slots (or zeros) in the factor words from `dst`, DSC divides V0 by the pivots; every other word is as before. -/
def Sys2Proof.Machine.BlockLoadAndPivotDivisionValues : Prop :=
  (∀ dst src len z x i, i < len → fac (schBld dst src len z x).1 (dst + i) = if z then 0#64 else img x.v (src + i)) ∧
  (∀ dst src len z x w, (∀ i < len, w ≠ dst + i) → fac (schBld dst src len z x).1 w = fac x.v w) ∧
  (∀ row cnt x j, j < cnt → vec (schDsc row cnt x).1 0 (row + j) = F64.div (vec x.v 0 (row + j)) (vec x.v 15 (row + j))) ∧
  (∀ row cnt x k i, (∀ j < cnt, 16384 * k + i ≠ row + j) → vec (schDsc row cnt x).1 k i = vec x.v k i)

/-- R81: FACT's instructions write the factor region (PVS also V15 and the pivot signs), SOLVE's write V0, RFN writes V2; the image, the
registers of the assembler and every other vector word stay. A vector word is named by its place 16384·k + i in solver SRAM. -/
def Sys2Proof.Machine.ScheduleInstructionsWriteOnlyTheirTargets : Prop :=
  (∀ c cnt f0 f1 f2 x, (schDad c cnt f0 f1 f2 x).1 = { x.v with factor := (schDad c cnt f0 f1 f2 x).1.factor }) ∧
  (∀ m nn k ar br kc cr cc lo x,
    (schGmt m nn k ar br kc cr cc lo x).1 = { x.v with factor := (schGmt m nn k ar br kc cr cc lo x).1.factor }) ∧
  (∀ src q len z x, (schSca src q len z x).1 = { x.v with factor := (schSca src q len z x).1.factor }) ∧
  (∀ cnt c h mask x, let u := (schPvs cnt c h mask x).1
    u = { x.v with factor := u.factor, vecs := u.vecs, signs := u.signs, nrepl := u.nrepl, ninert := u.ninert,
                   mxRepl := max x.v.mxRepl u.nrepl, mxInert := max x.v.mxInert u.ninert,
                   fRepl := x.v.fRepl || decide (0 < u.nrepl) } ∧
    ∀ k i, (∀ j < cnt, 16384 * k + i ≠ 16384 * 15 + (x.pan.scol + c + j)) → vec u k i = vec x.v k i) ∧
  (∀ cnt c x, let u := (schTsl cnt c x).1
    u = { x.v with vecs := u.vecs } ∧ ∀ k i, (∀ j < cnt, 16384 * k + i ≠ x.pan.scol + c + j) → vec u k i = vec x.v k i) ∧
  (∀ cnt c x, let u := (schTsu cnt c x).1
    u = { x.v with vecs := u.vecs } ∧ ∀ k i, (∀ j < cnt, 16384 * k + i ≠ x.pan.scol + c + j) → vec u k i = vec x.v k i) ∧
  (∀ m k ar kc tt pool x, let u := (schGmv m k ar kc tt false pool x).1
    u = { x.v with vecs := u.vecs } ∧ ∀ q i, (∀ j < m, 16384 * q + i ≠ gmvRow x.p tt pool j) → vec u q i = vec x.v q i) ∧
  (∀ m k ar kc tt pool x, let u := (schGmv m k ar kc tt true pool x).1
    u = { x.v with vecs := u.vecs } ∧ ∀ q i, (∀ j < k, 16384 * q + i ≠ x.pan.scol + kc + j) → vec u q i = vec x.v q i) ∧
  (∀ f0 f1 f2 x, let u := (schRfn f0 f1 f2 x).1
    u = { x.v with vecs := u.vecs } ∧ ∀ k i, (∀ j < x.p.n, 16384 * k + i ≠ 16384 * 2 + j) → vec u k i = vec x.v k i)

/-- R105, R106: the first write that breaks down stops the array; the iteration is repeated once from its scan with the regularisation raised,
and a second breakdown fails it: the solve ends SHIFTED with the cause itfail. Shown for DSC. -/
def Obligations.BreakdownRetriesOnceThenFails : Prop :=
  ∀ t n row cnt s l p, SchedAt n (.dsc row cnt) s l p →
    (∃ w ∈ (schDsc row cnt (schedCtx s l p n)).2, breaks w.2 = true) →
    ((s.lane l).slv.retried = false → Answers (.dsc t n row cnt) s (fun u =>
      (u.lane l).slv.r = (s.lane l).slv.r + 1 ∧ (u.lane l).slv.retried = true ∧ (u.lane l).slv.fRetry = true ∧
      (u.lane l).slv.solving = true ∧ (u.lane l).slv.seg = 1 ∧ (u.lane l).slv.win = p.fact ∧ (u.lane l).slv.done = [] ∧
      (u.lane l).slv.k = (s.lane l).slv.k ∧
      getF u Reg.SLV_CNT0_retry l = min (getF s Reg.SLV_CNT0_retry l + 1) 0xFFFF ∧
      OnlyRegs (laneKey Reg.SLV_CNT0 l :: recKeys) s u ∧ LaneAndAlarms l t s u)) ∧
    ((s.lane l).slv.retried = true → Answers (.dsc t n row cnt) s (fun u =>
      (u.lane l).slv.solving = false ∧ (u.lane l).slv.seg = 0 ∧ (u.lane l).slv.cond = some .shifted ∧ (u.lane l).slv.fItfail = true ∧
      (u.lane l).slv.t1 = some t ∧
      getF u Reg.SLV_CNT1_itfail l = min (getF s Reg.SLV_CNT1_itfail l + 1) 0xFFFF ∧
      u.rec' = (raise (laneSrc l 6) Ev.SLV_ITFAIL (s.lane l).slv.k (begin' t s)).rec' ∧
      OnlyRegs (laneKey Reg.SLV_CNT1 l :: recKeys) s u ∧ LaneAndAlarms l t s u))

/-- R82, R83: BAR takes effect when every instruction of its window has executed. A sync moves the window on; the end of FACT starts SOLVE for
the predictor and marks a factorisation with more than pivlim replacements ill-conditioned (R104); the end of SOLVE of a factorisation
without replacements goes on to the corrector with the right-hand side of step 5, or, where step 5 gives a NaN or infinity, fails the
iteration (R108); after the corrector it hands the iteration over to the controller; a BAR that still waits changes nothing. -/
def Obligations.BarrierEndsWindowsAndSegments : Prop :=
  (∀ t n s l p, SchedAt n (.bar 0) s l p → (s.lane l).slv.done.length = n - (s.lane l).slv.win →
    exec (.bar t n 0) s = .next (onSlv l (fun v => { v with win := n + 1, done := [] }) (begin' t s))) ∧
  (∀ t n s l p, SchedAt n (.bar 1) s l p → (s.lane l).slv.done.length = n - (s.lane l).slv.win →
    Answers (.bar t n 1) s (fun u =>
      (u.lane l).slv.ph = .solve1 ∧ (u.lane l).slv.seg = 2 ∧ (u.lane l).slv.win = p.solve ∧ (u.lane l).slv.done = [] ∧
      (u.lane l).slv.fRepl = (s.lane l).slv.fRepl ∧
      (u.lane l).slv.fIllc = ((s.lane l).slv.fIllc || decide (s.slvCfg.pivlim < (s.lane l).slv.nrepl)) ∧
      (u.lane l).slv.factor = (s.lane l).slv.factor ∧ OnlyRegs recKeys s u ∧ u.lane l.other = s.lane l.other)) ∧
  (∀ t n s l p, SchedAt n (.bar 2) s l p → (s.lane l).slv.done.length = n - (s.lane l).slv.win → (s.lane l).slv.nrepl = 0 →
    ((s.lane l).slv.ph = .solve1 →
      (∀ v, predictor p s.fresh { (s.lane l).slv with win := n + 1, done := [] } = some v → Answers (.bar t n 2) s (fun u =>
        (u.lane l).slv.ph = .solve2 ∧ (u.lane l).slv.seg = 2 ∧ (u.lane l).slv.win = p.solve ∧ (u.lane l).slv.aff = v.aff ∧
        (u.lane l).slv.rhs = v.rhs ∧ (u.lane l).slv.sigma = v.sigma ∧ u.regs = s.regs)) ∧
      (predictor p s.fresh { (s.lane l).slv with win := n + 1, done := [] } = none → Answers (.bar t n 2) s (fun u =>
        (u.lane l).slv.cond = some .shifted ∧ (u.lane l).slv.fItfail = true ∧ (u.lane l).slv.solving = false ∧
        (u.lane l).slv.vecs = (s.lane l).slv.vecs))) ∧
    ((s.lane l).slv.ph = .solve2 → Answers (.bar t n 2) s (fun u =>
      (u.lane l).slv.ph = .finish ∧ (u.lane l).slv.seg = 0 ∧ (u.lane l).slv.vecs = (s.lane l).slv.vecs ∧ u.regs = s.regs))) ∧
  (∀ t n kind s, s.up = true → (∀ l p, active s = some l → actPkg s l = some p →
      (s.lane l).slv.done.length ≠ n - (s.lane l).slv.win) → exec (.bar t n kind) s = .next (begin' t s))

/-- R96, R97, R108-R112: the new iterate of step 7 is written to V9-V12 and the tests run in their order: infeasible for three iterations in a row ends
with a model fault, converged with OPTIMAL, the iteration cap with CAPPED or, not accepted, SHIFTED; otherwise the next iteration
starts. A NaN or infinity of the controller fails the iteration and the update is discarded. -/
def Obligations.IterationEndsByItsTests : Prop :=
  ∀ t s l p, s.up = true → active s = some l → actPkg s l = some p → (s.lane l).slv.solving = true → (s.lane l).slv.ph = .finish →
    ∃ u, exec (.iterationComplete t) s = .next u ∧ u.lane l.other = s.lane l.other ∧
      (newIterate p s.fresh (s.lane l).slv = none → (u.lane l).slv.cond = some .shifted ∧ (u.lane l).slv.fItfail = true ∧ (u.lane l).slv.solving = false ∧
        (u.lane l).slv.vecs = (s.lane l).slv.vecs ∧ (u.lane l).slv.latest = (s.lane l).slv.latest) ∧
      (∀ v r, newIterate p s.fresh (s.lane l).slv = some v → r = figures p s.fresh v →
        (∀ k i, k < 9 → i < 16384 → (u.lane l).slv.solving = false → vec (u.lane l).slv k i = vec (s.lane l).slv k i) ∧
        ((u.lane l).slv.solving = false → (u.lane l).slv.vecs = v.vecs) ∧
        (u.lane l).slv.iters = (s.lane l).slv.k ∧ (u.lane l).slv.latest = some r ∧
        (u.lane l).slv.infRun = (if infeasible s.slvCfg r then (s.lane l).slv.infRun + 1 else 0) ∧
        (if infeasible s.slvCfg r = true ∧ 2 ≤ (s.lane l).slv.infRun then (u.lane l).slv.cond = some .mfault ∧ (u.lane l).slv.solving = false
         else if converged s.slvCfg p v r then (u.lane l).slv.cond = some .optimal ∧ (u.lane l).slv.solving = false
         else if s.slvCfg.itcap ≤ (s.lane l).slv.k then
           (u.lane l).slv.solving = false ∧ (u.lane l).slv.cond = some (if accepted s.slvCfg p v r then .capped else .shifted)
         else (u.lane l).slv.solving = true ∧ (u.lane l).slv.k = (s.lane l).slv.k + 1 ∧ (u.lane l).slv.ph = .fact ∧
           (u.lane l).slv.cond = (s.lane l).slv.cond))

/-- R113, R114: at the deadline mark a running solve ends with the latest iterate if it is accepted (DEADLINE_ITERATE), else SHIFTED; with no
iterate, SHIFTED; before assembly has completed the problem is abandoned with fault LATE. The cause late is set. At any other instant,
and in a cycle already decided, nothing changes. -/
def Obligations.DeadlineChoosesTheOutput : Prop :=
  ∀ t s l p, s.up = true → active s = some l → actPkg s l = some p →
    (atMark (begin' t s) s.cyc.cur.deadline = true → (s.lane l).slv.cond = none → s.cyc.published = false → modeNow s ≠ .layup →
      ((s.lane l).slv.solving = true → ∀ r, (s.lane l).slv.latest = some r → Answers (.deadline t) s (fun u =>
        (u.lane l).slv.cond = some (if accepted s.slvCfg p (s.lane l).slv r then .ditr else .shifted) ∧
        (u.lane l).slv.fRej = ((s.lane l).slv.fRej || !accepted s.slvCfg p (s.lane l).slv r) ∧
        (u.lane l).slv.fLate = true ∧ (u.lane l).slv.solving = false ∧ (u.lane l).slv.t1 = some t ∧ u.regs = s.regs ∧
        LaneAndAlarms l t s u)) ∧
      ((s.lane l).slv.solving = true → (s.lane l).slv.latest = none → Answers (.deadline t) s (fun u =>
        (u.lane l).slv.cond = some .shifted ∧ (u.lane l).slv.fLate = true ∧ (u.lane l).slv.solving = false ∧ u.regs = s.regs ∧
        LaneAndAlarms l t s u)) ∧
      ((s.lane l).slv.solving = false → Answers (.deadline t) s (fun u =>
        (u.lane l).slv.fLate = true ∧ AsmFaulted l t 5 (s.lane l).slv.pc (s.lane l).slv.steps s u))) ∧
    (atMark (begin' t s) s.cyc.cur.deadline = false ∨ (s.lane l).slv.cond ≠ none ∨ s.cyc.published = true →
      exec (.deadline t) s = .next (begin' t s))

/-! Registers of the host (R10, R52, R475, R493-R499). -/

/-- A counter-clear command of one lane: with bit 0 of the value set, the counters listed read 0 in that lane; with the bit clear, or through
the endpoint of a lane that is shut, no register changes; every field apart from the counters, and all else, is as before. -/
def Sys2Proof.Machine.ClearsFields (i : Instr) (t : Time) (ep : Lane) (v : Word) (fs : List Fld) (s : State) : Prop :=
  s.up = true → decommissioned s = false →
    Answers i s (fun u => RegsOnly t s u ∧ OnlyRegs (fs.map (·.key ep)) s u ∧
      (∀ g l, (∀ f ∈ fs, f.apart g = true) → getF u g l = getF s g l) ∧
      (shut s ep = true ∨ v.getLsbD 0 = false → ∀ k, rdK u k = rdK s k) ∧
      (shut s ep = false → v.getLsbD 0 = true → ∀ f ∈ fs, getF u f ep = 0))

/-- A whole register of a lane as one field. -/
def Sys2Proof.Machine.wholeReg (off : Nat) : Fld := ⟨off, 0, 32, true⟩

/-- FUS_CNT_CLR, MET_CNT_CLR, LPE_CNT_CLR, HRI_CNT_CLR, SER_CNT_CLR and TMB_CNT_CLR clear the counters of every instance of their block. -/
def Sys2Proof.Machine.UnitCounterClearsZeroEveryInstance : Prop :=
  (∀ t ep v s, ClearsFields (.fusCntClr t ep v) t ep v ([wholeReg Reg.FUS_CNT] ++ (List.range 16).map Reg.FUS_REFn_rejcnt ++
    (List.range 8).map Reg.FUS_STRn_ERR_late ++ (List.range 8).map Reg.FUS_STRn_ERR_stale) s) ∧
  (∀ t ep v s, ClearsFields (.metCntClr t ep v) t ep v ([wholeReg Reg.MET_CNT] ++ (List.range 24).map Reg.MET_APn_ERR_badfr ++
    (List.range 24).map Reg.MET_APn_ERR_unlk ++ (List.range 24).map Reg.MET_APn_ERR_hflt ++ (List.range 192).map Reg.MET_CHn_STAT_clipcnt) s) ∧
  (∀ t ep v s, ClearsFields (.lpeCntClr t ep v) t ep v ([wholeReg Reg.LPE_CNT] ++ (List.range 256).map Reg.LPE_SLn_STAT_ovr ++
    (List.range 256).map Reg.LPE_SLn_DLY_max) s) ∧
  (∀ t ep v s, ClearsFields (.hriCntClr t ep v) t ep v ([wholeReg Reg.HRI_CNT] ++ (List.range 64).map Reg.HRI_RGn_STAT_lost) s) ∧
  (∀ t ep v s, ClearsFields (.serCntClr t ep v) t ep v ((List.range 8).map Reg.SER_Pn_CNT_cserr ++ (List.range 8).map Reg.SER_Pn_CNT_frerr ++
    (List.range 8).map Reg.SER_Pn_CNT_long) s) ∧
  (∀ t ep v s, ClearsFields (.tmbCntClr t ep v) t ep v ([wholeReg Reg.TMB_CNT] ++ (List.range 4).map Reg.TMB_TPn_STAT_latecnt ++
    (List.range 8).map Reg.TMB_TCn_STAT_ovf) s)

/-- KPR_CNT_CLR clears both Keeper counter registers, MBC_Cn_CTL.cntclr those of its controller, and JX_PUBDLY_MIN.clr sets the least
publication delay to 0xF_FFFF and the greatest to 0. -/
def Sys2Proof.Machine.ModuleCounterAndDelayClears : Prop :=
  (∀ t ep v s, ModWritable s ep → Answers (.kprCntClr t ep v) s (fun u => RegsOnly t s u ∧
    ∀ k, rdK u k = if v.getLsbD 0 = true ∧ (k = Reg.KPR_CNT0 ∨ k = Reg.KPR_CNT1) then 0#32 else rdK s k)) ∧
  (∀ t ep c v s, ModWritable s ep → c < 4 → v.getLsbD 0 = false → Answers (.mbcCounterClear t ep c v) s (fun u => RegsOnly t s u ∧
    ∀ k, rdK u k = if v.getLsbD 1 = true ∧ (k = Reg.MBC_Cn_CNT0 c ∨ k = Reg.MBC_Cn_CNT1 c) then 0#32 else rdK s k)) ∧
  (∀ t ep v s, LaneWritable s ep → Answers (.pubdlyClear t ep v) s (fun u => RegsOnly t s u ∧
    OnlyRegs [laneKey Reg.JX_PUBDLY_MIN ep, laneKey Reg.JX_PUBDLY_MAX ep] s u ∧
    getF u Reg.JX_PUBDLY_MIN_min ep = (if v.getLsbD 31 then 0xFFFFF else getF s Reg.JX_PUBDLY_MIN_min ep) ∧
    getF u Reg.JX_PUBDLY_MAX_max ep = (if v.getLsbD 31 then 0 else getF s Reg.JX_PUBDLY_MAX_max ep)))

/-- Registers that only store: writing one sets nothing else off. -/
def Sys2Proof.Machine.storeOffs : List Nat :=
  [Reg.JX_CYC_PERIOD, Reg.JX_CYC_MARK0, Reg.JX_CYC_MARK1, Reg.SLV_DEADLINE, Reg.KPR_CFG, Reg.PWR_CFG, Reg.TMB_CFG, Reg.RTC_WTIME, Reg.RTC_WDATE,
   Reg.RTC_WYEAR, Reg.RTC_CFG, Reg.RTC_UTCOFS, Reg.REC_CFG, Reg.SLV_ITCAP, Reg.SLV_PIVLIM, Reg.SLV_SHIFTMAX, Reg.SLV_ACCEPT, Reg.SLV_TOLD,
   Reg.SLV_TOLMU, Reg.SLV_REG, Reg.SLV_TPL_CFG, Reg.FUS_CFG, Reg.GNB_CFG, Reg.MET_CFG, Reg.LPE_TRC_TRIG, Reg.LPE_TRC_LVL, Reg.HRI_EP_CFG,
   Reg.HRI_SYS_CFG, Reg.HRI_AUTH_CFG, Reg.HRI_NET_CFG, Reg.NET_RING_PEER, Reg.MBC_JOY_CFG, Reg.SER_NET_CFG]

/-- R10, R496: a 32-bit write that scope, lock and range let through stores every field of its register and changes nothing else; one of
NET_RING_CFG stores its fields, and one that takes the module off the ring makes it take phase 0 (R18, log entry 64), with no rank and with
PROBE to be sent first when it joins again (R310); a write of 1 clears the bits of HRI_SYS_STAT (R10 code W1C). -/
def Obligations.RegisterWriteStoresItsFields : Prop :=
  (∀ t ep off v s r, off ∈ storeOffs → regRow off = some r → s.up = true → decommissioned s = false →
    (r.perLane = true → shut s ep = false) → (r.perLane = false → isActive s ep = true) → (lockable r = true → lockRefuses s = false) →
    rangeOk s r off (v.setWidth 32) = true →
    Answers (.registerWrite t ep off 4 v) s (fun u => RegsOnly t s u ∧ OnlyRegs [regKey r ep off] s u ∧
      (∀ f ∈ r.fields, fieldOf (rdK u (regKey r ep off)) f.lsb f.w = fieldOf (v.setWidth 32) f.lsb f.w) ∧
      (∀ b, (∀ f ∈ r.fields, b < f.lsb ∨ f.lsb + f.w ≤ b) →
        (rdK u (regKey r ep off)).getLsbD b = (rdK s (regKey r ep off)).getLsbD b))) ∧
  (∀ t ep v s r, ModWritable s ep → lockRefuses s = false → regRow Reg.NET_RING_CFG = some r →
    rangeOk s r Reg.NET_RING_CFG (v.setWidth 32) = true →
    Answers (.registerWrite t ep Reg.NET_RING_CFG 4 v) s (fun u =>
      (∀ f ∈ r.fields, fieldOf (rdK u Reg.NET_RING_CFG) f.lsb f.w = fieldOf (v.setWidth 32) f.lsb f.w) ∧
      (∃ w, u = showPart (if getB s Reg.NET_RING_CFG_en = true ∧ v.getLsbD 16 = false then ringDown (wrK Reg.NET_RING_CFG w (begin' t s))
        else wrK Reg.NET_RING_CFG w (begin' t s))) ∧
      (getB s Reg.NET_RING_CFG_en = true → v.getLsbD 16 = false →
        getB u Reg.NET_RING_CFG_en = false ∧ u.net.rank = none ∧ u.net.probed = false ∧
        u.cyc = (takePhase 0 (wrK Reg.NET_RING_CFG (rdK u Reg.NET_RING_CFG) (begin' t s))).cyc))) ∧
  (∀ t ep v s, LaneWritable s ep → Answers (.registerWrite t ep Reg.HRI_SYS_STAT 4 v) s (fun u => RegsOnly t s u ∧
    OnlyRegs [laneKey Reg.HRI_SYS_STAT ep] s u ∧
    rdK u (laneKey Reg.HRI_SYS_STAT ep) = rdK s (laneKey Reg.HRI_SYS_STAT ep) &&& ~~~(v.setWidth 32 &&& 0x7F#32)))

/-- What the state is after a register write that is refused with an event: only the record of it is new. -/
def Sys2Proof.Machine.OnlyRecords (t : Time) (src : Src) (code data : Nat) (s u : State) : Prop :=
  u.rec' = (raise src code data (begin' t s)).rec' ∧ OnlyRegs recKeys s u ∧ RegsAndRecords t s u

/-- R493, R494, R495, R496, R475, R353: a write of another width or alignment, of an unlisted offset, of a shut lane, through an endpoint that
is not the Active one, of locked fields while the lock refuses, or out of range changes no register and is recorded where the rule
says so; a 64-bit write is two 32-bit writes, the lower first. -/
def Obligations.RegisterWriteIsCheckedInOrder : Prop :=
  (∀ t ep off bytes v s, s.up = true → decommissioned s = true → exec (.registerWrite t ep off bytes v) s = .next (begin' t s)) ∧
  (∀ t ep off bytes v s, s.up = true → decommissioned s = false → ¬ (bytes = 4 ∧ off % 4 = 0) → ¬ (bytes = 8 ∧ off % 8 = 0) →
    Answers (.registerWrite t ep off bytes v) s (OnlyRecords t (laneSrc ep 0) Ev.JX_BADACC (off + 2 ^ 32 * bytes) s)) ∧
  (∀ t ep off v s, s.up = true → decommissioned s = false → off % 4 = 0 → off < barFour → regRow off = none →
    exec (.registerWrite t ep off 4 v) s = .next (begin' t s)) ∧
  (∀ t ep off v s r, s.up = true → decommissioned s = false → off % 4 = 0 → off < barFour → regRow off = some r → r.perLane = true → shut s ep = true →
    off ≠ Reg.REC_RDIDX → exec (.registerWrite t ep off 4 v) s = .next (begin' t s)) ∧
  (∀ t ep off v s r, s.up = true → decommissioned s = false → off % 4 = 0 → off < barFour → regRow off = some r → r.perLane = false → isActive s ep = false →
    Answers (.registerWrite t ep off 4 v) s
      (OnlyRecords t (laneSrc ep 0) Ev.JX_STBYWR (off + if (active s).isNone then 2 ^ 32 else 0) s)) ∧
  (∀ t ep off v s r, s.up = true → decommissioned s = false → off % 4 = 0 → off < barFour → regRow off = some r → r.perLane = false → isActive s ep = true →
    lockable r = true → lockRefuses s = true →
    Answers (.registerWrite t ep off 4 v) s (OnlyRecords t (laneSrc ep 0) Ev.JX_LKWRITE off s)) ∧
  (∀ t ep off v s, s.up = true → decommissioned s = false → off % 8 = 0 →
    exec (.registerWrite t ep off 8 v) s =
      .next (write32 ep (off + 4) ((v >>> 32).setWidth 32) (write32 ep off (v.setWidth 32) (begin' t s))))

/-- R26, R27: JX_CYC_APPLY with bit 0 schedules a valid set, in Lay-up or Transit and with no mode order pending, for the first epoch of its own
grid at or after the next one; a second apply replaces the pending set, its epoch counted from the old grid's next epoch after it; any other set is refused with the code of its first failing check, and nothing but that code changes. -/
def Obligations.CycleSetApplySchedulesAValidSet : Prop :=
  ∀ t ep v s, ModWritable s ep → lockRefuses s = false → v.getLsbD 0 = true →
    (setErr (writtenSet s) = 0 → (modeNow s = .layup ∨ modeNow s = .transit) → pendingMode s.auth = none → s.cyc.pend = none →
      ∀ e, e = BitVec.ofNat 64 (gridFrom (writtenSet s).ns (rdK s Reg.JX_CYC_PHASE).toNat s.cyc.nextE.toNat) →
      Answers (.cycleSetApply t ep v) s (fun u =>
        u.cyc = { s.cyc with pend := some (writtenSet s, e), nextE := e, gridE := s.cyc.nextE } ∧ getF u Reg.JX_CYC_STATUS_pending = 1 ∧
        getF u Reg.JX_CYC_STATUS_err = 0 ∧ OnlyRegs [Reg.JX_CYC_STATUS] s u ∧ u = { begin' t s with regs := u.regs, cyc := u.cyc })) ∧
    (setErr (writtenSet s) = 0 → (modeNow s = .layup ∨ modeNow s = .transit) → pendingMode s.auth = none → s.cyc.pend ≠ none →
      ∀ e, e = BitVec.ofNat 64 (gridFrom (writtenSet s).ns (rdK s Reg.JX_CYC_PHASE).toNat
        (gridFrom s.cyc.set.ns s.cyc.gridE.toNat (t.toNat + 1))) →
      Answers (.cycleSetApply t ep v) s (fun u => u.cyc = { s.cyc with pend := some (writtenSet s, e), nextE := e })) ∧
    (setErr (writtenSet s) ≠ 0 → Answers (.cycleSetApply t ep v) s (fun u =>
        getF u Reg.JX_CYC_STATUS_err = setErr (writtenSet s) ∧ getF u Reg.JX_CYC_STATUS_pending = getF s Reg.JX_CYC_STATUS_pending ∧
        OnlyRegs [Reg.JX_CYC_STATUS] s u ∧ RegsOnly t s u)) ∧
    (setErr (writtenSet s) = 0 → (modeNow s = .approach ∨ modeNow s = .berth ∨ modeNow s = .joystick ∨ pendingMode s.auth ≠ none) →
      Answers (.cycleSetApply t ep v) s (fun u =>
        getF u Reg.JX_CYC_STATUS_err = 5 ∧ OnlyRegs [Reg.JX_CYC_STATUS] s u ∧ RegsOnly t s u))

/-- What reset leaves (R17, R23, R48, R498): the register file in its canonical form, no command waiting, Lay-up, the default cycle set, the
first epoch at MTC 0, no lane Active, no alarm. -/
def Obligations.ResetState : Prop :=
  RegsWf State.reset ∧ State.reset.pending = [] ∧ State.reset.now = 0#64 ∧ modeNow State.reset = .layup ∧ active State.reset = none ∧
  State.reset.cyc.nextE = 0#64 ∧ State.reset.cyc.set = ⟨100, 2, 5, 35, 40, 85, 88⟩ ∧ writtenSet State.reset = ⟨100, 2, 5, 35, 40, 85, 88⟩ ∧
  setErr (writtenSet State.reset) = 0 ∧ State.reset.alarms = [] ∧ (∀ l, ready State.reset l = false) ∧ rdK State.reset Reg.JX_ID = 0x4A587400#32

/-! The cycle (R17-R33). -/

/-- The stages an epoch mark closes or opens (R24, R29). -/
def Sys2Proof.Machine.AsmMayStart (s : State) (l : Lane) (p : PkgData) : Prop :=
  modeNow s ≠ .layup ∧ (s.lane l).slv.asmRun = false ∧ (s.lane l).slv.asmDone = false ∧ (s.lane l).slv.cond = none ∧
    s.cyc.published = false ∧ actPkg s l = some p

/-- R71: assembly has started: counters, flag and registers clear, image and V4-V8 at their start values. -/
def Sys2Proof.Machine.AsmStarted (t : Time) (l : Lane) (p : PkgData) (u : State) : Prop :=
  (u.lane l).slv.asmRun = true ∧ (u.lane l).slv.asmT0 = t ∧ (u.lane l).slv.pc = 0 ∧ (u.lane l).slv.steps = 0 ∧ (u.lane l).slv.q = false ∧
  (∀ n, fReg (u.lane l).slv n = 0#64) ∧ (∀ n, aReg (u.lane l).slv n = 0#32) ∧ (∀ k < p.kSlots, img (u.lane l).slv k = 0#64) ∧
  (∀ i < 16384, vec (u.lane l).slv 4 i = 0#64 ∧ vec (u.lane l).slv 6 i = F64.inf true ∧ vec (u.lane l).slv 7 i = F64.inf false ∧
    vec (u.lane l).slv 8 i = 0#64) ∧
  getF u Reg.SLV_ASM_DIAG_code l = 0 ∧ getF u Reg.SLV_ASM_DIAG_count l = 0

/-- R24, R29: at the intake mark intake closes and, where no fusion runs, assembly starts; at the fusion mark a cycle whose fusion is still open
is LATE and counted, and where no fusion runs assembly starts; at any other instant nothing changes. -/
def Sys2Proof.Machine.IntakeAndFusionMarks : Prop :=
  (∀ t s, s.up = true → atMark (begin' t s) s.cyc.cur.intake = true → Answers (.intakeClose t) s (fun u =>
    u.cyc = { s.cyc with intakeOpen := false } ∧ u.auth = s.auth ∧ u.kpr = s.kpr ∧ u.rec' = s.rec' ∧ u.out = [] ∧
    (∀ l, (u.lane l).fus.filter = (s.lane l).fus.filter ∧ (u.lane l).bank0 = (s.lane l).bank0) ∧
    (∀ l p, active s = some l → (s.lane l).fus.run = false → AsmMayStart s l p → AsmStarted t l p u) ∧
    (∀ l, active s = some l → (s.lane l).fus.run = true → (u.lane l).slv = (s.lane l).slv))) ∧
  (∀ t s, s.up = true → atMark (begin' t s) s.cyc.cur.intake = false → exec (.intakeClose t) s = .next (begin' t s)) ∧
  (∀ t s l, s.up = true → active s = some l → atMark (begin' t s) s.cyc.cur.fusion = true →
    ((s.lane l).fus.run = true → s.cyc.fusionOpen = true → Answers (.fusionEnd t) s (fun u =>
      u.cyc = { s.cyc with fusionOpen := false } ∧ getF u Reg.FUS_CNT_late l = min (getF s Reg.FUS_CNT_late l + 1) (2 ^ Reg.FUS_CNT_late.w - 1) ∧
      getB u Reg.FUS_STAT_late l = true ∧ u.auth = s.auth ∧ u.kpr = s.kpr)) ∧
    ((s.lane l).fus.run = false → ∀ p, AsmMayStart s l p → Answers (.fusionEnd t) s (fun u => AsmStarted t l p u ∧
      u = ({ begin' t s with regs := u.regs }).setLane l { s.lane l with
        slv := (u.lane l).slv, spread := (u.lane l).spread, pllOff := (s.lane l).pllOff.filter (· != Engine.slv) } ∧
      OnlyRegs [laneKey Reg.SLV_ASM_DIAG l] s u))) ∧
  (∀ t s, s.up = true → atMark (begin' t s) s.cyc.cur.fusion = false → exec (.fusionEnd t) s = .next (begin' t s))

/-- R175: a fusion update delivered before its mark ends the fusion stage of the cycle: the filter is what the cycle's frames, references and
motion data make of the one before, the two votes decide suspicion and the heading grade, the fast PLL of the engine stops and that of the
solver runs (R28), and assembly starts. -/
def Sys2Proof.Machine.FusionCompleteEndsTheStage : Prop :=
  (∀ t s l, s.up = true → active s = some l → (s.lane l).fus.run = true → s.cyc.fusionOpen = true →
    Answers (.fusionComplete t) s (fun u =>
      u.cyc = { s.cyc with fusionOpen := false } ∧ (u.lane l).fus.filter = (fuse (begin' t s) l).filter ∧
      (u.lane l).fus.grd.suspect = (fuse (begin' t s) l).pos.contra ∧
      (u.lane l).fus.grd.nohdg = (fuse (begin' t s) l).hdg.chosen.isEmpty ∧ (u.lane l).fus.run = true ∧
      Engine.fen ∈ (u.lane l).pllOff ∧ (∀ p, AsmMayStart s l p → Engine.slv ∉ (u.lane l).pllOff) ∧ getB u Reg.FUS_STAT_late l = false ∧
      u.auth.orders = s.auth.orders ∧ u.kpr = s.kpr ∧ (u.lane l.other).fus = (s.lane l.other).fus ∧ (u.lane l.other).slv = (s.lane l.other).slv ∧
      (∀ p, AsmMayStart s l p → AsmStarted t l p u))) ∧
  (∀ t s l, s.up = true → active s = some l → (s.lane l).fus.run = false ∨ s.cyc.fusionOpen = false →
    exec (.fusionComplete t) s = .next (begin' t s))

/-- The allocation a publication leaves in lane `l` (R30, R115-R117, R143): the record is the lane's last, its status word is in SLV_OUT_STAT
with the code in bits 2:0 and the count in bits 31:24, the pub bit toggles, the solver's PLL stops, the publication delays are updated,
and the cycle has its allocation. -/
def Sys2Proof.Machine.Published (t : Time) (l : Lane) (code cnt : Nat) (tkov : Bool) (s u : State) : Prop :=
  ∃ r, (u.lane l).slv.disp.last = some r ∧ r.e = s.cyc.e ∧ r.stamp = t ∧ r.cyc = rdK s Reg.JX_CYC_COUNT ∧ r.status.toNat % 8 = code ∧
    r.status.toNat / 2 ^ 24 = min cnt 255 ∧ r.status.getLsbD 21 = tkov ∧ rdK u (laneKey Reg.SLV_OUT_STAT l) = r.status ∧
    (u.lane l).slv.shcnt = min cnt 255 ∧ (u.lane l).slv.tkov = false ∧ (u.lane l).health.pub = !(s.lane l).health.pub ∧
    (u.lane l).pllOff = (s.lane l).pllOff.filter (· != .slv) ++ [.slv] ∧ u.cyc = { s.cyc with published := true } ∧
    getF u Reg.JX_PUBDLY_LAST_last l = usAfterE (begin' t s) t % 2 ^ 20 ∧ u.auth = s.auth

/-- R30, R116, R117, R120: a cycle whose condition is known is published once: with the condition's code, or code 4 once the count of shifted
publications in a row passes SLV_SHIFTMAX; the count is 0 for an accepted solution. With no condition, a published cycle or in Lay-up
nothing happens. -/
def Sys2Proof.Machine.AllocationIsPublishedOnce : Prop :=
  (∀ t s l c cnt, s.up = true → active s = some l → (s.lane l).slv.cond = some c → s.cyc.published = false → modeNow s ≠ .layup →
    cnt = (if fallback c then min ((s.lane l).slv.shcnt + 1) 255 else 0) →
    Answers (.allocationPublished t) s (Published t l (if fallback c && decide (s.slvCfg.shiftmax < cnt) then 4 else condCode c) cnt
      (s.lane l).slv.tkov s)) ∧
  (∀ t s l, s.up = true → active s = some l → (s.lane l).slv.cond = none ∨ s.cyc.published = true ∨ modeNow s = .layup →
    exec (.allocationPublished t) s = .next (begin' t s))

/-- R297, R298: after a takeover the new Active lane publishes the mirrored solution for the cycle of the takeover, with code 3, or 4 once the
count passes SLV_SHIFTMAX, and the takeover bit; a publication owed for an earlier cycle is dropped. -/
def Sys2Proof.Machine.TakeoverPublishesTheMirroredSolution : Prop :=
  ∀ t s l e, s.up = true → active s = some l → s.kpr.owed = some e →
    (e = s.cyc.e → ready s l = true → modeNow s ≠ .layup → ∀ cnt,
      cnt = min ((s.lane l).slv.shcnt + (if (s.lane l).slv.sol.isSome ∨ (s.lane l).slv.shcnt ≠ 0 then
        (rdK s Reg.JX_CYC_COUNT - (s.lane l).slv.solCyc).toNat else 1)) 255 →
      Answers (.takeoverPublication t) s (fun u => u.kpr = { s.kpr with owed := none } ∧
        Published t l (if s.slvCfg.shiftmax < cnt then 4 else 3) cnt true s u)) ∧
    (e ≠ s.cyc.e → exec (.takeoverPublication t) s = .next { begin' t s with kpr := { s.kpr with owed := none } })

/-- R65, R66: verification of a complete bank that waits for no re-verification leaves it VERIFIED with its content, in the Active lane or while
none is Active, or FAILED with the code of its first failing check; it reads every block of the bank once (R453). -/
def Obligations.PackageVerificationDecidesTheBank : Prop :=
  (∀ t l k s, LaneRuns s l → k ≤ 1 → (bankOf (s.lane l) false k).reverify = false → (bankOf (s.lane l) false k).complete = true →
    getF s (bankFld false k) l = 1 → (active s = some l ∨ active s = none) →
    ∀ r, r = verifyModel (begin' t s) l (bankBytes (bankOf (s.lane l) false k)) →
    Answers (.packageVerified t l .model k) s (fun u =>
      getF u (bankFld false k) l = (if r.1 = 0 then 2 else 5) ∧
      (r.1 = 0 → (bankOf (u.lane l) false k).model = r.2 ∧ getF u Reg.SLV_PKG_BANK_err l = getF s Reg.SLV_PKG_BANK_err l) ∧
      (r.1 ≠ 0 → (bankOf (u.lane l) false k).model = (bankOf (s.lane l) false k).model ∧ getF u Reg.SLV_PKG_BANK_err l = r.1 % 256 ∧
        getF u Reg.SLV_PKG_BANK_errbank l = k) ∧
      bankOf (u.lane l) false (1 - k) = bankOf (s.lane l) false (1 - k) ∧ (u.lane l).slv = (s.lane l).slv ∧
      OnlyRegs [laneKey Reg.SLV_PKG_BANK l, laneKey (Reg.SLV_PKGn_IDL k) l, laneKey (Reg.SLV_PKGn_IDH k) l, laneKey (Reg.SLV_PKGn_REV k) l,
        laneKey (Reg.SLV_PKGn_DIG k) l] s u ∧
      u = ({ begin' t s with regs := u.regs, upd := (readBank l false k (begin' t s)).upd }).setLane l (u.lane l))) ∧
  (∀ t l k s, LaneRuns s l → k ≤ 1 → (bankOf (s.lane l) true k).reverify = false → (bankOf (s.lane l) true k).complete = true →
    getF s (bankFld true k) l = 1 → (active s = some l ∨ active s = none) →
    ∀ r, r = verifyNet (begin' t s) l (bankBytes (bankOf (s.lane l) true k)) →
    Answers (.packageVerified t l .network k) s (fun u =>
      getF u (bankFld true k) l = (if r.1 = 0 then 2 else 5) ∧ (r.1 = 0 → (bankOf (u.lane l) true k).net = r.2) ∧
      (r.1 ≠ 0 → getF u Reg.FUS_NPKG_BANK_err l = r.1 % 256) ∧ OnlyRegs [laneKey Reg.FUS_NPKG_BANK l] s u)) ∧
  (∀ t l kind k s, LaneRuns s l → 1 < k → exec (.packageVerified t l kind k) s = .next (begin' t s))

/-! Mirroring (R291-R295). -/

/-- R24, R291: at its mark outside Lay-up the mirror window opens: the items of the cycle, closed by the SEAL that lists type, length and
CRC-32C of each, wait on the
mirror link when the Active lane sends to it; 8 ms later the window closes, what was not transferred is dropped, and a set that the
Standby did not adopt is a miss. -/
def Obligations.MirrorWindowSendsTheCycleSet : Prop :=
  (∀ t s l, s.up = true → active s = some l → ready s l = true → atMark (begin' t s) s.cyc.cur.mirror = true → modeNow s ≠ .layup →
    Answers (.mirrorWindowOpen t) s (fun u =>
      u.cyc = { s.cyc with mirrorOpen := true } ∧ u.kpr = { s.kpr with recOpen := rdK s Reg.REC_SEQ } ∧
      u.mirTx = (if linkSends s then s.mirTx ++ cycleItems s l ++ [.seal ((cycleItems s l).map sealEnt)] else s.mirTx) ∧
      (u.lane l).mir = { (s.lane l).mir with sent := false } ∧ (u.lane l).fus.keyCnt = (s.lane l).fus.keyCnt + 1 ∧
      u.lane l.other = s.lane l.other ∧ u.regs = s.regs ∧ u.rec' = s.rec')) ∧
  (∀ t s l, s.up = true → active s = some l → s.cyc.mirrorOpen = true → atMark (begin' t s) (s.cyc.cur.mirror + 8) = true →
    Answers (.mirrorWindowClose t) s (fun u =>
      u.cyc = { s.cyc with mirrorOpen := false } ∧ u.mirTx = s.mirTx.filter (fun i => i.code == 4 || i.code == 5) ∧
      (u.lane l).mir.sent = (linkSends s && !s.mirTx.any (fun i => i.code != 4 && i.code != 5)) ∧ u.auth = s.auth ∧
      (standby s = some l.other → (s.lane l.other).mir.adoptedCyc ≠ some (rdK s Reg.JX_CYC_COUNT) →
        (u.lane l.other).mir.missRun = (s.lane l.other).mir.missRun + 1 ∧ (u.lane l.other).mir.held = [] ∧ getF u Reg.KPR_STAT_mirok = 0 ∧
        getF u Reg.KPR_CNT1_mirmiss = min (getF s Reg.KPR_CNT1_mirmiss + 1) (2 ^ Reg.KPR_CNT1_mirmiss.w - 1)) ∧
      (standby s = none → (u.lane l.other).mir = (s.lane l.other).mir ∧ u.rec' = s.rec'))) ∧
  (∀ t s, s.up = true → atMark (begin' t s) (s.cyc.cur.mirror + 8) = false → exec (.mirrorWindowClose t) s = .next (begin' t s))

/-- R292, R294: a frame with a bad CRC only shows that the link is alive. The last frame of an item completes it: where the complement section is
not the complement of the content, the item is rejected whole with event KPR_MIRPAIR; else an item of the set is held aside for the SEAL of
its cycle, a SEAL whose items are all held with their length and CRC-32C makes the lane adopt the set and acknowledge it, and an
authority item is adopted at once. -/
def Obligations.MirrorFramesAreHeldUntilTheSeal : Prop :=
  ∀ t f s m, s.up = true → active s = some m → linkSends s = true →
    (frCrcOk f = false → exec (.mirrorFrame t f) s = .next { begin' t s with kpr := { s.kpr with linkAt := t } }) ∧
    (∀ x, frCrcOk f = true → frLast f = true → joined (s.lane m.other).mir.cur f = some x →
      (complOf x.main x.cpl = false → Answers (.mirrorFrame t f) s (fun u =>
        u.rec' = (raise (laneSrc m.other 1) Ev.KPR_MIRPAIR (frTyp f + 2 ^ 32 * (frCyc f).toNat) (begin' t s)).rec' ∧
        u.lane m = s.lane m ∧ (u.lane m.other).mir = { (s.lane m.other).mir with cur := (u.lane m.other).mir.cur } ∧
        u.authMir = s.authMir ∧ OnlyRegs recKeys s u)) ∧
      (complOf x.main x.cpl = true → ∀ it rest, takeFlight (frTyp f) (secsAll x) s.mirTx = some (it, rest) →
        Answers (.mirrorFrame t f) s (fun u => u.mirTx = rest ∧ u.kpr.linkAt = t ∧ u.lane m = s.lane m ∧
          ((∃ d, it = .dispatch d) ∨ (∃ w x, it = .solution w x) ∨ (∃ x, it = .fusion x) ∨ (∃ x, it = .recorder x) →
            (u.lane m.other).mir.heldCyc = frCyc f ∧ u.regs = s.regs ∧ u.out = [] ∧
            (u.lane m.other).mir.held = (if (s.lane m.other).mir.heldCyc = frCyc f then (s.lane m.other).mir.held else []) ++ [it]) ∧
          (∀ es, it = .seal es → s.cyc.mirrorOpen = true → (s.lane m.other).mir.heldCyc = frCyc f →
            (∀ e ∈ es, ∃ i ∈ (s.lane m.other).mir.held, sealEnt i = e) →
            (u.lane m.other).mir.held = [] ∧ (u.lane m.other).mir.adoptedCyc = some (frCyc f) ∧ (u.lane m.other).mir.missRun = 0 ∧
            (u.lane m.other).mir.oneSet = true ∧ getF u Reg.KPR_STAT_mirok = 1 ∧ .ack s.authMir.ver (frCyc f) ∈ u.out) ∧
          (∀ a, it = .authority a → u.authMir = a ∧ (∃ c, .ack a.ver c ∈ u.out)))))

/-- R294, R295: an acknowledgement from the Standby records the version it has adopted and lets every order that waited for that version
complete; for every MTC multiple of 10 ms the Active lane sends once the state of every loop slot that is not OFF, as frames with a running
sequence (R276, R292; that the command comes within 2 ms of the instant is log entry 71). -/
def Obligations.MirrorAckAndLoopMirror : Prop :=
  (∀ t ver cyc s m o, s.up = true → active s = some m → standby s = some o → linkSends s = true → verReached ver s.ackVer = true →
    Answers (.mirrorAck t ver cyc true) s (fun u => u.ackVer = ver ∧ u.kpr = { s.kpr with linkAt := t } ∧ u.auth = s.auth ∧
      (∀ w ∈ s.waits, acked { s with ackVer := ver } w = true → w ∉ u.waits))) ∧
  (∀ t ver cyc s m, s.up = true → active s = some m → linkSends s = true →
    exec (.mirrorAck t ver cyc false) s = .next { begin' t s with kpr := { s.kpr with linkAt := t } }) ∧
  (∀ t s l, s.up = true → active s = some l → ready s l = true → since t (mirAt t) ≤ 2 * ms → (s.lane l).lpe.sentAt ≠ some (mirAt t) →
    linkSends s = true → ∀ it fs, it = .loops ((allSlots.filter (fun n => modeSl s l n != 0)).map (loopMirAt s l (mirAt t))) →
    fs = itemFrames (rdK s Reg.JX_CYC_COUNT) s.linkSeq it →
    Answers (.loopMirror t) s (fun u => u.mirTx = s.mirTx ++ [it] ∧ .mirror it fs ∈ u.out ∧
      u.linkSeq = s.linkSeq + BitVec.ofNat 16 fs.length ∧ (u.lane l).lpe.sentAt = some (mirAt t) ∧
      (getF s Reg.NET_RING_CFG_role = 1 → getB s Reg.NET_RING_CFG_en = true → outReleased s = false →
        (winOpen (begin' t s) = true → u.net.modTx = s.net.modTx ++ [it]) ∧
        (winOpen (begin' t s) = false → ∃ gs, .ringItem it gs ∈ u.out)) ∧
      (getF s Reg.NET_RING_CFG_role ≠ 1 → u.out = [.mirror it fs] ∧ u.net = s.net) ∧
      u = ({ begin' t s with mirTx := u.mirTx, linkSeq := u.linkSeq, out := u.out, net := u.net }).setLane l
        { s.lane l with lpe := { (s.lane l).lpe with sentAt := some (mirAt t) } })) ∧
  (∀ t s l, s.up = true → active s = some l → 2 * ms < since t (mirAt t) ∨ (s.lane l).lpe.sentAt = some (mirAt t) →
    exec (.loopMirror t) s = .next (begin' t s))

/-! The Keeper (R281-R301). -/

/-- R282, R283, R286: a watch word carries the next sequence number and the health vector with their complement; a Keeper word is heard and its
role taken; ten milliseconds without one raise the alarm and keep the role; a fatal fault or the loss of the reference sets its bit of
the vector. -/
def Sys2Proof.Machine.WatchAndKeeperWords : Prop :=
  (∀ t l s, LaneRuns s l → t.toNat % ms = 0 → ∀ lo, lo = ((s.lane l).health.seq + 1#16).toNat + 2 ^ 16 * healthVec s l →
    Answers (.watchWordSend t l) s (fun u =>
      u.out = [.watch l (BitVec.ofNat 64 (lo + 2 ^ 32 * (2 ^ 32 - 1 - lo)))] ∧ u.regs = s.regs ∧
      (u.lane l).health = { (s.lane l).health with seq := (s.lane l).health.seq + 1#16, vec := BitVec.ofNat 16 (healthVec s l),
                                                    adm := bit (healthVec s l) 3 } ∧
      u = ({ begin' t s with out := u.out }).setLane l { s.lane l with health := (u.lane l).health })) ∧
  (∀ t l s, LaneRuns s l → t.toNat % ms ≠ 0 → exec (.watchWordSend t l) s = .next (begin' t s)) ∧
  (∀ t l role s, LaneRuns s l → Answers (.keeperWord t l role) s (fun u =>
    u.lane l = { s.lane l with health := { (s.lane l).health with kword := role, kwordAt := t } } ∧ u.lane l.other = s.lane l.other ∧
    (Ev.KPR_LOST, l.idx) ∉ u.alarms ∧ (∀ a ∈ s.alarms, a ≠ (Ev.KPR_LOST, l.idx) → a ∈ u.alarms) ∧ OnlyRegs recKeys s u ∧ u.out = [])) ∧
  (∀ t l s, LaneRuns s l → 10 * ms ≤ since t (s.lane l).health.kwordAt → Answers (.keeperWordTimeout t l) s (fun u =>
    (Ev.KPR_LOST, l.idx) ∈ u.alarms ∧ (shut s l = false → getB u Reg.HRI_SYS_STAT_kprlost l = true) ∧ u.lane l = s.lane l ∧
    OnlyRegs alarmKeys s u ∧ RegsAndAlarms t s u)) ∧
  (∀ t l s, LaneRuns s l → since t (s.lane l).health.kwordAt < 10 * ms → exec (.keeperWordTimeout t l) s = .next (begin' t s)) ∧
  (∀ t l b s, LaneRuns s l → 8 ≤ b → b ≤ 13 → Answers (.laneFatalFault t l b) s (fun u =>
    (∀ j < 16, (u.lane l).health.fatal.getLsbD j = (decide (j = b) || (s.lane l).health.fatal.getLsbD j)) ∧
    u = (begin' t s).setLane l { s.lane l with health := { (s.lane l).health with fatal := (u.lane l).health.fatal } })) ∧
  (∀ t l s, LaneRuns s l → Answers (.referenceOscillatorLoss t l) s (fun u =>
    (∀ j < 16, (u.lane l).health.fatal.getLsbD j = (decide (j = 12) || (s.lane l).health.fatal.getLsbD j)) ∧
    u = (begin' t s).setLane l { s.lane l with health := { (s.lane l).health with fatal := (u.lane l).health.fatal } }))

/-- R286: a Keeper fault leaves the role lines as they are; at its restart the Keeper resumes its checks from them, with no word seen and no
slot missed. -/
def Sys2Proof.Machine.KeeperFaultKeepsTheRoles : Prop :=
  (∀ t s, s.up = true → exec (.keeperFault t) s = .next { begin' t s with kpr := { s.kpr with up := false } }) ∧
  (∀ t s, s.up = true → s.kpr.up = false → Answers (.keeperRestart t) s (fun u =>
    u.kpr.up = true ∧ u.kpr.role = s.kpr.role ∧ u.kpr.linkAt = t ∧ u.kpr.mtcRun = 0 ∧
    (∀ l, (kprLane u l).missRun = 0 ∧ (kprLane u l).known = false ∧ (kprLane u l).valid = false ∧ (kprLane u l).okRun = 0 ∧
      (kprLane u l).failed = (kprLane s l).failed ∧ (kprLane u l).resetDue = (kprLane s l).resetDue ∧
      (kprLane u l).pubSeen = (kprLane s l).pubSeen) ∧
    u = { begin' t s with kpr := u.kpr, upd := { s.upd with kGood := t } })) ∧
  (∀ t s, s.up = true → s.kpr.up = true → exec (.keeperRestart t) s = .next (begin' t s))

/-- The Keeper's declaration of a Standby lane (R289, R296): the lane is blocked, no longer admitted, due for lane reset 10 ms later unless
KPR_CFG.hold is set, and the cause is shown; the role stays. -/
def Sys2Proof.Machine.StandbyFailed (cause : Nat) (l : Lane) (t : Time) (s u : State) : Prop :=
  (kprLane u l).failed = true ∧ (kprLane u l).adm = false ∧ u.kpr.role = s.kpr.role ∧
  (kprLane u l).resetDue = (if getB s Reg.KPR_CFG_hold then none else some (plus t (10 * ms))) ∧
  (s.waits = [] → getB u (blkFld l) = true ∧ getB u (admFld l) = false ∧ getF u Reg.KPR_STAT_cause = cause % 256)

/-- R284: a watch word whose complement fails declares its lane with cause 3, a valid one with a fatal bit with cause 2; a valid word without
is recorded with its sequence and health, and an invalid sequence is not. Shown for a lane that is not Active. -/
def Obligations.WatchWordsAreChecked : Prop :=
  ∀ t l w s, s.up = true → s.kpr.up = true → ready s l = true → (kprLane s l).failed = false →
    (w.toNat / 2 ^ 32 ≠ 2 ^ 32 - 1 - w.toNat % 2 ^ 32 → isActive s l = false →
      Answers (.watchWord t l w) s (fun u => StandbyFailed 3 l t s u ∧ (u.lane l).slv = (s.lane l).slv)) ∧
    (w.toNat / 2 ^ 32 = 2 ^ 32 - 1 - w.toNat % 2 ^ 32 → ((kprLane s l).known = false ∨ w.toNat % 2 ^ 16 = ((kprLane s l).seq.toNat + 1) % 2 ^ 16) →
      w.toNat / 2 ^ 22 % 4 = 0 → w.toNat / 2 ^ 30 % 4 = 0 → w.toNat / 2 ^ 24 % 64 = 0 → s.kpr.role ≠ none →
      Answers (.watchWord t l w) s (fun u =>
        (kprLane u l).valid = true ∧ (kprLane u l).known = true ∧ (kprLane u l).seq = w.setWidth 16 ∧ (kprLane u l).pub = w.getLsbD 18 ∧
        (kprLane u l).adm = w.getLsbD 19 ∧ (kprLane u l).missRun = (kprLane s l).missRun ∧
        (kprLane u l).pubSeen = ((kprLane s l).pubSeen || w.getLsbD 18 != (kprLane s l).pub) ∧
        kprLane u l.other = kprLane s l.other ∧ OnlyRegs [Reg.KPR_HLTHA, Reg.KPR_HLTHB] s u ∧
        u = { begin' t s with regs := u.regs, kpr := u.kpr })) ∧
    (w.toNat / 2 ^ 32 = 2 ^ 32 - 1 - w.toNat % 2 ^ 32 → ((kprLane s l).known = false ∨ w.toNat % 2 ^ 16 = ((kprLane s l).seq.toNat + 1) % 2 ^ 16) →
      w.toNat / 2 ^ 22 % 4 = 0 → w.toNat / 2 ^ 30 % 4 = 0 → w.toNat / 2 ^ 24 % 32 ≠ 0 → w.getLsbD 29 = false → isActive s l = false →
      Answers (.watchWord t l w) s (StandbyFailed 2 l t s)) ∧
    (w.toNat / 2 ^ 32 = 2 ^ 32 - 1 - w.toNat % 2 ^ 32 → (kprLane s l).known = true →
      w.toNat % 2 ^ 16 ≠ ((kprLane s l).seq.toNat + 1) % 2 ^ 16 →
      Answers (.watchWord t l w) s (fun u => (kprLane u l).valid = (kprLane s l).valid ∧ (kprLane u l).seq = w.setWidth 16 ∧ u.regs = s.regs ∧
        u = { begin' t s with kpr := u.kpr }))

/-- R284, R286: at the end of a slot the difference of the lanes' MTC is shown, a watched lane without a valid word has missed the slot and one
with it has not, a lane that is not Active is declared at its third miss in a row, and every lane that is ready hears the role lines. -/
def Sys2Proof.Machine.KeeperSlotCountsMissedWords : Prop :=
  ∀ t d s, s.up = true → s.kpr.up = true → (∀ l, watched s l = true → (kprLane s l).valid = true ∨ (kprLane s l).missRun + 1 < 3) →
    d = 0#64 → Answers (.keeperSlot t d) s (fun u =>
      getF u Reg.KPR_MTCD_d = 0 ∧ u.kpr.role = s.kpr.role ∧ (∀ l, (kprLane u l).failed = (kprLane s l).failed) ∧
      (∀ l, watched s l = true → (kprLane s l).valid = true → (kprLane u l).missRun = 0 ∧ (kprLane u l).valid = false) ∧
      (∀ l, watched s l = true → (kprLane s l).valid = false → (kprLane u l).missRun = (kprLane s l).missRun + 1) ∧
      (∀ l, watched s l = false → (kprLane u l).missRun = (kprLane s l).missRun) ∧
      (∀ l, ready s l = true → .keeper l s.kpr.role ∈ u.out) ∧ (∀ l, ready s l = false → ∀ r, .keeper l r ∉ u.out) ∧
      OnlyRegs [Reg.KPR_MTCD, Reg.KPR_CNT0] s u ∧ (∀ l, u.lane l = s.lane l))

/-- R284: a Standby that misses its third word in a row is declared with cause 1. -/
def Sys2Proof.Machine.ThirdMissFailsTheStandby : Prop :=
  ∀ t d s l, s.up = true → s.kpr.up = true → watched s l = true → (kprLane s l).valid = false → 2 ≤ (kprLane s l).missRun →
    isActive s l = false → (watched s l.other = true → (kprLane s l.other).valid = true) →
    Answers (.keeperSlot t d) s (StandbyFailed 1 l t s)

/-- R284: the bound of the cycle without a toggle of the Active lane's pub bit, and 25 ms without a frame of the mirror link, fail a lane: the
Active one, which its heir replaces at once (R288, R296), and the Standby. Before the bounds nothing changes. -/
def Obligations.PublicationAndLinkBounds : Prop :=
  (∀ t s l, s.up = true → s.kpr.up = true → active s = some l → modeNow s ≠ .layup → s.cyc.begun = true → (kprLane s l).pubSeen = false →
    (kprLane s l).failed = false → s.kpr.grantE ≠ some s.cyc.e → s.kpr.tkE ≠ some s.cyc.e →
    ((s.cyc.cur.deadline + 2) * ms ≤ since t s.cyc.e → standby s = some l.other → mayLead s l.other = true → (kprLane s l.other).failed = false →
      Answers (.pubCheck t) s (fun u => u.kpr.role = some l.other ∧ (kprLane u l).failed = true ∧ (u.lane l.other).slv.tkov = true ∧
        u.kpr.tkE = some s.cyc.e ∧ u.kpr.owed = some s.cyc.e ∧ u.cyc = { s.cyc with published := true, fusionOpen := false, mirrorOpen := false } ∧
        u.authMir = {} ∧ u.auth.holder = s.authMir.holder)) ∧
    (since t s.cyc.e < (s.cyc.cur.deadline + 2) * ms → exec (.pubCheck t) s = .next (begin' t s))) ∧
  (∀ t s l, s.up = true → s.kpr.up = true → standby s = some l → (kprLane s l).failed = false → s.kpr.la.missRun = 0 → s.kpr.lb.missRun = 0 →
    (25 * ms ≤ since t s.kpr.linkAt → Answers (.mlinkTimeout t) s (StandbyFailed 8 l t s)) ∧
    (since t s.kpr.linkAt < 25 * ms → exec (.mlinkTimeout t) s = .next (begin' t s)))

/-- R287, R296, R301: a failed lane is placed in lane reset once its time has come, a lane whose word comes after the 5 s of the preferred one is
made Active, and a lane that is not admitted within 60 s of leaving reset is blocked. -/
def Obligations.KeeperTimeouts : Prop :=
  (∀ t s l d, s.up = true → s.kpr.up = true → (kprLane s l).resetDue = some d → atOrAfter t d = true → isActive s l = false →
    (s.lane l).ph = .ready → Answers (.failedLaneReset t l) s (fun u =>
      (u.lane l).ph = .wiping ∧ (kprLane u l).failed = false ∧ (kprLane u l).returning = true ∧ (kprLane u l).resetDue = none ∧
      getB u (admFld l) = false ∧ getB u (wipeFld l) = true ∧ u.kpr.role = s.kpr.role ∧ u.lane l.other = s.lane l.other ∧
      (u.lane l).slv = {} ∧ u.cyc = s.cyc ∧ u.auth = s.auth)) ∧
  (∀ t s l d, s.up = true → (kprLane s l).resetDue = some d → atOrAfter t d = false → exec (.failedLaneReset t l) s = .next (begin' t s)) ∧
  (∀ t s l, s.up = true → s.kpr.up = true → s.kpr.role = none → 5 * sec ≤ since t s.kpr.tStart → decommissioned s = false →
    ready s l = true → mayLead s l = true → watched s l = true → (kprLane s l).missRun = 0 → (l = .b → watched s .a = false) →
    Answers (.preferredLaneTimeout t) s (fun u => u.kpr.role = some l ∧ u.kpr.late = true ∧ (kprLane u l).failed = false ∧
      getF u Reg.KPR_STAT_act = l.idx ∧ getB u Reg.KPR_STAT_nolane = false ∧ getB u (admFld l) = true ∧ getB u (blkFld l) = false)) ∧
  (∀ t s, s.up = true → since t s.kpr.tStart < 5 * sec → exec (.preferredLaneTimeout t) s = .next (begin' t s)) ∧
  (∀ t s l r, s.up = true → s.kpr.up = true → active s = some l.other → (kprLane s l).readyAt = some r → 60 * sec ≤ since t r →
    admitted s l = false → (kprLane s l).adm = false → (kprLane s l).admFail = false → Answers (.admissionTimeout t l) s (fun u =>
      getB u (blkFld l) = true ∧ (kprLane u l).admFail = true ∧
      u.rec' = (raise .keeper Ev.KPR_ADMFAIL (l.idx + 2 ^ 8 * (admCond s l).getD 4) (begin' t s)).rec' ∧
      OnlyRegs (Reg.KPR_STAT :: recKeys) s u ∧ u = { begin' t s with regs := u.regs, rec' := u.rec', kpr := u.kpr })) ∧
  (∀ t s l r, s.up = true → (kprLane s l).readyAt = some r → since t r < 60 * sec → exec (.admissionTimeout t l) s = .next (begin' t s))

/-- R285: at its multiples of 10 ms and of 1 s a lane reports its loop outputs and its metrology totals; the Keeper keeps the report and compares
nothing until it has both; with both it compares the outputs slot by slot, and three disagreements in a row fail a lane. Both commands
complete in every state. -/
def Obligations.LaneReportsReachTheKeeper : Prop :=
  (∀ t l s, LaneRuns s l → s.kpr.up = true → t.toNat % (10 * ms) = 0 → (kprLane s l.other).loopAt ≠ some t →
    Answers (.loopOutputReport t l) s (fun u => (kprLane u l).loopAt = some t ∧
      (∀ n i x, (n, i, x) ∈ (kprLane u l).loopRep → n ∈ allSlots ∧ modeSl s l n ≠ 0) ∧ kprLane u l.other = kprLane s l.other ∧
      u = { begin' t s with kpr := u.kpr })) ∧
  (∀ t l s, LaneRuns s l → t.toNat % (10 * ms) ≠ 0 ∨ s.kpr.up = false → exec (.loopOutputReport t l) s = .next (begin' t s)) ∧
  (∀ t l s m rep s1 s2, LaneRuns s l → s.kpr.up = true → t.toNat % (10 * ms) = 0 → active s = some m → (standby s).isSome = true →
    (kprLane s l.other).loopAt = some t → rep = reportOf (begin' t s) l →
    s1 = onKpr l (fun k => { k with loopAt := some t, loopRep := rep }) (begin' t s) → s2 = forEach (cmpSlot m) (kprLane s1 m).loopRep s1 →
    (∀ r ∈ s2.kpr.cmpRuns, r.2 < 3) → exec (.loopOutputReport t l) s = .next s2) ∧
  (∀ t l s, Answers (.loopOutputReport t l) s (fun u => u.now = t ∧ u.pending = s.pending)) ∧
  (∀ t l s, Answers (.metrologyTotalReport t l) s (fun u => u.now = t ∧ u.pending = s.pending)) ∧
  (∀ t l s r, LaneRuns s l → s.kpr.up = true → (s.lane l).met.last = some r → r.toNat % sec = 0 → (kprLane s l.other).metAt ≠ some r →
    Answers (.metrologyTotalReport t l) s (fun u => (kprLane u l).metAt = some r ∧
      (kprLane u l).metRep =
        ((metPoints s).filter (fun q => getB s (Reg.MET_PTn_STAT_valid q.1) l)).flatMap
          (fun q => [0, 1].map (fun c => (q.1, c, BitVec.ofNat 64 (metReg (metPt s l q.1) c)))) ∧
      kprLane u l.other = kprLane s l.other ∧ u = { begin' t s with kpr := u.kpr })) ∧
  (∀ t l s, LaneRuns s l → (s.lane l).met.last = none ∨ s.kpr.up = false → exec (.metrologyTotalReport t l) s = .next (begin' t s))

/-! The vessel network and the Ramjor ring (R304-R317). -/

/-- R305: the first copy of a PRP frame is remembered with its LAN, the copy of the other LAN is discarded, a trailer with the wrong LAN
identifier is counted, and a node without a trailer has no duplicates; a supervision frame goes out on its timer; a node not heard for
60 s is forgotten and what it still owed is counted. -/
def Obligations.PrpDuplicatesAreDiscarded : Prop :=
  (∀ t lanB src lan seq s, s.up = true → s.net.nodes.find? (fun p => p.1 == src) = none → s.net.nodes.length < 256 →
    Answers (.prpFrame t lanB src (some (lan, seq))) s (fun u =>
      u.net = { s.net with nodes := s.net.nodes.filter (fun p => p.1 != src) ++ [(src, ⟨t, [(seq, lanB, t)]⟩)] } ∧
      getF u Reg.NET_PRP_CNT_wlan = min (getF s Reg.NET_PRP_CNT_wlan + if lan = (if lanB then 0xB else 0xA) then 0 else 1) (2 ^ Reg.NET_PRP_CNT_wlan.w - 1) ∧
      OnlyRegs [Reg.NET_PRP_CNT] s u ∧ u = { begin' t s with regs := u.regs, net := u.net })) ∧
  (∀ t lanB src seq x s, s.up = true → s.net.nodes.find? (fun p => p.1 == src) = some (src, x) →
    (∀ r ∈ x.recent, since t r.2.2 < forgetNs) → (∃ at', (seq, !lanB, at') ∈ x.recent) →
    Answers (.prpFrame t lanB src (some (if lanB then 0xB else 0xA, seq))) s (fun u =>
      u.net = { s.net with nodes := s.net.nodes.filter (fun p => p.1 != src) ++
        [(src, ⟨t, x.recent.filter (fun r => !(r.1 == seq && r.2.1 != lanB))⟩)] } ∧
      (∀ k, rdK u k = rdK s k) ∧ u = { begin' t s with regs := u.regs, net := u.net })) ∧
  (∀ t lanB src s, s.up = true → exec (.prpFrame t lanB src none) s = .next (begin' t s)) ∧
  (∀ t s, s.up = true → Answers (.prpSupervision t) s (fun u =>
    (∀ l, ready s l = true → .prpSup (macOf (some l)) ((if l = .a then s.net.prpA else s.net.prpB) + 1#16) ∈ u.out) ∧
    ((active s).isSome = true → .prpSup (macOf none) (s.net.prpSeq + 1#16) ∈ u.out) ∧
    u.net = { s.net with prpSeq := s.net.prpSeq + (if (active s).isSome then 1#16 else 0#16),
                         prpA := s.net.prpA + (if ready s .a then 1#16 else 0#16), prpB := s.net.prpB + (if ready s .b then 1#16 else 0#16) } ∧
    u = { begin' t s with net := u.net, out := u.out })) ∧
  (∀ t mac x s, s.up = true → s.net.nodes.find? (fun p => p.1 == mac) = some (mac, x) →
    (forgetNs ≤ since t x.heard → Answers (.nodeForget t mac) s (fun u =>
      u.net = { s.net with nodes := s.net.nodes.filter (fun p => p.1 != mac) } ∧
      getF u Reg.NET_PRP_CNT_miss = min (getF s Reg.NET_PRP_CNT_miss + x.recent.length) (2 ^ Reg.NET_PRP_CNT_miss.w - 1) ∧
      OnlyRegs [Reg.NET_PRP_CNT] s u ∧ u = { begin' t s with regs := u.regs, net := u.net })) ∧
    (since t x.heard < forgetNs → exec (.nodeForget t mac) s = .next (begin' t s)))

/-- The first copy of a ring frame of type `typ` for this module, with a good header and hops left (R307, R308). -/
def Sys2Proof.Machine.RingFirst (t : Time) (typ : Nat) (f : RingFrame) (s : State) : Prop :=
  s.up = true ∧ getB s Reg.NET_RING_CFG_en = true ∧ hdrOk f = true ∧ hdrN f 0 1 = 1 ∧ hdrN f 1 1 = typ ∧ rfSrc f ≠ ringNum s ∧ rfHops f ≠ 0 ∧
    (rfDest f = ringNum s ∨ rfDest f = 0x3FF) ∧ (window (alGet s.net.srcs (rfSrc f)) (BitVec.ofNat 32 (hdrN f 4 4)) t).1 = true

/-- The delivery windows after the first copy of a frame. -/
def Sys2Proof.Machine.srcsAfter (t : Time) (f : RingFrame) (s : State) : List (Nat × RingSrc) :=
  alSet s.net.srcs (rfSrc f) (window (alGet s.net.srcs (rfSrc f)) (BitVec.ofNat 32 (hdrN f 4 4)) t).2.1

/-- R307, R308: a frame whose header fails is counted and dropped; a frame of this module's own, without hops left, of another type, or a second
copy for this module alone, changes nothing; a module whose ring is off hears nothing. Shown for SYNC. -/
def Sys2Proof.Machine.RingFramesAreCheckedAndDroppedOnce : Prop :=
  (∀ t port f s, s.up = true → getB s Reg.NET_RING_CFG_en = false → exec (.syncFrame t port f) s = .next (begin' t s)) ∧
  (∀ t port f s, s.up = true → getB s Reg.NET_RING_CFG_en = true → hdrOk f = false → Answers (.syncFrame t port f) s (fun u =>
    getF u Reg.NET_RING_CNT_hdr = min (getF s Reg.NET_RING_CNT_hdr + 1) (2 ^ Reg.NET_RING_CNT_hdr.w - 1) ∧
    OnlyRegs [Reg.NET_RING_CNT] s u ∧ RegsOnly t s u)) ∧
  (∀ t port f s, s.up = true → getB s Reg.NET_RING_CFG_en = true → hdrOk f = true → (rfSrc f = ringNum s ∨ rfHops f = 0 ∨ hdrN f 1 1 ≠ 1) →
    exec (.syncFrame t port f) s = .next (begin' t s)) ∧
  (∀ t port f s, s.up = true → getB s Reg.NET_RING_CFG_en = true → hdrOk f = true → rfDest f = ringNum s →
    (window (alGet s.net.srcs (rfSrc f)) (BitVec.ofNat 32 (hdrN f 4 4)) t).1 = false → exec (.syncFrame t port f) s = .next (begin' t s))

/-- R309: SYNC of the master is taken with its instant and its difference to this module's cycle set; in Lay-up and Transit its phase is stepped
to at the next epoch; SYNC absent for three cycles makes the module ready to be master. -/
def Sys2Proof.Machine.SyncIsTakenAndItsLossFollowed : Prop :=
  (∀ t port f s l, RingFirst t 1 f s → active s = some l → 24 ≤ f.payload.length →
    before (getF s Reg.NET_RING_CFG_prio) (ringNum s) (leAt f.payload 23 1) (rfSrc f) = false →
    (s.net.lastSync = none ∨ getB s Reg.NET_RING_STAT_master = true ∨ rfSrc f = getF s Reg.NET_RING_STAT_mnum) →
    ∀ ph, ph = phaseOf s (leAt f.payload 8 8 * sec + leAt f.payload 16 4 : Nat) → Answers (.syncFrame t port f) s (fun u =>
      u.net.lastSync = some t ∧ u.net.masterPrio = leAt f.payload 23 1 ∧ u.net.toMaster = false ∧ u.net.srcs = srcsAfter t f s ∧
      u.net.mismatch = (leAt f.payload 20 2 != s.cyc.set.period || leAt f.payload 22 1 != s.cyc.set.xwin) ∧
      getF u Reg.NET_RING_STAT_mnum = rfSrc f ∧ getB u Reg.NET_RING_STAT_master = false ∧
      (ph = (rdK s Reg.JX_CYC_PHASE).toNat → u.cyc = { s.cyc with phaseStep := none, slewTo := none }) ∧
      (ph ≠ (rdK s Reg.JX_CYC_PHASE).toNat → (modeNow s = .layup ∨ modeNow s = .transit) →
        u.cyc = { s.cyc with phaseStep := some ph, slewTo := none }) ∧
      (ph ≠ (rdK s Reg.JX_CYC_PHASE).toNat → (modeNow s = .approach ∨ modeNow s = .berth ∨ modeNow s = .joystick) →
        u.cyc = { s.cyc with phaseStep := none, slewTo := some ph }) ∧
      (∀ l, u.lane l = s.lane l) ∧ u.auth = s.auth)) ∧
  (∀ t s, s.up = true → getB s Reg.NET_RING_CFG_en = true → getB s Reg.NET_RING_STAT_master = false →
    (s.net.lastSync = none ∨ ∃ x, s.net.lastSync = some x ∧ 3 * s.cyc.set.ns ≤ since t x) →
    exec (.syncLoss t) s = .next { begin' t s with net := { s.net with toMaster := true } }) ∧
  (∀ t s, s.up = true → getB s Reg.NET_RING_CFG_en = false → exec (.syncLoss t) s = .next (begin' t s))

/-- R310, R311: in its slot a ranked module of the Active lane sends the allocation of the cycle on both ring ports; entries that arrive in the
window go to the ring data stream; a module's own PROBE gives the round trip and, back on both ports, a closed ring; the timer sends
the next; a module not heard for 20 s leaves the ring; the link bits follow the ports. -/
def Obligations.ExchangeAndProbe : Prop :=
  (∀ t s l k r, s.up = true → active s = some l → s.net.rank = some k → getB s Reg.NET_RING_CFG_en = true → s.net.mismatch = false →
    t = plus (winStart s) (k * 17704) → (k + 1) * 17704 + s.net.nRanked * 13504 ≤ s.cyc.cur.xwin * ms → (s.lane l).slv.disp.last = some r →
    r.e = s.cyc.e → Answers (.exchangeSlot t) s (fun u =>
      u.net.seq = s.net.seq + 1#32 ∧ (getB s Reg.NET_RING_STAT_wa = true → ∃ h, .ring false 2 h (exchBytes r) ∈ u.out) ∧
      (getB s Reg.NET_RING_STAT_wb = true → ∃ h, .ring true 2 h (exchBytes r) ∈ u.out) ∧ OnlyRegs recKeys s u ∧ (∀ l, u.lane l = s.lane l) ∧
      u.cyc = s.cyc ∧ u.auth = s.auth)) ∧
  (∀ t s, s.up = true → s.net.rank = none → exec (.exchangeSlot t) s = .next (begin' t s)) ∧
  (∀ t port f s l, RingFirst t 2 f s → active s = some l → winOpen (begin' t s) = true → s.net.mismatch = false → ready s l = true →
    Answers (.exchFrame t port f) s (fun u => u.net.srcs = srcsAfter t f s ∧ ∃ v,
      u = streamRec l 0x17 0 t (leBytes 2 (rfSrc f) ++ [0#8, 0#8] ++ f.payload) v ∧ v.net.srcs = srcsAfter t f s ∧ (∀ l, v.lane l = s.lane l))) ∧
  (∀ t s l, s.up = true → active s = some l → getB s Reg.NET_RING_CFG_en = true → Answers (.probeTimer t) s (fun u =>
    u.net = { s.net with seq := s.net.seq + 1#32, probed := true, probeSeq := s.net.seq + 1#32, probeAt := t, probeWa := false, probeWb := false } ∧
    getB u Reg.NET_RING_STAT_closed = (getB s Reg.NET_RING_STAT_closed && s.net.probeWa && s.net.probeWb) ∧ (∀ l, u.lane l = s.lane l))) ∧
  (∀ t port f s, s.up = true → getB s Reg.NET_RING_CFG_en = true → hdrOk f = true → hdrN f 0 1 = 1 → hdrN f 1 1 = 5 → rfSrc f = ringNum s →
    hdrN f 4 4 = s.net.probeSeq.toNat → Answers (.probeFrame t port f) s (fun u =>
      u.net = { s.net with probeWa := s.net.probeWa || !port, probeWb := s.net.probeWb || port } ∧
      getF u Reg.NET_RING_RTT_rtt = min (since t s.net.probeAt / 1000) 0xFFFF ∧
      getB u Reg.NET_RING_STAT_closed =
        (getB s Reg.NET_RING_STAT_closed || ((s.net.probeWa || !port) && (s.net.probeWb || port))) ∧
      OnlyRegs [Reg.NET_RING_RTT, Reg.NET_RING_STAT] s u ∧ u = { begin' t s with regs := u.regs, net := u.net })) ∧
  (∀ t m x s, s.up = true → alGet s.net.srcs m = some x → 20 * sec ≤ since t x.last → Answers (.ringMemberExpiry t m) s (fun u =>
    u.net = { s.net with srcs := alDel s.net.srcs m } ∧ OnlyRegs (Reg.NET_RING_RTT :: alarmKeys) s u ∧ (∀ l, u.lane l = s.lane l))) ∧
  (∀ t m x s, s.up = true → alGet s.net.srcs m = some x → since t x.last < 20 * sec → exec (.ringMemberExpiry t m) s = .next (begin' t s)) ∧
  (∀ t port up s, s.up = true → Answers (.ringLinkChange t port up) s (fun u =>
    getB u (if port then Reg.NET_RING_STAT_wb else Reg.NET_RING_STAT_wa) = up ∧
    getB u (if port then Reg.NET_RING_STAT_wa else Reg.NET_RING_STAT_wb) = getB s (if port then Reg.NET_RING_STAT_wa else Reg.NET_RING_STAT_wb) ∧
    OnlyRegs [Reg.NET_RING_STAT] s u ∧ RegsOnly t s u))

/-- R312: at a standby module that keeps its outputs released the last frame of an item of its partner completes it: an authority state is taken
at once, the other items are held, and at the SEAL that lists them with length and CRC-32C the cycle is noted; an item whose
complement section fails is rejected whole with event KPR_MIRPAIR; frames of another module leave what it holds. -/
def Obligations.ModuleMirrorIsTakenFromThePartner : Prop :=
  ∀ t port f it s l, RingFirst t 3 f s → active s = some l → getF s Reg.NET_RING_CFG_role = 2 → outReleased s = true →
    (∀ x, rfSrc f = getF s Reg.NET_RING_PEER_partner → frLast f.payload = true → joined s.net.modCur f.payload = some x →
      (complOf x.main x.cpl = true → it.code = frTyp f.payload → itemSecs it = x →
        Answers (.ringMirrorFrame t port f (some it)) s (fun u => u.net.srcs = srcsAfter t f s ∧
          (∀ a, it = .authority a → u.auth = a ∧ u.net.modHeld = s.net.modHeld) ∧
          ((∃ d, it = .dispatch d) ∨ (∃ w x, it = .solution w x) ∨ (∃ x, it = .fusion x) ∨ (∃ x, it = .recorder x) →
            u.net.modHeld = s.net.modHeld.filter (fun i => i.code != it.code) ++ [it] ∧ u.auth = s.auth ∧ (∀ l, u.lane l = s.lane l)) ∧
          (∀ es, it = .seal es → (∀ e ∈ es, ∃ i ∈ s.net.modHeld, sealEnt i = e) →
            u.net.modHeld = [] ∧ u.net.lastMod = some (frCyc f.payload)))) ∧
      (complOf x.main x.cpl = false → Answers (.ringMirrorFrame t port f (some it)) s (fun u =>
        u.net.srcs = srcsAfter t f s ∧ u.net.modHeld = s.net.modHeld ∧ u.auth = s.auth ∧ (∀ l, u.lane l = s.lane l) ∧
        u.rec' = (raise (hriSrc s) Ev.KPR_MIRPAIR (frTyp f.payload + 2 ^ 32 * (frCyc f.payload).toNat) (begin' t s)).rec'))) ∧
    (rfSrc f ≠ getF s Reg.NET_RING_PEER_partner → Answers (.ringMirrorFrame t port f (some it)) s (fun u =>
      u.net = { s.net with srcs := srcsAfter t f s } ∧ u.auth = s.auth ∧ (∀ l, u.lane l = s.lane l)))

/-- R313-R316: ARB frames show partner and arbiter alive; a GRANT of a higher term that names this module enables its outputs and owes a
publication, one that names another releases them; the arbiter that no longer hears the active module grants the standby one with the
next term; an active module cut off from both others releases its outputs; the loss of the arbiter is an alarm and the roles stay. -/
def Obligations.StandbyModuleTakesOverByTerm : Prop :=
  (∀ t port f s, RingFirst t 4 f s → payPairOk f = true → getF s Reg.NET_RING_CFG_role ≠ 3 → leAt f.payload 4 4 ≤ s.net.term.toNat →
    Answers (.arbFrame t port f) s (fun u => u.net = { s.net with
      srcs := srcsAfter t f s,
      arbHeard := if leAt f.payload 0 1 = 3 ∧ rfSrc f = getF s Reg.NET_RING_PEER_arb then some t else s.net.arbHeard,
      partnerHeard := if rfSrc f = getF s Reg.NET_RING_PEER_partner then some t else s.net.partnerHeard } ∧ (∀ l, u.lane l = s.lane l))) ∧
  (∀ t port f s l, RingFirst t 6 f s → payPairOk f = true → rfSrc f = getF s Reg.NET_RING_PEER_arb → active s = some l →
    getF s Reg.NET_RING_CFG_role = 2 → s.net.term.toNat < leAt f.payload 4 4 →
    (leAt f.payload 0 2 % 1024 = ringNum s → Answers (.grantFrame t port f) s (fun u =>
      u.net.term = BitVec.ofNat 32 (leAt f.payload 4 4) ∧ u.net.actNum = ringNum s ∧ u.net.released = false ∧ u.net.modHeld = [] ∧
      getB u Reg.NET_RING_STAT_granted = true ∧ (u.lane l).slv.tkov = true ∧ u.kpr.grantE = some s.cyc.e ∧ u.kpr.role = s.kpr.role ∧
      u.kpr.owed = (if modeNow s ≠ .layup ∧ s.cyc.begun = true then some s.cyc.e else none))) ∧
    (leAt f.payload 0 2 % 1024 ≠ ringNum s → Answers (.grantFrame t port f) s (fun u =>
      u.net.term = BitVec.ofNat 32 (leAt f.payload 4 4) ∧ u.net.actNum = leAt f.payload 0 2 % 1024 ∧ u.net.released = true ∧
      getB u Reg.NET_RING_STAT_granted = false ∧ u.kpr = s.kpr))) ∧
  (∀ t port f s, RingFirst t 6 f s → payPairOk f = true → rfSrc f = getF s Reg.NET_RING_PEER_arb → leAt f.payload 4 4 ≤ s.net.term.toNat →
    Answers (.grantFrame t port f) s (fun u => u.net = { s.net with srcs := srcsAfter t f s })) ∧
  (∀ t s, s.up = true → s.kpr.up = true → getF s Reg.NET_RING_CFG_role ≠ 0 → getB s Reg.NET_RING_CFG_en = true → s.net.grantsLeft = 0 →
    Answers (.arbTimer t) s (fun u => u.net = { s.net with seq := s.net.seq + 1#32 } ∧ u.regs = s.regs ∧
      (getB s Reg.NET_RING_STAT_wa = true → ∃ h, .ring false 4 h (arbBytes (begin' t s)) ∈ u.out) ∧
      (getB s Reg.NET_RING_STAT_wb = true → ∃ h, .ring true 4 h (arbBytes (begin' t s)) ∈ u.out) ∧
      u = { begin' t s with net := u.net, out := u.out })) ∧
  (∀ t s, s.up = true → mayGrant (begin' t s) = true → s.net.actNum ≠ 0x3FF → heard (begin' t s) s.net.actHeard 10 = false →
    Answers (.activeModuleAbsence t) s (fun u => u.net.term = s.net.term + 1#32 ∧ u.net.actNum = s.net.stbyNum ∧ u.net.stbyNum = s.net.actNum ∧
      u.net.grantLoser = s.net.actNum ∧ u.net.grantsLeft = 2 ∧ u.regs = s.regs ∧ u = { begin' t s with net := u.net, out := u.out })) ∧
  (∀ t s, s.up = true → s.kpr.up = true → (getF s Reg.NET_RING_CFG_role = 1 ∨ getF s Reg.NET_RING_CFG_role = 2) → actPart s = ringNum s →
    outReleased s = false → heard (begin' t s) s.net.arbHeard 20 = false → heard (begin' t s) s.net.partnerHeard 20 = false →
    Answers (.quorumTimeout t) s (fun u => u.net = { s.net with released := true } ∧ getB u Reg.NET_RING_STAT_granted = false ∧
      u.rec' = (raise .keeper Ev.KPR_QUORUM s.net.term.toNat (begin' t s)).rec' ∧ u.kpr = s.kpr ∧ (∀ l, u.lane l = s.lane l))) ∧
  (∀ t s, s.up = true → (getF s Reg.NET_RING_CFG_role = 1 ∨ getF s Reg.NET_RING_CFG_role = 2) → heard (begin' t s) s.net.arbHeard 10 = false →
    Answers (.arbiterLoss t) s (fun u => (Ev.KPR_ARBLOST, 0) ∈ u.alarms ∧ OnlyRegs alarmKeys s u ∧ RegsAndAlarms t s u))

/-! Epochs (R17-R29). -/

/-- An epoch that no transfer of authority, request or update sequence meets. -/
def Sys2Proof.Machine.PlainEpoch (t : Time) (s : State) : Prop :=
  s.up = true ∧ s.upd.wiping = false ∧ t = tickAt s.cyc.nextE ∧ s.auth.xfer = none ∧ s.auth.req = none ∧ getF s Reg.UPD_SEQ_step = 0

/-- R17, R20, R22, R61, R123, R319: at the first tick at or after the next epoch the count goes up, a cycle begins at that epoch with the set in force, and the Active lane
latches its setpoint vector, with nothing started where fusion runs or in Lay-up; R24: where no fusion runs and no stream is awaited, assembly
starts with the cycle; what the solver holds from earlier cycles stays. A cycle in Lay-up or without an
Active lane owes no publication. R26: a scheduled set takes effect at its epoch. R49: orders that are due take effect. At any other
instant, and while the life cycle is wiped, no cycle begins. -/
def Sys2Proof.Machine.EpochBeginsTheCycle : Prop :=
  (∀ t ga gb s, PlainEpoch t s → s.auth.orders = [] → s.cyc.phaseStep = none → s.cyc.slewTo = none →
    Answers (.epoch t ga gb) s (fun u =>
      u.cyc.e = s.cyc.nextE ∧ u.cyc.begun = true ∧ u.cyc.mirrorOpen = false ∧ u.cyc.pend = none ∧ u.now = t ∧
      rdK u Reg.JX_CYC_COUNT = rdK s Reg.JX_CYC_COUNT + 1#32 ∧
      (∀ c e, s.cyc.pend = some (c, e) → u.cyc.set = c ∧ u.cyc.cur = c ∧ u.cyc.nextE = plus s.cyc.nextE c.ns ∧ getF u Reg.JX_CYC_STATUS_pending = 0) ∧
      (s.cyc.pend = none → u.cyc.set = s.cyc.set ∧ u.cyc.cur = s.cyc.set ∧ u.cyc.nextE = plus s.cyc.nextE s.cyc.set.ns) ∧
      (modeNow s = .layup ∨ active s = none → u.cyc.published = true) ∧
      (∀ l, active s = some l → modeNow s ≠ .layup → outReleased s = false → u.cyc.published = false) ∧
      u.auth.orders = [] ∧ u.auth.sps = s.auth.sps ∧ u.auth.holder = s.auth.holder ∧ u.kpr.role = s.kpr.role ∧ u.pending = s.pending)) ∧
  (∀ t ga gb s l p, PlainEpoch t s → s.auth.orders = [] → active s = some l → ready s l = true → actPkg s l = some p →
    (s.lane l).bank0.actNext = false → (s.lane l).bank1.actNext = false →
    (modeNow s = .layup ∨ fusionRuns (modeNow s) (getB s Reg.JX_MODE_warm) = true) → Answers (.epoch t ga gb) s (fun u =>
      (u.lane l).slv.svec = p.smap.map (latchS s) ∧ (u.lane l).slv.mvec.length = p.mmap.length ∧ (u.lane l).slv.asmRun = false ∧
      (u.lane l).slv.asmDone = false ∧ (u.lane l).slv.solving = false ∧ (u.lane l).slv.cond = none ∧
      (u.lane l).slv.image = (s.lane l).slv.image ∧ (u.lane l).slv.vecs = (s.lane l).slv.vecs ∧
      (u.lane l).slv.factor = (s.lane l).slv.factor ∧ (u.lane l).slv.shcnt = (s.lane l).slv.shcnt ∧
      u.slvCfg.itcap = getF s Reg.SLV_ITCAP_itcap ∧ u.slvCfg.shiftmax = getF s Reg.SLV_SHIFTMAX_shiftmax)) ∧
  (∀ t ga gb s l p, PlainEpoch t s → s.auth.orders = [] → active s = some l → ready s l = true → actPkg s l = some p →
    (s.lane l).bank0.actNext = false → (s.lane l).bank1.actNext = false → modeNow s = .transit → getB s Reg.JX_MODE_warm = false →
    (s.lane l).fus.run = false → outReleased s = false → s.cfg.streams = [] → Answers (.epoch t ga gb) s (fun u =>
      AsmStarted t l p u ∧ (u.lane l).slv.svec = p.smap.map (latchS s) ∧ (u.lane l).slv.mvec.length = p.mmap.length ∧
      Engine.slv ∉ (u.lane l).pllOff)) ∧
  (∀ t ga gb s l id v st at' ea k, PlainEpoch t s → active s = some l → s.auth.orders = [⟨.sp id v, st, at', ea, k⟩] →
    (atOrAfter s.cyc.nextE ea = true → Answers (.epoch t ga gb) s (fun u => u.auth.orders = [] ∧ u.auth.holder = s.auth.holder ∧
      u.auth.sps = s.auth.sps.filter (fun p => p.1 ≠ id) ++ (v.map (fun x => (id, x))).toList)) ∧
    (atOrAfter s.cyc.nextE ea = false → Answers (.epoch t ga gb) s (fun u => u.auth.orders = s.auth.orders ∧ u.auth.sps = s.auth.sps))) ∧
  (∀ t ga gb s l m w st at' ea k, PlainEpoch t s → active s = some l → s.auth.orders = [⟨.mode m w, st, at', ea, k⟩] →
    atOrAfter s.cyc.nextE ea = true → m = .layup ∨ m = .transit ∨ m = .joystick → (s.lane l).fus.autojoy = false → Answers (.epoch t ga gb) s (fun u =>
      modeNow u = m ∧ getB u Reg.JX_MODE_warm = w ∧ u.auth.orders = [] ∧ u.auth.sps = s.auth.sps ∧
      (modeNow s ≠ m → getF u Reg.JX_MODE_since = 0))) ∧
  (∀ t ga gb s, s.up = true → t ≠ tickAt s.cyc.nextE ∨ s.upd.wiping = true → exec (.epoch t ga gb) s = .next (begin' t s))

/-- R28, R465: 200 µs before its work the cycle scheduler starts a stopped fast PLL with the spread then configured; one that runs, and
any at another instant, stays as it is. -/
def Sys2Proof.Machine.PllWakesWithItsSpread : Prop :=
  ∀ t l e s, LaneRuns s l → ∀ due, (due ↔ (e = .cores ∧ plus t 200000 = tickAt s.cyc.nextE) ∨
      (s.cyc.begun = true ∧ active s = some l ∧ ((e = .fen ∧ plus t 200000 = tickAt (plus s.cyc.e (s.cyc.cur.intake * ms))) ∨
        (e = .slv ∧ plus t 200000 = tickAt (plus s.cyc.e (s.cyc.cur.fusion * ms)))))) →
    (due → e ∈ (s.lane l).pllOff → exec (.pllWake t l e) s = .next ((begin' t s).setLane l { s.lane l with
      pllOff := (s.lane l).pllOff.filter (· != e), spread := setSpread e (getF s Reg.PWR_CFG_spread) (s.lane l).spread })) ∧
    (¬ due ∨ e ∉ (s.lane l).pllOff → exec (.pllWake t l e) s = .next (begin' t s))

/-! Time (R318-R351). -/

/-- The state after a command at instant `t` that changed registers and one lane's units. -/
def Sys2Proof.Machine.LaneOnly (l : Lane) (t : Time) (s u : State) : Prop :=
  u = ({ begin' t s with regs := u.regs }).setLane l (u.lane l)

/-- The state after a command at instant `t` that changed one lane's timebase and registers and handed records to the recorder. -/
def Sys2Proof.Machine.TmbOnly (l : Lane) (t : Time) (s u : State) : Prop :=
  LaneAndAlarms l t s u ∧ (u.lane l) = { s.lane l with tmb := (u.lane l).tmb } ∧ u.out = [] ∧
  OnlyRegs ([laneKey Reg.TMB_STAT l, laneKey Reg.TMB_RATEL l, laneKey Reg.TMB_RATEH l, laneKey Reg.TMB_CNT l] ++ recKeys) s u

/-- R324, R338, R349: a clock word with a good pair makes the Standby's clock the Active one's, and where that first leaves FREE its generators take
their next instant anew; one whose pair fails is only recorded, and the lane that leads ignores it. -/
def Sys2Proof.Machine.ClockWordFollows : Prop :=
  (∀ t l s act, LaneRuns s l → active s = some act → act ≠ l → Answers (.clockWord t l true) s (fun u =>
    (∀ m, ltAt u l m = ltAt s act m) ∧ (u.lane l).tmb.pend = (s.lane act).tmb.pend ∧
    getF u Reg.TMB_STAT_state l = getF s Reg.TMB_STAT_state act ∧ getF u Reg.TMB_STAT_src l = getF s Reg.TMB_STAT_src act ∧
    getF u Reg.TMB_STAT_steppend l = getF s Reg.TMB_STAT_steppend act ∧
    rdK u (laneKey Reg.TMB_RATEL l) = BitVec.ofInt 32 (rateOf (s.lane act).tmb.clk) ∧
    (getF s Reg.TMB_STAT_state l ≠ 0 ∨ getF s Reg.TMB_STAT_state act = 0 → (u.lane l).tmb.tps = (s.lane l).tmb.tps ∧
      OnlyRegs [laneKey Reg.TMB_STAT l, laneKey Reg.TMB_RATEL l, laneKey Reg.TMB_RATEH l] s u) ∧
    (getF s Reg.TMB_STAT_state l = 0 → getF s Reg.TMB_STAT_state act ≠ 0 → ∀ n < 4, tpGen u l n =
      if (tpGen s l n).run then { tpGen s l n with next := tpFirst (tpGen s l n) (ltAt s act t) } else tpGen s l n) ∧
    LaneOnly l t s u)) ∧
  (∀ t l s act, LaneRuns s l → active s = some act → act ≠ l →
    Answers (.clockWord t l false) s (OnlyRecords t .timebase Ev.TMB_CLKWD 0 s)) ∧
  (∀ t l ok s, LaneRuns s l → active s = some l → exec (.clockWord t l ok) s = .next (begin' t s))

/-- R319, R325, R349: at its PLL lock the tick of a lane is aligned and its configured generators run, those of another Active lane where there
is one; a Standby that loses the tick marker
free-runs, and the Active lane goes on. -/
def Sys2Proof.Machine.TickLockAndLoss : Prop :=
  (∀ t l s, s.up = true → Answers (.timebasePllLock t l) s (fun u =>
    (u.lane l).tmb.locked = true ∧ getF u Reg.TMB_STAT_aln l = 1 ∧ (u.lane l).tmb.clk = (s.lane l).tmb.clk ∧
    (∀ n < 4, getF s (Reg.TMB_TPn_CFG_mode n) ≠ 0 → active s = none ∨ active s = some l → (tpGen u l n).run = true) ∧
    (∀ n < 4, ∀ act, getF s (Reg.TMB_TPn_CFG_mode n) ≠ 0 → active s = some act → act ≠ l → (tpGen s l n).run = false →
      tpGen u l n = tpGen s act n) ∧
    (∀ n < 4, getF s (Reg.TMB_TPn_CFG_mode n) = 0 ∨ (tpGen s l n).run = true → tpGen u l n = tpGen s l n) ∧ LaneOnly l t s u)) ∧
  (∀ t l s, LaneRuns s l → active s ≠ some l → Answers (.tickMarkerLoss t l) s (fun u =>
    u.lane l = { s.lane l with tmb := { (s.lane l).tmb with locked := false } } ∧ getF u Reg.TMB_STAT_aln l = 0 ∧
    OnlyRegs [laneKey Reg.TMB_STAT l] s u ∧ LaneOnly l t s u)) ∧
  (∀ t l s, LaneRuns s l → active s = some l → exec (.tickMarkerLoss t l) s = .next (begin' t s))

/-- R326, R327: GNSS without a fix for three epochs (two snapshots in Lay-up) must qualify again; the Active lane that followed it enters
HOLDOVER when PTP is not qualified, its slew removed and its local time continuous; a qualified reference returns it to SYNC. -/
def Sys2Proof.Machine.HoldoverAndReturn : Prop :=
  (∀ t l s, LaneRuns s l → (if getF s Reg.JX_MODE_mode = 0 then 2 ≤ (s.lane l).tmb.gnss.missSnap else 3 ≤ (s.lane l).tmb.gnss.miss) →
    (active s = some l → getF s Reg.TMB_STAT_state l = 1 → getF s Reg.TMB_STAT_src l = 8 → (s.lane l).tmb.ptp.qual = false →
      Answers (.gnssReferenceLoss t l) s (fun u =>
        getF u Reg.TMB_STAT_state l = 2 ∧ getF u Reg.TMB_STAT_src l = 0xF ∧ (u.lane l).tmb.gnss = {} ∧ (u.lane l).tmb.holdAt = t ∧
        (u.lane l).tmb.pend = none ∧ (u.lane l).tmb.clk.s = 0 ∧ (u.lane l).tmb.clk.f = (s.lane l).tmb.clk.f ∧ ltAt u l t = ltAt s l t ∧
        getF u Reg.TMB_CNT_holds l = min (getF s Reg.TMB_CNT_holds l + 1) 255 ∧ TmbOnly l t s u)) ∧
    (getF s Reg.TMB_STAT_state l ≠ 1 ∨ getF s Reg.TMB_STAT_src l ≠ 8 →
      exec (.gnssReferenceLoss t l) s = .next (onTmb l (fun b => { b with gnss := {} }) (begin' t s))) ∧
    (active s ≠ some l → getF s Reg.TMB_STAT_state l = 1 → getF s Reg.TMB_STAT_src l = 8 →
      exec (.gnssReferenceLoss t l) s = .next (onTmb l (fun b => { b with gnss := {}, prev := none }) (begin' t s)))) ∧
  (∀ t l s, LaneRuns s l → (if getF s Reg.JX_MODE_mode = 0 then (s.lane l).tmb.gnss.missSnap < 2 else (s.lane l).tmb.gnss.miss < 3) →
    exec (.gnssReferenceLoss t l) s = .next (begin' t s)) ∧
  (∀ t l s p o q, LaneRuns s l → active s = some l → getF s Reg.TMB_STAT_state l = 2 → holdoverRef (begin' t s) l = some p →
    (refOf (s.lane l).tmb p).obs = o :: q → o.theta.natAbs < 1000 → (s.lane l).tmb.pend = none → (s.lane l).tmb.first = false →
    Answers (.holdoverExit t l) s (fun u =>
      getF u Reg.TMB_STAT_state l = 1 ∧ getF u Reg.TMB_STAT_src l = srcCode s p ∧ (u.lane l).tmb.refused = none ∧
      (u.lane l).tmb.holdAcc = (s.lane l).tmb.holdAcc + since t (s.lane l).tmb.holdAt ∧ ltAt u l t = ltAt s l t ∧ TmbOnly l t s u)) ∧
  (∀ t l s, LaneRuns s l → active s ≠ some l ∨ getF s Reg.TMB_STAT_state l ≠ 2 ∨ holdoverRef (begin' t s) l = none →
    exec (.holdoverExit t l) s = .next (begin' t s))

/-- R319, R324, R326, R327, R349: the time link, the references and HOLDOVER. -/
def Obligations.TimeFollowsItsReferences : Prop := ClockWordFollows ∧ TickLockAndLoss ∧ HoldoverAndReturn

/-- R321, R329, R330, R531: accepting a refused step makes it wait for its second boundary; a pending step that is due moves local time by θ,
ends the slew and counts; before, nothing changes. Reading MTCL latches MTC at the tick and the local time of that instant. -/
def Obligations.StepsMoveLocalTime : Prop :=
  (∀ t ep v s, LaneWritable s ep →
    (∀ th, active s = some ep → v.getLsbD 0 = true → (s.lane ep).tmb.refused = some th → (s.lane ep).tmb.pend = none →
      Answers (.stepAccept t ep v) s (fun u => (u.lane ep).tmb = { (s.lane ep).tmb with pend := some th } ∧
        getF u Reg.TMB_STAT_steppend ep = 1 ∧ OnlyRegs [laneKey Reg.TMB_STAT ep] s u ∧ LaneOnly ep t s u)) ∧
    (active s ≠ some ep ∨ v.getLsbD 0 = false ∨ (s.lane ep).tmb.refused = none ∨ (s.lane ep).tmb.pend ≠ none →
      Answers (.stepAccept t ep v) s (fun u => (∀ k, rdK u k = rdK s k) ∧ RegsOnly t s u))) ∧
  (∀ t s l th, LaneRuns s l → (s.lane l).tmb.pend = some th → stepDue (begin' t s) l = true → Answers (.timeStep t) s (fun u =>
    (u.lane l).tmb.pend = none ∧ (u.lane l).tmb.first = false ∧ (u.lane l).tmb.clk.s = 0 ∧
    ltFrac (u.lane l).tmb.clk t = ltFrac (s.lane l).tmb.clk t + th * 2 ^ 32 ∧ getF u Reg.TMB_STAT_steppend l = 0 ∧
    getF u Reg.TMB_CNT_steps l = min (getF s Reg.TMB_CNT_steps l + 1) 255 ∧ (u.lane l).slv = (s.lane l).slv ∧ u.cyc = s.cyc ∧
    u.auth = s.auth ∧ u.rtc = s.rtc)) ∧
  (∀ t s, s.up = true → (∀ l, ready s l = true → (s.lane l).tmb.pend = none ∨ stepDue (begin' t s) l = false) →
    exec (.timeStep t) s = .next (begin' t s)) ∧
  (∀ t ep s, LaneRuns s ep → ∀ m x, m = t - BitVec.ofNat 64 (t.toNat % 8) → x = ltAt s ep m → Answers (.tmbMtclRead t ep) s (fun u =>
    rdK u (laneKey Reg.TMB_MTCL ep) = BitVec.ofNat 32 m.toNat ∧ rdK u (laneKey Reg.TMB_MTCH ep) = BitVec.ofNat 32 (m.toNat / 2 ^ 32) ∧
    rdK u (laneKey Reg.TMB_LTSL ep) = BitVec.ofNat 32 (ltSec x) ∧ rdK u (laneKey Reg.TMB_LTSH ep) = BitVec.ofNat 32 (ltSec x / 2 ^ 32) ∧
    rdK u (laneKey Reg.TMB_LTNS ep) = BitVec.ofNat 32 (x % sec).toNat ∧
    OnlyRegs [laneKey Reg.TMB_MTCL ep, laneKey Reg.TMB_MTCH ep, laneKey Reg.TMB_LTSL ep, laneKey Reg.TMB_LTSH ep, laneKey Reg.TMB_LTNS ep,
      laneKey Reg.TMB_STAT ep] s u ∧ RegsOnly t s u))

/-- R337-R340: writing a mode starts a generator that was off in every ready lane with the T0, period and width it then reads, while a pulse in
progress keeps its width, and mode 0 stops
it; an instant that is reached starts a pulse of the configured width, on the pin in the Active lane, and its end ends it. -/
def Sys2Proof.Machine.PulsesFollowTheirGenerator : Prop :=
  (∀ t ep n v s, ModWritable s ep → n < 4 → v.toNat % 4 ≠ 3 → getF s (Reg.TMB_TPn_CFG_mode n) = 0 → v.toNat % 4 ≠ 0 →
    Answers (.tpStart t ep n v) s (fun u =>
      getF u (Reg.TMB_TPn_CFG_mode n) = v.toNat % 4 ∧ (∀ l, (u.lane l).tmb.clk = (s.lane l).tmb.clk) ∧
      (∀ l, ready s l = true → (tpGen u l n).run = true ∧ (tpGen u l n).iso = decide (v.toNat % 4 = 2) ∧ (tpGen u l n).owed = [] ∧
        (tpGen u l n).cur = (tpGen s l n).cur ∧ (tpGen u l n).wid = getF s (Reg.TMB_TPn_WID_w n) ∧ (tpGen u l n).per = tpPeriod s n ∧
        (tpGen u l n).next = tpFirst (tpGen u l n) (ltAt s l t) ∧ getB u (Reg.TMB_TPn_STAT_run n) l = true) ∧
      (∀ l m, m ≠ n → tpGen u l m = tpGen s l m) ∧ u.rec' = s.rec' ∧
      OnlyRegs [Reg.TMB_TPn_CFG n, laneKey (Reg.TMB_TPn_STAT n) .a, laneKey (Reg.TMB_TPn_STAT n) .b] s u)) ∧
  (∀ t ep n v s, ModWritable s ep → n < 4 → v.toNat % 4 = 3 →
    Answers (.tpStart t ep n v) s (OnlyRecords t .timebase Ev.TMBCFG (Reg.TMB_TPn_CFG n) s)) ∧
  (∀ t ep n v s, ModWritable s ep → n < 4 → v.toNat % 4 = 0 → getF s (Reg.TMB_TPn_CFG_mode n) ≠ 0 → Answers (.tpStop t ep n v) s (fun u =>
    getF u (Reg.TMB_TPn_CFG_mode n) = 0 ∧ (∀ l, (u.lane l).tmb.clk = (s.lane l).tmb.clk) ∧
    (∀ l, ready s l = true → tpGen u l n = if (tpGen s l n).cur.isSome then
      { tpGen s l n with stopping := true, owed := [], next := none } else {}) ∧ (∀ l m, m ≠ n → tpGen u l m = tpGen s l m) ∧
    OnlyRegs [Reg.TMB_TPn_CFG n, laneKey (Reg.TMB_TPn_STAT n) .a, laneKey (Reg.TMB_TPn_STAT n) .b] s u)) ∧
  (∀ t n s l i, LaneRuns s l → n < 4 → (tpGen s l n).run = true → (tpGen s l n).stopping = false → (tpGen s l n).cur = none →
    tpEmits s l n = true → (tpGen s l n).owed = [] → (tpGen s l n).next = some i →
    (i ≤ ltAt s l t → Answers (.tpPulseStart t n) s (fun u =>
      tpGen u l n = { tpGen s l n with
        cur := some (i, plus t (tpGen s l n).wid), late := false, gapTo := none,
        next := if (tpGen s l n).iso then some (i + (tpGen s l n).per) else none } ∧
      getB u (Reg.TMB_TPn_STAT_level n) l = true ∧ (active s = some l → outReleased s = false → u.tpOut.getLsbD n = !getB s (Reg.TMB_TPn_CFG_pol n) ∧
        (s.tpOut.getLsbD n = getB s (Reg.TMB_TPn_CFG_pol n) → .pin 1 n (!getB s (Reg.TMB_TPn_CFG_pol n)) ∈ u.out)) ∧
      (∀ m, m ≠ n → tpGen u l m = tpGen s l m) ∧ (u.lane l).tmb.clk = (s.lane l).tmb.clk ∧ u.rec' = s.rec')) ∧
    (ltAt s l t < i → Answers (.tpPulseStart t n) s (fun u => u.lane l = s.lane l))) ∧
  (∀ t n s l i due, LaneRuns s l → n < 4 → (tpGen s l n).cur = some (i, due) → (tpGen s l n).stopping = false → (tpGen s l n).late = false →
    (atOrAfter t due = true → Answers (.tpPulseEnd t n) s (fun u =>
      tpGen u l n = { tpGen s l n with cur := none } ∧ getB u (Reg.TMB_TPn_STAT_level n) l = false ∧
      (active s = some l → outReleased s = false → u.tpOut.getLsbD n = getB s (Reg.TMB_TPn_CFG_pol n) ∧
        (s.tpOut.getLsbD n = !getB s (Reg.TMB_TPn_CFG_pol n) → .pin 1 n (getB s (Reg.TMB_TPn_CFG_pol n)) ∈ u.out)) ∧ (∀ m, m ≠ n → tpGen u l m = tpGen s l m))) ∧
    (atOrAfter t due = false → Answers (.tpPulseEnd t n) s (fun u => u.lane l = s.lane l)))

/-- Neither a pulse that an edge begins, its input then keeping its level for `held` ns, nor one that it ends is shorter than 50 ns (R341). -/
def Sys2Proof.Machine.TcPasses (t : Time) (n held : Nat) (l : Lane) (s : State) : Prop :=
  50 ≤ held ∧ ((s.lane l).tmb.tcSkip.find? (fun p => p.1 == n)).any (fun p => p.2 == t) = false

/-- R341: an edge that its configuration selects is captured with its MTC and local time in each lane, but not the edges of a pulse shorter than
50 ns; a full FIFO, and an edge within 100 ns, lose it and count; a read takes the oldest capture, and shows none where there is none. -/
def Sys2Proof.Machine.CapturesAreQueued : Prop :=
  (∀ t n rise held s l, LaneRuns s l → n < 8 → (getF s (Reg.TMB_TCn_CFG_edge n)).testBit (if rise then 0 else 1) = true →
    TcPasses t n held l s →
    (∀ q, q = Sparse.get tcDef (s.lane l).tmb.tcs n →
      (100 ≤ since t (Sparse.get tcLastDef (s.lane l).tmb.tcLast n) → q.length < 16 → Answers (.tcEdge t n rise held) s (fun u =>
        Sparse.get tcDef (u.lane l).tmb.tcs n = q ++ [⟨t, ltAt s l t, rise⟩] ∧ getF u (Reg.TMB_TCn_STAT_cnt n) l = q.length + 1 ∧
        Sparse.get tcLastDef (u.lane l).tmb.tcLast n = t ∧ (u.lane l).tmb.clk = (s.lane l).tmb.clk ∧ u.rec' = s.rec')) ∧
      (100 ≤ since t (Sparse.get tcLastDef (s.lane l).tmb.tcLast n) → 16 ≤ q.length → Answers (.tcEdge t n rise held) s (fun u =>
        Sparse.get tcDef (u.lane l).tmb.tcs n = q ∧
        getF u (Reg.TMB_TCn_STAT_ovf n) l = min (getF s (Reg.TMB_TCn_STAT_ovf n) l + 1) 0xFFFF)) ∧
      (since t (Sparse.get tcLastDef (s.lane l).tmb.tcLast n) < 100 → getF s (Reg.TMB_TCn_STAT_cnt n) l ≠ 0 →
        Answers (.tcEdge t n rise held) s (fun u => u.lane l = s.lane l ∧
          getF u (Reg.TMB_TCn_STAT_ovf n) l = min (getF s (Reg.TMB_TCn_STAT_ovf n) l + 1) 0xFFFF)))) ∧
  (∀ t n rise held s, s.up = true → (getF s (Reg.TMB_TCn_CFG_edge n)).testBit (if rise then 0 else 1) = false →
    (∀ l, ready s l = true → TcPasses t n held l s) → exec (.tcEdge t n rise held) s = .next (begin' t s)) ∧
  (∀ t n rise held s l, LaneRuns s l → n < 8 → ¬ TcPasses t n held l s → Answers (.tcEdge t n rise held) s (fun u =>
    u.lane l = { s.lane l with tmb := { (s.lane l).tmb with tcSkip := (u.lane l).tmb.tcSkip } } ∧
    getF u (Reg.TMB_TCn_STAT_cnt n) l = getF s (Reg.TMB_TCn_STAT_cnt n) l ∧ getF u (Reg.TMB_TCn_STAT_ovf n) l = getF s (Reg.TMB_TCn_STAT_ovf n) l)) ∧
  (∀ t ep n s e q, LaneRuns s ep → n < 8 → Sparse.get tcDef (s.lane ep).tmb.tcs n = e :: q → Answers (.tcFifoRead t ep n) s (fun u =>
    Sparse.get tcDef (u.lane ep).tmb.tcs n = q ∧ rdK u (laneKey (Reg.TMB_TCn_MTCL n) ep) = BitVec.ofNat 32 e.mtc.toNat ∧
    rdK u (laneKey (Reg.TMB_TCn_TSL n) ep) = BitVec.ofNat 32 (ltSec e.lt) ∧ getF u (Reg.TMB_TCn_TNS_ns n) ep = (e.lt % sec).toNat ∧
    getB u (Reg.TMB_TCn_TNS_rise n) ep = e.rise ∧ getF u (Reg.TMB_TCn_TNS_valid n) ep = 1 ∧
    getF u (Reg.TMB_TCn_STAT_cnt n) ep = q.length % 32 ∧ getF u (Reg.TMB_TCn_STAT_ovf n) ep = getF s (Reg.TMB_TCn_STAT_ovf n) ep ∧
    OnlyRegs [laneKey (Reg.TMB_TCn_MTCL n) ep, laneKey (Reg.TMB_TCn_MTCH n) ep, laneKey (Reg.TMB_TCn_TSL n) ep, laneKey (Reg.TMB_TCn_TSH n) ep,
      laneKey (Reg.TMB_TCn_TNS n) ep, laneKey (Reg.TMB_TCn_STAT n) ep] s u ∧ LaneOnly ep t s u)) ∧
  (∀ t ep n s, LaneRuns s ep → n < 8 → Sparse.get tcDef (s.lane ep).tmb.tcs n = [] → Answers (.tcFifoRead t ep n) s (fun u =>
    getF u (Reg.TMB_TCn_TNS_valid n) ep = 0 ∧ OnlyRegs [laneKey (Reg.TMB_TCn_TNS n) ep] s u ∧ RegsOnly t s u))

/-- R337-R341: time pulses and time captures. -/
def Obligations.TimePulsesAndCaptures : Prop := PulsesFollowTheirGenerator ∧ CapturesAreQueued

/-- A message that a port's PTP instance takes, from the port's master where it is a slave (R331). -/
def Sys2Proof.Machine.PtpAt (n : Nat) (m : PtpMsg) (st : Nat) (s : State) : Prop :=
  s.up = true ∧ ptpTakes s n m.dom m.udp = true ∧ ptpState s n = st

/-- R331-R333: Sync, Follow_Up and the messages of both path-delay mechanisms. Log entry 17 (PRESUMED: IEEE 1588) gives the formulas and leaves
the correction of a Pdelay_Resp free. -/
def Sys2Proof.Machine.PtpMeasures : Prop :=
  (∀ t n m s f, PtpAt n m 9 s → erBest s n = some f →
    (f.src = m.src → exec (.ptpSync t n m) s = .next (setPort n { ptpPort s n with sync := some (m.seq, t, m.ts, m.corr, m.twoStep) } (begin' t s))) ∧
    (f.src ≠ m.src → exec (.ptpSync t n m) s = .next (begin' t s))) ∧
  (∀ t n m s f t2 x c, PtpAt n m 9 s → erBest s n = some f → f.src = m.src → (ptpPort s n).sync = some (m.seq, t2, x, c, true) →
    exec (.ptpFollowUp t n m) s = .next (setPort n { ptpPort s n with sync := some (m.seq, t2, m.ts, c + m.corr, false) } (begin' t s))) ∧
  (∀ t n m s, PtpAt n m 6 s → ptpP2p s n = false → (active s).isSome = true → exec (.ptpDelayReq t n m) s =
    .next { begin' t s with out := [.ptp n ptpKindDelayResp m.dom m.udp m.seq (ltAt s (timeLane s) t % (2 ^ 48 * sec)) m.corr [m.src.toNat]] }) ∧
  (∀ t n m s t3 q2 t2 t1 c, PtpAt n m 9 s → ptpP2p s n = false → m.req = portId n → (ptpPort s n).req = some (m.seq, t3) →
    (ptpPort s n).sync = some (q2, t2, t1, c, false) →
    ∀ d, d = ((ltAt s (timeLane s) t2 - ltAt s (timeLane s) t3 + (m.ts - t1)) * 2 ^ 16 - (c + m.corr) - ptpAsym s n * 2 ^ 16) / 2 ^ 17 →
    Answers (.ptpDelayResp t n m) s (fun u => (ptpPort u n).mpd = d ∧ (ptpPort u n).req = none ∧ (ptpPort u n).sync = none ∧
      getF u (Reg.TMB_PTPn_STAT_mpd n) = min d.toNat 0xFFFFFF ∧ (∀ j, j ≠ n → ptpPort u j = ptpPort s j) ∧
      ∀ l, ready s l = true → (u.lane l).tmb.ptp.obs = ((⟨t2, t1 + c / 2 ^ 16 + ptpAsym s n + d - ltAt s l t2, (s.lane l).tmb.clk⟩ : ObsRec) ::
        (s.lane l).tmb.ptp.obs).take 3)) ∧
  (∀ t n m s, s.up = true → ptpTakes s n m.dom m.udp = true → ptpP2p s n = true → (active s).isSome = true → ∃ x, exec (.ptpPdelayReq t n m) s =
    .next { begin' t s with out := [.ptp n ptpKindPdelayResp m.dom m.udp m.seq (ltAt s (timeLane s) t % (2 ^ 48 * sec))
      (m.corr + ltSub s (timeLane s) t + x) [m.src.toNat]] }) ∧
  (∀ t n m s t1, s.up = true → ptpTakes s n m.dom m.udp = true → ptpP2p s n = true → m.req = portId n → (ptpPort s n).req = some (m.seq, t1) →
    (m.twoStep = true → exec (.ptpPdelayResp t n m) s =
      .next (setPort n { ptpPort s n with resp := some (m.seq, t, m.ts, m.corr) } (begin' t s))) ∧
    (m.twoStep = false → Answers (.ptpPdelayResp t n m) s (fun u => (ptpPort u n).req = none ∧
      (ptpPort u n).mpd = ((ltAt s (timeLane s) t - ltAt s (timeLane s) t1) * 2 ^ 16 - m.corr - ptpAsym s n * 2 ^ 16) / 2 ^ 17)) ∧
    (∀ t4 t2 c, (ptpPort s n).resp = some (m.seq, t4, t2, c) → Answers (.ptpPdelayRespFollowUp t n m) s (fun u =>
      (ptpPort u n).req = none ∧ (ptpPort u n).resp = none ∧
      (ptpPort u n).mpd =
        ((ltAt s (timeLane s) t4 - ltAt s (timeLane s) t1 - (m.ts - t2)) * 2 ^ 16 - (c + m.corr) - ptpAsym s n * 2 ^ 16) / 2 ^ 17)))

/-- R331, R334, R335: the best master clock algorithm after an Announce and at an announce interval; management; what a port sends at its intervals; Sync lost. Log entry 17
(PRESUMED) names the algorithm's data sets and the answers. -/
def Sys2Proof.Machine.PtpPortsRun : Prop :=
  (∀ t n a s, s.up = true → ptpTakes s n a.dom a.udp = true → getB s (Reg.TMB_PTPn_CFG_mo n) = false → ∀ f g, f = (ptpPort s n).foreign →
    g = (if f.any (fun x => x.ann.src == a.src) then f.map (fun x => if x.ann.src = a.src then ⟨a, x.n + 1, t⟩ else x)
      else if f.length < 5 then f ++ [⟨a, 1, t⟩] else f) →
    Answers (.ptpAnnounce t n a) s (fun u =>
      (ptpPort u n).foreign = g.filter (fun x => decide (since t x.at' < annTimeout s n)) ∧
      (∀ m < 8, ptpState u m =
        bmcaState (forEach dropSilent (List.range 8) (setPort n { ptpPort s n with foreign := g } (begin' t s))) m) ∧
      (∀ x g, a.utc = some x → ptpState u n = 9 → erBest u n = some g → g.src = a.src → getF u Reg.RTC_UTCOFS_ofs = x.toNat ∧ getF u Reg.RTC_UTCOFS_valid = 1) ∧ u.auth = s.auth)) ∧
  (∀ t n a s, s.up = true → ptpTakes s n a.dom a.udp = false ∨ getB s (Reg.TMB_PTPn_CFG_mo n) = true →
    exec (.ptpAnnounce t n a) s = .next (begin' t s)) ∧
  (∀ t n m s, s.up = true → exec (.ptpSignaling t n m) s = .next (begin' t s)) ∧
  (∀ t n m id s, s.up = true → ptpTakes s n m.dom m.udp = true → (active s).isSome = true →
    (0x2000 ≤ id ∧ id ≤ 0x2004 → ∃ d, ptpDataSet s n id = some d ∧ exec (.ptpManagement t n m 0 id) s =
      .next { begin' t s with out := [.ptp n ptpKindManagement m.dom m.udp m.seq 0 0 (id :: 0 :: d)] }) ∧
    (id < 0x2000 ∨ 0x2004 < id → exec (.ptpManagement t n m 0 id) s =
      .next { begin' t s with out := [.ptp n ptpKindManagement m.dom m.udp m.seq 0 0 [id, 2]] }) ∧
    exec (.ptpManagement t n m 1 id) s = .next { begin' t s with out := [.ptp n ptpKindManagement m.dom m.udp m.seq 0 0 [id, 6]] }) ∧
  (∀ t n s, s.up = true → n < 8 → getB s (Reg.TMB_PTPn_CFG_en n) = true → (active s).isSome = true →
    ∀ q, q = (fun k => Sparse.get seqDef s.ptp.seqs (16 * n + k)) →
    ∀ dom udp, dom = getF s (Reg.TMB_PTPn_CFG_dom n) → udp = getB s (Reg.TMB_PTPn_CFG_udp n) →
    (ptpState s n = 6 → exec (.ptpTxInterval t n .sync) s = .next { begin' t s with
      ptp := { s.ptp with seqs := Sparse.set seqDef s.ptp.seqs (16 * n) (q 0 + 1#16) },
      out := [.ptp n ptpKindSync dom udp (q 0) (ltAt s (timeLane s) t % (2 ^ 48 * sec)) (ltSub s (timeLane s) t) []] }) ∧
    (∀ b, b = bmca (begin' t s) → (ptpState b n = 6 → Answers (.ptpTxInterval t n .announce) s (fun u =>
        (∃ d, .ptp n ptpKindAnnounce dom udp (q 11) 0 0 d ∈ u.out ∧
          (slavePort b = none → d.take 2 = [s.cfg.prio1.toNat, (ownClass b).1] ∧ d[5]? = some clockId.toNat ∧ d[7]? = some (ownClass b).2)) ∧
        u = { b with ptp := { b.ptp with seqs := Sparse.set seqDef s.ptp.seqs (16 * n + 11) (q 11 + 1#16) }, out := u.out })) ∧
      (ptpState b n ≠ 6 → exec (.ptpTxInterval t n .announce) s = .next b)) ∧
    (ptpState s n = 9 → ptpP2p s n = false → Answers (.ptpTxInterval t n .delayReq) s (fun u =>
      (ptpPort u n).req = some (q 1, t) ∧ u.out = [.ptp n ptpKindDelayReq dom udp (q 1) 0 (-ptpAsym s n * 2 ^ 16) []] ∧ u = { begin' t s with ptp := u.ptp, out := u.out })) ∧
    (ptpP2p s n = true → Answers (.ptpTxInterval t n .pdelayReq) s (fun u =>
      (ptpPort u n).req = some (q 2, t) ∧ (ptpPort u n).resp = none ∧ u.out = [.ptp n ptpKindPdelayReq dom udp (q 2) 0 (-ptpAsym s n * 2 ^ 16) []] ∧
      u = { begin' t s with ptp := u.ptp, out := u.out }))) ∧
  (∀ t n s, s.up = true →
    (slavePort s = some n → Answers (.ptpSyncTimeout t n) s (fun u => (∀ l, ready s l = true → (u.lane l).tmb.ptp = {} ∧
      (u.lane l).tmb.gnss = (s.lane l).tmb.gnss ∧ (active s = some l → getF s Reg.TMB_STAT_state l = 1 → getF s Reg.TMB_STAT_src l = n →
        (s.lane l).tmb.gnss.qual = false → getF u Reg.TMB_STAT_state l = 2)) ∧ u.ptp = s.ptp)) ∧
    (slavePort s ≠ some n → exec (.ptpSyncTimeout t n) s = .next (begin' t s)))

/-- R331-R335: PTP. -/
def Obligations.PtpMeasuresAndElects : Prop := PtpMeasures ∧ PtpPortsRun

/-- The calendar after `k` crystal ticks, the trim applied (R344, R345). -/
def Sys2Proof.Machine.calAfter (k : Nat) (s : State) : Nat :=
  ((s.rtc.cal : Int) + k + (s.rtc.trimAcc + k * (if getB s Reg.RTC_CFG_comp then sgn 10 (getF s Reg.RTC_TRIM_trim) else 0)) / 2 ^ 23).toNat

/-- The register that the calendar writes: its time and date registers are read from it (R343, R351). -/
def Sys2Proof.Machine.calKeys : List Nat := [Reg.RTC_STATUS]

/-- Nothing waits for the next crystal tick. -/
def Sys2Proof.Machine.CalIdle (s : State) : Prop := s.rtc.shifts = [] ∧ s.rtc.load = none

/-- R342-R345, R349: the calendar counts on, in reset too, and at its end goes on from its start; a valid staged calendar waits for the next
tick and then replaces it, an impossible one is refused; a shift waits, busy, for the next tick and then advances or retards it by its
ticks, before a calendar write that waits too; the compensation curve gives the trim. -/
def Sys2Proof.Machine.CalendarCounts : Prop :=
  (∀ t k s, CalIdle s → Answers (.calendarRollover t k) s (fun u => u.rtc.cal = calAfter k s % calSpan ∧
    u.rtc.seen = s.rtc.seen ∧ (calSpan ≤ calAfter k s → getF u Reg.RTC_STATUS_roll = 1) ∧
    (calAfter k s < calSpan → u.rtc.fired0 = s.rtc.fired0) ∧ OnlyRegs calKeys s u ∧ u = { begin' t s with regs := u.regs, rtc := u.rtc })) ∧
  (∀ t s, getB s (Reg.RTC_ALMn_CTL_en 0) = false → getB s (Reg.RTC_ALMn_CTL_en 1) = false → ∀ c, c = calAfter 1 s % calSpan →
    (∀ x, s.rtc.load = some x → s.rtc.shifts = [] → Answers (.calendarRollover t 1) s (fun u => u.rtc.cal = x % calSpan ∧ CalIdle u ∧
      OnlyRegs (Reg.RTC_SHIFT :: calKeys ++ recKeys) s u ∧
      u = { begin' t s with regs := u.regs, rtc := u.rtc, rec' := u.rec' })) ∧
    (∀ n r, s.rtc.load = none → s.rtc.shifts = [(n, r)] → Answers (.calendarRollover t 1) s (fun u => CalIdle u ∧
      u.rtc.cal = (if r then c + calSpan - n else c + n) % calSpan ∧ getB u Reg.RTC_SHIFT_busy = false ∧
      OnlyRegs (Reg.RTC_SHIFT :: calKeys) s u ∧ u = { begin' t s with regs := u.regs, rtc := u.rtc })) ∧
    (∀ n r x, s.rtc.load = some x → s.rtc.shifts = [(n, r)] → Answers (.calendarRollover t 1) s (fun u => CalIdle u ∧
      u.rtc.cal = x % calSpan ∧ getB u Reg.RTC_SHIFT_busy = false))) ∧
  (∀ t ep v k s, ModWritable s ep → v.getLsbD 0 = true → CalIdle s →
    (stagedOk s = true → Answers (.calendarSet t ep v k) s (fun u => u.rtc.load = some (stagedCal s) ∧ u.rtc.shifts = [] ∧
      u.rtc.cal = calAfter k s % calSpan ∧ stagedCal s % rtcHz = 0 ∧ OnlyRegs calKeys s u ∧
      u = { begin' t s with regs := u.regs, rtc := u.rtc })) ∧
    (stagedOk s = false → Answers (.calendarSet t ep v k) s (fun u => u.rtc.cal = calAfter k s % calSpan ∧ getF u Reg.RTC_STATUS_badwrite = 1 ∧
      OnlyRegs (calKeys ++ recKeys) s u ∧ u = { begin' t s with regs := u.regs, rtc := u.rtc, rec' := u.rec' }))) ∧
  (∀ t ep v k s, s.up = false → CalIdle s → Answers (.calendarSet t ep v k) s (fun u => u.rtc.cal = calAfter k s % calSpan ∧
    u = { begin' t s with regs := u.regs, rtc := u.rtc })) ∧
  (∀ t ep v k s, ModWritable s ep → v.toNat % 2 ^ 15 ≠ 0 → v.getLsbD 16 = true → CalIdle s →
    Answers (.subsecondShift t ep v k) s (fun u => u.rtc.shifts = [(v.toNat % 2 ^ 15, v.getLsbD 15)] ∧ u.rtc.load = none ∧
      getB u Reg.RTC_SHIFT_busy = true ∧ u.rtc.cal = calAfter k s % calSpan ∧ getF u Reg.RTC_SHIFT_n = v.toNat % 2 ^ 15 ∧ OnlyRegs (Reg.RTC_SHIFT :: calKeys) s u ∧
      u = { begin' t s with regs := u.regs, rtc := u.rtc })) ∧
  (∀ t temp k s, getB s Reg.RTC_CFG_comp = true → CalIdle s → Answers (.rtcCompensation t temp k) s (fun u =>
    u.rtc.cal = calAfter k s % calSpan ∧ getF u Reg.RTC_TRIM_temp = temp.toNat ∧
    sgn 10 (getF u Reg.RTC_TRIM_trim) = max (-511) (min 511 (curveAt (sgn 8 temp.toNat) s.rtc.curve)) ∧
    OnlyRegs (Reg.RTC_TRIM :: calKeys) s u ∧ u = { begin' t s with regs := u.regs, rtc := u.rtc }))

/-- R328, R346, R347: an alarm that matches fires once; in SYNC the calendar is compared with local time, a shift ordered within a second and only
recorded beyond; local time that is not set is set equal to the calendar at its first second; a read of RTC_TIME latches date and year. -/
def Sys2Proof.Machine.CalendarServes : Prop :=
  (∀ t n k s, CalIdle s → n < 2 → getB s (Reg.RTC_ALMn_CTL_en n) = true → getB s (Reg.RTC_ALMn_CTL_wake n) = false → ∀ v, v = rtcTicks k (begin' t s) →
    almCount v n (calSec v) (calSec v + 1) = 1 →
    (firedAt v n = none ∨ (∃ x, firedAt v n = some x ∧ x < calSec v) → Answers (.rtcAlarm t n k) s (fun u =>
      getF u (almBit n) = 1 ∧ getB u (almLate n) = false ∧ firedAt u n = some (calSec v) ∧ firedAt u (1 - n) = firedAt v (1 - n) ∧
      u.rtc.cal = calAfter k s % calSpan ∧ OnlyRegs calKeys s u ∧ u = { begin' t s with regs := u.regs, rtc := u.rtc })) ∧
    ((∃ x, firedAt v n = some x ∧ calSec v ≤ x) → exec (.rtcAlarm t n k) s = .next v)) ∧
  (∀ t k s l, s.up = true → CalIdle s → active s = some l → getB s Reg.RTC_CFG_track = true → ∀ v c, v = rtcTicks k (begin' t s) → c = calAfter k s % calSpan →
    (getF s Reg.TMB_STAT_state l ≠ 1 → Answers (.rtcTracking t k) s (fun u => u.rtc = v.rtc ∧ getB u Reg.RTC_STATUS_trk = false ∧
      OnlyRegs calKeys s u)) ∧
    (getF s Reg.TMB_STAT_state l = 1 → ∀ e : Int, e = ((calTai v * rtcHz + c % rtcHz) * sec / rtcHz : Nat) - ltAt s l t →
      (e.natAbs < ms → Answers (.rtcTracking t k) s (fun u => u.rtc = { v.rtc with err := e } ∧ getB u Reg.RTC_STATUS_trk = true ∧
        OnlyRegs calKeys s u ∧ u.rec' = s.rec')) ∧
      (ms ≤ e.natAbs → e.natAbs < sec →
        ∀ j, j = min 32767 ((e.natAbs * rtcHz * 2 + sec) / (2 * sec)) → Answers (.rtcTracking t k) s (fun u =>
          u.rtc = { v.rtc with err := e, shifts := [(j, decide (0 < e))] } ∧ getB u Reg.RTC_SHIFT_busy = true ∧
          OnlyRegs (Reg.RTC_SHIFT :: calKeys) s u ∧ u.rec' = s.rec')) ∧
      (sec ≤ e.natAbs → Answers (.rtcTracking t k) s (fun u => u.rtc = { v.rtc with err := e } ∧
        u.rec' = (raise .rtc Ev.RTC_OFFSET (satInt 32 (e / ms)) (begin' t s)).rec' ∧ OnlyRegs (calKeys ++ recKeys) s u)))) ∧
  (∀ t k s l, s.up = true → CalIdle s → calAfter k s % calSpan % rtcHz = 0 → (s.lane l).tmb.set = false →
    active s = none ∨ active s = some l ∨ getF s Reg.TMB_STAT_state l.other = 0 → Answers (.rtcFirstSecond t k) s (fun u =>
      (u.lane l).tmb.set = true ∧ ltAt u l t = (calTai u * sec : Nat) ∧ u.rtc.cal = calAfter k s % calSpan)) ∧
  (∀ t k s, s.up = true → CalIdle s → calAfter k s % calSpan % rtcHz ≠ 0 → Answers (.rtcFirstSecond t k) s (fun u =>
    u.rtc.cal = calAfter k s % calSpan ∧ (∀ l, u.lane l = s.lane l) ∧ OnlyRegs calKeys s u)) ∧
  (∀ ep s, decommissioned s = false → regRead s ep Reg.RTC_TIME = rtcTimeWord s.rtc.cal ∧
    regRead (afterRead Reg.RTC_TIME s) ep Reg.RTC_DATE = rtcDateWord s.rtc.cal ∧
    regRead (afterRead Reg.RTC_TIME s) ep Reg.RTC_YEAR = rtcYearWord s.rtc.cal ∧ regRead s ep Reg.RTC_YEAR = rtcYearWord s.rtc.seen)

/-- R328, R342-R347: the real-time clock. Log entry 18 (DESIGN CHOICE) makes the ticks counted an operand of its commands. -/
def Obligations.CalendarCountsAndServes : Prop := CalendarCounts ∧ CalendarServes

/-! GNSS (R188-R213). -/

/-- The state after a command of one GNSS channel: no other channel, and only the channel's registers and the lane's counts, differ. -/
def Sys2Proof.Machine.ChannelOnly (l : Lane) (c : Nat) (t : Time) (s u : State) : Prop :=
  (∀ d, d ≠ c → gch u l d = gch s l d) ∧
  OnlyRegs [laneKey (Reg.GNB_CHn_STAT c) l, laneKey (Reg.GNB_IFn_STAT (c / 40)) l, laneKey Reg.GNB_STAT l, laneKey Reg.GNB_CNT l] s u ∧
  u.lane l = { s.lane l with gnb := { (s.lane l).gnb with chs := (u.lane l).gnb.chs } } ∧ LaneOnly l t s u

/-- R196, R197, R200, R201: an accumulation boundary runs both oscillators over its samples, hands the six sums to the firmware, makes the
waiting words take effect and holds the new ones for the next (or, late, the one after); in TRACK a lock indicator that falls below 0.6, or a
deviation above a quarter cycle, is a slip; samples that end at no boundary change nothing. A detection within the ranges and thresholds of
R199 starts PULLIN, and no other. The states follow R196. -/
def Sys2Proof.Machine.ChannelsChangeState : Prop :=
  (∀ t l d s, LaneRuns s l → d.ch < 160 → gnbOn s l = true → ∀ v, v = gch s l d.ch →
    (v.st = 2 ∨ v.st = 3 → atBoundary v (parNow s l v d.ch) d.samples.length = true →
      ∀ xs p r, xs = sumsOf s l d → p = parOf (s.lane l).gnb d.ch v.sig → r = (loopStep s d.ch v p xs d.samples.length).2 →
      Answers (.correlatorDump t l d) s (fun u => ∀ w, w = gch u l d.ch →
      (w.car, w.cod) = v.next1.getD (v.car, v.cod) ∧ w.sums = xs ∧ xs.length = 12 ∧ w.pli = lockOf xs ∧ w.st = v.st ∧ w.pin = v.pin ∧
      w.par = some p ∧ codTot w = (codTot v + d.samples.length * v.cod.toNat) % (codeChips v.sig * 2 ^ 32) ∧
      w.per = v.per + BitVec.ofNat 32 (periodsIn v d.samples.length) ∧
      w.carFrac = v.carFrac + BitVec.ofNat 32 d.samples.length * v.car ∧
      w.next1 = (if d.late then v.next2 else some r) ∧ w.next2 = (if d.late then some r else none) ∧
      w.lo = (if F64.lt (lockOf xs) pliLo then v.lo.or (some t) else none) ∧
      w.slips = (if slipsAt s l d then v.slips + 1#8 else v.slips) ∧
      (v.st = 3 → F64.lt (lockOf xs) pliLo = true → v.lo = none → w.slips = v.slips + 1#8) ∧ ChannelOnly l d.ch t s u)) ∧
    (v.st < 2 ∨ v.st = 4 ∨ atBoundary v (parNow s l v d.ch) d.samples.length = false → exec (.correlatorDump t l d) s = .next (begin' t s))) ∧
  (∀ t l c d s, LaneRuns s l → c < 160 → gnbOn s l = true →
    ((gch s l c).st = 1 ∨ (gch s l c).st = 4 → detects (begin' t s) l c d = true → Answers (.acqDetection t l c d) s (fun u =>
      (gch u l c).st = 2 ∧ (gch u l c).car = d.car ∧ (gch u l c).cod = codeWord s c (gch s l c) d.car 0#64 ∧ (gch u l c).chip = d.chip ∧
      (gch u l c).codFrac = d.frac ∧ carTot (gch u l c) = 0 ∧ (gch u l c).smp = 0 ∧ (gch u l c).cn0 = d.cn0 ∧
      (gch u l c).tIn = t ∧ (gch u l c).sig = (gch s l c).sig ∧
      (gch u l c).sat = (gch s l c).sat ∧ getF u (Reg.GNB_CHn_STAT_state c) l = 2 ∧ ChannelOnly l c t s u)) ∧
    (detects (begin' t s) l c d = false ∨ ((gch s l c).st ≠ 1 ∧ (gch s l c).st ≠ 4) → exec (.acqDetection t l c d) s = .next (begin' t s)) ∧
    (d.sums = 0 ∨ 20 < d.sums ∨ F64.lt d.cn0 (F64.ofInt 32) = true ∨
      ((gch s l c).st = 4 ∧ 5 * sec ≤ since t (gch s l c).tIn) → exec (.acqDetection t l c d) s = .next (begin' t s))) ∧
  (∀ t l c s, LaneRuns s l → c < 160 → (gch s l c).st = 2 →
    (sec ≤ since t (gch s l c).tIn → Answers (.pullinTimeout t l c) s (fun u => (gch u l c).st = 1 ∧ (gch u l c).tIn = t ∧
      (gch u l c).sig = (gch s l c).sig ∧ ChannelOnly l c t s u)) ∧
    (since t (gch s l c).tIn < sec → exec (.pullinTimeout t l c) s = .next (begin' t s)) ∧
    (∀ x, (gch s l c).hi = some x → (100 * ms ≤ since t x → Answers (.phaseLock t l c) s (fun u => (gch u l c).st = 3 ∧
      (gch u l c).tTrk = t ∧ (gch u l c).slips = (gch s l c).slips ∧ getF u (Reg.GNB_CHn_STAT_state c) l = 3 ∧ ChannelOnly l c t s u)) ∧
      (since t x < 100 * ms → exec (.phaseLock t l c) s = .next (begin' t s)))) ∧
  (∀ t l c s, LaneRuns s l → c < 160 → (gch s l c).st = 3 →
    ((∃ x, (gch s l c).lo = some x ∧ 200 * ms ≤ since t x) ∨ (∃ x, (gch s l c).low = some x ∧ sec ≤ since t x) →
      Answers (.trackLoss t l c) s (fun u => (gch u l c).st = 4 ∧ (gch u l c).cont = false ∧ ChannelOnly l c t s u)) ∧
    ((gch s l c).lo = none → (gch s l c).low = none → exec (.trackLoss t l c) s = .next (begin' t s))) ∧
  (∀ t l c s, LaneRuns s l → c < 160 → (gch s l c).st = 4 →
    (5 * sec ≤ since t (gch s l c).tIn → Answers (.lostTimeout t l c) s (fun u => (gch u l c).st = 0 ∧ (gch u l c).pin = (gch s l c).pin ∧
      getF u Reg.GNB_CNT_acqfail l = min (getF s Reg.GNB_CNT_acqfail l + 1) 4095 ∧ ChannelOnly l c t s u)) ∧
    (since t (gch s l c).tIn < 5 * sec → exec (.lostTimeout t l c) s = .next (begin' t s)))

/-- R192, R198, R211, R326: a port that fails loses its channels and is recorded, and recovers; a decoded data set is used from the next epoch
unless a newer one is held; in Lay-up a snapshot is captured, processed and gives a fix, with x.GNB powered for it alone. -/
def Sys2Proof.Machine.PortsAndSnapshots : Prop :=
  (∀ t l n stuck s, LaneRuns s l → n < 4 → gnbOn s l = true → getB s (Reg.GNB_IFn_CFG_en n) = true →
    getB s (Reg.GNB_IFn_STAT_fault n) l = false → Answers (.ifPortFault t l n stuck) s (fun u =>
      getF u (Reg.GNB_IFn_STAT_fault n) l = 1 ∧ getB u (Reg.GNB_IFn_STAT_act n) l = stuck ∧
      (∀ c ∈ portChs n, (gch s l c).st ≠ 0 → (gch u l c).st = 4 ∧ (gch u l c).sig = (gch s l c).sig) ∧
      (∀ c, c ∉ portChs n ∨ (gch s l c).st = 0 → gch u l c = gch s l c) ∧
      u.rec' = (raise (laneSrc l 8) Ev.GNB_IFFLT (n + 256 * b2n stuck) (begin' t s)).rec' ∧ LaneAndAlarms l t s u ∧ u.out = [])) ∧
  (∀ t l n stuck s, LaneRuns s l → getB s (Reg.GNB_IFn_CFG_en n) = false → exec (.ifPortFault t l n stuck) s = .next (begin' t s)) ∧
  (∀ t l n s, LaneRuns s l → n < 4 → getB s (Reg.GNB_IFn_STAT_fault n) l = true → Answers (.ifPortOk t l n) s (fun u =>
    getF u (Reg.GNB_IFn_STAT_fault n) l = 0 ∧ getF u (Reg.GNB_IFn_STAT_act n) l = 1 ∧
    u.rec' = (raise (laneSrc l 8) Ev.GNB_IFOK n (begin' t s)).rec' ∧
    OnlyRegs (laneKey (Reg.GNB_IFn_STAT n) l :: recKeys) s u ∧ RegsAndRecords t s u)) ∧
  (∀ t l n s, LaneRuns s l → getB s (Reg.GNB_IFn_STAT_fault n) l = false → exec (.ifPortOk t l n) s = .next (begin' t s)) ∧
  (∀ t l d s, LaneRuns s l → ∀ r same, r = (⟨sysOf d.sig, d.sat, d.kind, d.issue, d.bytes⟩ : NavRec) →
    same = (fun x : NavRec => x.sys == r.sys && x.sat == r.sat && x.kind == r.kind) →
    ((∀ x ∈ (s.lane l).gnb.nav ++ (s.lane l).gnb.navNew, same x = true → x.issue ≤ r.issue) → Answers (.navigationMessageDecoded t l d) s (fun u =>
      u = onGnb l (fun g => { g with navNew := g.navNew.filter (fun x => !same x) ++ [r] }) (begin' t s))) ∧
    ((∃ x ∈ (s.lane l).gnb.nav ++ (s.lane l).gnb.navNew, same x = true ∧ r.issue < x.issue) →
      exec (.navigationMessageDecoded t l d) s = .next (begin' t s))) ∧
  (∀ t l x e s, LaneRuns s l → (s.lane l).gnb.cap = some e → modeNow s = .layup →
    (getF s Reg.GNB_SNAP_len * ms ≤ since t e → Answers (.snapshotCaptureEnd t l x) s (fun u =>
      (u.lane l).gnb = { (s.lane l).gnb with cap := none, proc := some e, snap := x.filter (fun p => p.1 < 4 && bit (getF s Reg.GNB_SNAP_ports) p.1) } ∧
      gnbOn u l = true ∧ (∀ n < 4, getB u (Reg.GNB_IFn_STAT_act n) l = false) ∧
      ((s.lane l).gnb.ifen = false → (s.lane l.other).gnb.ifen = false → (s.lane l.other).gnb.cap = none →
        ∀ n < 4, u.ifen.getLsbD n = false) ∧
      OnlyRegs (Reg.PWR_STAT :: (List.range 4).map (fun n => laneKey (Reg.GNB_IFn_STAT n) l)) s u ∧ u.rec' = s.rec' ∧ u.lane l.other = s.lane l.other)) ∧
    (since t e < getF s Reg.GNB_SNAP_len * ms → exec (.snapshotCaptureEnd t l x) s = .next (begin' t s))) ∧
  (∀ t l e s, LaneRuns s l → (s.lane l).gnb.proc = some e → modeNow s = .layup → leavesLayup s = false →
    ∀ x, x = fixOf s l e (snapObs s l e) →
    (∀ y, x = some y → F64.le y.pdop (F64.ofInt 6) = true ∧ y.unknowns + 1 ≤ (fixObs s l e (snapObs s l e)).length) ∧
    Answers (.snapshotProcessed t l) s (fun u =>
      (u.lane l).gnb = { (s.lane l).gnb with proc := none, snap := [], clkSw := false, fix := (x.map (fun y => (y, e))).or (s.lane l).gnb.fix } ∧
      getF u Reg.GNB_STAT_snap l = 0 ∧ getF u Reg.GNB_STAT_fix l = b2n x.isSome ∧ gnbOn u l = false ∧
      (active s = some l → (x = none → (u.lane l).tmb.gnss = { (s.lane l).tmb.gnss with missSnap := (s.lane l).tmb.gnss.missSnap + 1 }) ∧
        (∀ y, x = some y → (u.lane l).tmb.gnss.obs =
          ((⟨e, 19 * sec - scaled 336 sec y.clkBias, (s.lane l).tmb.clk⟩ : ObsRec) :: (s.lane l).tmb.gnss.obs).take 3)))) ∧
  (∀ t l s, LaneRuns s l → (s.lane l).gnb.proc = none → exec (.snapshotProcessed t l) s = .next (begin' t s))

/-- R192, R196-R201, R211: GNSS channels, ports, navigation data and snapshots. -/
def Obligations.GnssChannelsAndSnapshots : Prop := ChannelsChangeState ∧ PortsAndSnapshots

/-! Metrology (R214-R252). -/

/-- What a port tests of a frame (R220, R222): marker, CRC, and the sequence number it expects. -/
def Sys2Proof.Machine.frameOk (a : ApSt) (bits : BitVec 288) : Bool :=
  mgmt (descramble a.scr bits) 28 4 == 6 && mgmt (descramble a.scr bits) 0 8 == (crc8 (descramble a.scr bits)).toNat &&
    (match a.seq with
     | some q => mgmt (descramble a.scr bits) 24 4 == q
     | none => true)

/-- A lane in which a port and the streams and validity of its channels alone may differ: its billing registers, pulse generators and
samples, the other ports' channels and what else a channel holds are as before. -/
def Sys2Proof.Machine.LinkOnly (l : Lane) (n : Nat) (s u : State) : Prop :=
  u.lane l = { s.lane l with met := { (s.lane l).met with aps := (u.lane l).met.aps, chs := (u.lane l).met.chs } } ∧
  (∀ k, k ≠ n → apSt u l k = apSt s l k) ∧ (∀ c, c ∉ apChs n → metCh u l c = metCh s l c) ∧
  (∀ c, metCh u l c = { metCh s l c with
    lo := (metCh u l c).lo, hi := (metCh u l c).hi, from' := (metCh u l c).from', spans := (metCh u l c).spans }) ∧ u.lane l.other = s.lane l.other ∧ u.out = [] ∧
  u.auth = s.auth ∧ u.kpr = s.kpr ∧ u.cfg = s.cfg

/-- The ticks of a frame stand in a channel's windows, the last one in bit 0, after those received before (R218, R223). -/
def Sys2Proof.Machine.TicksTaken (d : BitVec 288) (p : Nat) (x y : MetCh) : Prop :=
  (∀ i < 16, y.lo.win.getLsbD (15 - i) = d.getLsbD (18 * i + 2 * p) ∧ y.hi.win.getLsbD (15 - i) = d.getLsbD (18 * i + 2 * p + 1)) ∧
  (∀ j, 16 ≤ j → j < 1873 → y.lo.win.getLsbD j = x.lo.win.getLsbD (j - 16) ∧ y.hi.win.getLsbD j = x.hi.win.getLsbD (j - 16))

/-- R218, R222, R223, R234: four good frames in a row lock a port in HUNT, three bad ones in a row unlock it and its channels are no longer valid; a
silent line goes back to ALIGN, a found phase to HUNT; a port that is DOWN or in ALIGN takes no frame; a port in LOCKED delivers the ticks of
every frame to its channels. A channel keeps the span in which it was valid. -/
def Sys2Proof.Machine.PortsLockAndUnlock : Prop :=
  (∀ t l n bits s, LaneRuns s l → n < 24 → ∀ a d, a = apSt s l n → d = descramble a.scr bits →
    (getF s (Reg.MET_APn_STAT_state n) l = 2 → frameOk a bits = true → Answers (.apFrame t l n bits) s (fun u =>
      (apSt u l n).good = a.good + 1 ∧ (apSt u l n).bad = 0 ∧ (apSt u l n).seq = some ((mgmt d 24 4 + 1) % 16) ∧
      (apSt u l n).scr = (bits >>> 230).setWidth 58 ∧ getF u (Reg.MET_APn_STAT_state n) l = (if 4 ≤ a.good + 1 then 3 else 2) ∧
      getF u (Reg.MET_APn_STAT_status n) l = mgmt d 16 8 ∧ LinkOnly l n s u)) ∧
    (getF s (Reg.MET_APn_STAT_state n) l = 3 → frameOk a bits = true → Answers (.apFrame t l n bits) s (fun u =>
      (apSt u l n).bad = 0 ∧ getF u (Reg.MET_APn_STAT_state n) l = 3 ∧ getF u (Reg.MET_APn_STAT_temp n) l = mgmt d 8 8 ∧
      (∀ p < 8, TicksTaken d p (metCh s l (8 * n + p)) (metCh u l (8 * n + p))) ∧ LinkOnly l n s u)) ∧
    (getF s (Reg.MET_APn_STAT_state n) l = 3 → frameOk a bits = false → Answers (.apFrame t l n bits) s (fun u =>
      getF u (Reg.MET_APn_ERR_badfr n) l = min (getF s (Reg.MET_APn_ERR_badfr n) l + 1) 0xFFFF ∧
      getF u Reg.MET_CNT_badfr l = min (getF s Reg.MET_CNT_badfr l + 1) 0xFFFF ∧
      (a.bad < 2 → (apSt u l n).bad = a.bad + 1 ∧ getF u (Reg.MET_APn_STAT_state n) l = 3 ∧ u.rec' = s.rec') ∧
      (2 ≤ a.bad → getF u (Reg.MET_APn_STAT_state n) l = 2 ∧ (apSt u l n).okAt = none ∧
        getF u (Reg.MET_APn_ERR_unlk n) l = min (getF s (Reg.MET_APn_ERR_unlk n) l + 1) 255 ∧
        (∀ c ∈ apChs n, getF u (Reg.MET_CHn_STAT_valid c) l = 0 ∧ getF u (Reg.MET_CHn_STAT_sel c) l = getF s (Reg.MET_CHn_STAT_sel c) l ∧ (metCh u l c).from' = none ∧
          ∀ x, (metCh s l c).from' = some x → (x, t) ∈ (metCh u l c).spans)) ∧
      (∀ p < 8, TicksTaken d p (metCh s l (8 * n + p)) (metCh u l (8 * n + p))) ∧ LinkOnly l n s u)) ∧
    (getF s (Reg.MET_APn_STAT_state n) l < 2 → exec (.apFrame t l n bits) s = .next (begin' t s))) ∧
  (∀ t l n s, LaneRuns s l → n < 24 →
    (getF s (Reg.MET_APn_STAT_state n) l = 3 → Answers (.apLineTimeout t l n) s (fun u => getF u (Reg.MET_APn_STAT_state n) l = 1 ∧
      getF u (Reg.MET_APn_STAT_idv n) l = 0 ∧ u.rec' = (raise (laneSrc l 9) Ev.MET_APUNLK n (begin' t s)).rec' ∧
      (∀ c ∈ apChs n, getF u (Reg.MET_CHn_STAT_valid c) l = 0) ∧ LinkOnly l n s u)) ∧
    (getF s (Reg.MET_APn_STAT_state n) l = 2 → Answers (.apLineTimeout t l n) s (fun u => getF u (Reg.MET_APn_STAT_state n) l = 1 ∧
      OnlyRegs [laneKey (Reg.MET_APn_STAT n) l] s u ∧ LinkOnly l n s u ∧ LaneOnly l t s u)) ∧
    (getF s (Reg.MET_APn_STAT_state n) l < 2 → exec (.apLineTimeout t l n) s = .next (begin' t s)) ∧
    (getF s (Reg.MET_APn_STAT_state n) l = 1 → Answers (.apPhaseFound t l n) s (fun u => getF u (Reg.MET_APn_STAT_state n) l = 2 ∧
      apSt u l n = { scr := (apSt s l n).scr } ∧ OnlyRegs [laneKey (Reg.MET_APn_STAT n) l] s u ∧ LinkOnly l n s u ∧ LaneOnly l t s u)) ∧
    (getF s (Reg.MET_APn_STAT_state n) l ≠ 1 → exec (.apPhaseFound t l n) s = .next (begin' t s)))

/-- R216, R222, R234, R496: enabling a port drives its clock, while a lane is Active, and starts ALIGN in the ready lanes, disabling it takes it DOWN; a delay out of range
is refused; a channel of a port that has been valid for its settling time is valid. -/
def Sys2Proof.Machine.PortsAreEnabled : Prop :=
  (∀ t ep n v s, ModWritable s ep → lockRefuses s = false → n < 24 →
    (v.getLsbD 0 = true → 16 ≤ v.toNat / 2 % 256 → getB s (Reg.MET_APn_CFG_en n) = false → Answers (.apEnable t ep n v) s (fun u =>
      getB u (Reg.MET_APn_CFG_en n) = true ∧ u.mclk.getLsbD n = (active s).isSome ∧
      ((active s).isSome = true → s.mclk.getLsbD n = false → .pin 6 n true ∈ u.out) ∧
      (∀ l, ready s l = true → getF s (Reg.MET_APn_STAT_state n) l = 0 → getF u (Reg.MET_APn_STAT_state n) l = 1 ∧ apSt u l n = {}) ∧
      OnlyRegs [Reg.MET_APn_CFG n, laneKey (Reg.MET_APn_STAT n) .a, laneKey (Reg.MET_APn_STAT n) .b] s u ∧ u.rec' = s.rec')) ∧
    (v.toNat / 2 % 256 < 16 → Answers (.apEnable t ep n v) s (OnlyRecords t (laneSrc ep 9) Ev.METCFG (Reg.MET_APn_CFG n) s)) ∧
    (v.getLsbD 0 = false → 16 ≤ v.toNat / 2 % 256 → getB s (Reg.MET_APn_CFG_en n) = true → Answers (.apDisable t ep n v) s (fun u =>
      getB u (Reg.MET_APn_CFG_en n) = false ∧ u.mclk.getLsbD n = false ∧ (s.mclk.getLsbD n = true → .pin 6 n false ∈ u.out) ∧ u.rec' = s.rec' ∧
      (∀ l, ready s l = true → getF u (Reg.MET_APn_STAT_state n) l = 0 ∧
        (getF s (Reg.MET_APn_STAT_state n) l ≠ 0 → apSt u l n = {} ∧ ∀ c ∈ apChs n, getF u (Reg.MET_CHn_STAT_valid c) l = 0))))) ∧
  (∀ t l c s x, LaneRuns s l → c < 192 → getB s (Reg.MET_CHn_CFG_en c) = true → (apSt s l (c / 8)).okAt = some x →
    (settleNs s c ≤ since t x → Answers (.channelSettle t l c) s (fun u => getF u (Reg.MET_CHn_STAT_valid c) l = 1 ∧
      metCh u l c = { metCh s l c with from' := (metCh s l c).from'.or (some t) } ∧ (∀ k, k ≠ c → metCh u l k = metCh s l k) ∧
      (u.lane l).met = { (s.lane l).met with chs := (u.lane l).met.chs } ∧ OnlyRegs [laneKey (Reg.MET_CHn_STAT c) l] s u ∧ LaneOnly l t s u)) ∧
    (since t x < settleNs s c → exec (.channelSettle t l c) s = .next (begin' t s))) ∧
  (∀ t l c s, LaneRuns s l → (apSt s l (c / 8)).okAt = none → exec (.channelSettle t l c) s = .next (begin' t s))

/-- R216, R222, R223, R234: the acquisition link. -/
def Obligations.AcquisitionPortsLock : Prop := PortsLockAndUnlock ∧ PortsAreEnabled

/-- A billing register of a point with its fraction, in units of 2^-32 (R241). -/
def Sys2Proof.Machine.billReg (s : State) (l : Lane) (n code : Nat) : Nat := Sparse.get (fun _ => 0) (metPt s l n).tot code

/-- A sample on the grid and newer than the last, in a lane whose registers are loaded, with one point configured (R230, R238, R244). -/
def Sys2Proof.Machine.SampleAt (t : Time) (l : Lane) (n : Nat) (c : PointCfg) (s : State) : Prop :=
  LaneRuns s l ∧ (s.lane l).met.loaded = true ∧ (s.lane l).tmb.set = false ∧ n < 96 ∧ s.cfg.points = [(n, c)] ∧
  (t - BitVec.ofNat 64 (10 * ms)).toNat % 125000 = 0 ∧ (t - BitVec.ofNat 64 (10 * ms)).toNat % sec ≠ 0 ∧
  (∀ x, (s.lane l).met.last = some x → atOrAfter (t - BitVec.ofNat 64 (10 * ms)) x = true ∧ t - BitVec.ofNat 64 (10 * ms) ≠ x)

/-- The samples of the channels at instant `t` (R226-R232). -/
def Sys2Proof.Machine.samplesAt (t : Time) (l : Lane) (s : State) : List (Nat × ChVal) :=
  (chSamples l (t - BitVec.ofNat 64 (10 * ms)) (metChs s) (begin' t s)).1

/-- Whether a channel has a valid sample at instant `t` (R234, R239). -/
def Sys2Proof.Machine.sampleOk (t : Time) (l : Lane) (s : State) (k : Nat) : Bool :=
  decide (k < 192) && chValid (begin' t s) l (t - BitVec.ofNat 64 (10 * ms)) k

/-- R236-R241: a sample adds its energy to the register of its direction modulo 2^96 of its units, apparent energy and the quadrant of a reactive
one to theirs, with the means of an AC point over its window and its rms values shown; R239: a point without all its channels is in a gap and
its registers stay. The filters' coefficients and the rounding of a sample's amount are open (log entries 11 and 83): the amount is metInc of
the value. -/
def Sys2Proof.Machine.SamplesAreAccumulated : Prop :=
  (∀ t l n c s v i, SampleAt t l n c s → c.kind = 4 → c.chs = [v, i] → (metPt s l n).gapAt = none →
    sampleOk t l s v = true → sampleOk t l s i = true → ∀ xs xi p, xs = samplesAt t l s → xi = mDir c.rev (valOf xs i).v →
    p = mMul (valOf xs v).v xi → Answers (.metrologySample t l) s (fun u =>
      billReg u l n (if mNeg p then 1 else 0) = (billReg s l n (if mNeg p then 1 else 0) + metInc p) % 2 ^ 96 ∧
      billReg u l n (if mNeg p then 0 else 1) = billReg s l n (if mNeg p then 0 else 1) ∧
      billReg u l n (if mNeg xi then 8 else 7) = (billReg s l n (if mNeg xi then 8 else 7) + metInc xi) % 2 ^ 96 ∧
      getF u (Reg.MET_PTn_STAT_valid n) l = 1 ∧ (u.lane l).met.last = some (t - BitVec.ofNat 64 (10 * ms)) ∧
      (∀ k, k ≠ n → metPt u l k = metPt s l k) ∧ (u.lane l).slv = (s.lane l).slv ∧ u.lane l.other = s.lane l.other ∧ u.auth = s.auth)) ∧
  (∀ t l n c s, SampleAt t l n c s → c.kind = 1 ∨ c.kind = 2 ∨ c.kind = 3 → (metPt s l n).gapAt = none →
    (∀ k ∈ c.chs, sampleOk t l s k = true) → ∀ h x p q, h = (ptSample c (samplesAt t l s) :: ptWin s l n).take 402 →
    x = acVals (getB s Reg.MET_CFG_fnom) c.kind h → p = mDir c.rev x.p → q = mDir c.rev x.q → Answers (.metrologySample t l) s (fun u =>
      billReg u l n (if mNeg p then 1 else 0) = (billReg s l n (if mNeg p then 1 else 0) + metInc p) % 2 ^ 96 ∧
      billReg u l n 6 = (billReg s l n 6 + metInc (metApparent c.kind x)) % 2 ^ 96 ∧
      (∀ k, k = (if mNeg q then (if mNeg p then 4 else 5) else if mNeg p then 3 else 2) →
        billReg u l n k = (billReg s l n k + metInc q) % 2 ^ 96) ∧ ptWin u l n = h ∧
      (metPt u l n).vals = [mToF p, mToF q, mToF (metApparent c.kind x)] ++ x.v ++ x.i ++ [x.f] ∧
      (u.lane l).met.last = some (t - BitVec.ofNat 64 (10 * ms)) ∧ u.lane l.other = s.lane l.other)) ∧
  (∀ t l n c s, SampleAt t l n c s → c.kind ≠ 0 → (metPt s l n).gapAt = none → (∃ k ∈ c.chs, sampleOk t l s k = false) →
    Answers (.metrologySample t l) s (fun u =>
      (∀ code, billReg u l n code = billReg s l n code) ∧ (metPt u l n).gapAt = some (t - BitVec.ofNat 64 (10 * ms)) ∧
      getF u (Reg.MET_PTn_STAT_valid n) l = 0 ∧ getF u Reg.MET_CNT_gaps l = min (getF s Reg.MET_CNT_gaps l + 1) 0xFFFF)) ∧
  (∀ t l s, LaneRuns s l → (t - BitVec.ofNat 64 (10 * ms)).toNat % 125000 ≠ 0 ∨ (s.lane l).met.last = some (t - BitVec.ofNat 64 (10 * ms)) →
    exec (.metrologySample t l) s = .next (begin' t s))

/-- R233, R243-R252: a pulse ends after its width; the totals are saved each second to the slots in turn and a lane that waits loads them; range
match moves the low-range constants of the Active lane within their limits, in both lanes from the next second, and a Standby's fit is only kept; a snapshot latches a point's registers. -/
def Sys2Proof.Machine.BillingIsServed : Prop :=
  (∀ t l n s e, LaneRuns s l → (active s).isSome = true → n < 8 → (metPo s l n).busy = some e →
    (atOrAfter t e = true → Answers (.pulseEnd t l n) s (fun u => metPo u l n = { metPo s l n with busy := none, fin := some e } ∧
      getB u (Reg.MET_POn_STAT_level n) l = false ∧ (active s = some l → u.poOut.getLsbD n = getB s (Reg.MET_POn_CFG_pol n)) ∧
      (∀ k, k ≠ n → metPo u l k = metPo s l k) ∧ (u.lane l).met.pts = (s.lane l).met.pts ∧
      OnlyRegs [laneKey (Reg.MET_POn_STAT n) l, laneKey (Reg.MET_POn_OWED n) l] s u ∧ u.rec' = s.rec')) ∧
    (atOrAfter t e = false → exec (.pulseEnd t l n) s = .next (begin' t s))) ∧
  (∀ t s l, LaneRuns s l → active s = some l → (t - BitVec.ofNat 64 (10 * ms)).toNat % sec = 0 → (s.lane l).met.loaded = true →
    ∀ q, q = ((latestSlot s).map (·.seq)).getD 0 + 1 → Answers (.billingSave t) s (fun u =>
      (if q % 2 = 0 then u.met0 else u.met1) = some (slotOf s l (t - BitVec.ofNat 64 (10 * ms)) q) ∧
      (if q % 2 = 0 then u.met1 else u.met0) = (if q % 2 = 0 then s.met1 else s.met0) ∧ u.lane l = s.lane l ∧
      (∀ k, ready s k = true → getF u Reg.MET_STAT_ldr k = 0 ∧
        (k ≠ l → getB s Reg.MET_STAT_ldr k = true → (u.lane k).met.loaded = true) ∧
        (k = l ∨ getB s Reg.MET_STAT_ldr k = false → u.lane k = s.lane k)) ∧ u.rec' = s.rec' ∧ u.auth = s.auth ∧ u.cyc = s.cyc)) ∧
  (∀ t s, s.up = true → (t - BitVec.ofNat 64 (10 * ms)).toNat % sec ≠ 0 → exec (.billingSave t) s = .next (begin' t s)) ∧
  (∀ t l c f s, LaneRuns s l → c < 192 → ∀ k g a b, k = calOf s c → g = max 1 (getF s (Reg.MET_CHn_CFG_g c)) →
    rangeFit g (metCh s l c).fitS = some f → getB s (Reg.MET_CHn_STAT_calf c) l = false →
    a = moveBy k.aL f.1 (dyAbs (F64.val k.aL)) 100000 → b = moveBy k.bL f.2 (dyAbs (F64.val k.fsH)) (100000 * g) →
    ∀ out, out = (Dy.lt (dyAbs (F64.val k.aL0)) ((dyAbs ((F64.val a).add (F64.val k.aL0).neg)).mul ⟨200, 0⟩) ||
      Dy.lt (dyAbs (F64.val k.fsH)) ((dyAbs ((F64.val b).add (F64.val k.bL0).neg)).mul ⟨200 * g, 0⟩)) →
    (out = false → active s = some l → Answers (.rangeMatchWindow t l c) s (fun u =>
      (metCh u l c).fit = some f.1 ∧ (metCh u l c).fitS = {} ∧ alGet u.cfg.cals c = some { k with aL := a, bL := b } ∧
      (∀ j, ready s j = true → (c, a, b, (BitVec.ofNat 64 ((t.toNat / sec + 1) * sec) : Time)) ∈ (u.lane j).met.due) ∧
      u.rec' = s.rec' ∧ u.regs = s.regs)) ∧
    (active s ≠ some l → Answers (.rangeMatchWindow t l c) s (fun u =>
      metCh u l c = { metCh s l c with fit := some f.1, fitS := {} } ∧ u.cfg = s.cfg ∧ u.regs = s.regs ∧ LaneOnly l t s u)) ∧
    (out = true → active s = some l → Answers (.rangeMatchWindow t l c) s (fun u => getF u (Reg.MET_CHn_STAT_calf c) l = 1 ∧ u.cfg = s.cfg ∧
      u.rec' = (raise (laneSrc l 9) Ev.MET_CALRANGE c (begin' t s)).rec' ∧ OnlyRegs (laneKey (Reg.MET_CHn_STAT c) l :: recKeys) s u))) ∧
  (∀ t l c s, LaneRuns s l → c < 192 → (metCh s l c).fitS.n < 20000 → Answers (.rangeMatchWindow t l c) s (fun u =>
    metCh u l c = { metCh s l c with fitS := {} } ∧ u.cfg = s.cfg ∧ u.regs = s.regs ∧ LaneOnly l t s u)) ∧
  (∀ t ep v s, LaneWritable s ep → v.toNat % 128 ≤ 95 → v.getLsbD 8 = true → ∀ n, n = v.toNat % 128 → Answers (.metSnapGo t ep v) s (fun u =>
    getF u Reg.MET_SNAP_CTL_pt ep = n ∧
    (∀ q < 11, ∀ w < 4, rdK u (laneKey (0x91010 + 16 * q + 4 * w) ep) = (latchWords s ep n q).getD w 0#32) ∧
    getF u Reg.MET_SNAP_MTCL_mtcl ep = (lastSample s ep).toNat % 2 ^ 32 ∧ getF u Reg.MET_SNAP_MTCH_mtch ep = (lastSample s ep).toNat / 2 ^ 32 ∧
    getB u Reg.MET_SNAP_CTL_inv ep =
      !(getB s (Reg.MET_PTn_STAT_valid n) ep && decide (((alGet s.cfg.points n).map (·.kind)).getD 0 ≠ 0)) ∧ RegsOnly t s u)) ∧
  (∀ t ep v s, LaneWritable s ep → 95 < v.toNat % 128 → Answers (.metSnapGo t ep v) s (OnlyRecords t (laneSrc ep 9) Ev.METCFG Reg.MET_SNAP_CTL s))

/-- R233, R236-R252: accumulation, billing, range match and snapshots. -/
def Obligations.EnergyIsAccumulatedAndBilled : Prop := SamplesAreAccumulated ∧ BillingIsServed

/-! Loops and streams (R155-R160, R253-R280). -/

/-- A slot's sample that the engine of a lane computes (R254, R256, R272), with no outer slot to compute before it. -/
def Sys2Proof.Machine.LoopSampleAt (t : Time) (l : Lane) (n : Nat) (tk : Time) (s : State) : Prop :=
  LaneRuns s l ∧ lawOf s n ≠ 0 ∧ sampleDue (begin' t s) l n tk = true ∧ inOrder s l n tk = true ∧ outersAt (begin' t s) l tk 4 n = [] ∧
  (if isActive s l then dueLoops s.auth n tk = [] else (s.lane l).lpe.cmds = [])

/-- R262-R264, R271: what a sample does in AUTO, MAN and HOLD; a sample not started before the slot's next instant is dropped and counted; a
command takes effect at its slot's sample. -/
def Sys2Proof.Machine.LoopsCompute : Prop :=
  (∀ t l n tk s y, LoopSampleAt t l n tk s → since t tk < periodOf s n * 100000 + 500 * lawOf s n → modeSl s l n = 2 →
    (slotSt s l n).from' = 2 → trackRef s l n = none → srcFresh s l n (srcY s n) tk = some y → (srcF s n).cls = 0 →
    ∀ r, r = lawStep s l n (bankSl s l n) (slotSt s l n) ⟨y, (setpointAt s l n tk).1, none, (setpointAt s l n tk).2⟩ none →
    (badRes r = false → Answers (.loopSample t l n tk) s (fun u =>
      (slotSt u l n).u = r.v.u ∧ (slotSt u l n).v = r.v.v ∧ (slotSt u l n).i = r.v.i ∧ (slotSt u l n).x1 = r.v.x1 ∧
      (slotSt u l n).x2 = r.v.x2 ∧ (slotSt u l n).inst = some tk ∧ modeSl u l n = 2 ∧ getB u (Reg.LPE_SLn_STAT_hi n) l = r.hi ∧
      getB u (Reg.LPE_SLn_STAT_lo n) l = r.lo ∧ (∀ k, k ≠ n → slotSt u l k = slotSt s l k) ∧ u.auth = s.auth ∧ u.lane l.other = s.lane l.other)) ∧
    (badRes r = true → Answers (.loopSample t l n tk) s (fun u => modeSl u l n = 4 ∧ (slotSt u l n).u = (slotSt s l n).u ∧
      getB u (Reg.LPE_SLn_STAT_nonf n) l = true))) ∧
  (∀ t l n tk s, LoopSampleAt t l n tk s → since t tk < periodOf s n * 100000 + 500 * lawOf s n → modeSl s l n = 2 →
    srcFresh s l n (srcY s n) tk = none → Answers (.loopSample t l n tk) s (fun u =>
      modeSl u l n = 4 ∧ (slotSt u l n).u = (slotSt s l n).u ∧ (slotSt u l n).i = (slotSt s l n).i ∧ (slotSt u l n).inst = some tk ∧
      getF u Reg.LPE_CNT_hold l = min (getF s Reg.LPE_CNT_hold l + 1) (2 ^ Reg.LPE_CNT_hold.w - 1) ∧
      (s.mbc.objs = [] → u.rec' = (raise (laneSrc l 10) Ev.LPE_HOLD (n + 2 ^ 8) (begin' t s)).rec'))) ∧
  (∀ t l n tk s, LoopSampleAt t l n tk s → since t tk < periodOf s n * 100000 + 500 * lawOf s n → modeSl s l n = 1 →
    Answers (.loopSample t l n tk) s (fun u => modeSl u l n = 1 ∧ (slotSt u l n).v = (slotSt s l n).man ∧
      (slotSt u l n).u = F64.clamp (coef s n (bankSl s l n) 0) (coef s n (bankSl s l n) 1) (slotSt s l n).man ∧ (slotSt u l n).inst = some tk)) ∧
  (∀ t l n tk s, LoopSampleAt t l n tk s → periodOf s n * 100000 + 500 * lawOf s n ≤ since t tk → modeSl s l n ≠ 0 →
    Answers (.loopSample t l n tk) s (fun u => slotSt u l n = { slotSt s l n with inst := some tk } ∧
      getF u (Reg.LPE_SLn_STAT_ovr n) l = min (getF s (Reg.LPE_SLn_STAT_ovr n) l + 1) (2 ^ (Reg.LPE_SLn_STAT_ovr n).w - 1) ∧
      modeSl u l n = modeSl s l n ∧ OnlyRegs [laneKey (Reg.LPE_SLn_STAT n) l, laneKey Reg.LPE_CNT l] s u ∧ LaneOnly l t s u)) ∧
  (∀ t l n tk s st at' ea k, LaneRuns s l → active s = some l → sampleDue (begin' t s) l n tk = true → (slotSt s l n).inst = none →
    (lawOf s n = 0 ∨ outersAt (begin' t s) l tk 4 n = []) → s.auth.orders = [⟨.loop n (.mode 0), st, at', ea, k⟩] → atOrAfter tk ea = true →
    Answers (.loopSample t l n tk) s (fun u => modeSl u l n = 0 ∧ u.auth.orders = [] ∧ u.auth.sps = s.auth.sps ∧ u.cyc = s.cyc)) ∧
  (∀ t l n m tk s, LaneRuns s l → sampleDue (begin' t s) l n tk = true → outersAt (begin' t s) l tk 4 n = [m] →
    exec (.loopSample t l n tk) s = .next (loopOne l tk n (loopOne l tk m (begin' t s)))) ∧
  (∀ t l n tk s, LaneRuns s l → lawOf s n ≠ 0 → sampleDue (begin' t s) l n tk = true → inOrder s l n tk = false →
    outersAt (begin' t s) l tk 4 n = [] → (if isActive s l then dueLoops s.auth n tk = [] else (s.lane l).lpe.cmds = []) →
    since t tk < periodOf s n * 100000 + 500 * lawOf s n → exec (.loopSample t l n tk) s = .next (begin' t s)) ∧
  (∀ t l n tk s, LaneRuns s l → 256 ≤ n ∨ modeNow s = .layup ∨ onGrid s n tk = false ∨ atOrAfter tk (s.lane l).lpe.start = false ∨ (slotSt s l n).inst = some tk →
    exec (.loopSample t l n tk) s = .next (begin' t s))

/-- R279, R280: arming clears the capture and waits for its trigger, or records at once where the kind is none; an abort ends a capture without
writing it, and changes nothing where none is under way. -/
def Sys2Proof.Machine.TraceIsArmed : Prop :=
  (∀ t ep v s, LaneWritable s ep → v.getLsbD 0 = true → v.getLsbD 1 = false → Answers (.traceArm t ep v) s (fun u =>
    trcState u ep = (if getF s Reg.LPE_TRC_TRIG_kind ep = 0 then 2 else 1) ∧ (u.lane ep).lpe.trace = {} ∧ getF u Reg.LPE_TRC_STAT_count ep = 0 ∧
    (u.lane ep).lpe.slots = (s.lane ep).lpe.slots ∧ OnlyRegs [laneKey Reg.LPE_TRC_STAT ep] s u ∧ LaneOnly ep t s u)) ∧
  (∀ t ep v s, LaneWritable s ep → v.getLsbD 0 = false → v.getLsbD 1 = true →
    (trcState s ep = 1 ∨ trcState s ep = 2 → Answers (.traceAbort t ep v) s (fun u => trcState u ep = 0 ∧ (u.lane ep).lpe.trace = {} ∧
      OnlyRegs [laneKey Reg.LPE_TRC_STAT ep] s u ∧ LaneOnly ep t s u)) ∧
    (trcState s ep ≠ 1 → trcState s ep ≠ 2 → Answers (.traceAbort t ep v) s (fun u => (∀ k, rdK u k = rdK s k) ∧ RegsOnly t s u)))

/-- R157-R160: the first packet of a frame opens it with its stamp and counter; a packet of another counter drops an open frame and counts it; a
packet of the frame closed last opens none; a datagram of no configured stream, or while the sensor ports have no power, changes nothing. -/
def Sys2Proof.Machine.StreamPacketsFormFrames : Prop :=
  (∀ t sp dport pl s l n c, LaneRuns s l → sensorPortsOn s = true → s.cfg.streams = [(n, c)] → c.port = sp → c.dport = dport →
    c.ofsCounter + 2 ≤ pl.length → c.ofsIndex + 2 ≤ pl.length → 1 < c.packets →
    ((strSt s l n).open' = false ∨ (strSt s l n).counter ≠ leAt pl c.ofsCounter 2) →
    ((strSt s l n).lastCtr = some (leAt pl c.ofsCounter 2) → Answers (.streamPacket t sp dport pl) s (fun u =>
      strSt u l n = strSt s l n ∧ getF u (Reg.FUS_STRn_ERR_late n) l = getF s (Reg.FUS_STRn_ERR_late n) l)) ∧
    ((strSt s l n).lastCtr ≠ some (leAt pl c.ofsCounter 2) → Answers (.streamPacket t sp dport pl) s (fun u =>
      strSt u l n = { strSt s l n with
        open' := true, counter := leAt pl c.ofsCounter 2, stamp := t, tSens := sensorTime c pl,
        lastCtr := if (strSt s l n).open' then some (strSt s l n).counter else (strSt s l n).lastCtr,
        got := if leAt pl c.ofsIndex 2 < c.packets then [(leAt pl c.ofsIndex 2, pl)] else [] } ∧
      getF u (Reg.FUS_STRn_ERR_late n) l = (if (strSt s l n).open' then
        min (getF s (Reg.FUS_STRn_ERR_late n) l + 1) (2 ^ (Reg.FUS_STRn_ERR_late n).w - 1) else getF s (Reg.FUS_STRn_ERR_late n) l) ∧
      (u.lane l).fus.filter = (s.lane l).fus.filter ∧ u.rec' = s.rec' ∧ u.cyc = s.cyc))) ∧
  (∀ t sp dport pl s, s.up = true → (sensorPortsOn s = false ∨ ∀ c ∈ s.cfg.streams, c.2.port ≠ sp ∨ c.2.dport ≠ dport) →
    exec (.streamPacket t sp dport pl) s = .next (begin' t s))

/-- R157-R160, R254-R280: loops, traces and stream frames. -/
def Obligations.LoopsTracesAndStreams : Prop := LoopsCompute ∧ TraceIsArmed ∧ StreamPacketsFormFrames

/-! Orders (R358-R382). -/

/-- The row of an order's command: instant, descriptor, class, operation, body fields it uses, body pairs, and whether it is configuration
that an Operational module refuses (R362, R374-R378, R473). -/
def Sys2Proof.Machine.orderRow : Instr → Option (Time × Order × Nat × Nat × List (Nat × Nat) × List (Nat × Nat × Nat) × Bool)
  | .mode t o => some (t, o, 1, 1, [(0, 16), (32, 32)], [(0, 4, 4)], false)
  | .setpoint t o => some (t, o, 1, 2, [(0, 192), (192, 1)], [(0, 4, 4), (8, 16, 8)], false)
  | .arm t o => some (t, o, 1, 3, [(0, 24), (32, 32), (64, 96)], [(0, 4, 4)], false)
  | .disarm t o => some (t, o, 1, 4, [(0, 64)], [(0, 4, 4)], false)
  | .loopMode t o => some (t, o, 1, 5, [(0, 64)], [(0, 4, 4)], false)
  | .loopMan t o => some (t, o, 1, 6, [(0, 192)], [(0, 4, 4), (8, 16, 8)], false)
  | .loopSp t o => some (t, o, 1, 7, [(0, 192)], [(0, 4, 4), (8, 16, 8)], false)
  | .loopBank t o => some (t, o, 1, 8, [(0, 64)], [(0, 4, 4)], false)
  | .trust t o => some (t, o, 1, 9, [(0, 64)], [(0, 4, 4)], false)
  | .trustclr t o => some (t, o, 1, 10, [], [], false)
  | .datum t o => some (t, o, 1, 11, [(0, 256)], [], false)
  | .swap t o => some (t, o, 1, 12, [], [], false)
  | .laneReset t o => some (t, o, 1, 13, [(0, 64)], [(0, 4, 4)], false)
  | .lifecycle t o => some (t, o, 1, 14, [(0, 8), (32, 32), (64, 256)], [(0, 4, 4), (8, 24, 16)], false)
  | .seal t o => some (t, o, 1, 15, [], [], false)
  | .fwActivate t o => some (t, o, 1, 16, [(0, 9), (32, 32), (64, 96)], [(0, 4, 4)], false)
  | .fwCancel t o => some (t, o, 1, 17, [], [], false)
  | .request t o => some (t, o, 2, 1, [], [], false)
  | .grant t o => some (t, o, 2, 2, [(0, 8)], [], false)
  | .deny t o => some (t, o, 2, 3, [(0, 8)], [], false)
  | .release t o => some (t, o, 2, 4, [], [], false)
  | .keepalive t o => some (t, o, 2, 5, [], [], false)
  | .expertOn t o => some (t, o, 2, 6, [], [], false)
  | .expertOff t o => some (t, o, 2, 7, [], [], false)
  | .dispatch t o => some (t, o, 3, 1, [(0, 225)], [(0, 4, 4), (8, 16, 8)], false)
  | .postReference t o => some (t, o, 3, 2, [(0, 16), (32, 256)], [], false)
  | .aidNav t o _ => some (t, o, 3, 3, [(0, 24), (64, 128)], [], false)
  | .aidPos t o => some (t, o, 3, 4, [(0, 224)], [], false)
  | .event t o => some (t, o, 3, 5, [(0, 192)], [(0, 4, 4)], false)
  | .loadModel t o _ => some (t, o, 4, 1, [(0, 192)], [], false)
  | .loadNetwork t o _ => some (t, o, 4, 2, [(0, 192)], [], false)
  | .loadFirmware t o _ => some (t, o, 4, 3, [(0, 192)], [], false)
  | .loadSafety t o _ => some (t, o, 4, 4, [(0, 192)], [], false)
  | .configItem t o _ => some (t, o, 5, 1, [(0, 32), (64, 128)], [], !(bodyN o 0 2 == 7 || bodyN o 0 2 == 8))
  | .snapshotMetro t o _ => some (t, o, 6, 1, [(0, 32), (64, 128)], [], false)
  | .snapshotBlock t o _ => some (t, o, 6, 2, [(0, 32), (64, 128)], [], false)
  | .grid t o _ => some (t, o, 6, 3, [(0, 32), (64, 128)], [], false)
  | .keyframe t o _ => some (t, o, 6, 4, [(0, 32), (64, 128)], [], false)
  | .gnbLoop t o => some (t, o, 7, 1, [(0, 320)], [], false)
  | .gnbPin t o => some (t, o, 7, 2, [(0, 320)], [], false)
  | .gnbUnpin t o => some (t, o, 7, 3, [(0, 320)], [], false)
  | .memRead t o _ => some (t, o, 7, 4, [(0, 320)], [], false)
  | _ => none

/-- An order that arrives and passes the checks of its head, its right and its body pairs (R363); `s0` is the state with it taken from its
ring or datagram, `info` what its completion repeats. -/
def Sys2Proof.Machine.Taken (i : Instr) (info : OrdInfo) (s s0 : State) : Prop :=
  ∃ t o cls op used pairs lc, orderRow i = some (t, o, cls, op, used, pairs, lc) ∧ s.up = true ∧ arrive o (begin' t s) = (some info, s0) ∧
    headErr o cls op used = none ∧ rightErr s0 o info.station cls op lc = none ∧ ∀ p ∈ pairs, bodyPair o p.1 p.2.1 p.2.2 = true

/-- What the service of an order leaves as it is: all but registers, records, the buses' objects and queues, ports, the authority state, the
orders that wait, the mirror links, and the lanes' rings and posts. -/
def Sys2Proof.Machine.OrderFrame (t : Time) (s u : State) : Prop :=
  u = { begin' t s with
    regs := u.regs, rec' := u.rec', mbc := u.mbc, out := u.out, auth := u.auth, waits := u.waits, tkt := u.tkt, mirTx := u.mirTx, linkSeq := u.linkSeq,
    net := { s.net with modTx := u.net.modTx, seq := u.net.seq }, dgSeq := u.dgSeq, netPend := u.netPend, la := { s.la with hri := u.la.hri }, lb := { s.lb with hri := u.lb.hri } }

/-- The registers of the bus that station 7's reply touches (R391, R398): its code, its object's status, its controller's count. -/
def Sys2Proof.Machine.replyKeys (s : State) : List Nat :=
  Reg.MBC_JOY :: match joyReply s with
    | some k => [Reg.MBC_OBJk_STAT k, Reg.MBC_Cn_CNT1 (k / 128)]
    | none => []

/-- The registers that the service of an order leaves as they are: all but those of block HRI, those that show the authority state, those of
station 7's reply, the recorder's, and the listed ones. -/
def Sys2Proof.Machine.OrderRegs (ks : List Nat) (s u : State) : Prop :=
  ∀ k, k ∉ ks ++ replyKeys s ++ recKeys → k % laneSpan / 0x10000 ≠ 0xB →
    k % laneSpan ∉ [Reg.JX_MODE, Reg.KPR_STAT, Reg.SLV_PKG_BANK, Reg.FUS_NPKG_BANK] → rdK u k = rdK s k

/-- The authority state with the sign of life that an accepted order of its holder is (R372). -/
def Sys2Proof.Machine.signed (info : OrdInfo) (t : Time) (s : State) (a : Auth) : Auth :=
  { a with lastSign := if s.auth.holder = some info.station then t else a.lastSign }

/-- An order that becomes pending (R369, R370): it stands last in the authority state with its earliest instant `d` ns after its acceptance,
the version rises by 1, and its completion waits. -/
def Sys2Proof.Machine.Pends (info : OrdInfo) (v : OrdVal) (d : Nat) (ks : List Nat) (t : Time) (s u : State) : Prop :=
  u.auth = signed info t s { s.auth with
    orders := s.auth.orders ++ [⟨v, info.station, info.tAcc, plus info.tAcc d, s.tkt⟩], ver := s.auth.ver + 1#32 } ∧
  u.tkt = s.tkt + 1 ∧ (s.waits = [] → u.waits = [⟨s.tkt, info, 0#64, s.auth.ver + 1#32, ordByAcc v, none⟩]) ∧
  OrderFrame t s u ∧ OrderRegs ks s u

/-- An order that is completed at once with a code and detail, and changes nothing. -/
def Sys2Proof.Machine.RefusedWith (info : OrdInfo) (c d : Nat) (t : Time) (s u : State) : Prop :=
  .complete info c d ∈ u.out ∧ u.auth = s.auth ∧ u.waits = s.waits ∧ u.tkt = s.tkt ∧ OrderFrame t s u

/-- An order accepted and completed at once, its station's sign of life apart nothing of the authority state changing. -/
def Sys2Proof.Machine.DoneWith (info : OrdInfo) (t : Time) (s u : State) : Prop :=
  .complete info Code.ACCEPTED 0 ∈ u.out ∧ u.auth = signed info t s s.auth ∧ u.waits = s.waits ∧ u.tkt = s.tkt

/-- No order on an item is pending. -/
def Sys2Proof.Machine.ItemFree (s : State) (v : OrdVal) : Prop := ∀ p ∈ s.auth.orders, p.val.item ≠ v.item

/-- R363, R366, R384: the checks of an order in their order. A wrong head is BADPAIR, BADCRC or BADCLASS, and a wrong path ROLE, both counted as
rejected; a right that lacks is its code, and CONFLICT is recorded; a body pair that fails is BADPAIR, counted too. None of them
changes the authority state. What no ring or datagram holds is not served. -/
def Obligations.OrdersAreCheckedInOrder : Prop :=
  ∀ i t o cls op used pairs lc s, orderRow i = some (t, o, cls, op, used, pairs, lc) → s.up = true →
    (∀ s0, arrive o (begin' t s) = (none, s0) → exec i s = .next s0) ∧
    (∀ info s0, arrive o (begin' t s) = (some info, s0) →
      (∀ c, headErr o cls op used = some c → Answers i s (fun u => RefusedWith info c 0 t s u ∧
        getF u Reg.HRI_CNT_reject (orderLane s o.path) = min (getF s Reg.HRI_CNT_reject (orderLane s o.path) + 1) 0xFFFF ∧
        (o.path ≠ .can → u.rec' = if c = Code.BADPAIR then (raise (hriSrc s) Ev.JX_CPLFAIL 1 (begin' t s)).rec' else s.rec') ∧
        OrderRegs [] s u)) ∧
      (headErr o cls op used = none → ∀ c, rightErr s0 o info.station cls op lc = some c → Answers i s (fun u => RefusedWith info c 0 t s u ∧
        getF u Reg.HRI_CNT_reject (orderLane s o.path) = (if c = Code.ROLE then min (getF s Reg.HRI_CNT_reject (orderLane s o.path) + 1) 0xFFFF
          else getF s Reg.HRI_CNT_reject (orderLane s o.path)) ∧
        (o.path ≠ .can → u.rec' = if c = Code.CONFLICT then
          (raise (hriSrc s) Ev.HRI_CONFLICT (info.station + 2 ^ 8 * cls + 2 ^ 16 * op) (begin' t s)).rec' else s.rec') ∧
        OrderRegs [] s u)) ∧
      (headErr o cls op used = none → rightErr s0 o info.station cls op lc = none → ∀ p ps qs, pairs = ps ++ p :: qs →
        (∀ q ∈ ps, bodyPair o q.1 q.2.1 q.2.2 = true) → bodyPair o p.1 p.2.1 p.2.2 = false →
        Answers i s (fun u => RefusedWith info Code.BADPAIR 0 t s u ∧
          getF u Reg.HRI_CNT_reject (orderLane s o.path) = min (getF s Reg.HRI_CNT_reject (orderLane s o.path) + 1) 0xFFFF ∧
          (o.path ≠ .can → u.rec' = (raise (hriSrc s) Ev.JX_CPLFAIL (1 + 2 ^ 32 * (24 + p.1)) (begin' t s)).rec') ∧ OrderRegs [] s u)))

/-- R44, R50, R374: MODE and SETPOINT that are accepted stand in the authority state from 20 ms and 5 ms after acceptance; a mode that cannot be
entered now completes with its code; a value that is not finite is RANGE. -/
def Sys2Proof.Machine.ModesAndSetpointsPend : Prop :=
  (∀ t o info s s0 m w, Taken (.mode t o) info s s0 → modeOf (bodyN o 0 1) = some m → bodyN o 1 1 = (if w then 1 else 0) → (w = true → m = .transit) →
    (modeRefused s0 m w = none → ItemFree s (.mode m w) → Answers (.mode t o) s (Pends info (.mode m w) (20 * ms) [Reg.PWR_STAT] t s)) ∧
    (∀ c, modeRefused s0 m w = some c → Answers (.mode t o) s (RefusedWith info c 0 t s))) ∧
  (∀ t o info s s0 v, Taken (.setpoint t o) info s s0 → v = (if bodyN o 24 1 = 1 then none else some (bodyF o 8)) →
    (∀ x, v = some x → finite x = true) → ∀ r, r = OrdVal.sp (BitVec.ofNat 32 (bodyN o 0 4)) v →
    (ItemFree s r → Answers (.setpoint t o) s (Pends info r (5 * ms) [] t s)) ∧
    (∀ p, s.auth.orders = [p] → contradicts s0 info.station r (plus info.tAcc (5 * ms)) p = true → stands p info.tAcc info.station = true →
      Answers (.setpoint t o) s (fun u => RefusedWith info Code.CONFLICT 0 t s u ∧ (o.path ≠ .can →
        u.rec' = (raise (hriSrc s) Ev.HRI_CONFLICT (info.station + 2 ^ 8 + 2 ^ 17) (begin' t s)).rec'))) ∧
    (∀ p w, s.auth.orders = [p] → p.stn = info.station → p.val.item = r.item → s.waits = [w] → w.tkt = p.tkt →
      Answers (.setpoint t o) s (fun u => .complete w.info Code.SUPERSEDED 0 ∈ u.out ∧
        u.auth.orders = [⟨r, info.station, info.tAcc, plus info.tAcc (5 * ms), s.tkt⟩] ∧ u.auth.ver = s.auth.ver + 1#32 ∧
        u.auth.sps = s.auth.sps ∧ OrderFrame t s u))) ∧
  (∀ t o info s s0, Taken (.setpoint t o) info s s0 → bodyN o 24 1 ≠ 1 → finite (bodyF o 8) = false →
    Answers (.setpoint t o) s (RefusedWith info Code.RANGE 0 t s))

/-- R87, R91: an arm stands from 20 ms after acceptance; with no Standby its refusals are STATE, and BUDGET; a disarm ends a pending arm, which
completes CANCELLED, is too late within 20 ms of the swap, and with none pending is accepted and changes nothing. -/
def Sys2Proof.Machine.ArmsPendAndAreDisarmed : Prop :=
  (∀ t o info s s0 l net b T, Taken (.arm t o) info s s0 → active s = some l → bodyN o 0 1 = (if net then 1 else 0) → bodyN o 1 1 = b → b ≤ 1 →
    T = (if bodyN o 2 1 = 1 then some (bodyN o 8 8, bodyN o 16 4) else none) → bodyN o 2 1 ≤ 1 → (bodyN o 2 1 = 1 → bodyN o 16 4 < 1000000000) →
    (armRefused s0 l net b = none → ItemFree s (.arm net b T) → Answers (.arm t o) s (Pends info (.arm net b T) (20 * ms) [] t s)) ∧
    (∀ c e, armRefused s0 l net b = some (c, e) → Answers (.arm t o) s (RefusedWith info c e t s))) ∧
  (∀ t o info s s0 net, Taken (.disarm t o) info s s0 → bodyN o 0 4 = (if net then 1 else 0) →
    ((∀ p ∈ s.auth.orders, ∀ b T, p.val ≠ .arm net b T) → Answers (.disarm t o) s (fun u => DoneWith info t s u ∧ OrderFrame t s u)) ∧
    (∀ p b T w, s.auth.orders = [p] → p.val = .arm net b T → s.waits = [w] → w.tkt = p.tkt →
      (atOrAfter (epochOf s0 (dueIdx s0 p.val p.earliest)) (plus info.tAcc (20 * ms)) = true → Answers (.disarm t o) s (fun u =>
        u.auth = signed info t s { s.auth with orders := [], ver := s.auth.ver + 1#32 } ∧ .complete w.info Code.CANCELLED 0 ∈ u.out ∧
        (standby s = none → .complete info Code.ACCEPTED 0 ∈ u.out) ∧ OrderFrame t s u ∧ OrderRegs [] s u)) ∧
      (atOrAfter (epochOf s0 (dueIdx s0 p.val p.earliest)) (plus info.tAcc (20 * ms)) = false →
        Answers (.disarm t o) s (RefusedWith info Code.TOO_LATE 0 t s))))

/-- R162, R180, R302, R371, R374: TRUST, TRUSTCLR, DATUM and SWAP stand from 20 ms after acceptance, RELEASE from the next epoch; a datum outside
Transit and Joystick is STATE. -/
def Sys2Proof.Machine.NamesAndSwapsPend : Prop :=
  (∀ t o info s s0, Taken (.trust t o) info s s0 → bodyN o 0 4 ≤ 15 → ItemFree s (.trust (some (bodyN o 0 4))) →
    Answers (.trust t o) s (Pends info (.trust (some (bodyN o 0 4))) (20 * ms) [] t s)) ∧
  (∀ t o info s s0, Taken (.trust t o) info s s0 → 15 < bodyN o 0 4 → Answers (.trust t o) s (RefusedWith info Code.RANGE 0 t s)) ∧
  (∀ t o info s s0, Taken (.trustclr t o) info s s0 → ItemFree s (.trust none) →
    Answers (.trustclr t o) s (Pends info (.trust none) (20 * ms) [] t s)) ∧
  (∀ t o info s s0 d, Taken (.datum t o) info s s0 → d = (⟨bodyF o 0, bodyF o 8, bodyF o 16, bodyF o 24⟩ : Datum) → finite d.lat = true →
    finite d.lon = true → finite d.hgt = true → finite d.azi = true →
    (modeNow s = .transit ∨ modeNow s = .joystick → ItemFree s (.datum d) → Answers (.datum t o) s (Pends info (.datum d) (20 * ms) [] t s)) ∧
    (modeNow s ≠ .transit → modeNow s ≠ .joystick → Answers (.datum t o) s (RefusedWith info Code.STATE 0 t s))) ∧
  (∀ t o info s s0, Taken (.swap t o) info s s0 → ItemFree s (.swap 0) → Answers (.swap t o) s (Pends info (.swap 0) (20 * ms) [] t s)) ∧
  (∀ t o info s s0, Taken (.release t o) info s s0 → ItemFree s .release → Answers (.release t o) s (Pends info .release 1 [] t s))

/-- R255, R268: loop orders stand from 1 ms after acceptance, for their slot's sample. -/
def Sys2Proof.Machine.LoopOrdersPend : Prop :=
  (∀ t o info s s0 l n m, Taken (.loopMode t o) info s s0 → active s = some l → bodyN o 0 2 = n → n < 256 → bodyN o 2 2 = m → m ≤ 2 →
    ((m = 0 ∨ (lawOf s n ≠ 0 ∧ modeSl s l n ≠ 0)) → ItemFree s (.loop n (.mode m)) →
      Answers (.loopMode t o) s (fun u => Pends info (.loop n (.mode m)) ms [laneKey (Reg.LPE_SLn_STAT n) l] t s u ∧
        (s.waits = [] → getF u (Reg.LPE_SLn_STAT_pend n) l = 1))) ∧
    (m ≠ 0 → lawOf s n = 0 → Answers (.loopMode t o) s (fun u => RefusedWith info Code.ERR 5 t s u ∧
      getF u Reg.LPE_ERR_err l = 5 ∧ getF u Reg.LPE_ERR_slot l = n))) ∧
  (∀ t o info s s0 l n x, Taken (.loopMan t o) info s s0 → active s = some l → bodyN o 0 4 = n → n < 256 → bodyF o 8 = x → finite x = true →
    ItemFree s (.loop n (.man x)) → Answers (.loopMan t o) s (Pends info (.loop n (.man x)) ms [laneKey (Reg.LPE_SLn_STAT n) l] t s)) ∧
  (∀ t o info s s0 l n x, Taken (.loopSp t o) info s s0 → active s = some l → bodyN o 0 4 = n → n < 256 → bodyF o 8 = x → finite x = true →
    ItemFree s (.loop n (.sp x)) → Answers (.loopSp t o) s (Pends info (.loop n (.sp x)) ms [laneKey (Reg.LPE_SLn_STAT n) l] t s)) ∧
  (∀ t o info s s0 l n b, Taken (.loopBank t o) info s s0 → active s = some l → bodyN o 0 2 = n → n < 256 → bodyN o 2 2 = b → b ≤ 1 →
    ItemFree s (.loop n (.bank b)) → Answers (.loopBank t o) s (Pends info (.loop n (.bank b)) ms [laneKey (Reg.LPE_SLn_STAT n) l] t s)) ∧
  (∀ t o info s s0, (Taken (.loopMan t o) info s s0 → (256 ≤ bodyN o 0 4 ∨ finite (bodyF o 8) = false) →
      Answers (.loopMan t o) s (RefusedWith info Code.RANGE 0 t s)) ∧
    (Taken (.loopSp t o) info s s0 → (256 ≤ bodyN o 0 4 ∨ finite (bodyF o 8) = false) →
      Answers (.loopSp t o) s (RefusedWith info Code.RANGE 0 t s)))

/-- R44, R87, R91, R162, R180, R255, R268, R302, R369-R371, R374: orders whose effect comes later. -/
def Obligations.OrdersPendUntilTheirInstant : Prop :=
  ModesAndSetpointsPend ∧ ArmsPendAndAreDisarmed ∧ NamesAndSwapsPend ∧ LoopOrdersPend

/-- R374: LANE_RESET takes a lane that is not Active into its reset, and is REFUSED for the Active one; a lane without power stays as it is. -/
def Sys2Proof.Machine.LaneResetIsServed : Prop :=
  ∀ t o info s s0 l, Taken (.laneReset t o) info s s0 → bodyN o 0 4 = l.idx →
    (active s = some l → Answers (.laneReset t o) s (RefusedWith info Code.REFUSED 0 t s)) ∧
    (active s ≠ some l → (s.lane l).ph = .off → Answers (.laneReset t o) s (fun u => DoneWith info t s u ∧ OrderFrame t s u)) ∧
    (active s ≠ some l → (s.lane l).ph = .ready → Answers (.laneReset t o) s (fun u => DoneWith info t s u ∧ (u.lane l).ph = .wiping ∧
      getB u (wipeFld l) = true ∧ getB u (admFld l) = false ∧ (u.lane l).bank0.blocks = (s.lane l).bank0.blocks ∧ u.kpr.role = s.kpr.role ∧
      u.cyc = s.cyc ∧ u.cfg = s.cfg ∧ u.lane l.other = { s.lane l.other with hri := (u.lane l.other).hri }))

/-- R474-R477: a life-cycle order that R474 allows, in Lay-up without an update, completes and then resets the module (cause 6) with the wipe due:
the state stays, the target and chg show the change. Another transition is TRANSITION, another mode or an update STATE. SEAL with the committed
digest makes the module Operational; with another one it is MISMATCH, outside step SEAL it is STATE. -/
def Sys2Proof.Machine.LifeCycleIsOrdered : Prop :=
  (∀ t o info s s0 new, Taken (.lifecycle t o) info s s0 → bodyN o 0 1 = new → new ≤ 4 → (new ≠ 2 → bodyN o 8 16 = 0) →
    (lcAllowed (getF s Reg.UPD_LCS_state) new = false → Answers (.lifecycle t o) s (RefusedWith info Code.TRANSITION 0 t s)) ∧
    (lcAllowed (getF s Reg.UPD_LCS_state) new = true → modeNow s ≠ .layup ∨ getF s Reg.UPD_SEQ_step ≠ 0 →
      Answers (.lifecycle t o) s (RefusedWith info Code.STATE 0 t s)) ∧
    (lcAllowed (getF s Reg.UPD_LCS_state) new = true → modeNow s = .layup → getF s Reg.UPD_SEQ_step = 0 → Answers (.lifecycle t o) s (fun u =>
      .complete info Code.ACCEPTED 0 ∈ u.out ∧ getF u Reg.UPD_LCS_state = getF s Reg.UPD_LCS_state ∧ getF u Reg.UPD_LCS_target = new ∧
      getB u Reg.UPD_LCS_chg = true ∧ getB u Reg.UPD_LCS_seal = false ∧ u.upd.wiping = true ∧ u.up = true ∧ getF u Reg.PWR_STAT_cause = 6 ∧
      (u.lane .a).ph = .off ∧ (u.lane .b).ph = .off ∧ u.auth = {} ∧ u.kpr.role = none ∧ u.waits = []))) ∧
  (∀ t o info s s0, Taken (.seal t o) info s s0 →
    (getB s Reg.UPD_LCS_seal = false → Answers (.seal t o) s (RefusedWith info Code.STATE 0 t s)) ∧
    (getB s Reg.UPD_LCS_seal = true → cfgDig s0 ≠ committed s → Answers (.seal t o) s (RefusedWith info Code.MISMATCH 0 t s)) ∧
    (getB s Reg.UPD_LCS_seal = true → cfgDig s0 = committed s → Answers (.seal t o) s (fun u => DoneWith info t s u ∧
      getF u Reg.UPD_LCS_state = 2 ∧ getB u Reg.UPD_LCS_seal = false ∧ getB u Reg.UPD_LCS_chg = false ∧ getF u Reg.UPD_LCS_target = 0 ∧
      u.upd = { s.upd with log := ((getF s Reg.UPD_LCS_state, 2, BitVec.ofNat 56 (calBytes s.rtc.cal), rdK s Reg.REC_OPSEC) :: s.upd.log).take 16 } ∧
      (o.path ≠ .can → u.rec' = (raise .keeper Ev.UPD_SEALED (leAt (committed s) 0 8) (begin' t s)).rec') ∧
      (∀ l, u.lane l = { s.lane l with hri := (u.lane l).hri }) ∧ u.cfg = s.cfg ∧ u.saf = s.saf)))

/-- R481: FW_ACTIVATE in Lay-up with the images it needs is scheduled, and is BUSY while a change or an update runs; FW_CANCEL ends a scheduled
activation, is TOO_LATE once it has started and STATE with none. -/
def Sys2Proof.Machine.ActivationIsOrdered : Prop :=
  (∀ t o info s s0 kind st, Taken (.fwActivate t o) info s s0 → bodyN o 0 1 = kind → kind ≤ 2 → bodyN o 16 4 < 1000000000 →
    st = (if bodyN o 1 1 % 2 = 1 then 4 else 2) → (kind ≠ 1 → sameImages s st = true) → (kind ≠ 0 → (slotIn s .a true st).isSome = true) →
    modeNow s = .layup →
    (getB s Reg.UPD_LCS_chg = false → getF s Reg.UPD_SEQ_step = 0 → Answers (.fwActivate t o) s (fun u => DoneWith info t s u ∧
      getF u Reg.UPD_SEQ_step = 1 ∧ getF u Reg.UPD_SEQ_kind = kind ∧ getF u Reg.UPD_SEQ_rb = 0 ∧ getF u Reg.UPD_TL_t = bodyN o 8 4 ∧
      getF u Reg.UPD_TH_t = bodyN o 12 4 ∧ u.upd = { s.upd with
        acceptAt := info.tAcc, tNs := bodyN o 16 4, swapE := none, rbStep := 0,
        newA := if kind = 1 then none else slotIn s .a false st, newB := if kind = 1 then none else slotIn s .b false st,
        newK := if kind = 0 then none else slotIn s .a true st } ∧
      (∀ l, u.lane l = { s.lane l with hri := (u.lane l).hri }) ∧ u.cyc = s.cyc)) ∧
    (getF s Reg.UPD_SEQ_step ≠ 0 → Answers (.fwActivate t o) s (RefusedWith info Code.BUSY 0 t s))) ∧
  (∀ t o info s s0, Taken (.fwCancel t o) info s s0 →
    (getF s Reg.UPD_SEQ_step = 0 → Answers (.fwCancel t o) s (RefusedWith info Code.STATE 0 t s)) ∧
    (getF s Reg.UPD_SEQ_step = 1 → Answers (.fwCancel t o) s (fun u => DoneWith info t s u ∧ getF u Reg.UPD_SEQ_step = 0 ∧
      u.upd.newA = none ∧ u.upd.newB = none ∧ u.upd.newK = none ∧ u.upd.runA = s.upd.runA ∧ u.upd.runB = s.upd.runB ∧
      (o.path ≠ .can → u.rec' = (raise .keeper Ev.UPD_CANCEL 0 (begin' t s)).rec') ∧ u.cfg = s.cfg ∧ u.cyc = s.cyc)) ∧
    (2 ≤ getF s Reg.UPD_SEQ_step → Answers (.fwCancel t o) s (RefusedWith info Code.TOO_LATE 0 t s)))

/-- R371, R372: with no holder a request starts a transfer; else it is pending, one at a time; the holder's own is accepted. A grant starts the
transfer, a denial completes the request REFUSED with detail 1; a name nobody requests is STATE. KEEPALIVE is a sign of life only. -/
def Sys2Proof.Machine.AuthorityIsHandedOver : Prop :=
  (∀ t o info s s0, Taken (.request t o) info s s0 →
    (s.auth.holder = some info.station → Answers (.request t o) s (fun u => DoneWith info t s u ∧ OrderFrame t s u)) ∧
    (s.auth.holder ≠ some info.station → s.auth.req.isSome = true ∨ s.auth.xfer.isSome = true →
      Answers (.request t o) s (RefusedWith info Code.BUSY 0 t s)) ∧
    (s.auth.holder = none → s.auth.req = none → s.auth.xfer = none → Answers (.request t o) s (fun u =>
      u.auth = { s.auth with xfer := some ⟨info.station, info.tAcc, [s.tkt]⟩, ver := s.auth.ver + 1#32 } ∧ u.tkt = s.tkt + 1 ∧
      (s.waits = [] → u.waits = [⟨s.tkt, info, 0#64, s.auth.ver + 1#32, false, none⟩]) ∧ OrderFrame t s u ∧ OrderRegs [] s u)) ∧
    (∀ h, s.auth.holder = some h → h ≠ info.station → s.auth.req = none → s.auth.xfer = none → Answers (.request t o) s (fun u =>
      u.auth = { s.auth with req := some ⟨info.station, info.tAcc, s.tkt⟩, ver := s.auth.ver + 1#32 } ∧ u.tkt = s.tkt + 1 ∧
      (s.waits = [] → u.waits = [⟨s.tkt, info, 0#64, s.auth.ver + 1#32, false, none⟩] ∧
        u.rec' = (raise (hriSrc s) Ev.HRI_AUTHREQ info.station (begin' t s)).rec') ∧
      (∀ l, shut s l = false → s.waits = [] → getF u Reg.HRI_SYS_STAT_authreq l = 1 ∧ getF u Reg.HRI_SYS_STAT_authchg l = 1) ∧
      OrderFrame t s u ∧ OrderRegs [] s u))) ∧
  (∀ t o info s s0 q, Taken (.grant t o) info s s0 → s.auth.req = some q → bodyN o 0 1 ≤ 7 →
    (q.stn = bodyN o 0 1 → Answers (.grant t o) s (fun u =>
      u.auth = signed info t s { s.auth with req := none, xfer := some ⟨q.stn, info.tAcc, [q.tkt, s.tkt]⟩, ver := s.auth.ver + 1#32 } ∧
      u.tkt = s.tkt + 1 ∧ OrderFrame t s u ∧ OrderRegs [] s u)) ∧
    (q.stn ≠ bodyN o 0 1 → Answers (.grant t o) s (RefusedWith info Code.STATE 0 t s))) ∧
  (∀ t o info s s0 q, Taken (.deny t o) info s s0 → s.auth.req = some q → bodyN o 0 1 ≤ 7 →
    (q.stn = bodyN o 0 1 → ∀ w, s.waits = [w] → w.tkt = q.tkt → Answers (.deny t o) s (fun u =>
      u.auth = signed info t s { s.auth with req := none, ver := s.auth.ver + 1#32 } ∧ .complete w.info Code.REFUSED 1 ∈ u.out ∧
      (standby s = none → .complete info Code.ACCEPTED 0 ∈ u.out) ∧ OrderFrame t s u ∧ OrderRegs [] s u)) ∧
    (q.stn ≠ bodyN o 0 1 → Answers (.deny t o) s (RefusedWith info Code.STATE 0 t s))) ∧
  (∀ t o info s s0, s.auth.req = none → bodyN o 0 1 ≤ 7 →
    (Taken (.grant t o) info s s0 → Answers (.grant t o) s (RefusedWith info Code.STATE 0 t s)) ∧
    (Taken (.deny t o) info s s0 → Answers (.deny t o) s (RefusedWith info Code.STATE 0 t s))) ∧
  (∀ t o info s s0, Taken (.keepalive t o) info s s0 → Answers (.keepalive t o) s (fun u => DoneWith info t s u ∧ OrderFrame t s u ∧ OrderRegs [] s u))

/-- R378: EXPERT_ON opens the expert level and records the opening, EXPERT_OFF closes it and records that. -/
def Sys2Proof.Machine.ExpertLevelOpensAndCloses : Prop :=
  (∀ t o info s s0, Taken (.expertOn t o) info s s0 → Answers (.expertOn t o) s (fun u =>
    u.auth = signed info t s { s.auth with expert := some t, ver := s.auth.ver + 1#32 } ∧ .complete info Code.ACCEPTED 0 ∈ u.out ∧
    (o.path ≠ .can → u.rec' = if s.auth.expert = none then (raise (hriSrc s) Ev.HRI_EXPERT
      (1 + 2 ^ 8 * info.station + (if getF s Reg.UPD_LCS_state = 3 then 2 ^ 11 else 0)) (begin' t s)).rec' else s.rec') ∧
    OrderFrame t s u ∧ OrderRegs [] s u)) ∧
  (∀ t o info s s0, Taken (.expertOff t o) info s s0 →
    (s.auth.expert = none → Answers (.expertOff t o) s (fun u => DoneWith info t s u ∧ OrderFrame t s u ∧ OrderRegs [] s u)) ∧
    (∀ x, s.auth.expert = some x → Answers (.expertOff t o) s (fun u =>
      u.auth = signed info t s { s.auth with expert := none, ver := s.auth.ver + 1#32 } ∧ .complete info Code.ACCEPTED 0 ∈ u.out ∧
      (o.path ≠ .can → u.rec' = (raise (hriSrc s) Ev.HRI_EXPERT
        (2 ^ 8 * s.auth.holder.getD 0 + (if getF s Reg.UPD_LCS_state = 3 then 2 ^ 11 else 0)) (begin' t s)).rec') ∧
      OrderFrame t s u ∧ OrderRegs [] s u)))

/-- R371, R372, R378: a request that has waited 60 s completes REFUSED with detail 2; a holder silent for tmo forfeits to the request; an expert
session ends after xmax minutes. Before their time nothing changes. -/
def Sys2Proof.Machine.AuthorityTimesOut : Prop :=
  (∀ t s q l, s.up = true → s.auth.req = some q → active s = some l →
    (60 * sec ≤ since t q.tReq → Answers (.authorityRequestTimeout t) s (fun u =>
      u.auth = { s.auth with req := none, ver := s.auth.ver + 1#32 } ∧
      (∀ w, s.waits = [w] → w.tkt = q.tkt → .complete w.info Code.REFUSED 2 ∈ u.out ∧ u.waits = []) ∧ OrderFrame t s u ∧ OrderRegs [] s u)) ∧
    (since t q.tReq < 60 * sec → exec (.authorityRequestTimeout t) s = .next (begin' t s))) ∧
  (∀ t s q l h, s.up = true → s.auth.req = some q → s.auth.holder = some h → active s = some l →
    (getF s Reg.HRI_AUTH_CFG_tmo * sec ≤ since t s.auth.lastSign → Answers (.holderSilence t) s (fun u =>
      u.auth = { s.auth with req := none, xfer := some ⟨q.stn, t, [q.tkt]⟩, ver := s.auth.ver + 1#32 } ∧ u.waits = s.waits ∧
      u.rec' = (raise (hriSrc s) Ev.HRI_FORFEIT (h + 2 ^ 8 * q.stn) (begin' t s)).rec' ∧ OrderFrame t s u ∧ OrderRegs [] s u)) ∧
    (since t s.auth.lastSign < getF s Reg.HRI_AUTH_CFG_tmo * sec → exec (.holderSilence t) s = .next (begin' t s))) ∧
  (∀ t s, s.up = true → s.auth.req = none →
    exec (.authorityRequestTimeout t) s = .next (begin' t s) ∧ exec (.holderSilence t) s = .next (begin' t s)) ∧
  (∀ t s x, s.up = true → s.auth.expert = some x →
    (getF s Reg.HRI_AUTH_CFG_xmax * 60 * sec ≤ since t x → Answers (.expertSessionTimeout t) s (fun u =>
      u.auth = { s.auth with expert := none, ver := s.auth.ver + 1#32 } ∧ u.rec' = (raise (hriSrc s) Ev.HRI_EXPERT
        (2 ^ 8 * s.auth.holder.getD 0 + (if getF s Reg.UPD_LCS_state = 3 then 2 ^ 11 else 0)) (begin' t s)).rec' ∧
      OrderFrame t s u ∧ OrderRegs [] s u)) ∧
    (since t x < getF s Reg.HRI_AUTH_CFG_xmax * 60 * sec → exec (.expertSessionTimeout t) s = .next (begin' t s))) ∧
  (∀ t s, s.up = true → s.auth.expert = none → exec (.expertSessionTimeout t) s = .next (begin' t s))

/-- R371, R372, R374, R378, R474-R481: orders and timers that act at once. -/
def Obligations.OrdersActAtOnce : Prop :=
  LaneResetIsServed ∧ LifeCycleIsOrdered ∧ ActivationIsOrdered ∧ AuthorityIsHandedOver ∧ ExpertLevelOpensAndCloses ∧ AuthorityTimesOut

/-! Posts, loads, configuration, snapshots and expert operations (R375-R378). -/

/-- The lanes that take a post (R368): the endpoint's own; of a station's, the Active and the Standby lane. -/
def Sys2Proof.Machine.TakesPost (s : State) (p : Path) (l : Lane) : Prop :=
  match p with
  | .pcie ep _ => l = ep
  | _ => active s = some l ∨ standby s = some l

/-- An order that is done without a change of a lane's units beyond those named, of the cycle, the configuration, the Keeper or the alarms. -/
def Sys2Proof.Machine.DataDone (info : OrdInfo) (t : Time) (s u : State) : Prop :=
  DoneWith info t s u ∧ u.cyc = s.cyc ∧ u.cfg = s.cfg ∧ u.kpr = s.kpr ∧ u.alarms = s.alarms ∧ u.upd = s.upd ∧ u.saf = s.saf ∧ u.rtc = s.rtc

/-- R368, R375: posts. A dispatch value is held beside those of the last 10 s; a reference waits for fusion; aiding data goes to the
receiver of the order's lane; a host event is recorded with its own stamp. What has no finite value is RANGE. -/
def Sys2Proof.Machine.PostsAreHeld : Prop :=
  (∀ t o info s s0, Taken (.dispatch t o) info s s0 → ∀ id life valid, id = bodyN o 0 4 → life = bodyN o 24 4 → valid = (bodyN o 28 1 % 2 == 1) →
    (life ≤ 60000 → (valid = true → finite (bodyF o 8) = true) → Answers (.dispatch t o) s (fun u => DataDone info t s u ∧
      (∀ l, TakesPost s o.path l → (u.lane l).hri.disp =
        alSet (s.lane l).hri.disp id (addPost t ⟨info.tAcc, bodyF o 8, life, valid⟩ ((alGet (s.lane l).hri.disp id).getD []))) ∧
      (∀ l, ¬ TakesPost s o.path l → (u.lane l).hri.disp = (s.lane l).hri.disp) ∧ OrderFrame t s u ∧ OrderRegs [] s u)) ∧
    (60000 < life ∨ (valid = true ∧ finite (bodyF o 8) = false) → Answers (.dispatch t o) s (RefusedWith info Code.RANGE 0 t s))) ∧
  (∀ t o info s s0, Taken (.postReference t o) info s s0 → ∀ id kind r, id = bodyN o 0 1 → kind = bodyN o 1 1 →
    r = (⟨BitVec.ofNat 64 (bodyN o 4 8), kind, bodyF o 12, bodyF o 20, BitVec.ofNat 32 (bodyN o 28 4), BitVec.ofNat 32 (bodyN o 32 4)⟩ : RefIn) →
    (id ≤ 7 → kind = 1 ∨ kind = 2 → finite (bodyF o 12) = true → sigmaOk r.sx = true → (kind = 1 → finite (bodyF o 20) = true ∧ sigmaOk r.sy = true) →
      (kind = 2 → bodyN o 20 8 = 0) →
      Answers (.postReference t o) s (fun u => DataDone info t s u ∧
        (∀ l, TakesPost s o.path l → (u.lane l).fus = { (s.lane l).fus with refIn := (s.lane l).fus.refIn ++ [(8 + id, r)] }) ∧
        (∀ l, ¬ TakesPost s o.path l → (u.lane l).fus = (s.lane l).fus) ∧ (∀ l, (u.lane l).slv = (s.lane l).slv) ∧ OrderRegs [] s u)) ∧
    (7 < id ∨ (kind ≠ 1 ∧ kind ≠ 2) ∨ finite (bodyF o 12) = false ∨ sigmaOk r.sx = false ∨
        (kind = 1 ∧ (finite (bodyF o 20) = false ∨ sigmaOk r.sy = false)) ∨ (kind = 2 ∧ bodyN o 20 8 ≠ 0) →
      Answers (.postReference t o) s (RefusedWith info Code.RANGE 0 t s))) ∧
  (∀ t o b info s s0, Taken (.aidNav t o b) info s s0 → ∀ sig kind len, sig = bodyN o 0 1 → kind = bodyN o 2 1 → len = bodyN o 16 4 →
    1 ≤ sig → sig ≤ 7 → 1 ≤ kind → kind ≤ 4 → 1 ≤ len → len ≤ 4096 →
    (b.dmaOk = true → b.bytes.length = len → (crc32c b.bytes).toNat = bodyN o 20 4 → ∀ l, l = orderLane s o.path →
      Answers (.aidNav t o b) s (fun u => DataDone info t s u ∧ OrderRegs [] s u ∧
        (u.lane l).gnb = ((takeNav l ⟨sysOf sig, bodyN o 1 1, kind, Config.listVal 4 (b.bytes.map (·.toNat)), b.bytes⟩ s).lane l).gnb ∧
        (u.lane l).fus = (s.lane l).fus ∧ (u.lane l.other).gnb = (s.lane l.other).gnb)) ∧
    (b.dmaOk = false → Answers (.aidNav t o b) s (RefusedWith info Code.BUFFER 0 t s)) ∧
    (b.dmaOk = true → b.bytes.length = len → (crc32c b.bytes).toNat ≠ bodyN o 20 4 →
      Answers (.aidNav t o b) s (RefusedWith info Code.BADCRC 0 t s))) ∧
  (∀ t o info s s0, Taken (.aidPos t o) info s s0 → ∀ sd : F32, sd = BitVec.ofNat 32 (bodyN o 24 4) →
    (finite (bodyF o 0) = true → finite (bodyF o 8) = true → finite (bodyF o 16) = true → sigmaOk sd = true → ∀ l, l = orderLane s o.path →
      Answers (.aidPos t o) s (fun u => DataDone info t s u ∧ OrderRegs [] s u ∧
        (u.lane l).gnb = { (s.lane l).gnb with pos := some (bodyF o 0, bodyF o 8, bodyF o 16, sd) } ∧
        (u.lane l.other).gnb = (s.lane l.other).gnb)) ∧
    (finite (bodyF o 0) = false ∨ finite (bodyF o 8) = false ∨ finite (bodyF o 16) = false ∨ sigmaOk sd = false →
      Answers (.aidPos t o) s (RefusedWith info Code.RANGE 0 t s))) ∧
  (∀ t o info s s0, Taken (.event t o) info s s0 → ∀ src, src = bodyN o 0 2 →
    (640 ≤ src → src ≤ 1023 → Answers (.event t o) s (fun u => DataDone info t s u ∧
      (o.path ≠ .can → u.rec' =
        (raiseAt (BitVec.ofNat 64 (bodyN o 8 8)) (.host (BitVec.ofNat 10 src)) (bodyN o 2 2) (bodyN o 16 8) false false (begin' t s)).rec') ∧
      OrderFrame t s u ∧ OrderRegs [] s u)) ∧
    (src < 640 ∨ 1023 < src → Answers (.event t o) s (RefusedWith info Code.RANGE 0 t s)))

/-- The bank and block of a load, its buffer being whole (R376). -/
def Sys2Proof.Machine.LoadAt (o : Order) (b : HostBuf) (k blk : Nat) : Prop := bodyN o 0 4 = k ∧ bodyN o 4 4 = blk ∧ loadErr o b = none

/-- A block of a package loaded: nothing else of the module changes, but that the block's place in flash is written (R453). -/
def Sys2Proof.Machine.BlockDone (info : OrdInfo) (net : Bool) (k blk : Nat) (l : Lane) (t : Time) (s u : State) : Prop :=
  DoneWith info t s u ∧ u.cyc = s.cyc ∧ u.cfg = s.cfg ∧ u.kpr = s.kpr ∧ u.alarms = s.alarms ∧ u.saf = s.saf ∧ u.rtc = s.rtc ∧
  u.upd = (onFlash l (flashWrite (Config.flashPlace net k blk)) s).upd

/-- R86, R376, R480: block 0 starts a load and discards what the bank or slot held, other blocks join it; block 0 of a bank that is ARMED or ACTIVE
is BUSY with err 0x10, another block of a bank that is not LOADING is STATE, a block short of 65,536 bytes that is not the last one RANGE, a
buffer that fails its transfer BUFFER, one that fails its CRC BADCRC. A safety configuration comes in one block. -/
def Sys2Proof.Machine.LoadsFillBanks : Prop :=
  (∀ t o b info s s0 k blk l, Taken (.loadModel t o b) info s s0 → LoadAt o b k blk → k ≤ 1 → l = ownLane o →
    (blk = 0 → getF s (bankFld false k) l ≠ 3 → getF s (bankFld false k) l ≠ 4 → blockFull [(0, b.bytes)] 8 0 = true →
      Answers (.loadModel t o b) s (fun u => BlockDone info false k blk l t s u ∧
      bankOf (u.lane l) false k = { blocks := [(0, b.bytes)], complete := loadComplete [(0, b.bytes)] 8 } ∧ getF u (bankFld false k) l = 1 ∧
      bankOf (u.lane l) false (1 - k) = bankOf (s.lane l) false (1 - k) ∧ bankOf (u.lane l) true 0 = bankOf (s.lane l) true 0 ∧
      u.lane l.other = { s.lane l.other with hri := (u.lane l.other).hri })) ∧
    (blk ≠ 0 → getF s (bankFld false k) l = 1 → (bankOf (s.lane l) false k).reverify = false →
      blockFull (alSet (bankOf (s.lane l) false k).blocks blk b.bytes) 8 blk = true → Answers (.loadModel t o b) s (fun u =>
      BlockDone info false k blk l t s u ∧ (bankOf (u.lane l) false k).blocks = alSet (bankOf (s.lane l) false k).blocks blk b.bytes ∧
      (bankOf (u.lane l) false k).complete = loadComplete (alSet (bankOf (s.lane l) false k).blocks blk b.bytes) 8 ∧
      getF u (bankFld false k) l = 1)) ∧
    (blk = 0 → getF s (bankFld false k) l = 3 ∨ getF s (bankFld false k) l = 4 → Answers (.loadModel t o b) s (RefusedWith info Code.BUSY 0x10 t s)) ∧
    (blk = 0 → getF s (bankFld false k) l ≠ 3 → getF s (bankFld false k) l ≠ 4 → blockFull [(0, b.bytes)] 8 0 = false →
      Answers (.loadModel t o b) s (RefusedWith info Code.RANGE 0 t s)) ∧
    (blk ≠ 0 → getF s (bankFld false k) l ≠ 1 → Answers (.loadModel t o b) s (RefusedWith info Code.STATE 0 t s))) ∧
  (∀ t o b info s s0 k blk l, Taken (.loadNetwork t o b) info s s0 → LoadAt o b k blk → k ≤ 1 → l = ownLane o →
    (blk = 0 → getF s (bankFld true k) l ≠ 3 → getF s (bankFld true k) l ≠ 4 → blockFull [(0, b.bytes)] 8 0 = true →
      Answers (.loadNetwork t o b) s (fun u => BlockDone info true k blk l t s u ∧
      bankOf (u.lane l) true k = { blocks := [(0, b.bytes)], complete := loadComplete [(0, b.bytes)] 8 } ∧ getF u (bankFld true k) l = 1 ∧
      bankOf (u.lane l) true (1 - k) = bankOf (s.lane l) true (1 - k) ∧ bankOf (u.lane l) false 0 = bankOf (s.lane l) false 0)) ∧
    (blk = 0 → getF s (bankFld true k) l = 3 ∨ getF s (bankFld true k) l = 4 → Answers (.loadNetwork t o b) s (RefusedWith info Code.BUSY 0x10 t s))) ∧
  (∀ t o b info s s0 k blk l n, Taken (.loadFirmware t o b) info s s0 → LoadAt o b k blk → k ≤ 1 → l = ownLane o → n = 1 - runOf s l (k == 1) →
    runOf s l (k == 1) ≤ 1 →
    (getF s Reg.UPD_SEQ_step = 0 → blk = 0 → blockFull [(0, b.bytes)] 8 0 = true → Answers (.loadFirmware t o b) s (fun u => DoneWith info t s u ∧
      imgSlot u (imgKey l (k == 1) n) = { blocks := [(0, b.bytes)], complete := loadComplete [(0, b.bytes)] 8 } ∧
      getF u (slotSt' (k == 1) n) l = 1 ∧ getF u (slotConf (k == 1) n) l = 0 ∧ u.upd.runA = s.upd.runA ∧ u.upd.runB = s.upd.runB ∧
      u.upd.runK = s.upd.runK ∧ u.cfg = s.cfg)) ∧
    (getF s Reg.UPD_SEQ_step ≠ 0 → Answers (.loadFirmware t o b) s (RefusedWith info Code.BUSY 0 t s)) ∧
    (getF s Reg.UPD_SEQ_step = 0 → blk ≠ 0 → getF s (slotSt' (k == 1) n) l ≠ 1 → Answers (.loadFirmware t o b) s (RefusedWith info Code.STATE 0 t s))) ∧
  (∀ t o b info s s0, Taken (.loadSafety t o b) info s s0 → loadErr o b = none →
    (bodyN o 4 4 = 0 → Answers (.loadSafety t o b) s (fun u => DoneWith info t s u ∧ u.saf = { s.saf with load := some b.bytes } ∧
      getF u Reg.SAF_CFG_busy = 1 ∧ OrderRegs [Reg.SAF_CFG] s u ∧ u.cfg = s.cfg)) ∧
    (bodyN o 4 4 ≠ 0 → Answers (.loadSafety t o b) s (RefusedWith info Code.STATE 0 t s))) ∧
  (∀ i t o b info s s0 c, i ∈ [Instr.loadModel t o b, .loadNetwork t o b, .loadFirmware t o b, .loadSafety t o b] → Taken i info s s0 →
    bodyN o 0 4 ≤ 1 → loadErr o b = some c → Answers i s (RefusedWith info c 0 t s))

/-- R376, R478: an item whose buffer is whole is stored as its bytes spell it and enters the configuration that the digest covers (where the spec
gives no layout of the bytes their reading is free, log entry 101); a value out of range is RANGE, a
buffer of another length BUFFER, one with another CRC BADCRC. A change of a key has every checked bank verified again. -/
def Sys2Proof.Machine.ItemsAreStored : Prop :=
  (∀ t o b info s s0 item n, Taken (.configItem t o b) info s s0 → bodyN o 0 2 = item → bodyN o 2 2 = n → b.dmaOk = true →
    b.bytes.length = bodyN o 16 4 → (crc32c b.bytes).toNat = bodyN o 20 4 → ∀ raw, raw = Sparse.set (fun _ => []) s.cfg.raw (65536 * item + n) b.bytes →
    (∀ x, item = 2 → x = Config.streamItem b.bytes → streamOk n x = true → Answers (.configItem t o b) s (fun u => DoneWith info t s u ∧
      u.cfg = { s.cfg with streams := alSet s.cfg.streams n x, raw := raw } ∧ OrderRegs [] s u)) ∧
    (∀ x, item = 2 → x = Config.streamItem b.bytes → streamOk n x = false → Answers (.configItem t o b) s (RefusedWith info Code.RANGE 0 t s)) ∧
    (∀ x, item = 3 → x = Config.refItem b.bytes → refOk n x = true → Answers (.configItem t o b) s (fun u => DoneWith info t s u ∧
      u.cfg = { s.cfg with refs := alSet s.cfg.refs n x, raw := raw } ∧ (∀ l, getF u (Reg.FUS_REFn_group n) l = x.group))) ∧
    (∀ x, item = 9 → x = Config.antennaItem b.bytes → x.length = 6 → x.all F64.isFin = true → Answers (.configItem t o b) s (fun u => DoneWith info t s u ∧
      u.cfg = { s.cfg with antenna := x, raw := raw } ∧ OrderRegs [] s u)) ∧
    (∀ p q, item = 11 → (p, q) = Config.prioItem b.bytes → Answers (.configItem t o b) s (fun u => DoneWith info t s u ∧
      u.cfg = { s.cfg with prio1 := p, prio2 := q, raw := raw } ∧ OrderRegs [] s u)) ∧
    (∀ x, item = 14 → b.bytes.length = 384 → x = (List.range 48).map (fun i => BitVec.ofNat 64 (leAt b.bytes (8 * i) 8)) → x.all F64.isFin = true →
      Answers (.configItem t o b) s (fun u => DoneWith info t s u ∧
      u.cfg = { s.cfg with filter := some x, raw := raw } ∧ OrderRegs [] s u)) ∧
    (item = 12 → objOk s0 n b.bytes = true → Answers (.configItem t o b) s (fun u => DoneWith info t s u ∧
      objCfg u n = readObj b.bytes ∧ (∀ k, k ≠ n → objCfg u k = objCfg s k) ∧ getF u (Reg.MBC_OBJk_STAT_kind n) = (readObj b.bytes).kind ∧
      u.cfg = { s.cfg with raw := raw })) ∧
    (item = 13 → serOk n b.bytes = true → Answers (.configItem t o b) s (fun u => DoneWith info t s u ∧
      u.cfg = { s.cfg with sers := alSet s.cfg.sers n (readSer b.bytes), raw := raw } ∧ OrderRegs [] s u)) ∧
    (item = 1 → n ≤ 1 → b.bytes.length = 97 → b.bytes.headD 0#8 = 4#8 → Answers (.configItem t o b) s (fun u => DoneWith info t s u ∧
      u.cfg = { s.cfg with keys := Sparse.set (fun _ => []) s.cfg.keys n b.bytes, raw := raw } ∧
      rdK u (Reg.SLV_PKG_KEYnID n) = BitVec.ofNat 32 (leNat ((sha b.bytes).take 4)) ∧
      (∀ l net k, k ≤ 1 → (bankOf (s.lane l) net k).complete = true → getF s (bankFld net k) l ≠ 1 → (bankOf (u.lane l) net k).reverify = true)))) ∧
  (∀ t o b info s s0, Taken (.configItem t o b) info s s0 →
    (b.dmaOk = false ∨ b.bytes.length ≠ bodyN o 16 4 → Answers (.configItem t o b) s (RefusedWith info Code.BUFFER 0 t s)) ∧
    (b.dmaOk = true → b.bytes.length = bodyN o 16 4 → (crc32c b.bytes).toNat ≠ bodyN o 20 4 →
      Answers (.configItem t o b) s (RefusedWith info Code.BADCRC 0 t s)))

/-- A snapshot written to its buffer (R377). -/
def Sys2Proof.Machine.Snapped (info : OrdInfo) (o : Order) (bytes : List Byte) (t : Time) (s u : State) : Prop :=
  .dma (ownLane o) (BitVec.ofNat 64 (bodyN o 8 8)) bytes ∈ u.out ∧ .complete info Code.ACCEPTED 0 ∈ u.out ∧ u.auth = signed info t s s.auth ∧
  u.waits = s.waits ∧ OrderFrame t s u ∧ OrderRegs [] s u

/-- R377: a snapshot is written into a buffer that is long enough, and a shorter one is BUFFER; a grid waits for the blend of the next cycle
while fusion runs, and is ROLE in a lane that is not Active; the snapshot of block RTC latches the calendar (log entry 61). The 64 bytes of a keyframe's origin are open (log entry 13). -/
def Sys2Proof.Machine.SnapshotsAreWritten : Prop :=
  (∀ t o info s s0, Taken (.snapshotMetro t o true) info s s0 → ∀ bytes, bytes = metBytes s0 (ownLane o) (bodyN o 0 4) →
    (bodyN o 0 4 ≤ 95 → bytes.length ≤ bodyN o 16 4 → Answers (.snapshotMetro t o true) s (Snapped info o bytes t s)) ∧
    (bodyN o 0 4 ≤ 95 → bodyN o 16 4 < bytes.length → Answers (.snapshotMetro t o true) s (RefusedWith info Code.BUFFER 0 t s)) ∧
    (95 < bodyN o 0 4 → Answers (.snapshotMetro t o true) s (RefusedWith info Code.RANGE 0 t s))) ∧
  (∀ t o info s s0, Taken (.snapshotBlock t o true) info s s0 → bodyN o 0 4 % 0x10000 = 0 → bodyN o 0 4 < 0x200000 →
    (65536 ≤ bodyN o 16 4 → bodyN o 0 4 ≠ Reg.RTC_TIME →
      Answers (.snapshotBlock t o true) s (Snapped info o (blockBytes s0 (ownLane o) (bodyN o 0 4)) t s)) ∧
    (65536 ≤ bodyN o 16 4 → bodyN o 0 4 = Reg.RTC_TIME → Answers (.snapshotBlock t o true) s (fun u =>
      .dma (ownLane o) (BitVec.ofNat 64 (bodyN o 8 8)) (blockBytes (latchCal s0) (ownLane o) (bodyN o 0 4)) ∈ u.out ∧
      .complete info Code.ACCEPTED 0 ∈ u.out ∧ u.rtc = { s.rtc with seen := s.rtc.cal } ∧ u.auth = signed info t s s.auth ∧
      u.waits = s.waits ∧ OrderRegs [] s u)) ∧
    (bodyN o 16 4 < 65536 → Answers (.snapshotBlock t o true) s (RefusedWith info Code.BUFFER 0 t s))) ∧
  (∀ t o info s s0 l, Taken (.grid t o true) info s s0 → l = ownLane o → bodyN o 0 4 ≤ 1 →
    (isActive s l = true → 67108864 ≤ bodyN o 16 4 → (s.lane l).fus.run = true → Answers (.grid t o true) s (fun u =>
      (u.lane l).hri.gridWait = (s.lane l).hri.gridWait ++ [⟨info, bodyN o 0 4 == 1, BitVec.ofNat 64 (bodyN o 8 8)⟩] ∧
      u.auth = signed info t s s.auth ∧ OrderFrame t s u ∧ OrderRegs [] s u)) ∧
    (isActive s l = true → 67108864 ≤ bodyN o 16 4 → (s.lane l).fus.run = false → Answers (.grid t o true) s
      (Snapped info o (gridBytes (if bodyN o 0 4 = 1 then (s.lane l).fus.prevGrid else (s.lane l).fus.curGrid)) t s)) ∧
    (isActive s l = true → bodyN o 16 4 < 67108864 → Answers (.grid t o true) s (RefusedWith info Code.BUFFER 0 t s))) ∧
  (∀ t o info s s0 ep n, o.path = .pcie ep n → isActive s ep = false → s.up = true → arrive o (begin' t s) = (some info, s0) →
    headErr o 6 3 [(0, 32), (64, 128)] = none → ∀ ok, Answers (.grid t o ok) s (RefusedWith info Code.ROLE 0 t s)) ∧
  (∀ t o info s s0 k, Taken (.keyframe t o true) info s s0 → k = lastKey s (ownLane o) → ∀ bytes,
    bytes = halfBytes (256 * 256 * 32) k.1 ++ originBytes k.2.1 k.2.2 →
    (4194368 ≤ bodyN o 16 4 → Answers (.keyframe t o true) s (Snapped info o bytes t s)) ∧
    (bodyN o 16 4 < 4194368 → Answers (.keyframe t o true) s (RefusedWith info Code.BUFFER 0 t s)))

/-- R203, R378: expert operations, each recorded as HRI_XOP with its operation and tag. The layout of their bodies is open (log entry 32): the
channel, set or region is the model's free reading of the body. -/
def Sys2Proof.Machine.ExpertsActOnEngines : Prop :=
  (∀ t o info s s0 l, Taken (.gnbUnpin t o) info s s0 → l = orderLane s o.path →
    (expertField o 9 < 160 → Answers (.gnbUnpin t o) s (fun u => DataDone info t s u ∧
      gch u l (expertField o 9) = { gch s l (expertField o 9) with pin := false } ∧ (∀ c, c ≠ expertField o 9 → gch u l c = gch s l c) ∧
      (o.path ≠ .can → u.rec' = (raise (laneSrc l 11) Ev.HRI_XOP (o.op.toNat + 2 ^ 32 * o.tag.toNat) (begin' t s)).rec'))) ∧
    (160 ≤ expertField o 9 → Answers (.gnbUnpin t o) s (fun u => RefusedWith info Code.RANGE 0 t s u ∧
      (o.path ≠ .can → u.rec' = (raise (laneSrc l 11) Ev.HRI_XOP (o.op.toNat + 2 ^ 32 * o.tag.toNat) (begin' t s)).rec')))) ∧
  (∀ t o info s s0 l c, Taken (.gnbPin t o) info s s0 → l = orderLane s o.path → c = expertField o 9 → c < 160 → 1 ≤ expertField o 10 →
    expertField o 10 ≤ 7 → isL1 (expertField o 10) = (c / 40 % 2 == 0) → expertField o 11 < 64 →
    (expertField o 10 = 7 → -7 ≤ sgn 8 (expertField o 12 % 256) ∧ sgn 8 (expertField o 12 % 256) ≤ 6) → Answers (.gnbPin t o) s (fun u =>
      DataDone info t s u ∧ (gch u l c).pin = true ∧ (gch u l c).sig = expertField o 10 ∧ (gch u l c).sat = expertField o 11 ∧
      (gnbOn s l = true → mayTrack s c (expertField o 10) (if expertField o 10 = 7 then expertField o 12 % 256 else 0) = true →
        (gch u l c).st = 1 ∧ (gch u l c).tIn = t) ∧
      (bit (getF s Reg.GNB_CFG_sys) (sysOf (expertField o 10)) = false → (gch u l c).st = 0) ∧ (∀ d, d ≠ c → gch u l d = gch s l d) ∧
      (o.path ≠ .can → u.rec' = (raise (laneSrc l 11) Ev.HRI_XOP (o.op.toNat + 2 ^ 32 * o.tag.toNat) (begin' t s)).rec'))) ∧
  (∀ t o info s s0 l n, Taken (.gnbLoop t o) info s s0 → l = orderLane s o.path → n = expertField o 10 → expertField o 9 % 2 = 0 →
    (1 ≤ n → n ≤ 7 → parOk n (loopPar o) = true → Answers (.gnbLoop t o) s (fun u => DataDone info t s u ∧
      (u.lane l).gnb = { (s.lane l).gnb with pars := alSet (s.lane l).gnb.pars (1000 + n) (loopPar o) } ∧
      (o.path ≠ .can → u.rec' = (raise (laneSrc l 11) Ev.HRI_XOP (o.op.toNat + 2 ^ 32 * o.tag.toNat) (begin' t s)).rec'))) ∧
    (n < 1 ∨ 7 < n ∨ parOk n (loopPar o) = false → Answers (.gnbLoop t o) s (RefusedWith info Code.RANGE 0 t s))) ∧
  (∀ t o info s s0, Taken (.memRead t o true) info s s0 → Answers (.memRead t o true) s (fun u => OrderFrame t s u ∧
    .dma (ownLane o) (BitVec.ofNat 64 (expertField o 3)) (memBytes s0 (ownLane o) o) ∈ u.out ∧ .complete info Code.ACCEPTED 0 ∈ u.out ∧
    u.auth = signed info t s s.auth ∧ u.waits = s.waits ∧
    (o.path ≠ .can → u.rec' = (raise (laneSrc (orderLane s o.path) 11) Ev.HRI_XOP (o.op.toNat + 2 ^ 32 * o.tag.toNat) (begin' t s)).rec'))) ∧
  (∀ t o info s s0, (Taken (.memRead t o false) info s s0 → Answers (.memRead t o false) s (RefusedWith info Code.BUFFER 0 t s)) ∧
    (Taken (.snapshotMetro t o false) info s s0 → bodyN o 0 4 ≤ 95 → Answers (.snapshotMetro t o false) s (RefusedWith info Code.BUFFER 0 t s)) ∧
    (Taken (.keyframe t o false) info s s0 → Answers (.keyframe t o false) s (RefusedWith info Code.BUFFER 0 t s)))

/-- R203, R368, R375-R378: posts, loads, items, snapshots and expert operations. -/
def Obligations.DataOrdersAreServed : Prop :=
  PostsAreHeld ∧ LoadsFillBanks ∧ ItemsAreStored ∧ SnapshotsAreWritten ∧ ExpertsActOnEngines

/-! Rings, doorbells, moderation and stations (R354-R361, R383, R519). -/

/-- R356, R357: a doorbell with a new index gives its entries to the ring; one without its complement, of a ring that is off, with an index out of
the ring or beyond its space is counted, shown and recorded; one with the index the ring has, at an offset that is no ring's doorbell, or of an
endpoint that is shut changes nothing. -/
def Sys2Proof.Machine.DoorbellsMoveIndices : Prop :=
  (∀ t ep ofs v s n, LaneRuns s ep → shut s ep = false → decommissioned s = false → ofs % 256 = 0 → n = ofs / 256 → n < 64 →
    (badBell s ep n v = true → Answers (.doorbell t ep ofs v) s (fun u =>
      getF u Reg.HRI_CNT_badbell ep = min (getF s Reg.HRI_CNT_badbell ep + 1) 0xFFFF ∧ getF u Reg.HRI_SYS_STAT_reject ep = 1 ∧
      u.rec' = (raise (laneSrc ep 11) Ev.HRI_BADBELL (ofs + 2 ^ 32 * v.toNat) (begin' t s)).rec' ∧
      OnlyRegs ([laneKey Reg.HRI_CNT ep, laneKey Reg.HRI_SYS_STAT ep] ++ vecKeys ep ++ recKeys) s u ∧ RegsAndAlarms t s u ∧ u.alarms = s.alarms)) ∧
    (badBell s ep n v = false → v.toNat % 2 ^ 16 ≠ getF s (Reg.HRI_RGn_HOST_idx n) ep →
      (getF s (Reg.HRI_RGn_CFG_kind n) ep = 0 → Answers (.doorbell t ep ofs v) s (fun u =>
        getF u (Reg.HRI_RGn_HOST_idx n) ep = v.toNat % 2 ^ 16 ∧ OnlyRegs [laneKey (Reg.HRI_RGn_HOST n) ep] s u ∧ RegsOnly t s u)) ∧
      (getF s (Reg.HRI_RGn_CFG_kind n) ep = 2 → Answers (.doorbell t ep ofs v) s (fun u =>
        getF u (Reg.HRI_RGn_HOST_idx n) ep = v.toNat % 2 ^ 16 ∧ OnlyRegs [laneKey (Reg.HRI_RGn_HOST n) ep] s u ∧ LaneOnly ep t s u ∧
        (∀ d, d = ringDist (ringSize s ep n) (getF s (Reg.HRI_RGn_HOST_idx n) ep) (v.toNat % 2 ^ 16) →
          ringSt u ep n = { ringSt s ep n with used := (ringSt s ep n).used.drop d }) ∧
        (∀ m, m ≠ n → ringSt u ep m = ringSt s ep m) ∧
        u.lane ep = { s.lane ep with hri := { (s.lane ep).hri with rings := (u.lane ep).hri.rings } })) ∧
      (getF s (Reg.HRI_RGn_CFG_kind n) ep = 1 → (ringSt s ep n).waitQ = [] → Answers (.doorbell t ep ofs v) s (fun u =>
        getF u (Reg.HRI_RGn_HOST_idx n) ep = v.toNat % 2 ^ 16 ∧
        (∀ m < 64, getF u (Reg.HRI_RGn_STAT_state m) ep =
          if (getF s (Reg.HRI_RGn_PTR_idx n) ep + 1) % ringSize s ep n ≠ v.toNat % 2 ^ 16 ∧ getF s (Reg.HRI_RGn_STAT_state m) ep = 2 ∧
            getF s (Reg.HRI_RGn_CFG_cring m) ep = n then 1 else getF s (Reg.HRI_RGn_STAT_state m) ep) ∧ RegsOnly t s u))) ∧
    (badBell s ep n v = false → v.toNat % 2 ^ 16 = getF s (Reg.HRI_RGn_HOST_idx n) ep → exec (.doorbell t ep ofs v) s = .next (begin' t s))) ∧
  (∀ t ep ofs v s, LaneRuns s ep → ofs % 256 ≠ 0 ∨ 64 ≤ ofs / 256 ∨ shut s ep = true ∨ decommissioned s = true →
    exec (.doorbell t ep ofs v) s = .next (begin' t s))

/-- R355, R360, R519: a ring that is off takes its settings with en, passes their check and starts at index 0 with phase 1, or stays disabled with
its error; while it is on only a write of en = 0 acts, and what it holds is discarded. The oldest entry not signalled raises the vector after
usec; a masked vector is marked pending and is raised when its mask in the MSI-X table is cleared. PERST disables every ring of the endpoint,
clears HRI_SYS_STAT and masks every vector (log entry 89). -/
def Sys2Proof.Machine.RingsAreEnabledAndReset : Prop :=
  (∀ t ep n v s, LaneWritable s ep → n < 64 →
    (getB s (Reg.HRI_RGn_CFG_en n) ep = false → v.getLsbD 0 = true → v.toNat / 2 % 4 = 1 → 4 ≤ v.toNat / 16 % 32 → v.toNat / 16 % 32 ≤ 16 →
      Answers (.ringEnable t ep n v) s (fun u => getB u (Reg.HRI_RGn_CFG_en n) ep = true ∧ getF u (Reg.HRI_RGn_CFG_kind n) ep = 1 ∧
        getF u (Reg.HRI_RGn_CFG_lsz n) ep = v.toNat / 16 % 32 ∧ getF u (Reg.HRI_RGn_CFG_vec n) ep = v.toNat / 2 ^ 16 % 64 ∧
        getF u (Reg.HRI_RGn_STAT_state n) ep = 1 ∧ getF u (Reg.HRI_RGn_PTR_idx n) ep = 0 ∧ getF u (Reg.HRI_RGn_PTR_ph n) ep = 1 ∧
        getF u (Reg.HRI_RGn_HOST_idx n) ep = 0 ∧ ringSt u ep n = {} ∧ (∀ m, m ≠ n → ringSt u ep m = ringSt s ep m) ∧
        OnlyRegs ([Reg.HRI_RGn_CFG n, Reg.HRI_RGn_PTR n, Reg.HRI_RGn_HOST n, Reg.HRI_RGn_STAT n].map (laneKey · ep)) s u ∧ LaneOnly ep t s u)) ∧
    (getB s (Reg.HRI_RGn_CFG_en n) ep = false → v.getLsbD 0 = true → v.toNat / 16 % 32 < 4 ∨ 16 < v.toNat / 16 % 32 →
      Answers (.ringEnable t ep n v) s (fun u => getB u (Reg.HRI_RGn_CFG_en n) ep = false ∧ getF u (Reg.HRI_RGn_STAT_err n) ep = 1 ∧
        u.rec' = (raise (laneSrc ep 11) Ev.HRICFG (Reg.HRI_RGn_CFG n) (begin' t s)).rec' ∧
        OnlyRegs (laneKey (Reg.HRI_RGn_STAT n) ep :: recKeys) s u ∧ RegsAndRecords t s u)) ∧
    (getB s (Reg.HRI_RGn_CFG_en n) ep = true → v.getLsbD 0 = true → exec (.ringEnable t ep n v) s = .next (begin' t s)) ∧
    (getB s (Reg.HRI_RGn_CFG_en n) ep = true → v.getLsbD 0 = false → Answers (.ringDisable t ep n v) s (fun u =>
      getB u (Reg.HRI_RGn_CFG_en n) ep = false ∧ getF u (Reg.HRI_RGn_STAT_state n) ep = 0 ∧ ringSt u ep n = {} ∧
      (∀ m, m ≠ n → ringSt u ep m = ringSt s ep m) ∧
      OnlyRegs [laneKey (Reg.HRI_RGn_CFG n) ep, laneKey (Reg.HRI_RGn_STAT n) ep] s u ∧ LaneOnly ep t s u))) ∧
  (∀ t l n s, LaneRuns s l →
    (ringOn s l n = true → shut s l = false → getB s (Reg.HRI_RGn_CFG_ie n) l = true → 0 < (ringSt s l n).unsig →
      (1000 * getF s (Reg.HRI_RGn_MOD_usec n) l ≤ since t (ringSt s l n).oldest → Answers (.interruptModeration t l n) s (fun u =>
        (∀ x, x = getF s (Reg.HRI_RGn_CFG_vec n) l →
          (vecOpen s l x = true → u.out = [.msix l x] ∧ ∀ k, rdK u k = rdK s k) ∧
          (vecOpen s l x = false → u.out = [] ∧ OnlyRegs [pbaKey l x] s u ∧
            rdK u (pbaKey l x) = rdK s (pbaKey l x) ||| BitVec.ofNat 32 (2 ^ (x % 32)))) ∧
        ringSt u l n = { ringSt s l n with unsig := 0 } ∧ (∀ m, m ≠ n → ringSt u l m = ringSt s l m) ∧ u.rec' = s.rec' ∧ u.alarms = s.alarms ∧ LaneAndAlarms l t s u)) ∧
      (since t (ringSt s l n).oldest < 1000 * getF s (Reg.HRI_RGn_MOD_usec n) l → exec (.interruptModeration t l n) s = .next (begin' t s))) ∧
    ((ringSt s l n).unsig = 0 ∨ ringOn s l n = false → exec (.interruptModeration t l n) s = .next (begin' t s))) ∧
  (∀ t ep n v s, s.up = true → decommissioned s = false → n < 64 → ∀ o, o = barFour + 16 * n + 12 →
    (v.getLsbD 0 = true → Answers (.registerWrite t ep o 4 v) s (fun u => vecOpen u ep n = false ∧
      OnlyRegs [msixKey ep (16 * n + 12)] s u ∧ RegsOnly t s u)) ∧
    (v.getLsbD 0 = false → Answers (.registerWrite t ep o 4 v) s (fun u => vecOpen u ep n = true ∧
      (rdK u (pbaKey ep n)).getLsbD (n % 32) = false ∧
      u.out = (if (rdK s (pbaKey ep n)).getLsbD (n % 32) then [.msix ep n] else []) ∧
      OnlyRegs [msixKey ep (16 * n + 12), pbaKey ep n] s u ∧ u = { begin' t s with regs := u.regs, out := u.out }))) ∧
  (∀ t l s, LaneRuns s l → Answers (.perst t l) s (fun u => rdK u (laneKey Reg.HRI_SYS_STAT l) = 0#32 ∧
    (∀ n < 64, getB u (Reg.HRI_RGn_CFG_en n) l = false ∧ (getB s (Reg.HRI_RGn_CFG_en n) l = true →
      getF u (Reg.HRI_RGn_STAT_state n) l = 0 ∧ ringSt u l n = {})) ∧
    (∀ v < 64, vecOpen u l v = false ∧ (rdK u (pbaKey l v)).getLsbD (v % 32) = false) ∧
    OnlyRegs (laneKey Reg.HRI_SYS_STAT l :: (List.range 1026).map (fun o => msixKey l (4 * o)) ++
      (List.range 64).flatMap (fun n => [laneKey (Reg.HRI_RGn_CFG n) l, laneKey (Reg.HRI_RGn_STAT n) l])) s u ∧
    u.lane l = { s.lane l with hri := { (s.lane l).hri with rings := (u.lane l).hri.rings } } ∧ LaneOnly l t s u))

/-- R306, R383, R384: a datagram of 1-16 descriptors to the module address from an enabled source waits to be served; one that fails format or
source, a disabled station's too, is dropped, counted and shown; a copy of one already taken, and one to another address, is nothing new. -/
def Sys2Proof.Machine.StationDatagramsAreTaken : Prop :=
  ∀ t src dst sport hdr copies s l n, s.up = true → active s = some l → decommissioned s = false → n = hdr.toNat / 2 ^ 24 % 256 →
    (∀ st, copies ≠ 0 → dst = Config.modIp → hdr.toNat % 2 ^ 24 = 0x01434A → 1 ≤ n → n ≤ 16 → netStation s src = some st →
      stationEn s st = true ∧ exec (.stationDatagram t src dst sport hdr copies) s = .next { begin' t s with
        netPend := s.netPend ++ [(st, n, t, sport)], netPort := alSet s.netPort st sport }) ∧
    (copies ≠ 0 → dst = Config.modIp → (hdr.toNat % 2 ^ 24 ≠ 0x01434A ∨ n < 1 ∨ 16 < n ∨ netStation s src = none) →
      Answers (.stationDatagram t src dst sport hdr copies) s (fun u =>
        getF u Reg.HRI_CNT_reject l = min (getF s Reg.HRI_CNT_reject l + 1) 0xFFFF ∧
        (shut s l = false → getF u Reg.HRI_SYS_STAT_reject l = 1) ∧
        OnlyRegs ([laneKey Reg.HRI_CNT l, laneKey Reg.HRI_SYS_STAT l] ++ vecKeys l) s u ∧ RegsAndAlarms t s u ∧ u.rec' = s.rec' ∧ u.alarms = s.alarms)) ∧
    (copies = 0 ∨ dst ≠ Config.modIp → exec (.stationDatagram t src dst sport hdr copies) s = .next (begin' t s))

/-- R354-R361, R383, R384, R519: the host link and the stations' datagrams. -/
def Obligations.RingsBellsAndDatagrams : Prop := DoorbellsMoveIndices ∧ RingsAreEnabledAndReset ∧ StationDatagramsAreTaken

/-! The message buses (R385-R405). -/

/-- The state after a command that changed registers, the buses' queues and objects, records and ports only. -/
def Sys2Proof.Machine.BusOnly (t : Time) (s u : State) : Prop :=
  u = { begin' t s with regs := u.regs, mbc := u.mbc, rec' := u.rec', out := u.out }

/-- A controller that takes part in bus traffic (R389, R390). -/
def Sys2Proof.Machine.LiveBus (s : State) (c : Nat) : Prop := s.up = true ∧ canLive s c = true

/-- State of a controller that its error counters give below bus-off (R390). -/
def Sys2Proof.Machine.errorState (tec rc : Nat) : Nat := if 127 < tec ∨ 127 < rc then 1 else 0

/-- R390, R393, R397: a data frame is stored in the lowest-numbered receive object that takes it, with its stamp; one that was not read before is an
overrun; one that no object takes changes only the error counter. From above 127 the counter comes to a free value (log entry 19). -/
def Sys2Proof.Machine.FramesAreStored : Prop :=
  (∀ t c f s k, LiveBus s c → frameObj s c f = some k → (objCfg s k).kind = 1 → f.data.length < 128 →
    Answers (.canFrameReceived t c f) s (fun u =>
      u.mbc = { s.mbc with rx := alSet s.mbc.rx k (trimOld (·.1) t ((t, f.data) :: (alGet s.mbc.rx k).getD [])) } ∧ getF u (Reg.MBC_OBJk_STAT_new k) = 1 ∧
      getF u (Reg.MBC_OBJk_STAT_len k) = f.data.length ∧ getB u (Reg.MBC_OBJk_STAT_fdf k) = f.fd ∧ getF u (Reg.MBC_OBJk_TS_ts k) = canStamp t ∧
      getF u (Reg.MBC_OBJk_ID_id k) = f.id.toNat ∧ getB u (Reg.MBC_OBJk_ID_ide k) = f.ide ∧
      (∀ i < 16, rdK u (0xD8000 + k * 0x40 + i * 4) = BitVec.ofNat 32 (leAt f.data (4 * i) 4)) ∧
      (getB s (Reg.MBC_OBJk_STAT_new k) = true → getF u (Reg.MBC_OBJk_STAT_ovr k) = 1 ∧
        getF u (Reg.MBC_Cn_CNT1_ovr c) = min (getF s (Reg.MBC_Cn_CNT1_ovr c) + 1) 255) ∧
      (getB s (Reg.MBC_OBJk_STAT_new k) = false → rdK u (Reg.MBC_Cn_CNT1 c) = rdK s (Reg.MBC_Cn_CNT1 c)) ∧
      getF u (Reg.MBC_Cn_STAT_rec c) = recDown (getF s (Reg.MBC_Cn_STAT_rec c)) ∧
      OnlyRegs ([Reg.MBC_Cn_STAT c, Reg.MBC_Cn_CNT1 c, Reg.MBC_OBJk_STAT k, Reg.MBC_OBJk_TS k, Reg.MBC_OBJk_ID k] ++
        (List.range 16).map (fun i => 0xD8000 + k * 0x40 + i * 4)) s u ∧ BusOnly t s u ∧ u.rec' = s.rec' ∧ u.out = [])) ∧
  (∀ t c f s, LiveBus s c → frameObj s c f = none → Answers (.canFrameReceived t c f) s (fun u =>
    getF u (Reg.MBC_Cn_STAT_rec c) = recDown (getF s (Reg.MBC_Cn_STAT_rec c)) ∧
    getF u (Reg.MBC_Cn_STAT_state c) = errorState (getF s (Reg.MBC_Cn_STAT_tec c)) (recDown (getF s (Reg.MBC_Cn_STAT_rec c))) ∧ OnlyRegs [Reg.MBC_Cn_STAT c] s u ∧ RegsOnly t s u)) ∧
  (∀ t c f s, s.up = true → canLive s c = false → exec (.canFrameReceived t c f) s = .next (begin' t s))

/-- An order frame of station 7 whose length, complement and CRC check, with a sequence that is not the last one taken (R398). -/
def Sys2Proof.Machine.OrderFrameOk (s : State) (d : List Byte) : Prop :=
  d.length = 8 ∧ complOf (slice d 0 2) (slice d 2 2) = true ∧ leAt d 4 4 = (crc32c (slice d 0 4)).toNat ∧ s.mbc.joySeq ≠ some (d.getD 1 0#8)

/-- A frame of a station-7 object of a kind, received while a lane is Active. -/
def Sys2Proof.Machine.JoyFrame (s : State) (c : Nat) (f : CanFrame) (k kind : Nat) : Prop :=
  LiveBus s c ∧ frameObj s c f = some k ∧ (objCfg s k).kind = kind ∧ (active s).isSome = true ∧ decommissioned s = false

/-- The three demand setpoints of station 7 as pending orders of an instant (R139, R399). -/
def Sys2Proof.Machine.joyOrders (t : Time) (k : Nat) (x y z : Option F64) : List PendOrd :=
  [⟨.sp 0x00010010#32 x, 7, t, plus t (5 * ms), k⟩, ⟨.sp 0x00010011#32 y, 7, t, plus t (5 * ms), k + 1⟩,
   ⟨.sp 0x00010012#32 z, 7, t, plus t (5 * ms), k + 2⟩]

/-- R372, R373, R398, R399: station 7. An order frame that checks is taken once and answered; a demand of the holder sets the three demand setpoints
from 5 ms on; what does not check, or comes from a station that may not demand, is rejected and counted; a holder without demands for tmo has
its setpoints withdrawn. -/
def Sys2Proof.Machine.StationSevenIsServed : Prop :=
  (∀ t c f s k, JoyFrame s c f k 5 →
    (¬ OrderFrameOk s f.data → Answers (.joystickOrderFrame t c f) s (fun u => u.auth = s.auth ∧ u.mbc.joySeq = s.mbc.joySeq ∧
      getF u Reg.MBC_JOY_rej = min (getF s Reg.MBC_JOY_rej + 1) 255 ∧ u.waits = s.waits ∧ OrderFrame t s u)) ∧
    (OrderFrameOk s f.data → f.data.getD 0 0#8 = 5#8 → Answers (.joystickOrderFrame t c f) s (fun u =>
      u.auth = { s.auth with lastSign := if s.auth.holder = some 7 then t else s.auth.lastSign } ∧
      u.mbc.joySeq = some (f.data.getD 1 0#8) ∧ getF u Reg.MBC_JOY_seq = (f.data.getD 1 0#8).toNat ∧ OrderFrame t s u ∧
      (∃ info, .complete info (if s.auth.holder = some 7 ∧ stationEn s 7 = true then Code.ACCEPTED else Code.CONFLICT) 0 ∈ u.out ∧
        info.station = 7 ∧ info.path = .can))) ∧
    (OrderFrameOk s f.data → f.data.getD 0 0#8 = 1#8 → stationEn s 7 = true → s.auth.holder = none → s.auth.req = none → s.auth.xfer = none →
      Answers (.joystickOrderFrame t c f) s (fun u => u.auth = { s.auth with xfer := some ⟨7, t, [s.tkt]⟩, ver := s.auth.ver + 1#32 } ∧
        u.mbc.joySeq = some (f.data.getD 1 0#8) ∧ OrderFrame t s u)) ∧
    (OrderFrameOk s f.data → f.data.getD 0 0#8 ∉ [1#8, 4#8, 5#8, 0x81#8] → Answers (.joystickOrderFrame t c f) s (fun u =>
      u.auth = { s.auth with lastSign := if s.auth.holder = some 7 then t else s.auth.lastSign } ∧ OrderFrame t s u ∧
      (∃ info, .complete info Code.ROLE 0 ∈ u.out ∧ info.station = 7)))) ∧
  (∀ t c f s, s.up = true → frameKind s c f ≠ some 5 → exec (.joystickOrderFrame t c f) s = .next (begin' t s)) ∧
  (∀ t c f s k d, JoyFrame s c f k 6 → d = f.data →
    (f.fd = true → d.length = 16 → complOf (slice d 0 8) (slice d 8 8) = true → s.mbc.joySeq ≠ some (d.getD 6 0#8) →
      (s.auth.holder = some 7 → stationEn s 7 = true → s.auth.orders = [] → ∀ x y z, x = joyVal (objCfg s k) d 0 → y = joyVal (objCfg s k) d 1 →
        z = joyVal (objCfg s k) d 2 → finite x = true → finite y = true → finite z = true → Answers (.joystickDemandFrame t c f) s (fun u =>
          u.auth = { s.auth with orders := joyOrders t s.tkt (some x) (some y) (some z), ver := s.auth.ver + 3#32, lastSign := t } ∧
          u.mbc.joyAt = t ∧ u.mbc.joyOn = true ∧ u.mbc.joySeq = some (d.getD 6 0#8) ∧ getF u Reg.MBC_JOY_lost = 0 ∧ OrderFrame t s u)) ∧
      (s.auth.holder ≠ some 7 ∨ stationEn s 7 = false → Answers (.joystickDemandFrame t c f) s (fun u => u.auth = s.auth ∧
        u.mbc.joySeq = s.mbc.joySeq ∧ u.mbc.joyConf = true ∧ getF u Reg.MBC_JOY_rej = min (getF s Reg.MBC_JOY_rej + 1) 255 ∧
        u.rec' = (if s.mbc.joyConf then s.rec' else (raise (hriSrc s) Ev.HRI_CONFLICT (7 + 2 ^ 8 + 2 ^ 17) (begin' t s)).rec') ∧ OrderFrame t s u))) ∧
    (f.fd = false ∨ d.length ≠ 16 ∨ complOf (slice d 0 8) (slice d 8 8) = false ∨ s.mbc.joySeq = some (d.getD 6 0#8) →
      Answers (.joystickDemandFrame t c f) s (fun u => u.auth = s.auth ∧ getF u Reg.MBC_JOY_rej = min (getF s Reg.MBC_JOY_rej + 1) 255 ∧
        u.rec' = s.rec' ∧ OrderFrame t s u))) ∧
  (∀ t c f s, s.up = true → frameKind s c f ≠ some 6 → exec (.joystickDemandFrame t c f) s = .next (begin' t s)) ∧
  (∀ t s, s.up = true → (active s).isSome = true → s.auth.holder = some 7 → s.mbc.joyOn = true →
    (getF s Reg.MBC_JOY_CFG_tmo * 10 * ms < since t s.mbc.joyAt → s.auth.orders = [] → s.waits = [] →
      Answers (.joystickDemandTimeout t) s (fun u =>
        u.auth = { s.auth with orders := joyOrders t s.tkt none none none, ver := s.auth.ver + 3#32 } ∧ u.mbc = { s.mbc with joyOn := false } ∧
        getF u Reg.MBC_JOY_lost = 1 ∧ u.rec' = (raise (.bus 13) Ev.MBC_JOYLOST 0 (begin' t s)).rec' ∧ OrderFrame t s u)) ∧
    (since t s.mbc.joyAt ≤ getF s Reg.MBC_JOY_CFG_tmo * 10 * ms → exec (.joystickDemandTimeout t) s = .next (begin' t s))) ∧
  (∀ t s, s.up = true → s.auth.holder ≠ some 7 ∨ s.mbc.joyOn = false → exec (.joystickDemandTimeout t) s = .next (begin' t s))

/-- How far an error of a transmitter moves its transmit error counter (ISO 11898-1, log entry 19): 8, but 0 for an acknowledge error in
error-passive and for a stuff error during arbitration. -/
def Sys2Proof.Machine.TecMoves (s : State) (c : Nat) (x : TxFault) (d : Nat) : Prop :=
  (x = .stuff ∨ (x = .ack ∧ getF s (Reg.MBC_Cn_STAT_state c) = 1) → d = 0) ∧
  (x = .other ∨ (x = .ack ∧ getF s (Reg.MBC_Cn_STAT_state c) ≠ 1) → d = 8)

/-- R390, R395, R397: the frame a controller sends next leaves its queue and is stamped; a failure is counted and retried, and after the retry limit
the frame is abandoned, which is recorded once until the object's next success; a transmit error counter above 255 is bus-off. -/
def Sys2Proof.Machine.FramesAreSent : Prop :=
  (∀ t c k s f, LiveBus s c → txHead s (txQueue s c) = some f → f.k = k → k < 512 → f.data.length < 128 → Answers (.canTxComplete t c k) s (fun u =>
    txQueue u c = (txQueue s c).filter (fun g => g.k ≠ k) ∧ (∀ d, d ≠ c → txQueue u d = txQueue s d) ∧ u.out = [.can c k f.data] ∧
    getF u (Reg.MBC_OBJk_STAT_pend k) = 0 ∧ getF u (Reg.MBC_OBJk_TS_ts k) = canStamp t ∧ getF u (Reg.MBC_OBJk_STAT_len k) = f.data.length ∧
    u.mbc.abandRec = s.mbc.abandRec.filter (· ≠ k) ∧ getF u (Reg.MBC_Cn_STAT_tec c) = getF s (Reg.MBC_Cn_STAT_tec c) - 1 ∧
    getF u (Reg.MBC_Cn_STAT_state c) = errorState (getF s (Reg.MBC_Cn_STAT_tec c) - 1) (getF s (Reg.MBC_Cn_STAT_rec c)) ∧
    OnlyRegs [Reg.MBC_Cn_STAT c, Reg.MBC_OBJk_STAT k, Reg.MBC_OBJk_TS k] s u ∧ BusOnly t s u ∧ u.rec' = s.rec')) ∧
  (∀ t c k s, s.up = true → canLive s c = false ∨ (txHead s (txQueue s c) = none) ∨ (∃ f, txHead s (txQueue s c) = some f ∧ f.k ≠ k) →
    exec (.canTxComplete t c k) s = .next (begin' t s)) ∧
  (∀ t c k s f, LiveBus s c → txHead s (txQueue s c) = some f → f.k = k → k < 512 →
    (f.fails < (objCfg s k).retry → ∀ q, q = (txQueue s c).map (fun g => if g.k = k then { g with fails := g.fails + 1 } else g) →
      Answers (.canTxFailure t c k .arb) s (fun u => txQueue u c = q ∧ (∀ d, d ≠ c → txQueue u d = txQueue s d) ∧
        getF u (Reg.MBC_Cn_CNT0_arbl c) = min (getF s (Reg.MBC_Cn_CNT0_arbl c) + 1) 0xFFFF ∧ OnlyRegs [Reg.MBC_Cn_CNT0 c] s u ∧
        BusOnly t s u ∧ u.rec' = s.rec' ∧ u.out = []) ∧
      (∀ x d, x ≠ .arb → TecMoves s c x d → getF s (Reg.MBC_Cn_STAT_tec c) + d ≤ 255 → Answers (.canTxFailure t c k x) s (fun u => txQueue u c = q ∧
        getF u (Reg.MBC_Cn_CNT0_err c) = min (getF s (Reg.MBC_Cn_CNT0_err c) + 1) 0xFFFF ∧
        getF u (Reg.MBC_Cn_STAT_tec c) = getF s (Reg.MBC_Cn_STAT_tec c) + d ∧
        getF u (Reg.MBC_Cn_STAT_state c) = errorState (getF s (Reg.MBC_Cn_STAT_tec c) + d) (getF s (Reg.MBC_Cn_STAT_rec c)) ∧
        OnlyRegs [Reg.MBC_Cn_CNT0 c, Reg.MBC_Cn_STAT c] s u ∧ BusOnly t s u ∧ u.rec' = s.rec' ∧ u.out = []))) ∧
    ((objCfg s k).retry ≤ f.fails → Answers (.canTxFailure t c k .arb) s (fun u =>
      txQueue u c = (txQueue s c).filter (fun g => g.k ≠ k) ∧ getF u (Reg.MBC_OBJk_STAT_aband k) = 1 ∧ getF u (Reg.MBC_OBJk_STAT_pend k) = 0 ∧
      getF u (Reg.MBC_Cn_CNT0_arbl c) = min (getF s (Reg.MBC_Cn_CNT0_arbl c) + 1) 0xFFFF ∧
      u.rec' = (if s.mbc.abandRec.contains k then s.rec' else (raise (.bus 13) Ev.MBC_ABANDON k (begin' t s)).rec') ∧
      u.mbc.abandRec = (if s.mbc.abandRec.contains k then s.mbc.abandRec else k :: s.mbc.abandRec) ∧ BusOnly t s u ∧ u.out = [])) ∧
    (∀ x d, x ≠ .arb → TecMoves s c x d → 255 < getF s (Reg.MBC_Cn_STAT_tec c) + d → Answers (.canTxFailure t c k x) s (fun u => txQueue u c = [] ∧
      (∀ d, d ≠ c → txQueue u d = txQueue s d) ∧ c ∉ u.mbc.recov ∧ getF u (Reg.MBC_Cn_STAT_state c) = 2 ∧ getF u (Reg.MBC_Cn_STAT_tec c) = 255 ∧
      getF u (Reg.MBC_Cn_CNT1_busoff c) = min (getF s (Reg.MBC_Cn_CNT1_busoff c) + 1) 255 ∧ BusOnly t s u ∧ u.out = []))) ∧
  (∀ t c k x s, s.up = true → canLive s c = false ∨ (txHead s (txQueue s c) = none) ∨ (∃ f, txHead s (txQueue s c) = some f ∧ f.k ≠ k) →
    exec (.canTxFailure t c k x) s = .next (begin' t s))

/-- The format a controller runs in is the one written with its enable, until the next (R389). -/
def Sys2Proof.Machine.TakesFormat (c : Nat) (v : BitVec 32) (s u : State) : Prop :=
  u.mbc = { s.mbc with fdOn := (if v.getLsbD 1 = true then [c] else []) ++ s.mbc.fdOn.filter (· ≠ c) }

/-- R389, R390: a reception error raises the counter by 1 or 8; bus-off ends after 128 recoveries when it is automatic or was started; the check of a
controller's settings at its enable; a controller that is disabled drops its queue. -/
def Sys2Proof.Machine.ControllersFollowTheirErrors : Prop :=
  (∀ t c eight s n, LiveBus s c → n = getF s (Reg.MBC_Cn_STAT_rec c) + (if eight then 8 else 1) → Answers (.canBusError t c eight) s (fun u =>
    getF u (Reg.MBC_Cn_STAT_rec c) = min n 255 ∧ getF u (Reg.MBC_Cn_CNT0_err c) = min (getF s (Reg.MBC_Cn_CNT0_err c) + 1) 0xFFFF ∧
    getF u (Reg.MBC_Cn_STAT_state c) = errorState (getF s (Reg.MBC_Cn_STAT_tec c)) n ∧
    getF u (Reg.MBC_Cn_STAT_tec c) = getF s (Reg.MBC_Cn_STAT_tec c) ∧ OnlyRegs [Reg.MBC_Cn_CNT0 c, Reg.MBC_Cn_STAT c] s u ∧ RegsOnly t s u)) ∧
  (∀ t c eight s, s.up = true → canLive s c = false → exec (.canBusError t c eight) s = .next (begin' t s)) ∧
  (∀ t c s, s.up = true → c < 4 →
    (getF s (Reg.MBC_Cn_STAT_state c) = 2 → getB s (Reg.MBC_Cn_CFG_autorec c) = true ∨ c ∈ s.mbc.recov → Answers (.busOffRecovery t c) s (fun u =>
      getF u (Reg.MBC_Cn_STAT_state c) = 0 ∧ getF u (Reg.MBC_Cn_STAT_tec c) = 0 ∧ getF u (Reg.MBC_Cn_STAT_rec c) = 0 ∧
      u.mbc = { s.mbc with recov := s.mbc.recov.filter (· ≠ c) } ∧ u.rec' = (raise (.bus 13) Ev.MBC_BUSON c (begin' t s)).rec' ∧
      OnlyRegs (Reg.MBC_Cn_STAT c :: recKeys) s u ∧ BusOnly t s u ∧ u.out = [])) ∧
    (getF s (Reg.MBC_Cn_STAT_state c) ≠ 2 ∨ (getB s (Reg.MBC_Cn_CFG_autorec c) = false ∧ c ∉ s.mbc.recov) →
      exec (.busOffRecovery t c) s = .next (begin' t s))) ∧
  (∀ t ep c v s, ModWritable s ep → c < 4 → v.getLsbD 0 = true → v.getLsbD 1 = false →
    (getF s (Reg.MBC_Cn_STAT_state c) = 2 → Answers (.canRecover t ep c v) s (fun u => c ∈ u.mbc.recov ∧ (∀ d ∈ s.mbc.recov, d ∈ u.mbc.recov) ∧
      (∀ k, rdK u k = rdK s k) ∧ BusOnly t s u ∧ u.rec' = s.rec' ∧ u.out = [])) ∧
    (getF s (Reg.MBC_Cn_STAT_state c) ≠ 2 → Answers (.canRecover t ep c v) s (fun u => (∀ k, rdK u k = rdK s k) ∧ RegsOnly t s u))) ∧
  (∀ t ep c v s, ModWritable s ep → lockRefuses s = false → c < 4 →
    (getB s (Reg.MBC_Cn_CFG_en c) = false → v.getLsbD 0 = true → ∀ e, e = canCfgErr (setF (Reg.MBC_Cn_CFG_tsmp c) (v.toNat / 4 % 2) .a s) c →
      (e = 0 → Answers (.canEnable t ep c v) s (fun u => getB u (Reg.MBC_Cn_CFG_en c) = true ∧ getF u (Reg.MBC_Cn_STAT_state c) = 0 ∧
        getF u (Reg.MBC_Cn_STAT_tec c) = 0 ∧ getF u (Reg.MBC_Cn_STAT_rec c) = 0 ∧ getF u (Reg.MBC_Cn_STAT_cfgerr c) = 0 ∧
        getF u (Reg.MBC_Cn_CFG_fd c) = v.toNat / 2 % 2 ∧ getF u (Reg.MBC_Cn_CFG_autorec c) = v.toNat / 8 % 2 ∧
        OnlyRegs [Reg.MBC_Cn_CFG c, Reg.MBC_Cn_STAT c] s u ∧ TakesFormat c v s u ∧ BusOnly t s u ∧ u.rec' = s.rec' ∧ u.out = [])) ∧
      (e ≠ 0 → Answers (.canEnable t ep c v) s (fun u => getB u (Reg.MBC_Cn_CFG_en c) = false ∧ getF u (Reg.MBC_Cn_STAT_cfgerr c) = e ∧
        u.rec' = (raise (.bus 13) Ev.MBCCFG (Reg.MBC_Cn_CFG c + 2 ^ 32 * e) (begin' t s)).rec' ∧
        OnlyRegs ([Reg.MBC_Cn_CFG c, Reg.MBC_Cn_STAT c] ++ recKeys) s u ∧ TakesFormat c v s u ∧ BusOnly t s u ∧ u.out = []))) ∧
    (getB s (Reg.MBC_Cn_CFG_en c) = true → v.getLsbD 0 = false → Answers (.canEnable t ep c v) s (fun u => getB u (Reg.MBC_Cn_CFG_en c) = false ∧
      getF u (Reg.MBC_Cn_STAT_state c) = 3 ∧ txQueue u c = [] ∧ u.mbc.recov = s.mbc.recov.filter (· ≠ c) ∧ (∀ d, d ≠ c → txQueue u d = txQueue s d) ∧
      (∀ f ∈ txQueue s c, getF u (Reg.MBC_OBJk_STAT_pend f.k) = 0) ∧ BusOnly t s u ∧ u.rec' = s.rec' ∧ u.out = [])))

/-- R290, R313, R395, R404: a transmit request through the Active endpoint queues the endpoint's window as the object's frame, in place of one that
waits; in bus-off the frame is abandoned; an abort takes it from the queue. The Standby's endpoint requests and aborts nothing. -/
def Sys2Proof.Machine.TransmitRequestsQueue : Prop :=
  (∀ t ep k v s, LaneWritable s ep → k < 512 → v.getLsbD 0 = true → v.getLsbD 1 = false →
    (isActive s ep = true → (objCfg s k).kind = 2 → getB s (Reg.MBC_Cn_CFG_en (k / 128)) = true → outReleased s = false →
      fdOk s (k / 128) ((objCfg s k).fd || (objCfg s k).brs) = true →
      (getF s (Reg.MBC_Cn_STAT_state (k / 128)) ≠ 2 → Answers (.txreq t ep k v) s (fun u => txQueue u (k / 128) =
          (txQueue s (k / 128)).filter (fun f => f.k ≠ k) ++ [⟨k, (getWindow s k ep 16).take (objCfg s k).len, 0⟩] ∧
        (∀ d, d ≠ k / 128 → txQueue u d = txQueue s d) ∧ getF u (Reg.MBC_OBJk_STAT_pend k) = 1 ∧ OnlyRegs [Reg.MBC_OBJk_STAT k] s u ∧
        BusOnly t s u ∧ u.rec' = s.rec' ∧ u.out = [])) ∧
      (getF s (Reg.MBC_Cn_STAT_state (k / 128)) = 2 → Answers (.txreq t ep k v) s (fun u => txQueue u (k / 128) = txQueue s (k / 128) ∧
        getF u (Reg.MBC_OBJk_STAT_aband k) = 1 ∧ getF u (Reg.MBC_Cn_CNT1_aband (k / 128)) = min (getF s (Reg.MBC_Cn_CNT1_aband (k / 128)) + 1) 0xFFFF ∧
        BusOnly t s u ∧ u.out = []))) ∧
    (isActive s ep = false ∨ (objCfg s k).kind ≠ 2 ∨ fdOk s (k / 128) ((objCfg s k).fd || (objCfg s k).brs) = false → Answers (.txreq t ep k v) s (fun u => (∀ j, rdK u j = rdK s j) ∧ RegsOnly t s u))) ∧
  (∀ t ep k v s, LaneWritable s ep → k < 512 → v.getLsbD 0 = false → v.getLsbD 1 = true →
    (isActive s ep = true → Answers (.txAbort t ep k v) s (fun u => txQueue u (k / 128) = (txQueue s (k / 128)).filter (fun f => f.k ≠ k) ∧
      (∀ d, d ≠ k / 128 → txQueue u d = txQueue s d) ∧ getF u (Reg.MBC_OBJk_STAT_pend k) = 0 ∧ OnlyRegs [Reg.MBC_OBJk_STAT k] s u ∧
      BusOnly t s u ∧ u.rec' = s.rec' ∧ u.out = [])) ∧
    (isActive s ep = false → Answers (.txAbort t ep k v) s (fun u => (∀ j, rdK u j = rdK s j) ∧ RegsOnly t s u)))

/-- The state after a sentence: registers, the instants the ports last heard a character, the datagrams whose second copy may come and the lanes'
serial values differ. -/
def Sys2Proof.Machine.SerOnly (t : Time) (s u : State) : Prop :=
  u = { begin' t s with regs := u.regs, la := { s.la with ser := u.la.ser }, lb := { s.lb with ser := u.lb.ser },
                        mbc := { s.mbc with heard := u.mbc.heard, grams := u.mbc.grams } }

/-- The state after a sentence that changes no item: registers and the instant its port last heard a character differ. -/
def Sys2Proof.Machine.HeardOnly (t : Time) (n : Nat) (s u : State) : Prop :=
  u = { begin' t s with regs := u.regs, mbc := { s.mbc with heard := alSet s.mbc.heard n t } }

/-- What a sentence does to the one item it is for, in the lanes that are ready (R403). -/
def Sys2Proof.Machine.ItemTaken (t : Time) (k : Nat) (it : SerItem) (fs : List (List Byte)) (s u : State) : Prop :=
  (fieldIs fs it.stat it.statC = true → ∀ x, convert it.conv (fs.getD it.fld []) (fs.getD (it.fld + 1) []) = some x → ∀ l, ready s l = true →
    ((alGet (u.lane l).ser k).bind List.head?) = some ⟨F64.add (F64.mul x it.scale) it.ofs, t, true, some t⟩ ∧ getF u (Reg.SER_ITk_STAT_valid k) l = 1 ∧
    getF u (Reg.SER_ITk_STAT_stat k) l = 0 ∧ getF u (Reg.SER_ITk_VAL_v k) l = (F64.to32 (F64.add (F64.mul x it.scale) it.ofs)).toNat) ∧
  (fieldIs fs it.stat it.statC = false → ∀ l, ready s l = true → getF u (Reg.SER_ITk_STAT_valid k) l = 0 ∧ getF u (Reg.SER_ITk_STAT_stat k) l = 1 ∧
    ((alGet (u.lane l).ser k).bind List.head?).map (·.valid) = some false) ∧ SerOnly t s u

/-- A datagram of which no copy came in the last 60 s (R305, R401): it has no trailer, or no live entry has its source and sequence. -/
def Sys2Proof.Machine.FirstCopy (t : Time) (rct : Option (BitVec 48 × BitVec 16)) (s : State) : Prop :=
  ∀ x, rct = some x → ∀ g ∈ s.mbc.grams, g.1 = x.1 → g.2.1 = x.2 → 60 * sec ≤ since t g.2.2

/-- R305, R400, R401, R403, R405: a sentence that checks gives its items their values in both lanes, one whose checksum fails or that is too long is
counted, and one with framing errors counts them; a datagram of an enabled group holds such sentences, and its second copy is discarded; a line held at space shows its break. -/
def Sys2Proof.Machine.SentencesGiveValues : Prop :=
  (∀ t n ch s, s.up = true → n < 8 → getB s (Reg.SER_Pn_CFG_en n) = true → ∀ r, r = checkSentence (getB s (Reg.SER_Pn_CFG_nocs n)) ch →
    (r = .badSum → Answers (.serialSentence t n 0 ch) s (fun u => (∀ l, ready s l = true →
        getF u (Reg.SER_Pn_CNT_cserr n) l = min (getF s (Reg.SER_Pn_CNT_cserr n) l + 1) 0xFFFF ∧ getF u (Reg.SER_Pn_STAT_act n) l = 1) ∧
      OnlyRegs [laneKey (Reg.SER_Pn_CNT n) .a, laneKey (Reg.SER_Pn_CNT n) .b, laneKey (Reg.SER_Pn_STAT n) .a, laneKey (Reg.SER_Pn_STAT n) .b] s u ∧
      HeardOnly t n s u)) ∧
    (∀ fr, 0 < fr → Answers (.serialSentence t n fr ch) s (fun u => (∀ l, ready s l = true →
        getF u (Reg.SER_Pn_CNT_frerr n) l = min (getF s (Reg.SER_Pn_CNT_frerr n) l + fr) 255 ∧ getF u (Reg.SER_Pn_STAT_act n) l = 1) ∧
      OnlyRegs [laneKey (Reg.SER_Pn_CNT n) .a, laneKey (Reg.SER_Pn_CNT n) .b, laneKey (Reg.SER_Pn_STAT n) .a, laneKey (Reg.SER_Pn_STAT n) .b] s u ∧
      HeardOnly t n s u)) ∧
    (r = .tooLong → Answers (.serialSentence t n 0 ch) s (fun u => (∀ l, ready s l = true →
        getF u (Reg.SER_Pn_CNT_long n) l = min (getF s (Reg.SER_Pn_CNT_long n) l + 1) 255) ∧ HeardOnly t n s u)) ∧
    (∀ fs k it, r = .good fs → s.cfg.sers = [(k, it)] → k < 192 →
      (itemTakes it n [] fs = true → Answers (.serialSentence t n 0 ch) s (ItemTaken t k it fs s)) ∧
      (itemTakes it n [] fs = false → Answers (.serialSentence t n 0 ch) s (fun u => (∀ l, ready s l = true → getF u (Reg.SER_Pn_STAT_act n) l = 1) ∧
        OnlyRegs [laneKey (Reg.SER_Pn_STAT n) .a, laneKey (Reg.SER_Pn_STAT n) .b] s u ∧ HeardOnly t n s u)))) ∧
  (∀ t n fr ch s, s.up = true → 8 ≤ n ∨ getB s (Reg.SER_Pn_CFG_en n) = false → exec (.serialSentence t n fr ch) s = .next (begin' t s)) ∧
  (∀ t g rct p s ln fs k it, s.up = true → FirstCopy t rct s → g < 16 → bit (getF s Reg.SER_NET_CFG_grp) g = true → p.take 5 = [0x55#8, 0x64#8, 0x50#8, 0x62#8, 0x43#8] →
    splitAt' 0x0A#8 (p.drop 6) = [ln, []] → ln.headD 0#8 ≠ 0x5C#8 → checkSentence false (ln ++ [0x0A#8]) = .good fs → s.cfg.sers = [(k, it)] →
    k < 192 → itemTakes it 8 [] fs = true → Answers (.sentenceDatagram t g rct p) s (fun u => ItemTaken t k it fs s u ∧ u.mbc.heard = s.mbc.heard ∧
      (∀ a q, rct = some (a, q) → (a, q, t) ∈ u.mbc.grams))) ∧
  (∀ t g a q p s t0, s.up = true → (a, q, t0) ∈ s.mbc.grams → since t t0 < 60 * sec → Answers (.sentenceDatagram t g (some (a, q)) p) s (fun u =>
    u = { begin' t s with mbc := { s.mbc with grams := u.mbc.grams } } ∧ FirstCopy t (some (a, q)) u)) ∧
  (∀ t g p s, s.up = true → 16 ≤ g ∨ bit (getF s Reg.SER_NET_CFG_grp) g = false ∨ p.take 5 ≠ [0x55#8, 0x64#8, 0x50#8, 0x62#8, 0x43#8] →
    exec (.sentenceDatagram t g none p) s = .next (begin' t s)) ∧
  (∀ t n brk s, s.up = true → n < 8 → Answers (.serialLineBreak t n brk) s (fun u => (∀ l, ready s l = true →
    getB u (Reg.SER_Pn_STAT_brk n) l = brk) ∧
    OnlyRegs [laneKey (Reg.SER_Pn_STAT n) .a, laneKey (Reg.SER_Pn_STAT n) .b] s u ∧ RegsOnly t s u))

/-- R389-R398: CAN frames and station 7. -/
def Obligations.CanFramesAndStationSeven : Prop := FramesAreStored ∧ StationSevenIsServed

/-- R389, R390, R395, R400-R405: transmission, the controllers' errors, and sentences. The moves of the error counters follow ISO 11898-1 (log entry
19, PRESUMED). -/
def Obligations.BusesSendAndSerialLinesRead : Prop :=
  FramesAreSent ∧ ControllersFollowTheirErrors ∧ TransmitRequestsQueue ∧ SentencesGiveValues

/-! The safety island (R406-R433). -/

/-- The state after a command that changed registers, the island, records, alarms and ports only. -/
def Sys2Proof.Machine.IslandOnly (t : Time) (s u : State) : Prop :=
  u = { begin' t s with regs := u.regs, saf := u.saf, rec' := u.rec', alarms := u.alarms, out := u.out }

/-- A fault shown, counted and recorded (R425); `f` makes the records that follow it. -/
def Sys2Proof.Machine.FaultShown (code res : Nat) (t : Time) (f : State → State) (s u : State) : Prop :=
  getF u Reg.SAF_FLT_code = code ∧ getF u Reg.SAF_FLT_res = res ∧ getF u Reg.SAF_CNT_faults = min (getF s Reg.SAF_CNT_faults + 1) 0xFFFF ∧
  u.rec' = (f (raise .safety Ev.SAF_FAULT (code + 2 ^ 8 * res) (begin' t s))).rec'

/-- The island enters SAFE with a cause (R410): every output pair goes off. -/
def Sys2Proof.Machine.EntersSafe (cause : Nat) (t : Time) (s u : State) : Prop :=
  getF u Reg.SAF_STAT_state = 3 ∧ (∀ k < 8, outOn u k = false ∧ (outOn s k = true → .pin 3 (2 * k) false ∈ u.out) ∧
    ((swCmd s k).2.1 = true → .pin 3 (2 * k + 1) false ∈ u.out)) ∧
  FaultShown 0x10 cause t (raise .safety Ev.SAF_SAFE cause) s u ∧ IslandOnly t s u ∧ u.alarms = s.alarms

/-- An output pair's fault (R425): the pair goes off and is locked out, the others stay as they are. -/
def Sys2Proof.Machine.OutFaulted (code k : Nat) (t : Time) (s u : State) : Prop :=
  outOn u k = false ∧ outLocked u k = true ∧ (∀ j < 8, j ≠ k → outOn u j = outOn s j ∧ outLocked u j = outLocked s j) ∧ FaultShown code k t id s u ∧
  OnlyRegs ([Reg.SAF_OUT, Reg.SAF_FLT, Reg.SAF_CNT] ++ recKeys) s u ∧ IslandOnly t s u ∧ u.alarms = s.alarms

/-- The island runs a configuration (R409), its two channels holding the same. -/
def Sys2Proof.Machine.IslandRuns (s : State) (c : SafCfg) : Prop :=
  s.up = true ∧ getF s Reg.SAF_STAT_state = 2 ∧ s.saf.cfg = some c ∧ s.saf.y = none

/-- A cycle outside RUN (R409, R412, R423): inputs, readbacks and request lines are read, and no output comes on. Without a configuration an input
has no filter, and its level stays (log entry 91, DESIGN CHOICE). -/
def Sys2Proof.Machine.WatchesItsLines (t : Time) (x : SafIn) (s u : State) : Prop :=
  getF u Reg.SAF_STAT_state = getF s Reg.SAF_STAT_state ∧ u.saf.cfg = s.saf.cfg ∧ u.saf.stored = s.saf.stored ∧ u.saf.load = s.saf.load ∧
  u.saf.raw = x.si ∧ (∀ k < 8, outOn u k = true → outOn s k = true) ∧ (∀ f < 16, fnState u f = fnState s f) ∧
  (s.saf.cfg = none → ∀ i < 16, inLvl u i = inLvl s i) ∧
  (∀ c, s.saf.cfg = some c → ∀ i < 16, (safInp c i).kind ≠ 0 → bit s.saf.raw.toNat i = bit x.si.toNat i →
    inLvl u i = if (safInp c i).filt * ms ≤ since t (Sparse.get timeDef s.saf.rawAt i) then bit x.si.toNat i else inLvl s i) ∧
  (s.kpr.role = none → getF u Reg.SAF_STAT_nolane = 1 ∧ getF u Reg.SAF_OUT_req = 0) ∧
  (∀ l, s.kpr.role = some l → getF u Reg.SAF_STAT_nolane = 0) ∧ (s.kpr.role ≠ s.saf.roleSeen → getF u Reg.SAF_STAT_rqhold = 1 ∧ u.saf.holdAt = some t) ∧
  OnlyRegs ([Reg.SAF_STAT, Reg.SAF_IN, Reg.SAF_OUT, Reg.SAF_FLT, Reg.SAF_CNT] ++ recKeys) s u ∧ IslandOnly t s u ∧ u.alarms = s.alarms

/-- R409, R410, R423: channels that disagree in three cycles running, a bad oscillator, a bad supply, and a failed memory check enter SAFE from every
other state; without these the island outside RUN still reads its lines. -/
def Sys2Proof.Machine.InternalFaultsEnterSafe : Prop :=
  (∀ t x y s d, s.up = true → d = (if imagesDiffer x y || chansDiffer s then s.saf.diff + 1 else 0) →
    (getF s Reg.SAF_STAT_state ≠ 3 →
      (3 ≤ d → Answers (.safetyCycle t x y) s (EntersSafe 1 t s)) ∧
      (d < 3 → x.oscBad = true ∨ y.oscBad = true → Answers (.safetyCycle t x y) s (EntersSafe 4 t s)) ∧
      (d < 3 → x.oscBad = false → y.oscBad = false → x.supBad = true ∨ y.supBad = true → Answers (.safetyCycle t x y) s (EntersSafe 5 t s))) ∧
    (getF s Reg.SAF_STAT_state = 3 ∨ (getF s Reg.SAF_STAT_state ≠ 2 ∧ d < 3 ∧ x.oscBad = false ∧ y.oscBad = false ∧ x.supBad = false ∧ y.supBad = false) →
      Answers (.safetyCycle t x y) s (fun u => u.saf.diff = d ∧ WatchesItsLines t x s u))) ∧
  (∀ t s, s.up = true →
    (getF s Reg.SAF_STAT_state ≠ 3 → Answers (.romCheck t false) s (EntersSafe 2 t s) ∧ Answers (.ramTest t false) s (EntersSafe 3 t s)) ∧
    (getF s Reg.SAF_STAT_state = 3 → exec (.romCheck t false) s = .next (begin' t s) ∧ exec (.ramTest t false) s = .next (begin' t s)) ∧
    exec (.romCheck t true) s = .next (begin' t s) ∧ exec (.ramTest t true) s = .next (begin' t s))

/-- R412, R419, R422: after a cycle in RUN every output pair is what the output rule wants of it, no function that is not two-hand control runs
unless all its pairs read RUN, and an input's level has followed its line once it was stable for the filter time. -/
def Sys2Proof.Machine.CycleKeepsTheOutputRule : Prop :=
  ∀ t x y s c, IslandRuns s c → imagesDiffer x y = false → x.oscBad = false → y.oscBad = false → x.supBad = false → y.supBad = false →
    Answers (.safetyCycle t x y) s (fun u => getF u Reg.SAF_STAT_state = 2 ∧ u.saf.cfg = some c ∧ u.saf.diff = 0 ∧ u.saf.raw = x.si ∧ u.saf.y = none ∧
      (∀ k < 8, outOn u k = outWanted c u k) ∧
      (∀ f < 16, (safFun c f).kind ≠ 0 → (safFun c f).kind ≠ 4 → fnState u f = 1 → allRun c u f = true) ∧
      (∀ i < 16, (safInp c i).kind = 0 → inLvl u i = inLvl s i) ∧
      (∀ i < 16, (safInp c i).kind ≠ 0 → bit s.saf.raw.toNat i = bit x.si.toNat i →
        inLvl u i = if (safInp c i).filt * ms ≤ since t (Sparse.get timeDef s.saf.rawAt i) then bit x.si.toNat i else inLvl s i) ∧
      (∀ i < 16, 0 < (safInp c i).filt → bit s.saf.raw.toNat i ≠ bit x.si.toNat i → inLvl u i = inLvl s i) ∧
      IslandOnly t s u ∧ u.alarms = s.alarms)

/-- R409, R410: where the channels read different images, or hold different things, each evaluates its own: the registers and the records are X's,
and of every output pair the A switch follows X and the B switch Y. -/
def Sys2Proof.Machine.ChannelsEvaluateTheirOwn : Prop :=
  ∀ t x y s c b, s.up = true → getF s Reg.SAF_STAT_state = 2 → s.saf.cfg = some c → x ≠ y ∨ s.saf.y.isSome = true →
    x.oscBad = false → y.oscBad = false → x.supBad = false → y.supBad = false →
    b = onSaf (fun a => { a with diff := if imagesDiffer x y || chansDiffer s then s.saf.diff + 1 else 0 }) (begin' t s) → b.saf.diff < 3 →
    ∀ p q, p = safCycle c x (swCmd b) b → q = safCycle c y (swCmd b) (withChan (chanY b) b) →
      Answers (.safetyCycle t x y) s (fun u => chanOf u = chanOf p ∧ chanY u = chanOf q ∧ u.rec' = p.rec' ∧
        (∀ k v, (.pin 3 (2 * k) v ∈ u.out ↔ .pin 3 (2 * k) v ∈ p.out) ∧ (.pin 3 (2 * k + 1) v ∈ u.out ↔ .pin 3 (2 * k + 1) v ∈ q.out)))

/-- R413, R416-R418: a test pulse finds inputs that stay on (TESTPULSE) and inputs of another source that go off (CROSS) and locks them out; a switch
that does not go off in its pulse is OUTSTUCK, one with too much current OUTSHORT, a pair whose EDM input does not follow it EDM. -/
def Sys2Proof.Machine.TestsLockOut : Prop :=
  (∀ t src lvl s c due hit, IslandRuns s c → src < 8 → due = Sparse.get timeDef s.saf.tsDue src → hit = n16.any (crossed c src lvl s) →
    (atOrAfter t due = true → Answers (.testPulse t src lvl) s (fun u => .pin 4 src false ∈ u.out ∧ .pin 4 src true ∈ u.out ∧
      u.saf.tsDue = Sparse.set timeDef s.saf.tsDue src (plus due (c.pt * ms)) ∧
      (∀ i < 16, pulsed c i = true → (safInp c i).src = src →
        bit u.saf.tpBad.toNat i = (bit lvl.toNat i || hit) ∧ (bit lvl.toNat i = true ∨ hit = true → inLocked u i = true)) ∧
      (∀ i < 16, crossed c src lvl s i = true → inLocked u i = true ∧ inputClean u i = false) ∧
      u.saf.crs = (n16.filter (crossed c src lvl s)).map (fun i => (i, src)) ++ s.saf.crs.filter (fun p => p.2 ≠ src) ∧
      (∀ i < 16, inLocked s i = true → inLocked u i = true) ∧ IslandOnly t s u ∧
      ((∀ i < 16, pulsed c i = true → (safInp c i).src = src → bit lvl.toNat i = false) → hit = false →
        u.regs = s.regs ∧ u.rec' = s.rec' ∧ u.out = [.pin 4 src false, .pin 4 src true]))) ∧
    (atOrAfter t due = false → exec (.testPulse t src lvl) s = .next (begin' t s))) ∧
  (∀ t src lvl s c, IslandRuns s c → 8 ≤ src → exec (.testPulse t src lvl) s = .next (begin' t s)) ∧
  (∀ t k b s c due, IslandRuns s c → k < 8 → outOn s k = true → (safOutp c k).nopt = false →
    due = Sparse.get timeDef s.saf.offDue (2 * k + b2n b) → atOrAfter t due = true →
    exec (.outputOffPulse t k b true) s = .next { begin' t s with
      out := [.pin 3 (2 * k + b2n b) false, .pin 3 (2 * k + b2n b) true]
      saf := { s.saf with offDue := Sparse.set timeDef s.saf.offDue (2 * k + b2n b) (nextOff c b (Sparse.get timeDef s.saf.onAt k) due) } } ∧
    (outLocked s k = false → Answers (.outputOffPulse t k b false) s (OutFaulted 5 k t s))) ∧
  (∀ t k b below s c, IslandRuns s c → outOn s k = false ∨ (safOutp c k).nopt = true ∨
      atOrAfter t (Sparse.get timeDef s.saf.offDue (2 * k + b2n b)) = false →
    exec (.outputOffPulse t k b below) s = .next (begin' t s)) ∧
  (∀ t k b s c, IslandRuns s c → k < 8 →
    (outOn s k = true → outLocked s k = false → Answers (.outputShortTrip t k b) s (fun u => OutFaulted 6 k t s u ∧
      .pin 3 (2 * k + b2n b) false ∈ u.out)) ∧
    (outOn s k = false → exec (.outputShortTrip t k b) s = .next (begin' t s))) ∧
  (∀ t k s c e, IslandRuns s c → k < 8 → (safOutp c k).edm = e → e < 16 → outLocked s k = false →
    (300 * ms ≤ since t (Sparse.get timeDef s.saf.onAt k) → inLvl s e = outOn s k → Answers (.edmTimeout t k) s (OutFaulted 7 k t s)) ∧
    (since t (Sparse.get timeDef s.saf.onAt k) < 300 * ms ∨ inLvl s e ≠ outOn s k → exec (.edmTimeout t k) s = .next (begin' t s)))

/-- R415, R420, R423, R426: channels that disagree for longer than their time lock out every function of the pair; the delayed outputs of a stopping
function go off at its end; a reset held for 5 s is a fault and is not taken; a request takes effect once it is stable, and again 20 ms after
the role lines moved. -/
def Sys2Proof.Machine.IslandTimers : Prop :=
  (∀ t k s c t0, IslandRuns s c → k < 8 → s.saf.disAt.find? (fun p => p.1 == k) = some (k, t0) →
    ((safPair c k).disc * ms < since t t0 → Answers (.discrepancyTimeout t k) s (fun u => FaultShown 1 k t id s u ∧
      (∀ f < 16, usesPair c f k = true → fnState u f = 5 ∧ getF u (Reg.SAF_FNn_rem f) = 0 ∧ (∀ j < 8, bit ((safFun c f).imm ||| (safFun c f).dly).toNat j = true → outOn u j = false)) ∧
      (∀ f < 16, usesPair c f k = false → fnState u f = fnState s f) ∧ IslandOnly t s u ∧ u.alarms = s.alarms)) ∧
    (since t t0 ≤ (safPair c k).disc * ms → exec (.discrepancyTimeout t k) s = .next (begin' t s))) ∧
  (∀ t k s c, IslandRuns s c → s.saf.disAt.find? (fun p => p.1 == k) = none → exec (.discrepancyTimeout t k) s = .next (begin' t s)) ∧
  (∀ t f s c, IslandRuns s c → f < 16 → fnState s f = 2 →
    (atOrAfter t (safFn s f).due = true → Answers (.category1DelayEnd t f) s (fun u => fnState u f = (if allRun c s f then 4 else 3) ∧
      getF u (Reg.SAF_FNn_rem f) = 0 ∧ (∀ g < 16, g ≠ f → fnState u g = fnState s g) ∧
      (∀ k < 8, outOn u k = if bit (safFun c f).dly.toNat k then false else outOn s k) ∧
      OnlyRegs [Reg.SAF_FNn f, Reg.SAF_OUT] s u ∧ IslandOnly t s u ∧ u.rec' = s.rec' ∧ u.alarms = s.alarms)) ∧
    (atOrAfter t (safFn s f).due = false → exec (.category1DelayEnd t f) s = .next (begin' t s))) ∧
  (∀ t i s c t0, IslandRuns s c → i < 16 → (safInp c i).kind = 3 → s.saf.pressAt.find? (fun p => p.1 == i) = some (i, t0) →
    (5000 * ms ≤ since t t0 → Answers (.resetHeld t i) s (fun u => FaultShown 8 i t id s u ∧ bit u.saf.noPress.toNat i = true ∧
      u.saf.pressAt = Sparse.erase s.saf.pressAt i ∧ (∀ f < 16, fnState u f = fnState s f) ∧
      OnlyRegs ([Reg.SAF_FLT, Reg.SAF_CNT] ++ recKeys) s u ∧ IslandOnly t s u ∧ u.out = [])) ∧
    (since t t0 < 5000 * ms → exec (.resetHeld t i) s = .next (begin' t s))) ∧
  (∀ t k s, s.up = true → s.saf.y = none → k < 8 →
    (getB s Reg.SAF_STAT_rqhold = false → 5 * ms ≤ since t (Sparse.get timeDef s.saf.reqAt k) → Answers (.requestStable t k) s (fun u =>
      bit (getF u Reg.SAF_OUT_req) k = bit s.saf.reqRaw.toNat k ∧ (∀ j < 8, j ≠ k → bit (getF u Reg.SAF_OUT_req) j = bit (getF s Reg.SAF_OUT_req) j) ∧
      (∀ j < 8, outOn u j = outOn s j) ∧ OnlyRegs [Reg.SAF_OUT] s u ∧ RegsOnly t s u)) ∧
    (getB s Reg.SAF_STAT_rqhold = true ∨ since t (Sparse.get timeDef s.saf.reqAt k) < 5 * ms → exec (.requestStable t k) s = .next (begin' t s))) ∧
  (∀ t s, s.up = true → s.saf.y = none →
    (∀ t0, s.saf.holdAt = some t0 → 20 * ms ≤ since t t0 → Answers (.requestHoldEnd t) s (fun u => getF u Reg.SAF_STAT_rqhold = 0 ∧
      u.saf = { s.saf with holdAt := none } ∧ OnlyRegs [Reg.SAF_STAT] s u ∧ IslandOnly t s u ∧ u.rec' = s.rec' ∧ u.out = [])) ∧
    ((∀ t0, s.saf.holdAt = some t0 → since t t0 < 20 * ms) → exec (.requestHoldEnd t) s = .next (begin' t s)))

/-- Every function at its start (R431, R432): unused, two-hand control stopped until both hands have been released, the others ready. -/
def Sys2Proof.Machine.FunctionsStart (c : SafCfg) (u : State) : Prop :=
  (∀ f < 16, (safFun c f).kind = 4 → (safFn u f).rel = true) ∧
  (∀ f < 16, fnState u f = match (safFun c f).kind with | 0 => 0 | 4 => 3 | _ => 4) ∧ getF u Reg.SAF_OUT_lock = 0 ∧ getF u Reg.SAF_IN_flt = 0

/-- R430-R432: a loaded configuration that passes its checks is stored and in force at once, its outputs off and its functions at their start; one
that fails shows its code and changes nothing in force. At start a failed self-test enters SAFE, a stored configuration that fails NOCFG with an
alarm, and one that passes RUN. -/
def Sys2Proof.Machine.ConfigurationIsChecked : Prop :=
  (∀ t s bs e, s.up = true → s.saf.load = some bs → e = safCheck s bs →
    (e ≠ 0 → Answers (.safetyConfigCheck t) s (fun u => getF u Reg.SAF_CFG_err = e ∧ getF u Reg.SAF_CFG_busy = 0 ∧
      u.saf = { s.saf with load := none } ∧ OnlyRegs [Reg.SAF_CFG] s u ∧ IslandOnly t s u ∧ u.rec' = s.rec' ∧ u.out = [])) ∧
    (e = 0 → ∀ c, c = parseSaf bs → Answers (.safetyConfigCheck t) s (fun u => u.saf.cfg = some c ∧ u.saf.stored = bs ∧ u.saf.load = none ∧
      getF u Reg.SAF_CFG_err = 0 ∧ getF u Reg.SAF_CFG_act = 1 ∧ getF u Reg.SAF_CFG_REV_rev = c.rev.toNat ∧ FunctionsStart c u ∧
      (∀ k < 8, outOn u k = false) ∧
      getF u Reg.SAF_STAT_state = (if getF s Reg.SAF_STAT_state = 1 then 2 else getF s Reg.SAF_STAT_state) ∧
      (∀ z, z = (if getF s Reg.SAF_STAT_state = 1 then clearAlarm .safety Ev.SAF_NOCFG 0 0 (begin' t s) else begin' t s) →
        u.rec' = (raise .safety Ev.SAF_CFGACT (c.rev.toNat + 2 ^ 32 * c.dig.toNat) (raise .safety Ev.SAF_CFGACT c.id.toNat z)).rec' ∧
        u.alarms = z.alarms) ∧ u.saf.tsDue = tsDues c t ∧ IslandOnly t s u))) ∧
  (∀ t s, s.up = true → s.saf.load = none → exec (.safetyConfigCheck t) s = .next (begin' t s)) ∧
  (∀ t x y pair s e, s.up = true → getF s Reg.SAF_STAT_state = 0 → e = safCheck s s.saf.stored →
    (x = false ∨ y = false → Answers (.islandSelfTest t x y pair) s (fun u => EntersSafe 6 t s u ∧ getB u Reg.SAF_STAT_chx = x ∧
      getB u Reg.SAF_STAT_chy = y)) ∧
    (x = true → y = true → pair = false ∨ (e ≠ 0 ∧ e ≠ 6) → (Ev.SAF_NOCFG, 0) ∉ s.alarms → Answers (.islandSelfTest t x y pair) s (fun u =>
      getF u Reg.SAF_STAT_state = 1 ∧ u.saf = { s.saf with cfg := none } ∧ u.alarms = s.alarms ++ [(Ev.SAF_NOCFG, 0)] ∧
      getF u Reg.SAF_CFG_act = 0 ∧ u.rec' = (raiseAt t .safety Ev.SAF_NOCFG (if pair then e else 0x10) true false (begin' t s)).rec' ∧ IslandOnly t s u)) ∧
    (x = true → y = true → pair = true → e = 0 ∨ e = 6 → ∀ c, c = parseSaf s.saf.stored → Answers (.islandSelfTest t x y pair) s (fun u =>
      getF u Reg.SAF_STAT_state = 2 ∧ u.saf.cfg = some c ∧ FunctionsStart c u ∧ getF u Reg.SAF_CFG_act = 1 ∧ IslandOnly t s u ∧
      u.rec' = s.rec' ∧ u.out = []))) ∧
  (∀ t x y pair s, s.up = true → getF s Reg.SAF_STAT_state ≠ 0 → exec (.islandSelfTest t x y pair) s = .next (begin' t s))

/-- R409-R432: the safety island. Which channel the registers show is log entry 21 (DESIGN CHOICE). -/
def Obligations.SafetyIslandGuardsItsOutputs : Prop :=
  InternalFaultsEnterSafe ∧ CycleKeepsTheOutputRule ∧ ChannelsEvaluateTheirOwn ∧ TestsLockOut ∧ IslandTimers ∧ ConfigurationIsChecked

/-! Statements of one subject, joined. -/

/-- R52 and the counter-clear registers: every counter clear zeroes its counters, of its lane and block, and nothing else. -/
def Obligations.CountersClearOnWrite : Prop := CounterClearsZeroTheirWords ∧ UnitCounterClearsZeroEveryInstance ∧ ModuleCounterAndDelayClears

/-- R24, R28, R29, R175: the marks of intake and fusion, and the delivered fusion update. -/
def Obligations.IntakeAndFusionStagesEnd : Prop := IntakeAndFusionMarks ∧ FusionCompleteEndsTheStage

/-- R284, R286: the Keeper's slot, with and without the third miss of the Standby. -/
def Obligations.KeeperSlotsCountAndDeclare : Prop := KeeperSlotCountsMissedWords ∧ ThirdMissFailsTheStandby

/-- R307-R309: ring frames are checked and taken once; SYNC sets the phase, and its loss is followed. -/
def Obligations.RingSyncIsCheckedAndTaken : Prop := RingFramesAreCheckedAndDroppedOnce ∧ SyncIsTakenAndItsLossFollowed

/-- R81, R82: what the schedule instructions write, and that they write nothing else. -/
def Obligations.ScheduleInstructionsWriteTheirTargets : Prop := ScheduleInstructionsWriteOnlyTheirTargets ∧ BlockLoadAndPivotDivisionValues

/-- R30, R116, R117, R120, R297, R298: the publication of a cycle by its Active lane, and the one owed after a takeover. -/
def Obligations.CyclesArePublished : Prop := AllocationIsPublishedOnce ∧ TakeoverPublishesTheMirroredSolution

/-- R282, R283, R286: watch words and Keeper words, and a fault of the Keeper. -/
def Obligations.LanesAndKeeperHearEachOther : Prop := WatchAndKeeperWords ∧ KeeperFaultKeepsTheRoles

/-- R17, R20, R22, R26, R28, R49, R61, R123, R465: the epoch, and the wake of a stopped fast PLL. -/
def Obligations.EpochsBeginCyclesAndWakePlls : Prop := EpochBeginsTheCycle ∧ PllWakesWithItsSpread

/-! The event recorder (R434-R447). -/

/-- Registers a record delivered on the event stream may touch (R446): index and lost count of the rings of both lanes. -/
def Sys2Proof.Machine.ringKeys : List Nat :=
  [Lane.a, Lane.b].flatMap (fun l => vecKeys l ++ (List.range 64).flatMap (fun n => [laneKey (Reg.HRI_RGn_PTR n) l, laneKey (Reg.HRI_RGn_STAT n) l]))

/-- The state after a command of the recorder: registers, the recorder, alarms, ports, and the rings of both lanes. -/
def Sys2Proof.Machine.RecorderOnly (t : Time) (s u : State) : Prop :=
  u = { begin' t s with
    regs := u.regs, rec' := u.rec', alarms := u.alarms, out := u.out, la := { s.la with hri := u.la.hri }, lb := { s.lb with hri := u.lb.hri } }

/-- The recorder has no room left but for REC_FULL once this record is stored (R441). -/
def Sys2Proof.Machine.LastSlot (s : State) : Prop := getB s Reg.REC_STAT_split = false ∧ s.rec'.q = 32766

/-- One record numbered, stored in its slot, counted and delivered on the event stream of the lanes that are ready (R436, R441, R442, R446). -/
def Sys2Proof.Machine.Stored (e : Event) (t : Time) (s u : State) : Prop :=
  ∀ split slot w, split = getB s Reg.REC_STAT_split → slot = slotFor split s.rec'.n s.rec'.q →
    w = recordOf (begin' t s) s.rec'.next e slot.isNone →
    u.rec'.q = s.rec'.q + 1 ∧ u.rec'.next = nextSeq s.rec'.next ∧ u.rec'.n = s.rec'.n ∧
    (∀ k, slot = some k → u.rec'.slots = Sparse.set slotEmpty s.rec'.slots k w) ∧ (slot = none → u.rec'.slots = s.rec'.slots) ∧
    getF u Reg.REC_SEQ_seq = s.rec'.next % 2 ^ 32 ∧
    getF u Reg.REC_STAT_wslot = ((slotFor split s.rec'.n (s.rec'.q + 1)).getD 32767) % 2 ^ 15 ∧
    getF u Reg.REC_OVF_ovf = (if slot = none ∨ (split = true ∧ 2 * s.rec'.n ≤ s.rec'.q) then min (getF s Reg.REC_OVF_ovf + 1) 0xFFFFFFFF
      else getF s Reg.REC_OVF_ovf) ∧
    (∀ l, (u.lane l).hri =
      ((readyLanes (fun l => streamRec l 0x14 0 e.stamp (leBytes 32 w.toNat)) (begin' t s)).lane l).hri) ∧
    u.out = (readyLanes (fun l => streamRec l 0x14 0 e.stamp (leBytes 32 w.toNat)) (begin' t s)).out ∧
    OnlyRegs ([Reg.REC_SEQ, Reg.REC_STAT, Reg.REC_OVF] ++ ringKeys) s u ∧ RecorderOnly t s u ∧ u.alarms = s.alarms

/-- R434, R436, R441, R442, R444, R446: the appender takes the oldest record of a queue: it is numbered, stored and delivered, its source and code
counted; beyond ten of them in a second it is suppressed, unless it raises or clears an alarm; the record that takes slot 32,766 is followed
by REC_FULL in slot 32,767. An empty queue gives nothing. -/
def Sys2Proof.Machine.RecordsAreAppended : Prop :=
  (∀ t g s e q d, s.up = true → s.rec'.queues.getD g {} = ⟨e :: q, d⟩ →
    (e.src = .appender ∨ (countOf s e).1 < 10 ∨ e.alm = true ∨ e.clr = true → ¬ LastSlot s → Answers (.recordAppend t g) s (fun u =>
      Stored e t s u ∧ u.rec'.queues = listSet s.rec'.queues g ⟨q, d⟩ ∧ (e.src = .appender → u.rec'.counts = s.rec'.counts) ∧
      (e.src ≠ .appender → countOf u e = ((countOf s e).1 + 1, (countOf s e).2)))) ∧
    (e.src ≠ .appender → 10 ≤ (countOf s e).1 → e.alm = false → e.clr = false → Answers (.recordAppend t g) s (fun u =>
      u.rec' = { s.rec' with queues := listSet s.rec'.queues g ⟨q, d⟩, counts := u.rec'.counts } ∧
      countOf u e = ((countOf s e).1 + 1, (countOf s e).2 + 1) ∧ getF u Reg.REC_CNT_suppr = min (getF s Reg.REC_CNT_suppr + 1) 0xFFFF ∧
      OnlyRegs [Reg.REC_CNT] s u ∧ RegsAndRecords t s u)) ∧
    (e.src = .appender ∨ (countOf s e).1 < 10 ∨ e.alm = true ∨ e.clr = true → LastSlot s → Answers (.recordAppend t g) s (fun u =>
      u.rec' = { s.rec' with q := 32768, next := nextSeq (nextSeq s.rec'.next), queues := listSet s.rec'.queues g ⟨q, d⟩, counts := u.rec'.counts,
                             slots := Sparse.set slotEmpty (Sparse.set slotEmpty s.rec'.slots 32766 (recordOf (begin' t s) s.rec'.next e false)) 32767
                               (recordOf (begin' t s) (nextSeq s.rec'.next) (ownEvent (begin' t s) Ev.REC_FULL 0 true) false) } ∧
      getB u Reg.REC_STAT_full = true ∧ u.alarms = s.alarms ++ [(Ev.REC_FULL, 0)] ∧ getF u Reg.REC_OVF_ovf = getF s Reg.REC_OVF_ovf ∧
      OnlyRegs ([Reg.REC_SEQ, Reg.REC_STAT] ++ ringKeys ++ alarmKeys) s u ∧ RecorderOnly t s u))) ∧
  (∀ t g s d, s.up = true → s.rec'.queues.getD g {} = ⟨[], d⟩ → exec (.recordAppend t g) s = .next (begin' t s))

/-- R437, R438, R444: at the end of an MTC second each source and code with suppressed records gives one REC_SUPPR and the counts start again; every
hour of SYNC has its REC_ANCHOR; a second with a supply input present is an operating second, and both counters go to the MRAM slot that was not
written last. -/
def Sys2Proof.Machine.SecondsAndHoursOfTheRecorder : Prop :=
  (∀ t s, s.up = true → t.toNat % sec = 0 →
    ((∀ c ∈ s.rec'.counts, c.2.2.2 = 0) → exec (.suppressionSecondEnd t) s = .next { begin' t s with rec' := { s.rec' with counts := [] } }) ∧
    (∀ src code n k, s.rec'.counts = [(src, code, n, k)] → 0 < k → ¬ LastSlot s → Answers (.suppressionSecondEnd t) s (fun u =>
      Stored (ownEvent (begin' t s) Ev.REC_SUPPR (srcNum src % 2 ^ 10 + 2 ^ 16 * code.toNat + 2 ^ 32 * k) false) t s u ∧ u.rec'.counts = [] ∧
      u.rec'.queues = s.rec'.queues)) ∧
    (getB s Reg.REC_STAT_split = true → Answers (.suppressionSecondEnd t) s (fun u => u.rec'.counts = [] ∧ u.rec'.queues = s.rec'.queues ∧
      u.rec'.q = s.rec'.q + (s.rec'.counts.filter (fun c => decide (0 < c.2.2.2))).length ∧
      OnlyRegs ([Reg.REC_SEQ, Reg.REC_STAT, Reg.REC_OVF] ++ ringKeys) s u ∧ RecorderOnly t s u ∧ u.alarms = s.alarms))) ∧
  (∀ t s, s.up = true → t.toNat % sec ≠ 0 → exec (.suppressionSecondEnd t) s = .next (begin' t s)) ∧
  (∀ t s, s.up = true → t.toNat % (3600 * sec) = 0 → getF s Reg.TMB_STAT_state (timeLane s) = 1 → Answers (.recAnchor t) s (fun u =>
    u.rec'.anchored = true ∧ u.rec' = { (raise .appender Ev.REC_ANCHOR (ltSec (ltAt (begin' t s) (timeLane s) t)) (begin' t s)).rec' with anchored := true } ∧
    OnlyRegs recKeys s u ∧ RegsAndRecords t s u)) ∧
  (∀ t s, s.up = true → t.toNat % (3600 * sec) ≠ 0 ∨ getF s Reg.TMB_STAT_state (timeLane s) ≠ 1 → exec (.recAnchor t) s = .next (begin' t s)) ∧
  (∀ t s, (getB s Reg.PWR_STAT_sup1 = true ∨ getB s Reg.PWR_STAT_sup2 = true → Answers (.operatingSecond t) s (fun u =>
      getF u Reg.REC_OPSEC_s = min (getF s Reg.REC_OPSEC_s + 1) 0xFFFFFFFF ∧
      getB u Reg.REC_STAT_osmax = (getB s Reg.REC_STAT_osmax || decide (0xFFFFFFFE ≤ getF s Reg.REC_OPSEC_s)) ∧
      (∀ c, c = (rdK u Reg.REC_OPSEC, rdK s Reg.REC_PWRCYC) → u.rec' = if s.rec'.cntLast then { s.rec' with cnt0 := c, cntLast := false }
        else { s.rec' with cnt1 := c, cntLast := true }) ∧
      OnlyRegs [Reg.REC_OPSEC, Reg.REC_STAT] s u ∧ RegsAndRecords t s u)) ∧
    (getB s Reg.PWR_STAT_sup1 = false → getB s Reg.PWR_STAT_sup2 = false → exec (.operatingSecond t) s = .next (begin' t s)))

/-- R443, R456: a write of REC_CLR with the key and its complement, in Service or with the expert level open, numbers HRI_XOP, empties every slot,
clears the overflow count, REC_STAT.full and the alarm, and continues the sequence with REC_CLEAR in slot 0; any other write of it is counted,
shown and recorded, and clears nothing. -/
def Sys2Proof.Machine.RecorderIsClearedByItsKey : Prop :=
  ∀ t ep v s good, ModWritable s ep →
    good = (v.toNat % 2 ^ 16 == 0x5EC0 && v.toNat / 2 ^ 16 == 0xFFFF - 0x5EC0 && (getB s Reg.HRI_AUTH_STAT_xp || getF s Reg.UPD_LCS_state == 3)) →
    (good = true → ¬ LastSlot s → 0 < s.rec'.n → Answers (.recorderClear t ep v) s (fun u =>
      (∀ ovf, ovf = (if slotFor (getB s Reg.REC_STAT_split) s.rec'.n s.rec'.q = none ∨
            (getB s Reg.REC_STAT_split = true ∧ 2 * s.rec'.n ≤ s.rec'.q) then min (getF s Reg.REC_OVF_ovf + 1) 0xFFFFFFFF
          else getF s Reg.REC_OVF_ovf) →
        ∀ r, r = { s.rec' with q := 1, next := nextSeq (nextSeq s.rec'.next),
                               slots := Sparse.set slotEmpty [] 0 (recordOf (begin' t s) (nextSeq s.rec'.next)
                                 (ownEvent (begin' t s) Ev.REC_CLEAR (s.rec'.next % 2 ^ 32 + 2 ^ 32 * ovf) false) false) } →
          u.rec' = if s.alarms.contains (Ev.REC_FULL, 0) then (raiseAt t .appender Ev.REC_FULL 0 false true { begin' t s with rec' := r }).rec' else r) ∧
      getF u Reg.REC_OVF_ovf = 0 ∧ getB u Reg.REC_STAT_full = false ∧ getF u Reg.REC_SEQ_seq = nextSeq s.rec'.next % 2 ^ 32 ∧
      u.alarms = s.alarms.filter (· ≠ (Ev.REC_FULL, 0)) ∧
      OnlyRegs ([Reg.REC_SEQ, Reg.REC_STAT, Reg.REC_OVF] ++ recKeys ++ ringKeys) s u ∧ RecorderOnly t s u)) ∧
    (good = false → Answers (.recorderClear t ep v) s (fun u =>
      getF u Reg.HRI_CNT_reject ep = min (getF s Reg.HRI_CNT_reject ep + 1) (2 ^ Reg.HRI_CNT_reject.w - 1) ∧
      (shut s ep = false → getB u Reg.HRI_SYS_STAT_reject ep = true) ∧
      u.rec' = (raise (laneSrc ep 11) Ev.HRI_BADBELL (Reg.REC_CLR + 2 ^ 32 * v.toNat) (begin' t s)).rec' ∧
      OnlyRegs (laneKey Reg.HRI_CNT ep :: laneKey Reg.HRI_SYS_STAT ep :: vecKeys ep ++ recKeys) s u ∧
      u = { begin' t s with regs := u.regs, rec' := u.rec', out := u.out }))

/-- R434-R444, R446: the recorder. -/
def Obligations.RecorderKeepsEveryEvent : Prop := RecordsAreAppended ∧ SecondsAndHoursOfTheRecorder ∧ RecorderIsClearedByItsKey

/-! The Tender (R448-R454). -/

/-- The state after a command of one lane's Tender: registers, records, and that lane's Tender and health. -/
def Sys2Proof.Machine.TenderOnly (l : Lane) (t : Time) (s u : State) : Prop :=
  u = ({ begin' t s with regs := u.regs, rec' := u.rec' }).setLane l { s.lane l with tnd := (u.lane l).tnd, health := (u.lane l).health }

/-- Correctable errors of an address seen in the last 24 h (R450). -/
def Sys2Proof.Machine.recentAddrs (t : Time) (s : State) (l : Lane) : List (Nat × Time) :=
  (s.lane l).tnd.addrs.filter (fun a => decide (since t a.2 < 86400 * sec))

/-- R449, R450: the DRAM patrol shows its progress and a complete pass ends its behind bit; a correctable error is counted, recorded for the first
in the hour, above the limits of the hour raises the rate warning, and at an address already seen within 24 h retires the page; an uncorrectable
one sets f_dram. -/
def Sys2Proof.Machine.PatrolFindsErrors : Prop :=
  ∀ t l p s, LaneRuns s l → (∀ f, Answers (.dramPatrol t l f p) s (fun u => getF u Reg.TND_STAT_patrol l = min p 1000 ∧
      getF u Reg.TND_STAT_bpatrol l = (if 1000 ≤ p then 0 else getF s Reg.TND_STAT_bpatrol l) ∧
      OnlyRegs ([laneKey Reg.TND_STAT l, laneKey Reg.TND_ECC l, laneKey Reg.TND_DRAM l] ++ recKeys) s u ∧ TenderOnly l t s u ∧
      (f = .none' → u.rec' = s.rec' ∧ u.lane l = s.lane l) ∧
      (∀ a, f = .ue a → (u.lane l).health = { (s.lane l).health with fatal := putBit (s.lane l).health.fatal 8 true } ∧
        (u.lane l).tnd = (s.lane l).tnd ∧ u.rec' = s.rec') ∧
      (∀ a, f = .ce a → getF u Reg.TND_ECC_dram l = min (getF s Reg.TND_ECC_dram l + 1) 0xFFFF ∧ (u.lane l).health = (s.lane l).health ∧
        (u.lane l).tnd.dram = (s.lane l).tnd.dram + 1 ∧ (u.lane l).tnd.ceRec = true ∧
        alGet (u.lane l).tnd.region (a / 2 ^ 26) = some ((alGet (s.lane l).tnd.region (a / 2 ^ 26)).getD 0 + 1)))) ∧
    (∀ a n, n = (alGet (s.lane l).tnd.region (a / 2 ^ 26)).getD 0 + 1 →
      ((s.lane l).tnd.excess = true ∨ (n ≤ 16 ∧ (s.lane l).tnd.dram < 64) → (s.lane l).tnd.pages.contains (a / 4096) = false →
        (recentAddrs t s l).any (fun x => x.1 == a) = false → Answers (.dramPatrol t l (.ce a) p) s (fun u =>
          (u.lane l).tnd.addrs = recentAddrs t s l ++ [(a, t)] ∧ (u.lane l).tnd.pages = (s.lane l).tnd.pages ∧
          (u.lane l).tnd.excess = (s.lane l).tnd.excess ∧ getF u Reg.TND_DRAM_retired l = getF s Reg.TND_DRAM_retired l ∧
          u.rec' = (if (s.lane l).tnd.ceRec then s.rec' else (raise (tndSrc l) Ev.TND_CE (2 ^ 8 * (a % 2 ^ 56)) (begin' t s)).rec'))) ∧
      ((s.lane l).tnd.excess = false → 16 < n ∨ 64 ≤ (s.lane l).tnd.dram → (s.lane l).tnd.ceRec = true →
        (s.lane l).tnd.pages.contains (a / 4096) = true → Answers (.dramPatrol t l (.ce a) p) s (fun u =>
          (u.lane l).tnd.excess = true ∧ getF u Reg.TND_STAT_cerate l = 1 ∧ u.rec' =
            (raise (tndSrc l) Ev.TND_CERATE (if 16 < n then n + 2 ^ 32 * (a / 2 ^ 26 % 256) else (s.lane l).tnd.dram + 1 + 2 ^ 32 * 0xFF) (begin' t s)).rec')) ∧
      ((s.lane l).tnd.excess = true → (s.lane l).tnd.ceRec = true → (s.lane l).tnd.pages.contains (a / 4096) = false →
        (recentAddrs t s l).any (fun x => x.1 == a) = true → Answers (.dramPatrol t l (.ce a) p) s (fun u =>
          (u.lane l).tnd.pages = (s.lane l).tnd.pages ++ [a / 4096] ∧ getF u Reg.TND_DRAM_retired l = min (getF s Reg.TND_DRAM_retired l + 1) 0xFFFF ∧
          (u.lane l).tnd.addrs = (recentAddrs t s l).filter (fun x => x.1 / 4096 != a / 4096) ∧
          u.rec' = (raise (tndSrc l) Ev.TND_PAGERET (a / 4096 * 4096) (begin' t s)).rec')))

/-- R449, R450: an hour of counting ends, and the warning with it where the hour kept its limits; a sweep of SRAM in a powered domain ends its
behind bit, counts what it corrects, sets f_sram for what it cannot, and in feature SRAM records it and abandons the fusion of the cycle. -/
def Sys2Proof.Machine.SweepsFindErrors : Prop :=
  (∀ t l s, LaneRuns s l → Answers (.ceRateHour t l) s (fun u =>
    getF u Reg.TND_STAT_cerate l = (if (s.lane l).tnd.excess then getF s Reg.TND_STAT_cerate l else 0) ∧
    (u.lane l).tnd = { (s.lane l).tnd with lastDram := (s.lane l).tnd.dram, lastSram := (s.lane l).tnd.sram, dram := 0, sram := 0, region := [],
                                           ceRec := false, excess := false } ∧
    (u.lane l).health = (s.lane l).health ∧ u.rec' = s.rec' ∧ OnlyRegs [laneKey Reg.TND_STAT l] s u ∧ TenderOnly l t s u)) ∧
  (∀ t l mem s, LaneRuns s l → 1 ≤ mem → mem ≤ 3 → mem = 1 ∨ domOn s (domBit l + mem - 1) = true →
    Answers (.sramSweep t l mem .none') s (fun u => getF u (sweepFld mem) l = 0 ∧ OnlyRegs [laneKey Reg.TND_STAT l] s u ∧ RegsOnly t s u) ∧
    (∀ a, Answers (.sramSweep t l mem (.ce a)) s (fun u => getF u (sweepFld mem) l = 0 ∧
      getF u Reg.TND_ECC_sram l = min (getF s Reg.TND_ECC_sram l + 1) 0xFFFF ∧ (u.lane l).health = (s.lane l).health ∧
      (u.lane l).tnd = { (s.lane l).tnd with sram := (s.lane l).tnd.sram + 1, ceRec := true } ∧
      u.rec' = (if (s.lane l).tnd.ceRec then s.rec' else (raise (tndSrc l) Ev.TND_CE (mem + 2 ^ 8 * (a % 2 ^ 56)) (begin' t s)).rec') ∧
      OnlyRegs ([laneKey Reg.TND_STAT l, laneKey Reg.TND_ECC l] ++ recKeys) s u ∧ TenderOnly l t s u)) ∧
    (∀ a, mem ≠ 3 → Answers (.sramSweep t l mem (.ue a)) s (fun u => getF u (sweepFld mem) l = 0 ∧
      (u.lane l).health = { (s.lane l).health with fatal := putBit (s.lane l).health.fatal 9 true } ∧ (u.lane l).tnd = (s.lane l).tnd ∧
      u.rec' = s.rec' ∧ OnlyRegs [laneKey Reg.TND_STAT l] s u ∧ TenderOnly l t s u)) ∧
    (∀ a, mem = 3 → isActive s l = false ∨ (s.lane l).fus.run = false ∨ s.cyc.fusionOpen = false →
      Answers (.sramSweep t l mem (.ue a)) s (fun u => getF u (sweepFld mem) l = 0 ∧
        u.rec' = (raise (tndSrc l) Ev.TND_FENUE 0 (begin' t s)).rec' ∧ OnlyRegs (laneKey Reg.TND_STAT l :: recKeys) s u ∧ RegsAndRecords t s u)) ∧
    (∀ a, mem = 3 → isActive s l = true → (s.lane l).fus.run = true → s.cyc.fusionOpen = true → Answers (.sramSweep t l mem (.ue a)) s (fun u =>
      u.cyc = { s.cyc with fusionOpen := false } ∧ getF u Reg.FUS_CNT_late l = min (getF s Reg.FUS_CNT_late l + 1) (2 ^ Reg.FUS_CNT_late.w - 1) ∧
      getB u Reg.FUS_STAT_late l = true ∧ u.kpr = s.kpr ∧ u.auth = s.auth))) ∧
  (∀ t l mem f s, LaneRuns s l → mem = 0 ∨ 3 < mem ∨ (mem ≠ 1 ∧ domOn s (domBit l + mem - 1) = false) →
    exec (.sramSweep t l mem f) s = .next (begin' t s))

/-- The state after a command that wore a lane's flash: beside that, registers, records, alarms and ports only. -/
def Sys2Proof.Machine.FlashOnly (l : Lane) (t : Time) (s u : State) : Prop :=
  u = { onFlash l (fun _ => flashOf u l) (begin' t s) with regs := u.regs, rec' := u.rec', alarms := u.alarms, out := u.out }

/-- Reads of a block of a lane's flash since its last program. -/
def Sys2Proof.Machine.blockReads (s : State) (l : Lane) (b : Nat) : Nat := Sparse.get noCount (flashOf s l).reads b

/-- A block of a lane's flash was erased and programmed once, and no other (R453). -/
def Sys2Proof.Machine.Rewritten (b : Nat) (l : Lane) (s u : State) : Prop :=
  erases u l b = erases s l b + 1 ∧ blockReads u l b = 0 ∧ ∀ c, c ≠ b → erases u l c = erases s l c

/-- R453: static data move where the erase counts of two blocks differ by more than 500; a block is refreshed after 100,000 reads; a complete
patrol reads every programmed block, rewrites the weak ones and ends its behind bit; a retired block's data go to its spare, it is counted with the
spares left, recorded below 25 % and an alarm below 5 %. A retired block, and one of a package bank that is worked on, is not moved. -/
def Sys2Proof.Machine.FlashIsKept : Prop :=
  (∀ t l a b s d, LaneRuns s l → d = max (erases s l a) (erases s l b) - min (erases s l a) (erases s l b) →
    (500 < d → mayMove s l a = true → mayMove s l b = true → Answers (.flashLevelling t l a b) s (fun u => Rewritten b l s u ∧
      blockReads u l a = blockReads s l a + 1 ∧ (∀ c, c ≠ a → c ≠ b → blockReads u l c = blockReads s l c) ∧
      (flashOf u l).bad = (flashOf s l).bad ∧ FlashOnly l t s u ∧ u.regs = s.regs ∧ u.rec' = s.rec' ∧ u.alarms = s.alarms ∧ u.out = [])) ∧
    (d ≤ 500 ∨ mayMove s l a = false ∨ mayMove s l b = false → exec (.flashLevelling t l a b) s = .next (begin' t s))) ∧
  (∀ t l b s, LaneRuns s l →
    (100000 ≤ blockReads s l b → mayMove s l b = true → Answers (.readDisturbRefresh t l b) s (fun u => Rewritten b l s u ∧
      (∀ c, c ≠ b → blockReads u l c = blockReads s l c) ∧ (flashOf u l).bad = (flashOf s l).bad ∧ FlashOnly l t s u ∧
      u.regs = s.regs ∧ u.rec' = s.rec' ∧ u.alarms = s.alarms ∧ u.out = [])) ∧
    (blockReads s l b < 100000 ∨ mayMove s l b = false → exec (.readDisturbRefresh t l b) s = .next (begin' t s))) ∧
  (∀ t l w s, LaneRuns s l → Answers (.retentionPatrol t l w) s (fun u => getF u Reg.TND_STAT_bflash l = 0 ∧
    (∀ b, b ∉ w ∨ mayMove s l b = false → erases u l b = erases s l b ∧ (0 < erases s l b → blockReads s l b < blockReads u l b)) ∧
    (∀ b, w.count b = 1 → mayMove s l b = true → erases u l b = erases s l b + 1 ∧ blockReads u l b = 0) ∧
    (flashOf u l).bad = (flashOf s l).bad ∧ OnlyRegs [laneKey Reg.TND_STAT l] s u ∧ FlashOnly l t s u ∧ u.rec' = s.rec' ∧
    u.alarms = s.alarms ∧ u.out = [])) ∧
  (∀ t l b p s f n, LaneRuns s l → f = flashOf s l → n = sparePm { f with bad := f.bad ++ [(b, p)] } →
    ((∀ x ∈ f.bad, x.1 ≠ b) → Answers (.badBlockRetirement t l b p) s (fun u => getF u Reg.TND_FLASH_spare l = n ∧
      getF u Reg.TND_FLASH_retired l = min (getF s Reg.TND_FLASH_retired l + 1) 0xFFFF ∧ (flashOf u l).bad = f.bad ++ [(b, p)] ∧
      Rewritten p l s u ∧ (∀ c, c ≠ p → blockReads u l c = blockReads s l c) ∧
      getB u Reg.TND_STAT_flashlow l = (getB s Reg.TND_STAT_flashlow l || decide (n < 250)) ∧
      (250 ≤ n → OnlyRegs [laneKey Reg.TND_FLASH l] s u ∧ u.rec' = s.rec' ∧ u.alarms = s.alarms ∧ u.out = []) ∧
      (50 ≤ n → n < 250 → getB s Reg.TND_STAT_flashlow l = false →
        u.rec' = (raise (tndSrc l) Ev.TND_FLASHLOW n (begin' t s)).rec' ∧ u.alarms = s.alarms) ∧
      (n < 50 → getB s Reg.TND_STAT_flashlow l = true → s.alarms.contains (Ev.TND_FLASH, l.idx) = false →
        u.rec' = (raiseAt t (tndSrc l) Ev.TND_FLASH n true false (begin' t s)).rec' ∧ u.alarms = s.alarms ++ [(Ev.TND_FLASH, l.idx)]) ∧
      OnlyRegs (laneKey Reg.TND_FLASH l :: laneKey Reg.TND_STAT l :: alarmKeys) s u ∧ FlashOnly l t s u)) ∧
    ((∃ x ∈ f.bad, x.1 = b) → exec (.badBlockRetirement t l b p) s = .next (begin' t s)))

/-- A value of AO MRAM whose pair fails and whose good copy is elsewhere (R451): in its other slot, or in an Active lane. -/
def Sys2Proof.Machine.Repairable (s : State) (x : MramFind) (o : Nat) : Prop :=
  (x = .config o ∧ (active s).isSome = true) ∨ (x = .slotPair o (.met 0) ∧ s.met1.isSome = true) ∨
  (∃ n, x = .slotPair o (.met (n + 1)) ∧ s.met0.isSome = true) ∨ ∃ n, x = .slotPair o (.counter n) ∨ x = .slotPair o (.journal n)

/-- A value of AO MRAM whose pair fails and that has no good copy. -/
def Sys2Proof.Machine.Lost (s : State) (x : MramFind) (o : Nat) : Prop :=
  x = .lone o ∨ (x = .config o ∧ active s = none) ∨ (x = .slotPair o (.met 0) ∧ s.met1 = none) ∨
  ∃ n, x = .slotPair o (.met (n + 1)) ∧ s.met0 = none

/-- The slot whose pair failed holds what the other one holds, and no other slot changes (R451). -/
def Sys2Proof.Machine.SlotsRewritten (x : MramFind) (o : Nat) (s u : State) : Prop :=
  (x = .slotPair o (.met 0) → u.met0 = s.met1) ∧ (x ≠ .slotPair o (.met 0) → u.met0 = s.met0) ∧
  (∀ n, x = .slotPair o (.met (n + 1)) → u.met1 = s.met0) ∧ ((∀ n, x ≠ .slotPair o (.met (n + 1))) → u.met1 = s.met1) ∧
  (x = .slotPair o (.counter 0) → u.rec'.cnt0 = s.rec'.cnt1) ∧ (x ≠ .slotPair o (.counter 0) → u.rec'.cnt0 = s.rec'.cnt0) ∧
  (∀ n, x = .slotPair o (.counter (n + 1)) → u.rec'.cnt1 = s.rec'.cnt0) ∧
  ((∀ n, x ≠ .slotPair o (.counter (n + 1))) → u.rec'.cnt1 = s.rec'.cnt1)

/-- R451, R453: an MRAM value with a second slot is rewritten from it, and a configuration item is repaired while a lane is Active; an item without a
copy is marked failed with its alarm, once; a recorder slot is marked and its loss recorded; the flash is levelled, refreshed, patrolled and its
bad blocks are retired. -/
def Sys2Proof.Machine.MramAndFlashAreKept : Prop :=
  (∀ t s, s.up = true → exec (.mramVerify t []) s = .next (begin' t s)) ∧
  (∀ t x o s, s.up = true → Repairable s x o → Answers (.mramVerify t [x]) s (fun u =>
    getF u Reg.TND_MRAM_repair = min (getF s Reg.TND_MRAM_repair + 1) 0xFFFF ∧ SlotsRewritten x o s u ∧
    u.rec' = { (raise (tndSrc (timeLane s)) Ev.TND_MRAMPAIR o (begin' t s)).rec' with cnt0 := u.rec'.cnt0, cnt1 := u.rec'.cnt1 } ∧
    OnlyRegs (Reg.TND_MRAM :: recKeys) s u ∧ u = { begin' t s with regs := u.regs, rec' := u.rec', met0 := u.met0, met1 := u.met1 })) ∧
  (∀ t x o s, s.up = true → Lost s x o → s.alarms.contains (Ev.TND_MRAM, o) = true → exec (.mramVerify t [x]) s = .next (begin' t s)) ∧
  (∀ t x o s, s.up = true → Lost s x o → s.alarms.contains (Ev.TND_MRAM, o) = false →
    Answers (.mramVerify t [x]) s (fun u => getF u Reg.TND_MRAM_failed = min (getF s Reg.TND_MRAM_failed + 1) 0xFF ∧
      u.alarms = s.alarms ++ [(Ev.TND_MRAM, o)] ∧
      u.rec' = (raiseAt t (tndSrc (timeLane s)) Ev.TND_MRAM o true false (raise (tndSrc (timeLane s)) Ev.TND_MRAMPAIR o (begin' t s))).rec' ∧
      OnlyRegs (Reg.TND_MRAM :: alarmKeys) s u ∧ RegsAndAlarms t s u)) ∧
  (∀ t k s, s.up = true → k < 32768 → Answers (.mramVerify t [.recSlot k]) s (fun u =>
    getF u Reg.TND_MRAM_lost = min (getF s Reg.TND_MRAM_lost + 1) 0xFF ∧
    u.rec'.slots = Sparse.set slotEmpty s.rec'.slots k (Sparse.get slotEmpty s.rec'.slots k ||| 0xFFFFFFFF#256) ∧
    u.rec'.queues = (raise (tndSrc (timeLane s)) Ev.TND_RECLOST k (begin' t s)).rec'.queues ∧ u.rec'.next = s.rec'.next ∧
    OnlyRegs (Reg.TND_MRAM :: recKeys) s u ∧ RegsAndRecords t s u)) ∧
  FlashIsKept


/-- R448, R452: an activity that is behind is shown and recorded once; the Active lane in SYNC writes the oscillator record; the reference of a lane
more than 80 ppm from the other lane's is shown and recorded once. -/
def Sys2Proof.Machine.TenderReports : Prop :=
  (∀ t l b f s, LaneRuns s l → b < 6 → f = { Reg.TND_STAT_bpatrol with lsb := b } →
    (getB s f l = false → Answers (.tenderBehind t l b) s (fun u => getB u f l = true ∧
      u.rec' = (raise (tndSrc l) Ev.TND_BEHIND b (begin' t s)).rec' ∧ OnlyRegs (laneKey Reg.TND_STAT l :: recKeys) s u ∧ RegsAndRecords t s u)) ∧
    (getB s f l = true → exec (.tenderBehind t l b) s = .next (begin' t s))) ∧
  (∀ t l m s, LaneRuns s l →
    (isActive s l = true → getF s Reg.TMB_STAT_state l = 1 → exec (.oscillatorRecord t l m) s = .next { begin' t s with oscRec := some m }) ∧
    (isActive s l = false ∨ getF s Reg.TMB_STAT_state l ≠ 1 → exec (.oscillatorRecord t l m) s = .next (begin' t s))) ∧
  (∀ t l ppb s, LaneRuns s l → Answers (.laneReferenceCheck t l ppb) s (fun u =>
    getB u Reg.TND_STAT_oscdiff l = decide (80000 < ppb.natAbs) ∧ (u.lane l).tnd = { (s.lane l).tnd with ppb := ppb } ∧
    (u.lane l).health = (s.lane l).health ∧
    u.rec' = (if 80000 < ppb.natAbs ∧ getB s Reg.TND_STAT_oscdiff l = false then
      (raise (tndSrc l) Ev.TND_OSCDIFF (satInt 32 ppb) (begin' t s)).rec' else s.rec') ∧
    OnlyRegs (laneKey Reg.TND_STAT l :: recKeys) s u ∧ TenderOnly l t s u))

/-- R454, R379: a health frame has 128 bytes; within 100 ms of its second it goes to the telemetry stream ring, whole where entry and data area have
room, else counted as lost; later, or without a ring, nothing is written. -/
def Sys2Proof.Machine.HealthFramesAreWritten : Prop :=
  (∀ s l m die plate, (healthBytes s l m die plate).length = 128) ∧
  (∀ t l die plate s m, LaneRuns s l → m = BitVec.ofNat 64 (t.toNat / sec * sec) →
    (100 * ms < since t m ∨ streamRing s l 0x13 = none → exec (.healthFrame t l die plate) s = .next (begin' t s)) ∧
    (since t m ≤ 100 * ms → ∀ n, streamRing s l 0x13 = some n →
      (∀ o, ringFull s l n = false → pieceAt s l n 128 = some o → Answers (.healthFrame t l die plate) s (fun u =>
        .dma l (BitVec.ofNat 64 (ringDBase s l n + o)) (healthBytes (begin' t s) l m die plate) ∈ u.out ∧
        (ringSt u l n).sseq = (ringSt s l n).sseq + 1#32 ∧ (ringSt u l n).lost = 0 ∧ (ringSt u l n).dofs = o + 128 ∧
        getF u (Reg.HRI_RGn_PTR_idx n) l = (getF s (Reg.HRI_RGn_PTR_idx n) l + 1) % ringSize s l n % 2 ^ 16 ∧
        OnlyRegs [laneKey (Reg.HRI_RGn_PTR n) l] s u ∧
        u = ({ begin' t s with regs := u.regs, out := u.out }).setLane l { s.lane l with hri := (u.lane l).hri })) ∧
      (ringFull s l n = true ∨ pieceAt s l n 128 = none → Answers (.healthFrame t l die plate) s (fun u =>
        getF u (Reg.HRI_RGn_STAT_lost n) l = min (getF s (Reg.HRI_RGn_STAT_lost n) l + 1) 0xFFFF ∧
        OnlyRegs [laneKey (Reg.HRI_RGn_STAT n) l] s u ∧ u.out = [] ∧ LaneOnly l t s u))))

/-- R448-R454: the Tender. Where package data stand in the flash is log entry 103. -/
def Obligations.TenderWatchesTheMemories : Prop :=
  PatrolFindsErrors ∧ SweepsFindErrors ∧ MramAndFlashAreKept ∧ TenderReports ∧ HealthFramesAreWritten

/-! Power, resets and heat (R459-R471, R515, R527). -/

/-- The module has started from reset with a cause (R467-R470): time starts at 0, the always-on domains alone are powered, both lanes wait for
their supplies and their wipe, the Keeper starts afresh, and the first record of the run is REC_START. -/
def Sys2Proof.Machine.ModuleStarted (cause : Nat) (s u : State) : Prop :=
  u.up = true ∧ u.now = 0#64 ∧ getF u Reg.PWR_STAT_cause = cause ∧ getF u Reg.PWR_STAT_dom = 0xF ∧ getB u Reg.PWR_STAT_awipe = true ∧
  getB u Reg.PWR_STAT_bwipe = true ∧ u.kpr = {} ∧ u.upd.inReset = false ∧ (∀ l, (u.lane l).ph = (s.lane l).ph) ∧ u.waits = s.waits ∧
  u.pending = s.pending ∧
  (s.upd.wiping = false → ¬ LastSlot s → u.rec'.next = nextSeq s.rec'.next ∧ u.rec'.q = s.rec'.q + 1)

/-- The module is down (R462, R469): Keeper, island and lanes stop, the safety outputs and MHLT go off. -/
def Sys2Proof.Machine.ModuleDown (s u : State) : Prop :=
  u.up = false ∧ u.kpr = { up := false } ∧ u.auth = {} ∧ u.waits = [] ∧ (∀ l, (u.lane l).ph = .off) ∧
  (∀ k < 8, outOn u k = false ∧ (outOn s k = true → .pin 3 (2 * k) false ∈ u.out) ∧ ((swCmd s k).2.1 = true → .pin 3 (2 * k + 1) false ∈ u.out)) ∧
  (s.kpr.role.isSome = true → .pin pinMhlt 0 false ∈ u.out)

/-- The counters of the MRAM slot written last whose pairs check (R437). -/
def Sys2Proof.Machine.CountsKept (i : StartIn) (r : RecSt) (v : Word × Word) : Prop :=
  ∃ b, (∀ x ∈ i.cntBad, x.1 ≠ b2n b) ∧ (b = r.cntLast ∨ ∃ x ∈ i.cntBad, x.1 = b2n r.cntLast) ∧ v = (if b then r.cnt1 else r.cnt0)

/-- R461, R462, R437, R447: the first supply input starts the module, whose counters go on from their MRAM slots; one that comes beside another records its return and clears its alarm; the loss
of one of two is recorded, raised and counted; with the last one the recorder writes REC_PWRLOSS and only AO stays powered. -/
def Sys2Proof.Machine.SuppliesStartAndStop : Prop :=
  (∀ t n mv i s, n ≤ 1 → getB s (supBit n) = false →
    (getB s (supBit (1 - n)) = false → Answers (.supplyPresent t n mv i) s (fun u => ModuleStarted 1 s u ∧ getB u (supBit n) = true ∧
      getF u (supV n) = min mv 0xFFFF ∧ (∀ v, CountsKept i s.rec' v → rdK u Reg.REC_OPSEC = v.1 ∧
        getF u Reg.REC_PWRCYC_c = min (v.2.toNat + 1) 0xFFFFFFFF))) ∧
    (getB s (supBit (1 - n)) = true → Answers (.supplyPresent t n mv i) s (fun u => getB u (supBit n) = true ∧ getF u (supV n) = min mv 0xFFFF ∧
      getF u (supV (1 - n)) = getF s (supV (1 - n)) ∧ u.alarms = s.alarms.filter (· ≠ (Ev.PWR_SUP, n)) ∧
      (∀ x, x = raise .wake Ev.PWR_SUPBACK (n + 2 ^ 16 * min mv 0xFFFF) (begin' t s) →
        u.rec' = (if s.alarms.contains (Ev.PWR_SUP, n) then raiseAt t .wake Ev.PWR_SUP n false true x else x).rec') ∧
      OnlyRegs ([Reg.PWR_STAT, Reg.PWR_SUP] ++ recKeys) s u ∧ u = { begin' t s with regs := u.regs, rec' := u.rec', alarms := u.alarms }))) ∧
  (∀ t n mv i s, n ≤ 1 → getB s (supBit n) = true → Answers (.supplyPresent t n mv i) s (fun u => getF u (supV n) = min mv 0xFFFF ∧
    getF u (supV (1 - n)) = getF s (supV (1 - n)) ∧ OnlyRegs [Reg.PWR_SUP] s u ∧ RegsOnly t s u)) ∧
  (∀ t n mv i s, 1 < n → exec (.supplyPresent t n mv i) s = .next (begin' t s)) ∧
  (∀ t n m1 m2 s, n ≤ 1 → getB s (supBit n) = true →
    (getB s (supBit (1 - n)) = true → s.alarms.contains (Ev.PWR_SUP, n) = false → Answers (.supplyLost t n m1 m2) s (fun u =>
      getB u (supBit n) = false ∧ getB u (supBit (1 - n)) = true ∧ getF u Reg.PWR_SUP_v1 = min m1 0xFFFF ∧ getF u Reg.PWR_SUP_v2 = min m2 0xFFFF ∧
      getF u Reg.PWR_CNT_suplost = min (getF s Reg.PWR_CNT_suplost + 1) 0xFF ∧ u.alarms = s.alarms ++ [(Ev.PWR_SUP, n)] ∧
      u.rec' = (raiseAt t .wake Ev.PWR_SUP n true false
        (raise .wake Ev.PWR_SUPLOST (n + 2 ^ 16 * min (if n = 0 then m1 else m2) 0xFFFF) (begin' t s))).rec' ∧
      OnlyRegs ([Reg.PWR_STAT, Reg.PWR_SUP, Reg.PWR_CNT] ++ alarmKeys) s u ∧ RegsAndAlarms t s u)) ∧
    (getB s (supBit (1 - n)) = false → ¬ LastSlot s → Answers (.supplyLost t n m1 m2) s (fun u => ModuleDown s u ∧
      getB u (supBit n) = false ∧ getF u Reg.PWR_STAT_dom = 1 ∧ u.upd = { s.upd with inReset := false } ∧ u.alarms = s.alarms ∧
      u.rec'.next = nextSeq s.rec'.next ∧ u.rec'.q = s.rec'.q + 1 ∧ u.rec'.queues = [{}, {}, {}, {}, {}, {}] ∧
      (∀ k, slotFor (getB s Reg.REC_STAT_split) s.rec'.n s.rec'.q = some k → u.rec'.slots = Sparse.set slotEmpty s.rec'.slots k
        (recordOf (begin' t s) s.rec'.next (ownEvent (begin' t s) Ev.REC_PWRLOSS (min m1 0xFFFF + 2 ^ 16 * min m2 0xFFFF) false) false))))) ∧
  (∀ t n m1 m2 s, 1 < n ∨ getB s (supBit n) = false → exec (.supplyLost t n m1 m2) s = .next (begin' t s))

/-- R469, R489: MRST_N taken stops the module, unless it is masked; its release starts it with cause 2, after 10 s it is declared stuck, masked, and
the module starts with cause 3; once free it is taken again. At the start the update journal ends a sequence that waits, rolls back one whose
lane 1 had not confirmed, and resumes one whose lane 1 had; without a good copy of the journal there is no sequence (R16). -/
def Sys2Proof.Machine.ModuleResetByMrst : Prop :=
  (∀ t s, s.up = true → s.upd.masked = false → Answers (.mrstTaken t) s (fun u => ModuleDown s u ∧ u.upd = { s.upd with inReset := true } ∧
    getF u Reg.PWR_CNT_mrst = min (getF s Reg.PWR_CNT_mrst + 1) 0xFF ∧
    (∀ z, z = drainAll (incF Reg.PWR_CNT_mrst .a (begin' t s)) → (∀ g < 6, (z.rec'.queues.getD g {}).q = []) ∧
      u.rec' = (if s.auth.expert.isSome then expertEnds z else z).rec'))) ∧
  (∀ t s, s.up = true → s.upd.masked = true → exec (.mrstTaken t) s = .next (begin' t s)) ∧
  (∀ t i s step, s.upd.inReset = true → step = getF s Reg.UPD_SEQ_step → Answers (.mrstRelease t i) s (fun u => ModuleStarted 2 s u ∧
    (s.upd.wiping = false → (∃ x ∈ i.badVals, x.1 = .journal) → getF u Reg.UPD_SEQ_step = 0) ∧
    (s.upd.wiping = false → (∀ x ∈ i.badVals, x.1 ≠ .journal) →
      (step = 0 ∨ step = 1 → getF u Reg.UPD_SEQ_step = 0 ∧ getF u Reg.UPD_SEQ_rb = getF s Reg.UPD_SEQ_rb ∧ u.upd.runA = s.upd.runA ∧
        u.upd.runB = s.upd.runB ∧ u.upd.runK = s.upd.runK) ∧
      (step = 2 ∨ step = 6 → getF u Reg.UPD_SEQ_step = 0 ∧ getF u Reg.UPD_SEQ_rb = 1 ∧ u.upd.runA = oldSlot s.upd.newA s.upd.runA ∧
        u.upd.runB = oldSlot s.upd.newB s.upd.runB ∧ u.upd.runK = oldSlot s.upd.newK s.upd.runK) ∧
      (step = 3 ∨ step = 4 → getF u Reg.UPD_SEQ_step = 4 ∧ u.upd.pref = some (laneOne s) ∧ u.upd.runA = s.upd.newA.getD s.upd.runA ∧
        u.upd.runB = s.upd.newB.getD s.upd.runB)))) ∧
  (∀ t i s, s.upd.inReset = false → exec (.mrstRelease t i) s = .next (begin' t s) ∧ exec (.mrstStuck t i) s = .next (begin' t s)) ∧
  (∀ t i s, s.upd.inReset = true → Answers (.mrstStuck t i) s (fun u => ModuleStarted 3 s u ∧ u.upd.masked = true ∧
    getB u Reg.PWR_STAT_mstuck = true ∧ getF u Reg.PWR_CNT_stuck = min (getF s Reg.PWR_CNT_stuck + 1) 0xFF ∧ (Ev.PWR_RSTSTUCK, 0) ∈ u.alarms)) ∧
  (∀ t s, s.up = true → s.upd.masked = true → Answers (.mrstUnmask t) s (fun u => u.upd = { s.upd with masked := false } ∧
    getB u Reg.PWR_STAT_mstuck = false ∧ u.alarms = s.alarms.filter (· ≠ (Ev.PWR_RSTSTUCK, 0)) ∧
    (∀ x, x = raise .wake Ev.PWR_RSTFREE 0 (begin' t s) →
      u.rec' = (if s.alarms.contains (Ev.PWR_RSTSTUCK, 0) then raiseAt t .wake Ev.PWR_RSTSTUCK 0 false true x else x).rec') ∧
    OnlyRegs (Reg.PWR_STAT :: recKeys) s u ∧ u = { begin' t s with regs := u.regs, rec' := u.rec', alarms := u.alarms, upd := u.upd })) ∧
  (∀ t s, s.up = true → s.upd.masked = false → exec (.mrstUnmask t) s = .next (begin' t s))

/-- R459, R463, R470, R471: the BASE of a lane that is off is powered and its wipe begins; SLV and FEN lose what they held at their power-up; with
the wipe complete the lane is ready, unless the life cycle is wiped; 100 ms after a removal the Keeper asked for the lane is powered again. -/
def Sys2Proof.Machine.LanesArePowered : Prop :=
  (∀ t l s, s.up = true →
    ((s.lane l).ph = .off → mayPower s l = true → Answers (.domainReady t l 0) s (fun u => u.lane l = { s.lane l with ph := .wiping } ∧
      getB u (wipeFld l) = true ∧ domOn u (domBit l) = true ∧ (∀ d < 12, d ≠ domBit l → domOn u d = domOn s d) ∧
      kprLane u l = { kprLane s l with returning := true } ∧ kprLane u l.other = kprLane s l.other ∧ u.kpr.role = s.kpr.role ∧
      OnlyRegs [Reg.PWR_STAT] s u ∧
      u = ({ begin' t s with regs := u.regs, kpr := u.kpr }).setLane l (u.lane l))) ∧
    ((s.lane l).ph ≠ .off ∨ mayPower s l = false → exec (.domainReady t l 0) s = .next (begin' t s)) ∧
    (modeNow s = .layup → domOn s (domBit l + 1) = true → Answers (.domainReady t l 1) s (fun u => (u.lane l).slv = {} ∧
      getB u Reg.SLV_PKG_BANK_cold l = true ∧ OnlyRegs [laneKey Reg.SLV_PKG_BANK l] s u ∧
      u = ({ begin' t s with regs := u.regs }).setLane l { s.lane l with slv := (u.lane l).slv })) ∧
    (modeNow s ≠ .layup ∨ domOn s (domBit l + 1) = false → exec (.domainReady t l 1) s = .next (begin' t s)) ∧
    (domOn s (domBit l + 2) = true → (s.lane l).fus.run = false → exec (.domainReady t l 2) s = .next ((begin' t s).setLane l
      { s.lane l with fus := { (s.lane l).fus with curGrid := [], prevGrid := [], hasPrev := false } })) ∧
    (domOn s (domBit l + 2) = false ∨ (s.lane l).fus.run = true → exec (.domainReady t l 2) s = .next (begin' t s)) ∧
    (∀ d, 3 ≤ d → exec (.domainReady t l d) s = .next (begin' t s))) ∧
  (∀ t l s, s.up = true →
    ((s.lane l).ph = .wiping → getB s (wipeFld l) = true →
      (s.upd.wiping = false → Answers (.dramWipeComplete t l) s (fun u => (u.lane l).ph = .ready ∧ (u.lane l).health.kwordAt = t ∧
        getB u (wipeFld l) = false ∧ getB u Reg.HRI_STAT_ready l = true ∧ (kprLane u l).readyAt = some t ∧ dieHot u l = false ∧
        (modeNow s ≠ .layup → getF u Reg.LPE_STAT_run l = 1) ∧ u.kpr.role = s.kpr.role ∧ kprLane u l.other = kprLane s l.other ∧
        u.lane l.other = s.lane l.other ∧ u.cyc = s.cyc ∧ u.auth = s.auth)) ∧
      (s.upd.wiping = true → Answers (.dramWipeComplete t l) s (fun u => getB u (wipeFld l) = false ∧ OnlyRegs [Reg.PWR_STAT] s u ∧ RegsOnly t s u))) ∧
    ((s.lane l).ph ≠ .wiping ∨ getB s (wipeFld l) = false → exec (.dramWipeComplete t l) s = .next (begin' t s))) ∧
  (∀ t l s, s.up = true →
    (∀ x, (kprLane s l).offAt = some x →
      (100 * ms ≤ since t x → (kprLane s l).offForGood = false → decommissioned s = false → dieHot s l = false →
        Answers (.lanePowerRestore t l) s (fun u => (u.lane l).ph = .wiping ∧ getB u (wipeFld l) = true ∧ domOn u (domBit l) = true ∧
          admitted u l = false ∧ kprLane u l = { fpwrAt := some t, offAt := none, offForGood := false, returning := true } ∧
          kprLane u l.other = kprLane s l.other ∧ u.kpr.role = s.kpr.role ∧ u.lane l.other = s.lane l.other)) ∧
      (since t x < 100 * ms ∨ (kprLane s l).offForGood = true ∨ decommissioned s = true ∨ dieHot s l = true →
        exec (.lanePowerRestore t l) s = .next (begin' t s))) ∧
    ((kprLane s l).offAt = none → exec (.lanePowerRestore t l) s = .next (begin' t s)))

/-- An alarm of the wake controller raised with its event, and cleared (R515, R527). -/
def Sys2Proof.Machine.WakeAlarm (ev alm data : Nat) (t : Time) (s u : State) : Prop :=
  u.alarms = s.alarms ++ [(alm, 0)] ∧ u.rec' = (raiseAt t .wake alm data true false (raise .wake ev data (begin' t s))).rec'

/-- The end of an alarm of the wake controller. -/
def Sys2Proof.Machine.WakeAlarmEnds (alm data : Nat) (t : Time) (s u : State) : Prop :=
  u.alarms = s.alarms.filter (· ≠ (alm, 0)) ∧ u.rec' = (raiseAt t .wake alm data false true (begin' t s)).rec'

/-- R527: a hot plate is recorded and raised until it has cooled; a warm die warns; above its limit a lane loses its supplies, and it is powered
again once it has cooled. R515, R348: the backup input is shown, and recorded while a supply input is present; exhausted, it stops the
calendar. -/
def Sys2Proof.Machine.HeatAndBackup : Prop :=
  (∀ t c s, s.up = true →
    (s.alarms.contains (Ev.PWR_HOT, 0) = false → Answers (.plateHot t c) s (fun u =>
      u.alarms = s.alarms ++ [(Ev.PWR_HOT, 0)] ∧ u.rec' = (raiseAt t .wake Ev.PWR_HOT c.toNat true false (begin' t s)).rec' ∧
      OnlyRegs alarmKeys s u ∧ RegsAndAlarms t s u) ∧ exec (.plateCooled t c) s = .next (begin' t s)) ∧
    (s.alarms.contains (Ev.PWR_HOT, 0) = true → exec (.plateHot t c) s = .next (begin' t s) ∧ Answers (.plateCooled t c) s (fun u =>
      WakeAlarmEnds Ev.PWR_HOT c.toNat t s u ∧ OnlyRegs recKeys s u ∧ RegsAndAlarms t s u))) ∧
  (∀ t l s, LaneRuns s l → exec (.dieWarn t l) s =
    .next ((begin' t s).setLane l { s.lane l with health := { (s.lane l).health with dieWarn := true } })) ∧
  (∀ t l s, s.up = true →
    ((s.lane l).ph ≠ .off → Answers (.dieProtection t l) s (fun u => (u.lane l).ph = .off ∧ dieHot u l = true ∧
      (∀ d < 4, domOn u (domBit l + d) = false) ∧ admitted u l = admitted s l ∧ kprLane u l = { kprLane s l with readyAt := none, valid := false } ∧
      kprLane u l.other = kprLane s l.other ∧ u.kpr.role = s.kpr.role ∧ u.lane l.other = s.lane l.other)) ∧
    ((s.lane l).ph = .off → exec (.dieProtection t l) s = .next (begin' t s)) ∧
    (dieHot s l = true → (s.lane l).ph = .off → (kprLane s l).offAt = none → (kprLane s l).offForGood = false → decommissioned s = false →
      Answers (.dieCooled t l) s (fun u => (u.lane l).ph = .wiping ∧ getB u (wipeFld l) = true ∧ domOn u (domBit l) = true ∧
        (u.lane l).health = { dieWarn := false } ∧ u.lane l.other = s.lane l.other ∧ u.kpr.role = s.kpr.role)) ∧
    (dieHot s l = false ∨ (s.lane l).ph ≠ .off → exec (.dieCooled t l) s =
      .next ((begin' t s).setLane l { s.lane l with health := { (s.lane l).health with dieWarn := false } }))) ∧
  (∀ t mv s v, v = min mv 0xFFFF →
    Answers (.backupLow t mv) s (fun u => getB u Reg.PWR_STAT_bkplow = true ∧ getF u Reg.PWR_BKP_v = v ∧
      (getB s Reg.PWR_STAT_bkplow = true ∨ anySupply s = false → OnlyRegs [Reg.PWR_STAT, Reg.PWR_BKP] s u ∧ RegsOnly t s u) ∧
      (getB s Reg.PWR_STAT_bkplow = false → anySupply s = true → s.alarms.contains (Ev.PWR_BKP, 0) = false →
        WakeAlarm Ev.PWR_BKPLOW Ev.PWR_BKP v t s u) ∧
      OnlyRegs ([Reg.PWR_STAT, Reg.PWR_BKP] ++ alarmKeys) s u ∧ RegsAndAlarms t s u) ∧
    Answers (.backupRecovered t mv) s (fun u => getB u Reg.PWR_STAT_bkplow = false ∧ getF u Reg.PWR_BKP_v = v ∧
      (anySupply s = false ∨ s.alarms.contains (Ev.PWR_BKP, 0) = false → OnlyRegs [Reg.PWR_STAT, Reg.PWR_BKP] s u ∧ RegsOnly t s u) ∧
      (anySupply s = true → s.alarms.contains (Ev.PWR_BKP, 0) = true → WakeAlarmEnds Ev.PWR_BKP v t s u) ∧
      OnlyRegs ([Reg.PWR_STAT, Reg.PWR_BKP] ++ recKeys) s u ∧ RegsAndAlarms t s u)) ∧
  (∀ t s, (anySupply s = true → exec (.backupExhausted t) s = .next (begin' t s)) ∧
    (anySupply s = false → Answers (.backupExhausted t) s (fun u => u.rtc = { s.rtc with cal := 0, shifts := [], load := none, fired0 := none, fired1 := none } ∧
      getB u Reg.RTC_STATUS_oscfail = true ∧ OnlyRegs [Reg.RTC_STATUS] s u ∧ u = { begin' t s with regs := u.regs, rtc := u.rtc })))

/-- R459-R471, R489, R515, R527: power, module reset, heat and the backup input. -/
def Obligations.PowerAndResets : Prop := SuppliesStartAndStop ∧ ModuleResetByMrst ∧ LanesArePowered ∧ HeatAndBackup

/-! Life cycle and firmware images (R472-R489). -/

/-- R472, R443, R476, R477: with the wipe complete the configuration, the objects and the oscillator record are gone, the cycle set is the default
one, the recorder starts afresh with REC_LCCHG and REC_START, and the target becomes the state, entered in the log; for target Operational the
step is SEAL. In Decommissioned both lanes lose their supplies. -/
def Sys2Proof.Machine.WipeEndsTheLifeCycleChange : Prop :=
  (∀ t s new, s.up = true → s.upd.wiping = true → new = getF s Reg.UPD_LCS_target → Answers (.lifecycleWipeComplete t) s (fun u =>
    u.upd.wiping = false ∧ getF u Reg.UPD_LCS_wipe = 100 ∧ u.cfg = {} ∧ u.mbc.objs = [] ∧ u.oscRec = none ∧ u.cyc.set = CycSet.dflt ∧
    u.rec'.next = 2 ∧ u.rec'.q = 2 ∧ u.rec'.n = 1024 * getF s Reg.REC_CFG_n ∧ u.rec'.counts = [] ∧ getB u Reg.REC_STAT_split = decide (new ≠ 2) ∧
    getF u Reg.REC_SEQ_seq = 1 ∧ (0 < getF s Reg.REC_CFG_n → getF u Reg.REC_OVF_ovf = 0) ∧ (Ev.JX_CFG, 0) ∉ u.alarms ∧ (Ev.REC_FULL, 0) ∉ u.alarms ∧
    getF u Reg.REC_OPSEC_s = getF s Reg.REC_OPSEC_s ∧
    (new = 2 → getB u Reg.UPD_LCS_seal = true ∧ getF u Reg.UPD_LCS_state = getF s Reg.UPD_LCS_state ∧ getF u Reg.UPD_LCS_target = 2 ∧
      getF u Reg.UPD_LCS_chg = getF s Reg.UPD_LCS_chg ∧ u.upd.log = s.upd.log) ∧
    (new ≠ 2 → getF u Reg.UPD_LCS_state = new ∧ getB u Reg.UPD_LCS_chg = false ∧ getF u Reg.UPD_LCS_target = 0 ∧ getB u Reg.UPD_LCS_seal = false ∧
      getF u Reg.UPD_LCS_count = min (getF s Reg.UPD_LCS_count + 1) 0xFFFF ∧
      u.upd.log = ((getF s Reg.UPD_LCS_state, new, BitVec.ofNat 56 (calBytes s.rtc.cal), rdK s Reg.REC_OPSEC) :: s.upd.log).take 16) ∧
    (new = 4 → getF u Reg.PWR_STAT_dom = 0xF ∧ ∀ l, (u.lane l).ph = .off))) ∧
  (∀ t s, s.up = true → s.upd.wiping = false → exec (.lifecycleWipeComplete t) s = .next (begin' t s))

/-- A complete image that waits for its check (R480), `l`'s or the Keeper's, in slot `n`. -/
def Sys2Proof.Machine.ImageLoaded (s : State) (l : Lane) (k : Bool) (n : Nat) (x : ImgSlot) : Prop :=
  s.up = true ∧ n ≤ 1 ∧ x = imgSlot s (imgKey l k n) ∧ getF s (slotSt' k n) l = 1 ∧ x.complete = true ∧ (k = true ∨ ready s l = true)

/-- R480: a complete image is checked in order: it is VERIFIED with the version of its header, or FAILED with the code of the first check it fails. -/
def Sys2Proof.Machine.ImagesAreVerified : Prop :=
  (∀ t l k n s x, ImageLoaded s l k n x →
    (imgErr s l k (imgBytes x) = 0 → Answers (.firmwareVerified t l k n) s (fun u => getF u (slotSt' k n) l = 2 ∧
      getF u (slotMaj k n) l = leAt (imgBytes x) 13 1 ∧ getF u (slotMin k n) l = leAt (imgBytes x) 14 1 ∧
      OnlyRegs [(slotSt' k n).key l] s u ∧ u = { begin' t s with regs := u.regs, upd := { s.upd with
        slots := Sparse.set imgDef s.upd.slots (imgKey l k n) { x with mirFmt := leAt (imgBytes x) 16 2, sec := leAt (imgBytes x) 18 2 } } })) ∧
    (imgErr s l k (imgBytes x) ≠ 0 → Answers (.firmwareVerified t l k n) s (fun u => getF u (slotSt' k n) l = 5 ∧
      getF u (slotErr k n) l = imgErr s l k (imgBytes x) ∧ OnlyRegs [(slotSt' k n).key l] s u ∧ RegsOnly t s u))) ∧
  (∀ t l k n s, s.up = true → 1 < n ∨ getF s (slotSt' k n) l ≠ 1 ∨ (imgSlot s (imgKey l k n)).complete = false ∨ (k = false ∧ ready s l = false) →
    exec (.firmwareVerified t l k n) s = .next (begin' t s))

/-- R483-R486, R488: a lane with 50 good cycles confirms its image: lane 1 then waits for the role swap, lane 2 ends the sequence, or starts the
Keeper's image; in Lay-up both must confirm. -/
def Sys2Proof.Machine.LanesConfirm : Prop :=
  ∀ t l s, LaneRuns s l →
    (startOf s l = none ∨ confCount s l < 50 → exec (.healthConfirmation t l) s = .next (begin' t s)) ∧
    (∀ x step, startOf s l = some x → 50 ≤ confCount s l → runSlot s l ≤ 1 → step = getF s Reg.UPD_SEQ_step →
      Answers (.healthConfirmation t l) s (fun u => getB u (slotConf false (runSlot s l)) l = true ∧ startOf u l = none ∧
        runSlot u l = runSlot s l ∧ (step = 2 → getF u Reg.UPD_SEQ_step = 3) ∧
        (step = 6 → startOf s l.other ≠ none → getF u Reg.UPD_SEQ_step = 6 ∧ startOf u l.other = startOf s l.other ∧ u.rec' = s.rec') ∧
        (step = 4 ∨ (step = 6 ∧ startOf s l.other = none) → ∀ n, n = s.upd.newA.getD s.upd.runA →
          u.rec' = (raise .keeper Ev.UPD_DONE (getF s Reg.UPD_SEQ_kind + 2 ^ 8 * getF s (slotMaj false n) .a + 2 ^ 16 * getF s (slotMin false n) .a)
            (begin' t s)).rec' ∧
          (∀ m j, newSlot s m = some j → j ≤ 1 → getF u (slotSt' false j) m = 3) ∧ u.upd.newA = none ∧ u.upd.newB = none ∧
          (getF s Reg.UPD_SEQ_kind ≠ 2 → getF u Reg.UPD_SEQ_step = 0 ∧ u.kpr = s.kpr) ∧
          (getF s Reg.UPD_SEQ_kind = 2 → getF u Reg.UPD_SEQ_step = 7 ∧ u.kpr.up = false ∧ u.kpr.role = s.kpr.role ∧
            u.upd.runK = s.upd.newK.getD s.upd.runK ∧ u.upd.startK = some t))))

/-- R484-R489: a lane that has not confirmed within 120 s is FAILED with NOCONF and returns to its old image: in Lay-up by a dual lane reset, else by
its own reset, the sequence rolling back; the Keeper's image confirms after 10 s with every lane heard, and after 120 s without confirmation the
previous one is started. -/
def Sys2Proof.Machine.ConfirmationsTimeOut : Prop :=
  (∀ t l s, s.up = true →
    (startOf s l = none → exec (.confirmationTimeout t l) s = .next (begin' t s)) ∧
    (∀ x n step kind, startOf s l = some x → n = runSlot s l → n ≤ 1 → step = getF s Reg.UPD_SEQ_step → kind = getF s Reg.UPD_SEQ_kind →
      (since t x < 120 * sec → exec (.confirmationTimeout t l) s = .next (begin' t s)) ∧
      (120 * sec ≤ since t x → (step = 2 ∨ (step = 4 ∧ modeNow s ≠ .layup)) → (s.lane l).ph = .ready → Answers (.confirmationTimeout t l) s (fun u =>
        getF u (slotSt' false n) l = 5 ∧ getF u (slotErr false n) l = 8 ∧ getF u Reg.UPD_SEQ_step = 8 ∧ (u.lane l).ph = .wiping ∧
        runSlot u l = oldSlot (newSlot s l) n ∧ startOf u l = none ∧ u.upd.rbStep = (if step = 4 then 1 else 3) ∧
        u.rec' = (raise .keeper Ev.UPD_ROLLBACK (kind + 2 ^ 8 * step) (begin' t s)).rec' ∧ u.lane l.other = s.lane l.other ∧
        u.kpr.role = s.kpr.role)) ∧
      (120 * sec ≤ since t x → (step = 6 ∨ (step = 4 ∧ modeNow s = .layup)) → Answers (.confirmationTimeout t l) s (fun u =>
        getF u Reg.UPD_SEQ_step = 0 ∧ getF u Reg.UPD_SEQ_rb = 1 ∧ u.upd.runA = oldSlot s.upd.newA s.upd.runA ∧
        u.upd.runB = oldSlot s.upd.newB s.upd.runB ∧ getF u Reg.PWR_STAT_cause = 5 ∧ u.kpr.role = none ∧ u.now = 0#64 ∧ modeNow u = .layup ∧
        startOf u .a = none ∧ startOf u .b = none)))) ∧
  (∀ t s, s.up = true → s.upd.startK = none → exec (.keeperImageConfirm t) s = .next (begin' t s) ∧
    exec (.keeperConfirmTimeout t) s = .next (begin' t s)) ∧
  (∀ t s x n, s.up = true → s.upd.startK = some x → n = s.upd.runK → n ≤ 1 →
    (s.kpr.up = true → getF s Reg.UPD_SEQ_step = 7 → 10 * sec ≤ since t x → 10 * sec ≤ since t s.upd.kGood →
      Answers (.keeperImageConfirm t) s (fun u => getF u (slotSt' true n) = 3 ∧ getB u (slotConf true n) = true ∧ getF u Reg.UPD_SEQ_step = 0 ∧
        u.upd.startK = none ∧ u.upd.runK = n ∧ u.kpr = s.kpr ∧
        u.rec' = (raise .keeper Ev.UPD_DONE (getF s Reg.UPD_SEQ_kind + 2 ^ 8 * getF s (slotMaj true n) + 2 ^ 16 * getF s (slotMin true n))
          (begin' t s)).rec')) ∧
    (s.kpr.up = false ∨ getF s Reg.UPD_SEQ_step ≠ 7 ∨ since t x < 10 * sec ∨ since t s.upd.kGood < 10 * sec →
      exec (.keeperImageConfirm t) s = .next (begin' t s)) ∧
    (getF s Reg.UPD_SEQ_step = 7 → 120 * sec ≤ since t x → Answers (.keeperConfirmTimeout t) s (fun u => getF u (slotSt' true n) = 5 ∧
      getF u (slotErr true n) = 8 ∧ u.upd.runK = oldSlot s.upd.newK n ∧ u.upd.runA = s.upd.runA ∧ u.upd.runB = s.upd.runB ∧ u.kpr.up = true ∧
      u.kpr.role = s.kpr.role ∧ getF u Reg.UPD_SEQ_step = 0 ∧ getF u Reg.UPD_SEQ_rb = 1 ∧
      u.rec' = (raise .keeper Ev.UPD_ROLLBACK (1 + 2 ^ 8 * 7) (begin' t s)).rec')) ∧
    (getF s Reg.UPD_SEQ_step ≠ 7 ∨ since t x < 120 * sec → exec (.keeperConfirmTimeout t) s = .next (begin' t s)))

/-- R472-R489: the end of a life-cycle wipe, and the check, confirmation and rollback of firmware images. -/
def Obligations.ImagesAreConfirmed : Prop := WipeEndsTheLifeCycleChange ∧ ImagesAreVerified ∧ LanesConfirm ∧ ConfirmationsTimeOut
end

