-- ==== Sys2Proof/Laws/State.lean ====
section
/-!
SUPPORT. What the named operations leave unchanged: one lemma per operation and field of the state.
-/

namespace Sys2Proof.Machine

@[simp] theorem lane_setLane_same (s : State) (l : Lane) (v : LaneSt) : (s.setLane l v).lane l = v := by cases l <;> rfl

theorem lane_setLane_ne (s : State) {l l' : Lane} (h : l' ≠ l) (v : LaneSt) : (s.setLane l v).lane l' = s.lane l' := by
  cases l <;> cases l' <;> first | rfl | exact absurd rfl h

@[simp] theorem lane_setLane_other (s : State) (l : Lane) (v : LaneSt) : (s.setLane l v).lane l.other = s.lane l.other := by
  cases l <;> rfl

@[simp] theorem lane_onLane_same (s : State) (l : Lane) (f : LaneSt → LaneSt) : (onLane l f s).lane l = f (s.lane l) := by
  cases l <;> rfl

theorem lane_onLane_ne (s : State) {l l' : Lane} (h : l' ≠ l) (f : LaneSt → LaneSt) : (onLane l f s).lane l' = s.lane l' :=
  lane_setLane_ne s h _

@[simp] theorem begin_pending (s : State) (t : Time) : (begin' t s).pending = s.pending := rfl

@[simp] theorem begin_up (s : State) (t : Time) : (begin' t s).up = s.up := rfl

@[simp] theorem begin_regs (s : State) (t : Time) : (begin' t s).regs = s.regs := rfl

@[simp] theorem begin_la (s : State) (t : Time) : (begin' t s).la = s.la := rfl

@[simp] theorem begin_lb (s : State) (t : Time) : (begin' t s).lb = s.lb := rfl

@[simp] theorem begin_cyc (s : State) (t : Time) : (begin' t s).cyc = s.cyc := rfl

@[simp] theorem begin_slvCfg (s : State) (t : Time) : (begin' t s).slvCfg = s.slvCfg := rfl

@[simp] theorem begin_auth (s : State) (t : Time) : (begin' t s).auth = s.auth := rfl

@[simp] theorem begin_authMir (s : State) (t : Time) : (begin' t s).authMir = s.authMir := rfl

@[simp] theorem begin_waits (s : State) (t : Time) : (begin' t s).waits = s.waits := rfl

@[simp] theorem begin_tkt (s : State) (t : Time) : (begin' t s).tkt = s.tkt := rfl

@[simp] theorem begin_fresh (s : State) (t : Time) : (begin' t s).fresh = s.fresh := rfl

@[simp] theorem begin_ackVer (s : State) (t : Time) : (begin' t s).ackVer = s.ackVer := rfl

@[simp] theorem begin_dgSeq (s : State) (t : Time) : (begin' t s).dgSeq = s.dgSeq := rfl

@[simp] theorem begin_mirTx (s : State) (t : Time) : (begin' t s).mirTx = s.mirTx := rfl

@[simp] theorem begin_linkSeq (s : State) (t : Time) : (begin' t s).linkSeq = s.linkSeq := rfl

@[simp] theorem begin_cfg (s : State) (t : Time) : (begin' t s).cfg = s.cfg := rfl

@[simp] theorem begin_kpr (s : State) (t : Time) : (begin' t s).kpr = s.kpr := rfl

@[simp] theorem begin_net (s : State) (t : Time) : (begin' t s).net = s.net := rfl

@[simp] theorem begin_netPend (s : State) (t : Time) : (begin' t s).netPend = s.netPend := rfl

@[simp] theorem begin_netPort (s : State) (t : Time) : (begin' t s).netPort = s.netPort := rfl

@[simp] theorem begin_rec (s : State) (t : Time) : (begin' t s).rec' = s.rec' := rfl

@[simp] theorem begin_upd (s : State) (t : Time) : (begin' t s).upd = s.upd := rfl

@[simp] theorem begin_ptp (s : State) (t : Time) : (begin' t s).ptp = s.ptp := rfl

@[simp] theorem begin_rtc (s : State) (t : Time) : (begin' t s).rtc = s.rtc := rfl

@[simp] theorem begin_ifen (s : State) (t : Time) : (begin' t s).ifen = s.ifen := rfl
@[simp] theorem begin_mclk (s : State) (t : Time) : (begin' t s).mclk = s.mclk := rfl
@[simp] theorem begin_tpOut (s : State) (t : Time) : (begin' t s).tpOut = s.tpOut := rfl

@[simp] theorem begin_met0 (s : State) (t : Time) : (begin' t s).met0 = s.met0 := rfl

@[simp] theorem begin_met1 (s : State) (t : Time) : (begin' t s).met1 = s.met1 := rfl

@[simp] theorem begin_poOut (s : State) (t : Time) : (begin' t s).poOut = s.poOut := rfl

@[simp] theorem begin_mbc (s : State) (t : Time) : (begin' t s).mbc = s.mbc := rfl

@[simp] theorem begin_saf (s : State) (t : Time) : (begin' t s).saf = s.saf := rfl

@[simp] theorem begin_oscRec (s : State) (t : Time) : (begin' t s).oscRec = s.oscRec := rfl

@[simp] theorem begin_alarms (s : State) (t : Time) : (begin' t s).alarms = s.alarms := rfl

@[simp] theorem setLane_pending (s : State) (l : Lane) (v : LaneSt) : (s.setLane l v).pending = s.pending := by cases l <;> rfl

@[simp] theorem setLane_now (s : State) (l : Lane) (v : LaneSt) : (s.setLane l v).now = s.now := by cases l <;> rfl

@[simp] theorem setLane_out (s : State) (l : Lane) (v : LaneSt) : (s.setLane l v).out = s.out := by cases l <;> rfl

@[simp] theorem setLane_up (s : State) (l : Lane) (v : LaneSt) : (s.setLane l v).up = s.up := by cases l <;> rfl

@[simp] theorem setLane_regs (s : State) (l : Lane) (v : LaneSt) : (s.setLane l v).regs = s.regs := by cases l <;> rfl

@[simp] theorem setLane_cyc (s : State) (l : Lane) (v : LaneSt) : (s.setLane l v).cyc = s.cyc := by cases l <;> rfl

@[simp] theorem setLane_slvCfg (s : State) (l : Lane) (v : LaneSt) : (s.setLane l v).slvCfg = s.slvCfg := by cases l <;> rfl

@[simp] theorem setLane_auth (s : State) (l : Lane) (v : LaneSt) : (s.setLane l v).auth = s.auth := by cases l <;> rfl

@[simp] theorem setLane_authMir (s : State) (l : Lane) (v : LaneSt) : (s.setLane l v).authMir = s.authMir := by cases l <;> rfl

@[simp] theorem setLane_waits (s : State) (l : Lane) (v : LaneSt) : (s.setLane l v).waits = s.waits := by cases l <;> rfl

@[simp] theorem setLane_tkt (s : State) (l : Lane) (v : LaneSt) : (s.setLane l v).tkt = s.tkt := by cases l <;> rfl

@[simp] theorem setLane_fresh (s : State) (l : Lane) (v : LaneSt) : (s.setLane l v).fresh = s.fresh := by cases l <;> rfl

@[simp] theorem setLane_ackVer (s : State) (l : Lane) (v : LaneSt) : (s.setLane l v).ackVer = s.ackVer := by cases l <;> rfl

@[simp] theorem setLane_dgSeq (s : State) (l : Lane) (v : LaneSt) : (s.setLane l v).dgSeq = s.dgSeq := by cases l <;> rfl

@[simp] theorem setLane_mirTx (s : State) (l : Lane) (v : LaneSt) : (s.setLane l v).mirTx = s.mirTx := by cases l <;> rfl

@[simp] theorem setLane_linkSeq (s : State) (l : Lane) (v : LaneSt) : (s.setLane l v).linkSeq = s.linkSeq := by cases l <;> rfl

@[simp] theorem setLane_cfg (s : State) (l : Lane) (v : LaneSt) : (s.setLane l v).cfg = s.cfg := by cases l <;> rfl

@[simp] theorem setLane_kpr (s : State) (l : Lane) (v : LaneSt) : (s.setLane l v).kpr = s.kpr := by cases l <;> rfl

@[simp] theorem setLane_net (s : State) (l : Lane) (v : LaneSt) : (s.setLane l v).net = s.net := by cases l <;> rfl

@[simp] theorem setLane_netPend (s : State) (l : Lane) (v : LaneSt) : (s.setLane l v).netPend = s.netPend := by cases l <;> rfl

@[simp] theorem setLane_netPort (s : State) (l : Lane) (v : LaneSt) : (s.setLane l v).netPort = s.netPort := by cases l <;> rfl

@[simp] theorem setLane_rec (s : State) (l : Lane) (v : LaneSt) : (s.setLane l v).rec' = s.rec' := by cases l <;> rfl

@[simp] theorem setLane_upd (s : State) (l : Lane) (v : LaneSt) : (s.setLane l v).upd = s.upd := by cases l <;> rfl

@[simp] theorem setLane_ptp (s : State) (l : Lane) (v : LaneSt) : (s.setLane l v).ptp = s.ptp := by cases l <;> rfl

@[simp] theorem setLane_rtc (s : State) (l : Lane) (v : LaneSt) : (s.setLane l v).rtc = s.rtc := by cases l <;> rfl

@[simp] theorem setLane_ifen (s : State) (l : Lane) (v : LaneSt) : (s.setLane l v).ifen = s.ifen := by cases l <;> rfl
@[simp] theorem setLane_mclk (s : State) (l : Lane) (v : LaneSt) : (s.setLane l v).mclk = s.mclk := by cases l <;> rfl
@[simp] theorem setLane_tpOut (s : State) (l : Lane) (v : LaneSt) : (s.setLane l v).tpOut = s.tpOut := by cases l <;> rfl

@[simp] theorem setLane_met0 (s : State) (l : Lane) (v : LaneSt) : (s.setLane l v).met0 = s.met0 := by cases l <;> rfl

@[simp] theorem setLane_met1 (s : State) (l : Lane) (v : LaneSt) : (s.setLane l v).met1 = s.met1 := by cases l <;> rfl

@[simp] theorem setLane_poOut (s : State) (l : Lane) (v : LaneSt) : (s.setLane l v).poOut = s.poOut := by cases l <;> rfl

@[simp] theorem setLane_mbc (s : State) (l : Lane) (v : LaneSt) : (s.setLane l v).mbc = s.mbc := by cases l <;> rfl

@[simp] theorem setLane_saf (s : State) (l : Lane) (v : LaneSt) : (s.setLane l v).saf = s.saf := by cases l <;> rfl

@[simp] theorem setLane_oscRec (s : State) (l : Lane) (v : LaneSt) : (s.setLane l v).oscRec = s.oscRec := by cases l <;> rfl

@[simp] theorem setLane_alarms (s : State) (l : Lane) (v : LaneSt) : (s.setLane l v).alarms = s.alarms := by cases l <;> rfl

@[simp] theorem onLane_pending (s : State) (l : Lane) (f : LaneSt → LaneSt) : (onLane l f s).pending = s.pending := by cases l <;> rfl

@[simp] theorem onLane_now (s : State) (l : Lane) (f : LaneSt → LaneSt) : (onLane l f s).now = s.now := by cases l <;> rfl

@[simp] theorem onLane_out (s : State) (l : Lane) (f : LaneSt → LaneSt) : (onLane l f s).out = s.out := by cases l <;> rfl

@[simp] theorem onLane_up (s : State) (l : Lane) (f : LaneSt → LaneSt) : (onLane l f s).up = s.up := by cases l <;> rfl

@[simp] theorem onLane_regs (s : State) (l : Lane) (f : LaneSt → LaneSt) : (onLane l f s).regs = s.regs := by cases l <;> rfl

@[simp] theorem onLane_cyc (s : State) (l : Lane) (f : LaneSt → LaneSt) : (onLane l f s).cyc = s.cyc := by cases l <;> rfl

@[simp] theorem onLane_slvCfg (s : State) (l : Lane) (f : LaneSt → LaneSt) : (onLane l f s).slvCfg = s.slvCfg := by cases l <;> rfl

@[simp] theorem onLane_auth (s : State) (l : Lane) (f : LaneSt → LaneSt) : (onLane l f s).auth = s.auth := by cases l <;> rfl

@[simp] theorem onLane_authMir (s : State) (l : Lane) (f : LaneSt → LaneSt) : (onLane l f s).authMir = s.authMir := by cases l <;> rfl

@[simp] theorem onLane_waits (s : State) (l : Lane) (f : LaneSt → LaneSt) : (onLane l f s).waits = s.waits := by cases l <;> rfl

@[simp] theorem onLane_tkt (s : State) (l : Lane) (f : LaneSt → LaneSt) : (onLane l f s).tkt = s.tkt := by cases l <;> rfl

@[simp] theorem onLane_fresh (s : State) (l : Lane) (f : LaneSt → LaneSt) : (onLane l f s).fresh = s.fresh := by cases l <;> rfl

@[simp] theorem onLane_ackVer (s : State) (l : Lane) (f : LaneSt → LaneSt) : (onLane l f s).ackVer = s.ackVer := by cases l <;> rfl

@[simp] theorem onLane_dgSeq (s : State) (l : Lane) (f : LaneSt → LaneSt) : (onLane l f s).dgSeq = s.dgSeq := by cases l <;> rfl

@[simp] theorem onLane_mirTx (s : State) (l : Lane) (f : LaneSt → LaneSt) : (onLane l f s).mirTx = s.mirTx := by cases l <;> rfl

@[simp] theorem onLane_linkSeq (s : State) (l : Lane) (f : LaneSt → LaneSt) : (onLane l f s).linkSeq = s.linkSeq := by cases l <;> rfl

@[simp] theorem onLane_cfg (s : State) (l : Lane) (f : LaneSt → LaneSt) : (onLane l f s).cfg = s.cfg := by cases l <;> rfl

@[simp] theorem onLane_kpr (s : State) (l : Lane) (f : LaneSt → LaneSt) : (onLane l f s).kpr = s.kpr := by cases l <;> rfl

@[simp] theorem onLane_net (s : State) (l : Lane) (f : LaneSt → LaneSt) : (onLane l f s).net = s.net := by cases l <;> rfl

@[simp] theorem onLane_netPend (s : State) (l : Lane) (f : LaneSt → LaneSt) : (onLane l f s).netPend = s.netPend := by cases l <;> rfl

@[simp] theorem onLane_netPort (s : State) (l : Lane) (f : LaneSt → LaneSt) : (onLane l f s).netPort = s.netPort := by cases l <;> rfl

@[simp] theorem onLane_rec (s : State) (l : Lane) (f : LaneSt → LaneSt) : (onLane l f s).rec' = s.rec' := by cases l <;> rfl

@[simp] theorem onLane_upd (s : State) (l : Lane) (f : LaneSt → LaneSt) : (onLane l f s).upd = s.upd := by cases l <;> rfl

@[simp] theorem onLane_ptp (s : State) (l : Lane) (f : LaneSt → LaneSt) : (onLane l f s).ptp = s.ptp := by cases l <;> rfl

@[simp] theorem onLane_rtc (s : State) (l : Lane) (f : LaneSt → LaneSt) : (onLane l f s).rtc = s.rtc := by cases l <;> rfl

@[simp] theorem onLane_ifen (s : State) (l : Lane) (f : LaneSt → LaneSt) : (onLane l f s).ifen = s.ifen := by cases l <;> rfl
@[simp] theorem onLane_mclk (s : State) (l : Lane) (f : LaneSt → LaneSt) : (onLane l f s).mclk = s.mclk := by cases l <;> rfl
@[simp] theorem onLane_tpOut (s : State) (l : Lane) (f : LaneSt → LaneSt) : (onLane l f s).tpOut = s.tpOut := by cases l <;> rfl

@[simp] theorem onLane_met0 (s : State) (l : Lane) (f : LaneSt → LaneSt) : (onLane l f s).met0 = s.met0 := by cases l <;> rfl

@[simp] theorem onLane_met1 (s : State) (l : Lane) (f : LaneSt → LaneSt) : (onLane l f s).met1 = s.met1 := by cases l <;> rfl

@[simp] theorem onLane_poOut (s : State) (l : Lane) (f : LaneSt → LaneSt) : (onLane l f s).poOut = s.poOut := by cases l <;> rfl

@[simp] theorem onLane_mbc (s : State) (l : Lane) (f : LaneSt → LaneSt) : (onLane l f s).mbc = s.mbc := by cases l <;> rfl

@[simp] theorem onLane_saf (s : State) (l : Lane) (f : LaneSt → LaneSt) : (onLane l f s).saf = s.saf := by cases l <;> rfl

@[simp] theorem onLane_oscRec (s : State) (l : Lane) (f : LaneSt → LaneSt) : (onLane l f s).oscRec = s.oscRec := by cases l <;> rfl

@[simp] theorem onLane_alarms (s : State) (l : Lane) (f : LaneSt → LaneSt) : (onLane l f s).alarms = s.alarms := by cases l <;> rfl

@[simp] theorem wrK_pending (s : State) (k : Nat) (v : Word) : (wrK k v s).pending = s.pending := rfl

@[simp] theorem wrK_now (s : State) (k : Nat) (v : Word) : (wrK k v s).now = s.now := rfl

@[simp] theorem wrK_out (s : State) (k : Nat) (v : Word) : (wrK k v s).out = s.out := rfl

@[simp] theorem wrK_up (s : State) (k : Nat) (v : Word) : (wrK k v s).up = s.up := rfl

@[simp] theorem wrK_la (s : State) (k : Nat) (v : Word) : (wrK k v s).la = s.la := rfl

@[simp] theorem wrK_lb (s : State) (k : Nat) (v : Word) : (wrK k v s).lb = s.lb := rfl

@[simp] theorem wrK_cyc (s : State) (k : Nat) (v : Word) : (wrK k v s).cyc = s.cyc := rfl

@[simp] theorem wrK_slvCfg (s : State) (k : Nat) (v : Word) : (wrK k v s).slvCfg = s.slvCfg := rfl

@[simp] theorem wrK_auth (s : State) (k : Nat) (v : Word) : (wrK k v s).auth = s.auth := rfl

@[simp] theorem wrK_authMir (s : State) (k : Nat) (v : Word) : (wrK k v s).authMir = s.authMir := rfl

@[simp] theorem wrK_waits (s : State) (k : Nat) (v : Word) : (wrK k v s).waits = s.waits := rfl

@[simp] theorem wrK_tkt (s : State) (k : Nat) (v : Word) : (wrK k v s).tkt = s.tkt := rfl

@[simp] theorem wrK_fresh (s : State) (k : Nat) (v : Word) : (wrK k v s).fresh = s.fresh := rfl

@[simp] theorem wrK_ackVer (s : State) (k : Nat) (v : Word) : (wrK k v s).ackVer = s.ackVer := rfl

@[simp] theorem wrK_dgSeq (s : State) (k : Nat) (v : Word) : (wrK k v s).dgSeq = s.dgSeq := rfl

@[simp] theorem wrK_mirTx (s : State) (k : Nat) (v : Word) : (wrK k v s).mirTx = s.mirTx := rfl

@[simp] theorem wrK_linkSeq (s : State) (k : Nat) (v : Word) : (wrK k v s).linkSeq = s.linkSeq := rfl

@[simp] theorem wrK_cfg (s : State) (k : Nat) (v : Word) : (wrK k v s).cfg = s.cfg := rfl

@[simp] theorem wrK_kpr (s : State) (k : Nat) (v : Word) : (wrK k v s).kpr = s.kpr := rfl

@[simp] theorem wrK_net (s : State) (k : Nat) (v : Word) : (wrK k v s).net = s.net := rfl

@[simp] theorem wrK_netPend (s : State) (k : Nat) (v : Word) : (wrK k v s).netPend = s.netPend := rfl

@[simp] theorem wrK_netPort (s : State) (k : Nat) (v : Word) : (wrK k v s).netPort = s.netPort := rfl

@[simp] theorem wrK_rec (s : State) (k : Nat) (v : Word) : (wrK k v s).rec' = s.rec' := rfl

@[simp] theorem wrK_upd (s : State) (k : Nat) (v : Word) : (wrK k v s).upd = s.upd := rfl

@[simp] theorem wrK_ptp (s : State) (k : Nat) (v : Word) : (wrK k v s).ptp = s.ptp := rfl

@[simp] theorem wrK_rtc (s : State) (k : Nat) (v : Word) : (wrK k v s).rtc = s.rtc := rfl

@[simp] theorem wrK_ifen (s : State) (k : Nat) (v : Word) : (wrK k v s).ifen = s.ifen := rfl
@[simp] theorem wrK_mclk (s : State) (k : Nat) (v : Word) : (wrK k v s).mclk = s.mclk := rfl
@[simp] theorem wrK_tpOut (s : State) (k : Nat) (v : Word) : (wrK k v s).tpOut = s.tpOut := rfl

@[simp] theorem wrK_met0 (s : State) (k : Nat) (v : Word) : (wrK k v s).met0 = s.met0 := rfl

@[simp] theorem wrK_met1 (s : State) (k : Nat) (v : Word) : (wrK k v s).met1 = s.met1 := rfl

@[simp] theorem wrK_poOut (s : State) (k : Nat) (v : Word) : (wrK k v s).poOut = s.poOut := rfl

@[simp] theorem wrK_mbc (s : State) (k : Nat) (v : Word) : (wrK k v s).mbc = s.mbc := rfl

@[simp] theorem wrK_saf (s : State) (k : Nat) (v : Word) : (wrK k v s).saf = s.saf := rfl

@[simp] theorem wrK_oscRec (s : State) (k : Nat) (v : Word) : (wrK k v s).oscRec = s.oscRec := rfl

@[simp] theorem wrK_alarms (s : State) (k : Nat) (v : Word) : (wrK k v s).alarms = s.alarms := rfl

@[simp] theorem setF_pending (s : State) (f : Fld) (x : Nat) (l : Lane) : (setF f x l s).pending = s.pending := rfl

@[simp] theorem setF_now (s : State) (f : Fld) (x : Nat) (l : Lane) : (setF f x l s).now = s.now := rfl

@[simp] theorem setF_out (s : State) (f : Fld) (x : Nat) (l : Lane) : (setF f x l s).out = s.out := rfl

@[simp] theorem setF_up (s : State) (f : Fld) (x : Nat) (l : Lane) : (setF f x l s).up = s.up := rfl

@[simp] theorem setF_la (s : State) (f : Fld) (x : Nat) (l : Lane) : (setF f x l s).la = s.la := rfl

@[simp] theorem setF_lb (s : State) (f : Fld) (x : Nat) (l : Lane) : (setF f x l s).lb = s.lb := rfl

@[simp] theorem setF_cyc (s : State) (f : Fld) (x : Nat) (l : Lane) : (setF f x l s).cyc = s.cyc := rfl

@[simp] theorem setF_slvCfg (s : State) (f : Fld) (x : Nat) (l : Lane) : (setF f x l s).slvCfg = s.slvCfg := rfl

@[simp] theorem setF_auth (s : State) (f : Fld) (x : Nat) (l : Lane) : (setF f x l s).auth = s.auth := rfl

@[simp] theorem setF_authMir (s : State) (f : Fld) (x : Nat) (l : Lane) : (setF f x l s).authMir = s.authMir := rfl

@[simp] theorem setF_waits (s : State) (f : Fld) (x : Nat) (l : Lane) : (setF f x l s).waits = s.waits := rfl

@[simp] theorem setF_tkt (s : State) (f : Fld) (x : Nat) (l : Lane) : (setF f x l s).tkt = s.tkt := rfl

@[simp] theorem setF_fresh (s : State) (f : Fld) (x : Nat) (l : Lane) : (setF f x l s).fresh = s.fresh := rfl

@[simp] theorem setF_ackVer (s : State) (f : Fld) (x : Nat) (l : Lane) : (setF f x l s).ackVer = s.ackVer := rfl

@[simp] theorem setF_dgSeq (s : State) (f : Fld) (x : Nat) (l : Lane) : (setF f x l s).dgSeq = s.dgSeq := rfl

@[simp] theorem setF_mirTx (s : State) (f : Fld) (x : Nat) (l : Lane) : (setF f x l s).mirTx = s.mirTx := rfl

@[simp] theorem setF_linkSeq (s : State) (f : Fld) (x : Nat) (l : Lane) : (setF f x l s).linkSeq = s.linkSeq := rfl

@[simp] theorem setF_cfg (s : State) (f : Fld) (x : Nat) (l : Lane) : (setF f x l s).cfg = s.cfg := rfl

@[simp] theorem setF_kpr (s : State) (f : Fld) (x : Nat) (l : Lane) : (setF f x l s).kpr = s.kpr := rfl

@[simp] theorem setF_net (s : State) (f : Fld) (x : Nat) (l : Lane) : (setF f x l s).net = s.net := rfl

@[simp] theorem setF_netPend (s : State) (f : Fld) (x : Nat) (l : Lane) : (setF f x l s).netPend = s.netPend := rfl

@[simp] theorem setF_netPort (s : State) (f : Fld) (x : Nat) (l : Lane) : (setF f x l s).netPort = s.netPort := rfl

@[simp] theorem setF_rec (s : State) (f : Fld) (x : Nat) (l : Lane) : (setF f x l s).rec' = s.rec' := rfl

@[simp] theorem setF_upd (s : State) (f : Fld) (x : Nat) (l : Lane) : (setF f x l s).upd = s.upd := rfl

@[simp] theorem setF_ptp (s : State) (f : Fld) (x : Nat) (l : Lane) : (setF f x l s).ptp = s.ptp := rfl

@[simp] theorem setF_rtc (s : State) (f : Fld) (x : Nat) (l : Lane) : (setF f x l s).rtc = s.rtc := rfl

@[simp] theorem setF_ifen (s : State) (f : Fld) (x : Nat) (l : Lane) : (setF f x l s).ifen = s.ifen := rfl
@[simp] theorem setF_mclk (s : State) (f : Fld) (x : Nat) (l : Lane) : (setF f x l s).mclk = s.mclk := rfl
@[simp] theorem setF_tpOut (s : State) (f : Fld) (x : Nat) (l : Lane) : (setF f x l s).tpOut = s.tpOut := rfl

@[simp] theorem setF_met0 (s : State) (f : Fld) (x : Nat) (l : Lane) : (setF f x l s).met0 = s.met0 := rfl

@[simp] theorem setF_met1 (s : State) (f : Fld) (x : Nat) (l : Lane) : (setF f x l s).met1 = s.met1 := rfl

@[simp] theorem setF_poOut (s : State) (f : Fld) (x : Nat) (l : Lane) : (setF f x l s).poOut = s.poOut := rfl

@[simp] theorem setF_mbc (s : State) (f : Fld) (x : Nat) (l : Lane) : (setF f x l s).mbc = s.mbc := rfl

@[simp] theorem setF_saf (s : State) (f : Fld) (x : Nat) (l : Lane) : (setF f x l s).saf = s.saf := rfl

@[simp] theorem setF_oscRec (s : State) (f : Fld) (x : Nat) (l : Lane) : (setF f x l s).oscRec = s.oscRec := rfl

@[simp] theorem setF_alarms (s : State) (f : Fld) (x : Nat) (l : Lane) : (setF f x l s).alarms = s.alarms := rfl

@[simp] theorem setB_pending (s : State) (f : Fld) (x : Bool) (l : Lane) : (setB f x l s).pending = s.pending := rfl

@[simp] theorem setB_now (s : State) (f : Fld) (x : Bool) (l : Lane) : (setB f x l s).now = s.now := rfl

@[simp] theorem setB_out (s : State) (f : Fld) (x : Bool) (l : Lane) : (setB f x l s).out = s.out := rfl

@[simp] theorem setB_up (s : State) (f : Fld) (x : Bool) (l : Lane) : (setB f x l s).up = s.up := rfl

@[simp] theorem setB_la (s : State) (f : Fld) (x : Bool) (l : Lane) : (setB f x l s).la = s.la := rfl

@[simp] theorem setB_lb (s : State) (f : Fld) (x : Bool) (l : Lane) : (setB f x l s).lb = s.lb := rfl

@[simp] theorem setB_cyc (s : State) (f : Fld) (x : Bool) (l : Lane) : (setB f x l s).cyc = s.cyc := rfl

@[simp] theorem setB_slvCfg (s : State) (f : Fld) (x : Bool) (l : Lane) : (setB f x l s).slvCfg = s.slvCfg := rfl

@[simp] theorem setB_auth (s : State) (f : Fld) (x : Bool) (l : Lane) : (setB f x l s).auth = s.auth := rfl

@[simp] theorem setB_authMir (s : State) (f : Fld) (x : Bool) (l : Lane) : (setB f x l s).authMir = s.authMir := rfl

@[simp] theorem setB_waits (s : State) (f : Fld) (x : Bool) (l : Lane) : (setB f x l s).waits = s.waits := rfl

@[simp] theorem setB_tkt (s : State) (f : Fld) (x : Bool) (l : Lane) : (setB f x l s).tkt = s.tkt := rfl

@[simp] theorem setB_fresh (s : State) (f : Fld) (x : Bool) (l : Lane) : (setB f x l s).fresh = s.fresh := rfl

@[simp] theorem setB_ackVer (s : State) (f : Fld) (x : Bool) (l : Lane) : (setB f x l s).ackVer = s.ackVer := rfl

@[simp] theorem setB_dgSeq (s : State) (f : Fld) (x : Bool) (l : Lane) : (setB f x l s).dgSeq = s.dgSeq := rfl

@[simp] theorem setB_mirTx (s : State) (f : Fld) (x : Bool) (l : Lane) : (setB f x l s).mirTx = s.mirTx := rfl

@[simp] theorem setB_linkSeq (s : State) (f : Fld) (x : Bool) (l : Lane) : (setB f x l s).linkSeq = s.linkSeq := rfl

@[simp] theorem setB_cfg (s : State) (f : Fld) (x : Bool) (l : Lane) : (setB f x l s).cfg = s.cfg := rfl

@[simp] theorem setB_kpr (s : State) (f : Fld) (x : Bool) (l : Lane) : (setB f x l s).kpr = s.kpr := rfl

@[simp] theorem setB_net (s : State) (f : Fld) (x : Bool) (l : Lane) : (setB f x l s).net = s.net := rfl

@[simp] theorem setB_netPend (s : State) (f : Fld) (x : Bool) (l : Lane) : (setB f x l s).netPend = s.netPend := rfl

@[simp] theorem setB_netPort (s : State) (f : Fld) (x : Bool) (l : Lane) : (setB f x l s).netPort = s.netPort := rfl

@[simp] theorem setB_rec (s : State) (f : Fld) (x : Bool) (l : Lane) : (setB f x l s).rec' = s.rec' := rfl

@[simp] theorem setB_upd (s : State) (f : Fld) (x : Bool) (l : Lane) : (setB f x l s).upd = s.upd := rfl

@[simp] theorem setB_ptp (s : State) (f : Fld) (x : Bool) (l : Lane) : (setB f x l s).ptp = s.ptp := rfl

@[simp] theorem setB_rtc (s : State) (f : Fld) (x : Bool) (l : Lane) : (setB f x l s).rtc = s.rtc := rfl

@[simp] theorem setB_ifen (s : State) (f : Fld) (x : Bool) (l : Lane) : (setB f x l s).ifen = s.ifen := rfl
@[simp] theorem setB_mclk (s : State) (f : Fld) (x : Bool) (l : Lane) : (setB f x l s).mclk = s.mclk := rfl
@[simp] theorem setB_tpOut (s : State) (f : Fld) (x : Bool) (l : Lane) : (setB f x l s).tpOut = s.tpOut := rfl

@[simp] theorem setB_met0 (s : State) (f : Fld) (x : Bool) (l : Lane) : (setB f x l s).met0 = s.met0 := rfl

@[simp] theorem setB_met1 (s : State) (f : Fld) (x : Bool) (l : Lane) : (setB f x l s).met1 = s.met1 := rfl

@[simp] theorem setB_poOut (s : State) (f : Fld) (x : Bool) (l : Lane) : (setB f x l s).poOut = s.poOut := rfl

@[simp] theorem setB_mbc (s : State) (f : Fld) (x : Bool) (l : Lane) : (setB f x l s).mbc = s.mbc := rfl

@[simp] theorem setB_saf (s : State) (f : Fld) (x : Bool) (l : Lane) : (setB f x l s).saf = s.saf := rfl

@[simp] theorem setB_oscRec (s : State) (f : Fld) (x : Bool) (l : Lane) : (setB f x l s).oscRec = s.oscRec := rfl

@[simp] theorem setB_alarms (s : State) (f : Fld) (x : Bool) (l : Lane) : (setB f x l s).alarms = s.alarms := rfl

@[simp] theorem incF_pending (s : State) (f : Fld) (l : Lane) (n : Nat) : (incF f l s n).pending = s.pending := rfl

@[simp] theorem incF_now (s : State) (f : Fld) (l : Lane) (n : Nat) : (incF f l s n).now = s.now := rfl

@[simp] theorem incF_out (s : State) (f : Fld) (l : Lane) (n : Nat) : (incF f l s n).out = s.out := rfl

@[simp] theorem incF_up (s : State) (f : Fld) (l : Lane) (n : Nat) : (incF f l s n).up = s.up := rfl

@[simp] theorem incF_la (s : State) (f : Fld) (l : Lane) (n : Nat) : (incF f l s n).la = s.la := rfl

@[simp] theorem incF_lb (s : State) (f : Fld) (l : Lane) (n : Nat) : (incF f l s n).lb = s.lb := rfl

@[simp] theorem incF_cyc (s : State) (f : Fld) (l : Lane) (n : Nat) : (incF f l s n).cyc = s.cyc := rfl

@[simp] theorem incF_slvCfg (s : State) (f : Fld) (l : Lane) (n : Nat) : (incF f l s n).slvCfg = s.slvCfg := rfl

@[simp] theorem incF_auth (s : State) (f : Fld) (l : Lane) (n : Nat) : (incF f l s n).auth = s.auth := rfl

@[simp] theorem incF_authMir (s : State) (f : Fld) (l : Lane) (n : Nat) : (incF f l s n).authMir = s.authMir := rfl

@[simp] theorem incF_waits (s : State) (f : Fld) (l : Lane) (n : Nat) : (incF f l s n).waits = s.waits := rfl

@[simp] theorem incF_tkt (s : State) (f : Fld) (l : Lane) (n : Nat) : (incF f l s n).tkt = s.tkt := rfl

@[simp] theorem incF_fresh (s : State) (f : Fld) (l : Lane) (n : Nat) : (incF f l s n).fresh = s.fresh := rfl

@[simp] theorem incF_ackVer (s : State) (f : Fld) (l : Lane) (n : Nat) : (incF f l s n).ackVer = s.ackVer := rfl

@[simp] theorem incF_dgSeq (s : State) (f : Fld) (l : Lane) (n : Nat) : (incF f l s n).dgSeq = s.dgSeq := rfl

@[simp] theorem incF_mirTx (s : State) (f : Fld) (l : Lane) (n : Nat) : (incF f l s n).mirTx = s.mirTx := rfl

@[simp] theorem incF_linkSeq (s : State) (f : Fld) (l : Lane) (n : Nat) : (incF f l s n).linkSeq = s.linkSeq := rfl

@[simp] theorem incF_cfg (s : State) (f : Fld) (l : Lane) (n : Nat) : (incF f l s n).cfg = s.cfg := rfl

@[simp] theorem incF_kpr (s : State) (f : Fld) (l : Lane) (n : Nat) : (incF f l s n).kpr = s.kpr := rfl

@[simp] theorem incF_net (s : State) (f : Fld) (l : Lane) (n : Nat) : (incF f l s n).net = s.net := rfl

@[simp] theorem incF_netPend (s : State) (f : Fld) (l : Lane) (n : Nat) : (incF f l s n).netPend = s.netPend := rfl

@[simp] theorem incF_netPort (s : State) (f : Fld) (l : Lane) (n : Nat) : (incF f l s n).netPort = s.netPort := rfl

@[simp] theorem incF_rec (s : State) (f : Fld) (l : Lane) (n : Nat) : (incF f l s n).rec' = s.rec' := rfl

@[simp] theorem incF_upd (s : State) (f : Fld) (l : Lane) (n : Nat) : (incF f l s n).upd = s.upd := rfl

@[simp] theorem incF_ptp (s : State) (f : Fld) (l : Lane) (n : Nat) : (incF f l s n).ptp = s.ptp := rfl

@[simp] theorem incF_rtc (s : State) (f : Fld) (l : Lane) (n : Nat) : (incF f l s n).rtc = s.rtc := rfl

@[simp] theorem incF_ifen (s : State) (f : Fld) (l : Lane) (n : Nat) : (incF f l s n).ifen = s.ifen := rfl
@[simp] theorem incF_mclk (s : State) (f : Fld) (l : Lane) (n : Nat) : (incF f l s n).mclk = s.mclk := rfl
@[simp] theorem incF_tpOut (s : State) (f : Fld) (l : Lane) (n : Nat) : (incF f l s n).tpOut = s.tpOut := rfl

@[simp] theorem incF_met0 (s : State) (f : Fld) (l : Lane) (n : Nat) : (incF f l s n).met0 = s.met0 := rfl

@[simp] theorem incF_met1 (s : State) (f : Fld) (l : Lane) (n : Nat) : (incF f l s n).met1 = s.met1 := rfl

@[simp] theorem incF_poOut (s : State) (f : Fld) (l : Lane) (n : Nat) : (incF f l s n).poOut = s.poOut := rfl

@[simp] theorem incF_mbc (s : State) (f : Fld) (l : Lane) (n : Nat) : (incF f l s n).mbc = s.mbc := rfl

@[simp] theorem incF_saf (s : State) (f : Fld) (l : Lane) (n : Nat) : (incF f l s n).saf = s.saf := rfl

@[simp] theorem incF_oscRec (s : State) (f : Fld) (l : Lane) (n : Nat) : (incF f l s n).oscRec = s.oscRec := rfl

@[simp] theorem incF_alarms (s : State) (f : Fld) (l : Lane) (n : Nat) : (incF f l s n).alarms = s.alarms := rfl

@[simp] theorem wrapF_pending (s : State) (f : Fld) (l : Lane) : (wrapF f l s).pending = s.pending := rfl

@[simp] theorem wrapF_now (s : State) (f : Fld) (l : Lane) : (wrapF f l s).now = s.now := rfl

@[simp] theorem wrapF_out (s : State) (f : Fld) (l : Lane) : (wrapF f l s).out = s.out := rfl

@[simp] theorem wrapF_up (s : State) (f : Fld) (l : Lane) : (wrapF f l s).up = s.up := rfl

@[simp] theorem wrapF_la (s : State) (f : Fld) (l : Lane) : (wrapF f l s).la = s.la := rfl

@[simp] theorem wrapF_lb (s : State) (f : Fld) (l : Lane) : (wrapF f l s).lb = s.lb := rfl

@[simp] theorem wrapF_cyc (s : State) (f : Fld) (l : Lane) : (wrapF f l s).cyc = s.cyc := rfl

@[simp] theorem wrapF_slvCfg (s : State) (f : Fld) (l : Lane) : (wrapF f l s).slvCfg = s.slvCfg := rfl

@[simp] theorem wrapF_auth (s : State) (f : Fld) (l : Lane) : (wrapF f l s).auth = s.auth := rfl

@[simp] theorem wrapF_authMir (s : State) (f : Fld) (l : Lane) : (wrapF f l s).authMir = s.authMir := rfl

@[simp] theorem wrapF_waits (s : State) (f : Fld) (l : Lane) : (wrapF f l s).waits = s.waits := rfl

@[simp] theorem wrapF_tkt (s : State) (f : Fld) (l : Lane) : (wrapF f l s).tkt = s.tkt := rfl

@[simp] theorem wrapF_fresh (s : State) (f : Fld) (l : Lane) : (wrapF f l s).fresh = s.fresh := rfl

@[simp] theorem wrapF_ackVer (s : State) (f : Fld) (l : Lane) : (wrapF f l s).ackVer = s.ackVer := rfl

@[simp] theorem wrapF_dgSeq (s : State) (f : Fld) (l : Lane) : (wrapF f l s).dgSeq = s.dgSeq := rfl

@[simp] theorem wrapF_mirTx (s : State) (f : Fld) (l : Lane) : (wrapF f l s).mirTx = s.mirTx := rfl

@[simp] theorem wrapF_linkSeq (s : State) (f : Fld) (l : Lane) : (wrapF f l s).linkSeq = s.linkSeq := rfl

@[simp] theorem wrapF_cfg (s : State) (f : Fld) (l : Lane) : (wrapF f l s).cfg = s.cfg := rfl

@[simp] theorem wrapF_kpr (s : State) (f : Fld) (l : Lane) : (wrapF f l s).kpr = s.kpr := rfl

@[simp] theorem wrapF_net (s : State) (f : Fld) (l : Lane) : (wrapF f l s).net = s.net := rfl

@[simp] theorem wrapF_netPend (s : State) (f : Fld) (l : Lane) : (wrapF f l s).netPend = s.netPend := rfl

@[simp] theorem wrapF_netPort (s : State) (f : Fld) (l : Lane) : (wrapF f l s).netPort = s.netPort := rfl

@[simp] theorem wrapF_rec (s : State) (f : Fld) (l : Lane) : (wrapF f l s).rec' = s.rec' := rfl

@[simp] theorem wrapF_upd (s : State) (f : Fld) (l : Lane) : (wrapF f l s).upd = s.upd := rfl

@[simp] theorem wrapF_ptp (s : State) (f : Fld) (l : Lane) : (wrapF f l s).ptp = s.ptp := rfl

@[simp] theorem wrapF_rtc (s : State) (f : Fld) (l : Lane) : (wrapF f l s).rtc = s.rtc := rfl

@[simp] theorem wrapF_ifen (s : State) (f : Fld) (l : Lane) : (wrapF f l s).ifen = s.ifen := rfl
@[simp] theorem wrapF_mclk (s : State) (f : Fld) (l : Lane) : (wrapF f l s).mclk = s.mclk := rfl
@[simp] theorem wrapF_tpOut (s : State) (f : Fld) (l : Lane) : (wrapF f l s).tpOut = s.tpOut := rfl

@[simp] theorem wrapF_met0 (s : State) (f : Fld) (l : Lane) : (wrapF f l s).met0 = s.met0 := rfl

@[simp] theorem wrapF_met1 (s : State) (f : Fld) (l : Lane) : (wrapF f l s).met1 = s.met1 := rfl

@[simp] theorem wrapF_poOut (s : State) (f : Fld) (l : Lane) : (wrapF f l s).poOut = s.poOut := rfl

@[simp] theorem wrapF_mbc (s : State) (f : Fld) (l : Lane) : (wrapF f l s).mbc = s.mbc := rfl

@[simp] theorem wrapF_saf (s : State) (f : Fld) (l : Lane) : (wrapF f l s).saf = s.saf := rfl

@[simp] theorem wrapF_oscRec (s : State) (f : Fld) (l : Lane) : (wrapF f l s).oscRec = s.oscRec := rfl

@[simp] theorem wrapF_alarms (s : State) (f : Fld) (l : Lane) : (wrapF f l s).alarms = s.alarms := rfl

@[simp] theorem setF2_pending (s : State) (f : Fld) (x : Nat) : (setF2 f x s).pending = s.pending := rfl

@[simp] theorem setF2_now (s : State) (f : Fld) (x : Nat) : (setF2 f x s).now = s.now := rfl

@[simp] theorem setF2_out (s : State) (f : Fld) (x : Nat) : (setF2 f x s).out = s.out := rfl

@[simp] theorem setF2_up (s : State) (f : Fld) (x : Nat) : (setF2 f x s).up = s.up := rfl

@[simp] theorem setF2_la (s : State) (f : Fld) (x : Nat) : (setF2 f x s).la = s.la := rfl

@[simp] theorem setF2_lb (s : State) (f : Fld) (x : Nat) : (setF2 f x s).lb = s.lb := rfl

@[simp] theorem setF2_cyc (s : State) (f : Fld) (x : Nat) : (setF2 f x s).cyc = s.cyc := rfl

@[simp] theorem setF2_slvCfg (s : State) (f : Fld) (x : Nat) : (setF2 f x s).slvCfg = s.slvCfg := rfl

@[simp] theorem setF2_auth (s : State) (f : Fld) (x : Nat) : (setF2 f x s).auth = s.auth := rfl

@[simp] theorem setF2_authMir (s : State) (f : Fld) (x : Nat) : (setF2 f x s).authMir = s.authMir := rfl

@[simp] theorem setF2_waits (s : State) (f : Fld) (x : Nat) : (setF2 f x s).waits = s.waits := rfl

@[simp] theorem setF2_tkt (s : State) (f : Fld) (x : Nat) : (setF2 f x s).tkt = s.tkt := rfl

@[simp] theorem setF2_fresh (s : State) (f : Fld) (x : Nat) : (setF2 f x s).fresh = s.fresh := rfl

@[simp] theorem setF2_ackVer (s : State) (f : Fld) (x : Nat) : (setF2 f x s).ackVer = s.ackVer := rfl

@[simp] theorem setF2_dgSeq (s : State) (f : Fld) (x : Nat) : (setF2 f x s).dgSeq = s.dgSeq := rfl

@[simp] theorem setF2_mirTx (s : State) (f : Fld) (x : Nat) : (setF2 f x s).mirTx = s.mirTx := rfl

@[simp] theorem setF2_linkSeq (s : State) (f : Fld) (x : Nat) : (setF2 f x s).linkSeq = s.linkSeq := rfl

@[simp] theorem setF2_cfg (s : State) (f : Fld) (x : Nat) : (setF2 f x s).cfg = s.cfg := rfl

@[simp] theorem setF2_kpr (s : State) (f : Fld) (x : Nat) : (setF2 f x s).kpr = s.kpr := rfl

@[simp] theorem setF2_net (s : State) (f : Fld) (x : Nat) : (setF2 f x s).net = s.net := rfl

@[simp] theorem setF2_netPend (s : State) (f : Fld) (x : Nat) : (setF2 f x s).netPend = s.netPend := rfl

@[simp] theorem setF2_netPort (s : State) (f : Fld) (x : Nat) : (setF2 f x s).netPort = s.netPort := rfl

@[simp] theorem setF2_rec (s : State) (f : Fld) (x : Nat) : (setF2 f x s).rec' = s.rec' := rfl

@[simp] theorem setF2_upd (s : State) (f : Fld) (x : Nat) : (setF2 f x s).upd = s.upd := rfl

@[simp] theorem setF2_ptp (s : State) (f : Fld) (x : Nat) : (setF2 f x s).ptp = s.ptp := rfl

@[simp] theorem setF2_rtc (s : State) (f : Fld) (x : Nat) : (setF2 f x s).rtc = s.rtc := rfl

@[simp] theorem setF2_ifen (s : State) (f : Fld) (x : Nat) : (setF2 f x s).ifen = s.ifen := rfl
@[simp] theorem setF2_mclk (s : State) (f : Fld) (x : Nat) : (setF2 f x s).mclk = s.mclk := rfl
@[simp] theorem setF2_tpOut (s : State) (f : Fld) (x : Nat) : (setF2 f x s).tpOut = s.tpOut := rfl

@[simp] theorem setF2_met0 (s : State) (f : Fld) (x : Nat) : (setF2 f x s).met0 = s.met0 := rfl

@[simp] theorem setF2_met1 (s : State) (f : Fld) (x : Nat) : (setF2 f x s).met1 = s.met1 := rfl

@[simp] theorem setF2_poOut (s : State) (f : Fld) (x : Nat) : (setF2 f x s).poOut = s.poOut := rfl

@[simp] theorem setF2_mbc (s : State) (f : Fld) (x : Nat) : (setF2 f x s).mbc = s.mbc := rfl

@[simp] theorem setF2_saf (s : State) (f : Fld) (x : Nat) : (setF2 f x s).saf = s.saf := rfl

@[simp] theorem setF2_oscRec (s : State) (f : Fld) (x : Nat) : (setF2 f x s).oscRec = s.oscRec := rfl

@[simp] theorem setF2_alarms (s : State) (f : Fld) (x : Nat) : (setF2 f x s).alarms = s.alarms := rfl

@[simp] theorem clrK_pending (s : State) (off : Nat) (l : Lane) : (clrK off l s).pending = s.pending := rfl

@[simp] theorem clrK_now (s : State) (off : Nat) (l : Lane) : (clrK off l s).now = s.now := rfl

@[simp] theorem clrK_out (s : State) (off : Nat) (l : Lane) : (clrK off l s).out = s.out := rfl

@[simp] theorem clrK_up (s : State) (off : Nat) (l : Lane) : (clrK off l s).up = s.up := rfl

@[simp] theorem clrK_la (s : State) (off : Nat) (l : Lane) : (clrK off l s).la = s.la := rfl

@[simp] theorem clrK_lb (s : State) (off : Nat) (l : Lane) : (clrK off l s).lb = s.lb := rfl

@[simp] theorem clrK_cyc (s : State) (off : Nat) (l : Lane) : (clrK off l s).cyc = s.cyc := rfl

@[simp] theorem clrK_slvCfg (s : State) (off : Nat) (l : Lane) : (clrK off l s).slvCfg = s.slvCfg := rfl

@[simp] theorem clrK_auth (s : State) (off : Nat) (l : Lane) : (clrK off l s).auth = s.auth := rfl

@[simp] theorem clrK_authMir (s : State) (off : Nat) (l : Lane) : (clrK off l s).authMir = s.authMir := rfl

@[simp] theorem clrK_waits (s : State) (off : Nat) (l : Lane) : (clrK off l s).waits = s.waits := rfl

@[simp] theorem clrK_tkt (s : State) (off : Nat) (l : Lane) : (clrK off l s).tkt = s.tkt := rfl

@[simp] theorem clrK_fresh (s : State) (off : Nat) (l : Lane) : (clrK off l s).fresh = s.fresh := rfl

@[simp] theorem clrK_ackVer (s : State) (off : Nat) (l : Lane) : (clrK off l s).ackVer = s.ackVer := rfl

@[simp] theorem clrK_dgSeq (s : State) (off : Nat) (l : Lane) : (clrK off l s).dgSeq = s.dgSeq := rfl

@[simp] theorem clrK_mirTx (s : State) (off : Nat) (l : Lane) : (clrK off l s).mirTx = s.mirTx := rfl

@[simp] theorem clrK_linkSeq (s : State) (off : Nat) (l : Lane) : (clrK off l s).linkSeq = s.linkSeq := rfl

@[simp] theorem clrK_cfg (s : State) (off : Nat) (l : Lane) : (clrK off l s).cfg = s.cfg := rfl

@[simp] theorem clrK_kpr (s : State) (off : Nat) (l : Lane) : (clrK off l s).kpr = s.kpr := rfl

@[simp] theorem clrK_net (s : State) (off : Nat) (l : Lane) : (clrK off l s).net = s.net := rfl

@[simp] theorem clrK_netPend (s : State) (off : Nat) (l : Lane) : (clrK off l s).netPend = s.netPend := rfl

@[simp] theorem clrK_netPort (s : State) (off : Nat) (l : Lane) : (clrK off l s).netPort = s.netPort := rfl

@[simp] theorem clrK_rec (s : State) (off : Nat) (l : Lane) : (clrK off l s).rec' = s.rec' := rfl

@[simp] theorem clrK_upd (s : State) (off : Nat) (l : Lane) : (clrK off l s).upd = s.upd := rfl

@[simp] theorem clrK_ptp (s : State) (off : Nat) (l : Lane) : (clrK off l s).ptp = s.ptp := rfl

@[simp] theorem clrK_rtc (s : State) (off : Nat) (l : Lane) : (clrK off l s).rtc = s.rtc := rfl

@[simp] theorem clrK_ifen (s : State) (off : Nat) (l : Lane) : (clrK off l s).ifen = s.ifen := rfl
@[simp] theorem clrK_mclk (s : State) (off : Nat) (l : Lane) : (clrK off l s).mclk = s.mclk := rfl
@[simp] theorem clrK_tpOut (s : State) (off : Nat) (l : Lane) : (clrK off l s).tpOut = s.tpOut := rfl

@[simp] theorem clrK_met0 (s : State) (off : Nat) (l : Lane) : (clrK off l s).met0 = s.met0 := rfl

@[simp] theorem clrK_met1 (s : State) (off : Nat) (l : Lane) : (clrK off l s).met1 = s.met1 := rfl

@[simp] theorem clrK_poOut (s : State) (off : Nat) (l : Lane) : (clrK off l s).poOut = s.poOut := rfl

@[simp] theorem clrK_mbc (s : State) (off : Nat) (l : Lane) : (clrK off l s).mbc = s.mbc := rfl

@[simp] theorem clrK_saf (s : State) (off : Nat) (l : Lane) : (clrK off l s).saf = s.saf := rfl

@[simp] theorem clrK_oscRec (s : State) (off : Nat) (l : Lane) : (clrK off l s).oscRec = s.oscRec := rfl

@[simp] theorem clrK_alarms (s : State) (off : Nat) (l : Lane) : (clrK off l s).alarms = s.alarms := rfl

@[simp] theorem emit_pending (s : State) (e : Emit) : (emit e s).pending = s.pending := rfl

@[simp] theorem emit_now (s : State) (e : Emit) : (emit e s).now = s.now := rfl

@[simp] theorem emit_up (s : State) (e : Emit) : (emit e s).up = s.up := rfl

@[simp] theorem emit_regs (s : State) (e : Emit) : (emit e s).regs = s.regs := rfl

@[simp] theorem emit_la (s : State) (e : Emit) : (emit e s).la = s.la := rfl

@[simp] theorem emit_lb (s : State) (e : Emit) : (emit e s).lb = s.lb := rfl

@[simp] theorem emit_cyc (s : State) (e : Emit) : (emit e s).cyc = s.cyc := rfl

@[simp] theorem emit_slvCfg (s : State) (e : Emit) : (emit e s).slvCfg = s.slvCfg := rfl

@[simp] theorem emit_auth (s : State) (e : Emit) : (emit e s).auth = s.auth := rfl

@[simp] theorem emit_authMir (s : State) (e : Emit) : (emit e s).authMir = s.authMir := rfl

@[simp] theorem emit_waits (s : State) (e : Emit) : (emit e s).waits = s.waits := rfl

@[simp] theorem emit_tkt (s : State) (e : Emit) : (emit e s).tkt = s.tkt := rfl

@[simp] theorem emit_fresh (s : State) (e : Emit) : (emit e s).fresh = s.fresh := rfl

@[simp] theorem emit_ackVer (s : State) (e : Emit) : (emit e s).ackVer = s.ackVer := rfl

@[simp] theorem emit_dgSeq (s : State) (e : Emit) : (emit e s).dgSeq = s.dgSeq := rfl

@[simp] theorem emit_mirTx (s : State) (e : Emit) : (emit e s).mirTx = s.mirTx := rfl

@[simp] theorem emit_linkSeq (s : State) (e : Emit) : (emit e s).linkSeq = s.linkSeq := rfl

@[simp] theorem emit_cfg (s : State) (e : Emit) : (emit e s).cfg = s.cfg := rfl

@[simp] theorem emit_kpr (s : State) (e : Emit) : (emit e s).kpr = s.kpr := rfl

@[simp] theorem emit_net (s : State) (e : Emit) : (emit e s).net = s.net := rfl

@[simp] theorem emit_netPend (s : State) (e : Emit) : (emit e s).netPend = s.netPend := rfl

@[simp] theorem emit_netPort (s : State) (e : Emit) : (emit e s).netPort = s.netPort := rfl

@[simp] theorem emit_rec (s : State) (e : Emit) : (emit e s).rec' = s.rec' := rfl

@[simp] theorem emit_upd (s : State) (e : Emit) : (emit e s).upd = s.upd := rfl

@[simp] theorem emit_ptp (s : State) (e : Emit) : (emit e s).ptp = s.ptp := rfl

@[simp] theorem emit_rtc (s : State) (e : Emit) : (emit e s).rtc = s.rtc := rfl

@[simp] theorem emit_ifen (s : State) (e : Emit) : (emit e s).ifen = s.ifen := rfl
@[simp] theorem emit_mclk (s : State) (e : Emit) : (emit e s).mclk = s.mclk := rfl
@[simp] theorem emit_tpOut (s : State) (e : Emit) : (emit e s).tpOut = s.tpOut := rfl

@[simp] theorem emit_met0 (s : State) (e : Emit) : (emit e s).met0 = s.met0 := rfl

@[simp] theorem emit_met1 (s : State) (e : Emit) : (emit e s).met1 = s.met1 := rfl

@[simp] theorem emit_poOut (s : State) (e : Emit) : (emit e s).poOut = s.poOut := rfl

@[simp] theorem emit_mbc (s : State) (e : Emit) : (emit e s).mbc = s.mbc := rfl

@[simp] theorem emit_saf (s : State) (e : Emit) : (emit e s).saf = s.saf := rfl

@[simp] theorem emit_oscRec (s : State) (e : Emit) : (emit e s).oscRec = s.oscRec := rfl

@[simp] theorem emit_alarms (s : State) (e : Emit) : (emit e s).alarms = s.alarms := rfl

@[simp] theorem raiseVec_pending (s : State) (l : Lane) (v : Nat) : (raiseVec l v s).pending = s.pending := by
  unfold raiseVec; split <;> rfl

@[simp] theorem raiseVec_now (s : State) (l : Lane) (v : Nat) : (raiseVec l v s).now = s.now := by
  unfold raiseVec; split <;> rfl

@[simp] theorem raiseVec_up (s : State) (l : Lane) (v : Nat) : (raiseVec l v s).up = s.up := by
  unfold raiseVec; split <;> rfl



@[simp] theorem raiseVec_la (s : State) (l : Lane) (v : Nat) : (raiseVec l v s).la = s.la := by
  unfold raiseVec; split <;> rfl

@[simp] theorem raiseVec_lb (s : State) (l : Lane) (v : Nat) : (raiseVec l v s).lb = s.lb := by
  unfold raiseVec; split <;> rfl

@[simp] theorem raiseVec_cyc (s : State) (l : Lane) (v : Nat) : (raiseVec l v s).cyc = s.cyc := by
  unfold raiseVec; split <;> rfl

@[simp] theorem raiseVec_slvCfg (s : State) (l : Lane) (v : Nat) : (raiseVec l v s).slvCfg = s.slvCfg := by
  unfold raiseVec; split <;> rfl

@[simp] theorem raiseVec_auth (s : State) (l : Lane) (v : Nat) : (raiseVec l v s).auth = s.auth := by
  unfold raiseVec; split <;> rfl

@[simp] theorem raiseVec_authMir (s : State) (l : Lane) (v : Nat) : (raiseVec l v s).authMir = s.authMir := by
  unfold raiseVec; split <;> rfl

@[simp] theorem raiseVec_waits (s : State) (l : Lane) (v : Nat) : (raiseVec l v s).waits = s.waits := by
  unfold raiseVec; split <;> rfl

@[simp] theorem raiseVec_tkt (s : State) (l : Lane) (v : Nat) : (raiseVec l v s).tkt = s.tkt := by
  unfold raiseVec; split <;> rfl

@[simp] theorem raiseVec_fresh (s : State) (l : Lane) (v : Nat) : (raiseVec l v s).fresh = s.fresh := by
  unfold raiseVec; split <;> rfl

@[simp] theorem raiseVec_ackVer (s : State) (l : Lane) (v : Nat) : (raiseVec l v s).ackVer = s.ackVer := by
  unfold raiseVec; split <;> rfl

@[simp] theorem raiseVec_dgSeq (s : State) (l : Lane) (v : Nat) : (raiseVec l v s).dgSeq = s.dgSeq := by
  unfold raiseVec; split <;> rfl

@[simp] theorem raiseVec_mirTx (s : State) (l : Lane) (v : Nat) : (raiseVec l v s).mirTx = s.mirTx := by
  unfold raiseVec; split <;> rfl

@[simp] theorem raiseVec_linkSeq (s : State) (l : Lane) (v : Nat) : (raiseVec l v s).linkSeq = s.linkSeq := by
  unfold raiseVec; split <;> rfl

@[simp] theorem raiseVec_cfg (s : State) (l : Lane) (v : Nat) : (raiseVec l v s).cfg = s.cfg := by
  unfold raiseVec; split <;> rfl

@[simp] theorem raiseVec_kpr (s : State) (l : Lane) (v : Nat) : (raiseVec l v s).kpr = s.kpr := by
  unfold raiseVec; split <;> rfl

@[simp] theorem raiseVec_net (s : State) (l : Lane) (v : Nat) : (raiseVec l v s).net = s.net := by
  unfold raiseVec; split <;> rfl

@[simp] theorem raiseVec_netPend (s : State) (l : Lane) (v : Nat) : (raiseVec l v s).netPend = s.netPend := by
  unfold raiseVec; split <;> rfl

@[simp] theorem raiseVec_netPort (s : State) (l : Lane) (v : Nat) : (raiseVec l v s).netPort = s.netPort := by
  unfold raiseVec; split <;> rfl

@[simp] theorem raiseVec_rec (s : State) (l : Lane) (v : Nat) : (raiseVec l v s).rec' = s.rec' := by
  unfold raiseVec; split <;> rfl

@[simp] theorem raiseVec_upd (s : State) (l : Lane) (v : Nat) : (raiseVec l v s).upd = s.upd := by
  unfold raiseVec; split <;> rfl

@[simp] theorem raiseVec_ptp (s : State) (l : Lane) (v : Nat) : (raiseVec l v s).ptp = s.ptp := by
  unfold raiseVec; split <;> rfl

@[simp] theorem raiseVec_rtc (s : State) (l : Lane) (v : Nat) : (raiseVec l v s).rtc = s.rtc := by
  unfold raiseVec; split <;> rfl

@[simp] theorem raiseVec_ifen (s : State) (l : Lane) (v : Nat) : (raiseVec l v s).ifen = s.ifen := by
  unfold raiseVec; split <;> rfl
@[simp] theorem raiseVec_mclk (s : State) (l : Lane) (v : Nat) : (raiseVec l v s).mclk = s.mclk := by
  unfold raiseVec; split <;> rfl
@[simp] theorem raiseVec_tpOut (s : State) (l : Lane) (v : Nat) : (raiseVec l v s).tpOut = s.tpOut := by
  unfold raiseVec; split <;> rfl

@[simp] theorem raiseVec_met0 (s : State) (l : Lane) (v : Nat) : (raiseVec l v s).met0 = s.met0 := by
  unfold raiseVec; split <;> rfl

@[simp] theorem raiseVec_met1 (s : State) (l : Lane) (v : Nat) : (raiseVec l v s).met1 = s.met1 := by
  unfold raiseVec; split <;> rfl

@[simp] theorem raiseVec_poOut (s : State) (l : Lane) (v : Nat) : (raiseVec l v s).poOut = s.poOut := by
  unfold raiseVec; split <;> rfl

@[simp] theorem raiseVec_mbc (s : State) (l : Lane) (v : Nat) : (raiseVec l v s).mbc = s.mbc := by
  unfold raiseVec; split <;> rfl

@[simp] theorem raiseVec_saf (s : State) (l : Lane) (v : Nat) : (raiseVec l v s).saf = s.saf := by
  unfold raiseVec; split <;> rfl

@[simp] theorem raiseVec_oscRec (s : State) (l : Lane) (v : Nat) : (raiseVec l v s).oscRec = s.oscRec := by
  unfold raiseVec; split <;> rfl

@[simp] theorem raiseVec_alarms (s : State) (l : Lane) (v : Nat) : (raiseVec l v s).alarms = s.alarms := by
  unfold raiseVec; split <;> rfl

@[simp] theorem sysStat_pending (s : State) (f : Fld) (l : Lane) : (sysStat f l s).pending = s.pending := by
  unfold sysStat
  split
  · rfl
  · exact raiseVec_pending _ _ _

@[simp] theorem sysStat_now (s : State) (f : Fld) (l : Lane) : (sysStat f l s).now = s.now := by
  unfold sysStat
  split
  · rfl
  · exact raiseVec_now _ _ _

@[simp] theorem sysStat_up (s : State) (f : Fld) (l : Lane) : (sysStat f l s).up = s.up := by
  unfold sysStat
  split
  · rfl
  · exact raiseVec_up _ _ _

@[simp] theorem sysStat_la (s : State) (f : Fld) (l : Lane) : (sysStat f l s).la = s.la := by
  unfold sysStat
  split
  · rfl
  · exact raiseVec_la _ _ _

@[simp] theorem sysStat_lb (s : State) (f : Fld) (l : Lane) : (sysStat f l s).lb = s.lb := by
  unfold sysStat
  split
  · rfl
  · exact raiseVec_lb _ _ _

@[simp] theorem sysStat_cyc (s : State) (f : Fld) (l : Lane) : (sysStat f l s).cyc = s.cyc := by
  unfold sysStat
  split
  · rfl
  · exact raiseVec_cyc _ _ _

@[simp] theorem sysStat_slvCfg (s : State) (f : Fld) (l : Lane) : (sysStat f l s).slvCfg = s.slvCfg := by
  unfold sysStat
  split
  · rfl
  · exact raiseVec_slvCfg _ _ _

@[simp] theorem sysStat_auth (s : State) (f : Fld) (l : Lane) : (sysStat f l s).auth = s.auth := by
  unfold sysStat
  split
  · rfl
  · exact raiseVec_auth _ _ _

@[simp] theorem sysStat_authMir (s : State) (f : Fld) (l : Lane) : (sysStat f l s).authMir = s.authMir := by
  unfold sysStat
  split
  · rfl
  · exact raiseVec_authMir _ _ _

@[simp] theorem sysStat_waits (s : State) (f : Fld) (l : Lane) : (sysStat f l s).waits = s.waits := by
  unfold sysStat
  split
  · rfl
  · exact raiseVec_waits _ _ _

@[simp] theorem sysStat_tkt (s : State) (f : Fld) (l : Lane) : (sysStat f l s).tkt = s.tkt := by
  unfold sysStat
  split
  · rfl
  · exact raiseVec_tkt _ _ _

@[simp] theorem sysStat_fresh (s : State) (f : Fld) (l : Lane) : (sysStat f l s).fresh = s.fresh := by
  unfold sysStat
  split
  · rfl
  · exact raiseVec_fresh _ _ _

@[simp] theorem sysStat_ackVer (s : State) (f : Fld) (l : Lane) : (sysStat f l s).ackVer = s.ackVer := by
  unfold sysStat
  split
  · rfl
  · exact raiseVec_ackVer _ _ _

@[simp] theorem sysStat_dgSeq (s : State) (f : Fld) (l : Lane) : (sysStat f l s).dgSeq = s.dgSeq := by
  unfold sysStat
  split
  · rfl
  · exact raiseVec_dgSeq _ _ _

@[simp] theorem sysStat_mirTx (s : State) (f : Fld) (l : Lane) : (sysStat f l s).mirTx = s.mirTx := by
  unfold sysStat
  split
  · rfl
  · exact raiseVec_mirTx _ _ _

@[simp] theorem sysStat_linkSeq (s : State) (f : Fld) (l : Lane) : (sysStat f l s).linkSeq = s.linkSeq := by
  unfold sysStat
  split
  · rfl
  · exact raiseVec_linkSeq _ _ _

@[simp] theorem sysStat_cfg (s : State) (f : Fld) (l : Lane) : (sysStat f l s).cfg = s.cfg := by
  unfold sysStat
  split
  · rfl
  · exact raiseVec_cfg _ _ _

@[simp] theorem sysStat_kpr (s : State) (f : Fld) (l : Lane) : (sysStat f l s).kpr = s.kpr := by
  unfold sysStat
  split
  · rfl
  · exact raiseVec_kpr _ _ _

@[simp] theorem sysStat_net (s : State) (f : Fld) (l : Lane) : (sysStat f l s).net = s.net := by
  unfold sysStat
  split
  · rfl
  · exact raiseVec_net _ _ _

@[simp] theorem sysStat_netPend (s : State) (f : Fld) (l : Lane) : (sysStat f l s).netPend = s.netPend := by
  unfold sysStat
  split
  · rfl
  · exact raiseVec_netPend _ _ _

@[simp] theorem sysStat_netPort (s : State) (f : Fld) (l : Lane) : (sysStat f l s).netPort = s.netPort := by
  unfold sysStat
  split
  · rfl
  · exact raiseVec_netPort _ _ _

@[simp] theorem sysStat_rec (s : State) (f : Fld) (l : Lane) : (sysStat f l s).rec' = s.rec' := by
  unfold sysStat
  split
  · rfl
  · exact raiseVec_rec _ _ _

@[simp] theorem sysStat_upd (s : State) (f : Fld) (l : Lane) : (sysStat f l s).upd = s.upd := by
  unfold sysStat
  split
  · rfl
  · exact raiseVec_upd _ _ _

@[simp] theorem sysStat_ptp (s : State) (f : Fld) (l : Lane) : (sysStat f l s).ptp = s.ptp := by
  unfold sysStat
  split
  · rfl
  · exact raiseVec_ptp _ _ _

@[simp] theorem sysStat_rtc (s : State) (f : Fld) (l : Lane) : (sysStat f l s).rtc = s.rtc := by
  unfold sysStat
  split
  · rfl
  · exact raiseVec_rtc _ _ _

@[simp] theorem sysStat_ifen (s : State) (f : Fld) (l : Lane) : (sysStat f l s).ifen = s.ifen := by
  unfold sysStat
  split
  · rfl
  · exact raiseVec_ifen _ _ _
@[simp] theorem sysStat_mclk (s : State) (f : Fld) (l : Lane) : (sysStat f l s).mclk = s.mclk := by
  unfold sysStat
  split
  · rfl
  · exact raiseVec_mclk _ _ _
@[simp] theorem sysStat_tpOut (s : State) (f : Fld) (l : Lane) : (sysStat f l s).tpOut = s.tpOut := by
  unfold sysStat
  split
  · rfl
  · exact raiseVec_tpOut _ _ _

@[simp] theorem sysStat_met0 (s : State) (f : Fld) (l : Lane) : (sysStat f l s).met0 = s.met0 := by
  unfold sysStat
  split
  · rfl
  · exact raiseVec_met0 _ _ _

@[simp] theorem sysStat_met1 (s : State) (f : Fld) (l : Lane) : (sysStat f l s).met1 = s.met1 := by
  unfold sysStat
  split
  · rfl
  · exact raiseVec_met1 _ _ _

@[simp] theorem sysStat_poOut (s : State) (f : Fld) (l : Lane) : (sysStat f l s).poOut = s.poOut := by
  unfold sysStat
  split
  · rfl
  · exact raiseVec_poOut _ _ _

@[simp] theorem sysStat_mbc (s : State) (f : Fld) (l : Lane) : (sysStat f l s).mbc = s.mbc := by
  unfold sysStat
  split
  · rfl
  · exact raiseVec_mbc _ _ _

@[simp] theorem sysStat_saf (s : State) (f : Fld) (l : Lane) : (sysStat f l s).saf = s.saf := by
  unfold sysStat
  split
  · rfl
  · exact raiseVec_saf _ _ _

@[simp] theorem sysStat_oscRec (s : State) (f : Fld) (l : Lane) : (sysStat f l s).oscRec = s.oscRec := by
  unfold sysStat
  split
  · rfl
  · exact raiseVec_oscRec _ _ _

@[simp] theorem sysStat_alarms (s : State) (f : Fld) (l : Lane) : (sysStat f l s).alarms = s.alarms := by
  unfold sysStat
  split
  · rfl
  · exact raiseVec_alarms _ _ _

@[simp] theorem pushEvent_pending (s : State) (e : Event) : (pushEvent e s).pending = s.pending := by
  unfold pushEvent Machine.when; dsimp only; split
  · rfl
  · split <;> rfl

@[simp] theorem pushEvent_now (s : State) (e : Event) : (pushEvent e s).now = s.now := by
  unfold pushEvent Machine.when; dsimp only; split
  · rfl
  · split <;> rfl

@[simp] theorem pushEvent_out (s : State) (e : Event) : (pushEvent e s).out = s.out := by
  unfold pushEvent Machine.when; dsimp only; split
  · rfl
  · split <;> rfl

@[simp] theorem pushEvent_up (s : State) (e : Event) : (pushEvent e s).up = s.up := by
  unfold pushEvent Machine.when; dsimp only; split
  · rfl
  · split <;> rfl

@[simp] theorem pushEvent_la (s : State) (e : Event) : (pushEvent e s).la = s.la := by
  unfold pushEvent Machine.when; dsimp only; split
  · rfl
  · split <;> rfl

@[simp] theorem pushEvent_lb (s : State) (e : Event) : (pushEvent e s).lb = s.lb := by
  unfold pushEvent Machine.when; dsimp only; split
  · rfl
  · split <;> rfl

@[simp] theorem pushEvent_cyc (s : State) (e : Event) : (pushEvent e s).cyc = s.cyc := by
  unfold pushEvent Machine.when; dsimp only; split
  · rfl
  · split <;> rfl

@[simp] theorem pushEvent_slvCfg (s : State) (e : Event) : (pushEvent e s).slvCfg = s.slvCfg := by
  unfold pushEvent Machine.when; dsimp only; split
  · rfl
  · split <;> rfl

@[simp] theorem pushEvent_auth (s : State) (e : Event) : (pushEvent e s).auth = s.auth := by
  unfold pushEvent Machine.when; dsimp only; split
  · rfl
  · split <;> rfl

@[simp] theorem pushEvent_authMir (s : State) (e : Event) : (pushEvent e s).authMir = s.authMir := by
  unfold pushEvent Machine.when; dsimp only; split
  · rfl
  · split <;> rfl

@[simp] theorem pushEvent_waits (s : State) (e : Event) : (pushEvent e s).waits = s.waits := by
  unfold pushEvent Machine.when; dsimp only; split
  · rfl
  · split <;> rfl

@[simp] theorem pushEvent_tkt (s : State) (e : Event) : (pushEvent e s).tkt = s.tkt := by
  unfold pushEvent Machine.when; dsimp only; split
  · rfl
  · split <;> rfl

@[simp] theorem pushEvent_fresh (s : State) (e : Event) : (pushEvent e s).fresh = s.fresh := by
  unfold pushEvent Machine.when; dsimp only; split
  · rfl
  · split <;> rfl

@[simp] theorem pushEvent_ackVer (s : State) (e : Event) : (pushEvent e s).ackVer = s.ackVer := by
  unfold pushEvent Machine.when; dsimp only; split
  · rfl
  · split <;> rfl

@[simp] theorem pushEvent_dgSeq (s : State) (e : Event) : (pushEvent e s).dgSeq = s.dgSeq := by
  unfold pushEvent Machine.when; dsimp only; split
  · rfl
  · split <;> rfl

@[simp] theorem pushEvent_mirTx (s : State) (e : Event) : (pushEvent e s).mirTx = s.mirTx := by
  unfold pushEvent Machine.when; dsimp only; split
  · rfl
  · split <;> rfl

@[simp] theorem pushEvent_linkSeq (s : State) (e : Event) : (pushEvent e s).linkSeq = s.linkSeq := by
  unfold pushEvent Machine.when; dsimp only; split
  · rfl
  · split <;> rfl

@[simp] theorem pushEvent_cfg (s : State) (e : Event) : (pushEvent e s).cfg = s.cfg := by
  unfold pushEvent Machine.when; dsimp only; split
  · rfl
  · split <;> rfl

@[simp] theorem pushEvent_kpr (s : State) (e : Event) : (pushEvent e s).kpr = s.kpr := by
  unfold pushEvent Machine.when; dsimp only; split
  · rfl
  · split <;> rfl

@[simp] theorem pushEvent_net (s : State) (e : Event) : (pushEvent e s).net = s.net := by
  unfold pushEvent Machine.when; dsimp only; split
  · rfl
  · split <;> rfl

@[simp] theorem pushEvent_netPend (s : State) (e : Event) : (pushEvent e s).netPend = s.netPend := by
  unfold pushEvent Machine.when; dsimp only; split
  · rfl
  · split <;> rfl

@[simp] theorem pushEvent_netPort (s : State) (e : Event) : (pushEvent e s).netPort = s.netPort := by
  unfold pushEvent Machine.when; dsimp only; split
  · rfl
  · split <;> rfl

@[simp] theorem pushEvent_upd (s : State) (e : Event) : (pushEvent e s).upd = s.upd := by
  unfold pushEvent Machine.when; dsimp only; split
  · rfl
  · split <;> rfl

@[simp] theorem pushEvent_ptp (s : State) (e : Event) : (pushEvent e s).ptp = s.ptp := by
  unfold pushEvent Machine.when; dsimp only; split
  · rfl
  · split <;> rfl

@[simp] theorem pushEvent_rtc (s : State) (e : Event) : (pushEvent e s).rtc = s.rtc := by
  unfold pushEvent Machine.when; dsimp only; split
  · rfl
  · split <;> rfl

@[simp] theorem pushEvent_ifen (s : State) (e : Event) : (pushEvent e s).ifen = s.ifen := by
  unfold pushEvent Machine.when; dsimp only; split
  · rfl
  · split <;> rfl
@[simp] theorem pushEvent_mclk (s : State) (e : Event) : (pushEvent e s).mclk = s.mclk := by
  unfold pushEvent Machine.when; dsimp only; split
  · rfl
  · split <;> rfl
@[simp] theorem pushEvent_tpOut (s : State) (e : Event) : (pushEvent e s).tpOut = s.tpOut := by
  unfold pushEvent Machine.when; dsimp only; split
  · rfl
  · split <;> rfl

@[simp] theorem pushEvent_met0 (s : State) (e : Event) : (pushEvent e s).met0 = s.met0 := by
  unfold pushEvent Machine.when; dsimp only; split
  · rfl
  · split <;> rfl

@[simp] theorem pushEvent_met1 (s : State) (e : Event) : (pushEvent e s).met1 = s.met1 := by
  unfold pushEvent Machine.when; dsimp only; split
  · rfl
  · split <;> rfl

@[simp] theorem pushEvent_poOut (s : State) (e : Event) : (pushEvent e s).poOut = s.poOut := by
  unfold pushEvent Machine.when; dsimp only; split
  · rfl
  · split <;> rfl

@[simp] theorem pushEvent_mbc (s : State) (e : Event) : (pushEvent e s).mbc = s.mbc := by
  unfold pushEvent Machine.when; dsimp only; split
  · rfl
  · split <;> rfl

@[simp] theorem pushEvent_saf (s : State) (e : Event) : (pushEvent e s).saf = s.saf := by
  unfold pushEvent Machine.when; dsimp only; split
  · rfl
  · split <;> rfl

@[simp] theorem pushEvent_oscRec (s : State) (e : Event) : (pushEvent e s).oscRec = s.oscRec := by
  unfold pushEvent Machine.when; dsimp only; split
  · rfl
  · split <;> rfl

@[simp] theorem pushEvent_alarms (s : State) (e : Event) : (pushEvent e s).alarms = s.alarms := by
  unfold pushEvent Machine.when; dsimp only; split
  · rfl
  · split <;> rfl

@[simp] theorem raiseAt_pending (s : State) (stamp : Time) (src : Src) (code data : Nat) (alm clr : Bool) : (raiseAt stamp src code data alm clr s).pending = s.pending := pushEvent_pending _ _

@[simp] theorem raiseAt_now (s : State) (stamp : Time) (src : Src) (code data : Nat) (alm clr : Bool) : (raiseAt stamp src code data alm clr s).now = s.now := pushEvent_now _ _

@[simp] theorem raiseAt_out (s : State) (stamp : Time) (src : Src) (code data : Nat) (alm clr : Bool) : (raiseAt stamp src code data alm clr s).out = s.out := pushEvent_out _ _

@[simp] theorem raiseAt_up (s : State) (stamp : Time) (src : Src) (code data : Nat) (alm clr : Bool) : (raiseAt stamp src code data alm clr s).up = s.up := pushEvent_up _ _

@[simp] theorem raiseAt_la (s : State) (stamp : Time) (src : Src) (code data : Nat) (alm clr : Bool) : (raiseAt stamp src code data alm clr s).la = s.la := pushEvent_la _ _

@[simp] theorem raiseAt_lb (s : State) (stamp : Time) (src : Src) (code data : Nat) (alm clr : Bool) : (raiseAt stamp src code data alm clr s).lb = s.lb := pushEvent_lb _ _

@[simp] theorem raiseAt_cyc (s : State) (stamp : Time) (src : Src) (code data : Nat) (alm clr : Bool) : (raiseAt stamp src code data alm clr s).cyc = s.cyc := pushEvent_cyc _ _

@[simp] theorem raiseAt_slvCfg (s : State) (stamp : Time) (src : Src) (code data : Nat) (alm clr : Bool) : (raiseAt stamp src code data alm clr s).slvCfg = s.slvCfg := pushEvent_slvCfg _ _

@[simp] theorem raiseAt_auth (s : State) (stamp : Time) (src : Src) (code data : Nat) (alm clr : Bool) : (raiseAt stamp src code data alm clr s).auth = s.auth := pushEvent_auth _ _

@[simp] theorem raiseAt_authMir (s : State) (stamp : Time) (src : Src) (code data : Nat) (alm clr : Bool) : (raiseAt stamp src code data alm clr s).authMir = s.authMir := pushEvent_authMir _ _

@[simp] theorem raiseAt_waits (s : State) (stamp : Time) (src : Src) (code data : Nat) (alm clr : Bool) : (raiseAt stamp src code data alm clr s).waits = s.waits := pushEvent_waits _ _

@[simp] theorem raiseAt_tkt (s : State) (stamp : Time) (src : Src) (code data : Nat) (alm clr : Bool) : (raiseAt stamp src code data alm clr s).tkt = s.tkt := pushEvent_tkt _ _

@[simp] theorem raiseAt_fresh (s : State) (stamp : Time) (src : Src) (code data : Nat) (alm clr : Bool) : (raiseAt stamp src code data alm clr s).fresh = s.fresh := pushEvent_fresh _ _

@[simp] theorem raiseAt_ackVer (s : State) (stamp : Time) (src : Src) (code data : Nat) (alm clr : Bool) : (raiseAt stamp src code data alm clr s).ackVer = s.ackVer := pushEvent_ackVer _ _

@[simp] theorem raiseAt_dgSeq (s : State) (stamp : Time) (src : Src) (code data : Nat) (alm clr : Bool) : (raiseAt stamp src code data alm clr s).dgSeq = s.dgSeq := pushEvent_dgSeq _ _

@[simp] theorem raiseAt_mirTx (s : State) (stamp : Time) (src : Src) (code data : Nat) (alm clr : Bool) : (raiseAt stamp src code data alm clr s).mirTx = s.mirTx := pushEvent_mirTx _ _

@[simp] theorem raiseAt_linkSeq (s : State) (stamp : Time) (src : Src) (code data : Nat) (alm clr : Bool) : (raiseAt stamp src code data alm clr s).linkSeq = s.linkSeq := pushEvent_linkSeq _ _

@[simp] theorem raiseAt_cfg (s : State) (stamp : Time) (src : Src) (code data : Nat) (alm clr : Bool) : (raiseAt stamp src code data alm clr s).cfg = s.cfg := pushEvent_cfg _ _

@[simp] theorem raiseAt_kpr (s : State) (stamp : Time) (src : Src) (code data : Nat) (alm clr : Bool) : (raiseAt stamp src code data alm clr s).kpr = s.kpr := pushEvent_kpr _ _

@[simp] theorem raiseAt_net (s : State) (stamp : Time) (src : Src) (code data : Nat) (alm clr : Bool) : (raiseAt stamp src code data alm clr s).net = s.net := pushEvent_net _ _

@[simp] theorem raiseAt_netPend (s : State) (stamp : Time) (src : Src) (code data : Nat) (alm clr : Bool) : (raiseAt stamp src code data alm clr s).netPend = s.netPend := pushEvent_netPend _ _

@[simp] theorem raiseAt_netPort (s : State) (stamp : Time) (src : Src) (code data : Nat) (alm clr : Bool) : (raiseAt stamp src code data alm clr s).netPort = s.netPort := pushEvent_netPort _ _

@[simp] theorem raiseAt_upd (s : State) (stamp : Time) (src : Src) (code data : Nat) (alm clr : Bool) : (raiseAt stamp src code data alm clr s).upd = s.upd := pushEvent_upd _ _

@[simp] theorem raiseAt_ptp (s : State) (stamp : Time) (src : Src) (code data : Nat) (alm clr : Bool) : (raiseAt stamp src code data alm clr s).ptp = s.ptp := pushEvent_ptp _ _

@[simp] theorem raiseAt_rtc (s : State) (stamp : Time) (src : Src) (code data : Nat) (alm clr : Bool) : (raiseAt stamp src code data alm clr s).rtc = s.rtc := pushEvent_rtc _ _

@[simp] theorem raiseAt_ifen (s : State) (stamp : Time) (src : Src) (code data : Nat) (alm clr : Bool) : (raiseAt stamp src code data alm clr s).ifen = s.ifen := pushEvent_ifen _ _
@[simp] theorem raiseAt_mclk (s : State) (stamp : Time) (src : Src) (code data : Nat) (alm clr : Bool) : (raiseAt stamp src code data alm clr s).mclk = s.mclk := pushEvent_mclk _ _
@[simp] theorem raiseAt_tpOut (s : State) (stamp : Time) (src : Src) (code data : Nat) (alm clr : Bool) : (raiseAt stamp src code data alm clr s).tpOut = s.tpOut := pushEvent_tpOut _ _

@[simp] theorem raiseAt_met0 (s : State) (stamp : Time) (src : Src) (code data : Nat) (alm clr : Bool) : (raiseAt stamp src code data alm clr s).met0 = s.met0 := pushEvent_met0 _ _

@[simp] theorem raiseAt_met1 (s : State) (stamp : Time) (src : Src) (code data : Nat) (alm clr : Bool) : (raiseAt stamp src code data alm clr s).met1 = s.met1 := pushEvent_met1 _ _

@[simp] theorem raiseAt_poOut (s : State) (stamp : Time) (src : Src) (code data : Nat) (alm clr : Bool) : (raiseAt stamp src code data alm clr s).poOut = s.poOut := pushEvent_poOut _ _

@[simp] theorem raiseAt_mbc (s : State) (stamp : Time) (src : Src) (code data : Nat) (alm clr : Bool) : (raiseAt stamp src code data alm clr s).mbc = s.mbc := pushEvent_mbc _ _

@[simp] theorem raiseAt_saf (s : State) (stamp : Time) (src : Src) (code data : Nat) (alm clr : Bool) : (raiseAt stamp src code data alm clr s).saf = s.saf := pushEvent_saf _ _

@[simp] theorem raiseAt_oscRec (s : State) (stamp : Time) (src : Src) (code data : Nat) (alm clr : Bool) : (raiseAt stamp src code data alm clr s).oscRec = s.oscRec := pushEvent_oscRec _ _

@[simp] theorem raiseAt_alarms (s : State) (stamp : Time) (src : Src) (code data : Nat) (alm clr : Bool) : (raiseAt stamp src code data alm clr s).alarms = s.alarms := pushEvent_alarms _ _

@[simp] theorem raise_pending (s : State) (src : Src) (code data : Nat) : (raise src code data s).pending = s.pending := pushEvent_pending _ _

@[simp] theorem raise_now (s : State) (src : Src) (code data : Nat) : (raise src code data s).now = s.now := pushEvent_now _ _

@[simp] theorem raise_out (s : State) (src : Src) (code data : Nat) : (raise src code data s).out = s.out := pushEvent_out _ _

@[simp] theorem raise_up (s : State) (src : Src) (code data : Nat) : (raise src code data s).up = s.up := pushEvent_up _ _

@[simp] theorem raise_la (s : State) (src : Src) (code data : Nat) : (raise src code data s).la = s.la := pushEvent_la _ _

@[simp] theorem raise_lb (s : State) (src : Src) (code data : Nat) : (raise src code data s).lb = s.lb := pushEvent_lb _ _

@[simp] theorem raise_cyc (s : State) (src : Src) (code data : Nat) : (raise src code data s).cyc = s.cyc := pushEvent_cyc _ _

@[simp] theorem raise_slvCfg (s : State) (src : Src) (code data : Nat) : (raise src code data s).slvCfg = s.slvCfg := pushEvent_slvCfg _ _

@[simp] theorem raise_auth (s : State) (src : Src) (code data : Nat) : (raise src code data s).auth = s.auth := pushEvent_auth _ _

@[simp] theorem raise_authMir (s : State) (src : Src) (code data : Nat) : (raise src code data s).authMir = s.authMir := pushEvent_authMir _ _

@[simp] theorem raise_waits (s : State) (src : Src) (code data : Nat) : (raise src code data s).waits = s.waits := pushEvent_waits _ _

@[simp] theorem raise_tkt (s : State) (src : Src) (code data : Nat) : (raise src code data s).tkt = s.tkt := pushEvent_tkt _ _

@[simp] theorem raise_fresh (s : State) (src : Src) (code data : Nat) : (raise src code data s).fresh = s.fresh := pushEvent_fresh _ _

@[simp] theorem raise_ackVer (s : State) (src : Src) (code data : Nat) : (raise src code data s).ackVer = s.ackVer := pushEvent_ackVer _ _

@[simp] theorem raise_dgSeq (s : State) (src : Src) (code data : Nat) : (raise src code data s).dgSeq = s.dgSeq := pushEvent_dgSeq _ _

@[simp] theorem raise_mirTx (s : State) (src : Src) (code data : Nat) : (raise src code data s).mirTx = s.mirTx := pushEvent_mirTx _ _

@[simp] theorem raise_linkSeq (s : State) (src : Src) (code data : Nat) : (raise src code data s).linkSeq = s.linkSeq := pushEvent_linkSeq _ _

@[simp] theorem raise_cfg (s : State) (src : Src) (code data : Nat) : (raise src code data s).cfg = s.cfg := pushEvent_cfg _ _

@[simp] theorem raise_kpr (s : State) (src : Src) (code data : Nat) : (raise src code data s).kpr = s.kpr := pushEvent_kpr _ _

@[simp] theorem raise_net (s : State) (src : Src) (code data : Nat) : (raise src code data s).net = s.net := pushEvent_net _ _

@[simp] theorem raise_netPend (s : State) (src : Src) (code data : Nat) : (raise src code data s).netPend = s.netPend := pushEvent_netPend _ _

@[simp] theorem raise_netPort (s : State) (src : Src) (code data : Nat) : (raise src code data s).netPort = s.netPort := pushEvent_netPort _ _

@[simp] theorem raise_upd (s : State) (src : Src) (code data : Nat) : (raise src code data s).upd = s.upd := pushEvent_upd _ _

@[simp] theorem raise_ptp (s : State) (src : Src) (code data : Nat) : (raise src code data s).ptp = s.ptp := pushEvent_ptp _ _

@[simp] theorem raise_rtc (s : State) (src : Src) (code data : Nat) : (raise src code data s).rtc = s.rtc := pushEvent_rtc _ _

@[simp] theorem raise_ifen (s : State) (src : Src) (code data : Nat) : (raise src code data s).ifen = s.ifen := pushEvent_ifen _ _
@[simp] theorem raise_mclk (s : State) (src : Src) (code data : Nat) : (raise src code data s).mclk = s.mclk := pushEvent_mclk _ _
@[simp] theorem raise_tpOut (s : State) (src : Src) (code data : Nat) : (raise src code data s).tpOut = s.tpOut := pushEvent_tpOut _ _

@[simp] theorem raise_met0 (s : State) (src : Src) (code data : Nat) : (raise src code data s).met0 = s.met0 := pushEvent_met0 _ _

@[simp] theorem raise_met1 (s : State) (src : Src) (code data : Nat) : (raise src code data s).met1 = s.met1 := pushEvent_met1 _ _

@[simp] theorem raise_poOut (s : State) (src : Src) (code data : Nat) : (raise src code data s).poOut = s.poOut := pushEvent_poOut _ _

@[simp] theorem raise_mbc (s : State) (src : Src) (code data : Nat) : (raise src code data s).mbc = s.mbc := pushEvent_mbc _ _

@[simp] theorem raise_saf (s : State) (src : Src) (code data : Nat) : (raise src code data s).saf = s.saf := pushEvent_saf _ _

@[simp] theorem raise_oscRec (s : State) (src : Src) (code data : Nat) : (raise src code data s).oscRec = s.oscRec := pushEvent_oscRec _ _

@[simp] theorem raise_alarms (s : State) (src : Src) (code data : Nat) : (raise src code data s).alarms = s.alarms := pushEvent_alarms _ _

@[simp] theorem raiseAlarm_pending (s : State) (src : Src) (code key data : Nat) : (raiseAlarm src code key data s).pending = s.pending := by
  unfold raiseAlarm bothLanes; split
  · rfl
  · rw [sysStat_pending, sysStat_pending]; exact pushEvent_pending s _

@[simp] theorem raiseAlarm_now (s : State) (src : Src) (code key data : Nat) : (raiseAlarm src code key data s).now = s.now := by
  unfold raiseAlarm bothLanes; split
  · rfl
  · rw [sysStat_now, sysStat_now]; exact pushEvent_now s _

@[simp] theorem raiseAlarm_up (s : State) (src : Src) (code key data : Nat) : (raiseAlarm src code key data s).up = s.up := by
  unfold raiseAlarm bothLanes; split
  · rfl
  · rw [sysStat_up, sysStat_up]; exact pushEvent_up s _

@[simp] theorem raiseAlarm_la (s : State) (src : Src) (code key data : Nat) : (raiseAlarm src code key data s).la = s.la := by
  unfold raiseAlarm bothLanes; split
  · rfl
  · rw [sysStat_la, sysStat_la]; exact pushEvent_la s _

@[simp] theorem raiseAlarm_lb (s : State) (src : Src) (code key data : Nat) : (raiseAlarm src code key data s).lb = s.lb := by
  unfold raiseAlarm bothLanes; split
  · rfl
  · rw [sysStat_lb, sysStat_lb]; exact pushEvent_lb s _

@[simp] theorem raiseAlarm_cyc (s : State) (src : Src) (code key data : Nat) : (raiseAlarm src code key data s).cyc = s.cyc := by
  unfold raiseAlarm bothLanes; split
  · rfl
  · rw [sysStat_cyc, sysStat_cyc]; exact pushEvent_cyc s _

@[simp] theorem raiseAlarm_slvCfg (s : State) (src : Src) (code key data : Nat) : (raiseAlarm src code key data s).slvCfg = s.slvCfg := by
  unfold raiseAlarm bothLanes; split
  · rfl
  · rw [sysStat_slvCfg, sysStat_slvCfg]; exact pushEvent_slvCfg s _

@[simp] theorem raiseAlarm_auth (s : State) (src : Src) (code key data : Nat) : (raiseAlarm src code key data s).auth = s.auth := by
  unfold raiseAlarm bothLanes; split
  · rfl
  · rw [sysStat_auth, sysStat_auth]; exact pushEvent_auth s _

@[simp] theorem raiseAlarm_authMir (s : State) (src : Src) (code key data : Nat) : (raiseAlarm src code key data s).authMir = s.authMir := by
  unfold raiseAlarm bothLanes; split
  · rfl
  · rw [sysStat_authMir, sysStat_authMir]; exact pushEvent_authMir s _

@[simp] theorem raiseAlarm_waits (s : State) (src : Src) (code key data : Nat) : (raiseAlarm src code key data s).waits = s.waits := by
  unfold raiseAlarm bothLanes; split
  · rfl
  · rw [sysStat_waits, sysStat_waits]; exact pushEvent_waits s _

@[simp] theorem raiseAlarm_tkt (s : State) (src : Src) (code key data : Nat) : (raiseAlarm src code key data s).tkt = s.tkt := by
  unfold raiseAlarm bothLanes; split
  · rfl
  · rw [sysStat_tkt, sysStat_tkt]; exact pushEvent_tkt s _

@[simp] theorem raiseAlarm_fresh (s : State) (src : Src) (code key data : Nat) : (raiseAlarm src code key data s).fresh = s.fresh := by
  unfold raiseAlarm bothLanes; split
  · rfl
  · rw [sysStat_fresh, sysStat_fresh]; exact pushEvent_fresh s _

@[simp] theorem raiseAlarm_ackVer (s : State) (src : Src) (code key data : Nat) : (raiseAlarm src code key data s).ackVer = s.ackVer := by
  unfold raiseAlarm bothLanes; split
  · rfl
  · rw [sysStat_ackVer, sysStat_ackVer]; exact pushEvent_ackVer s _

@[simp] theorem raiseAlarm_dgSeq (s : State) (src : Src) (code key data : Nat) : (raiseAlarm src code key data s).dgSeq = s.dgSeq := by
  unfold raiseAlarm bothLanes; split
  · rfl
  · rw [sysStat_dgSeq, sysStat_dgSeq]; exact pushEvent_dgSeq s _

@[simp] theorem raiseAlarm_mirTx (s : State) (src : Src) (code key data : Nat) : (raiseAlarm src code key data s).mirTx = s.mirTx := by
  unfold raiseAlarm bothLanes; split
  · rfl
  · rw [sysStat_mirTx, sysStat_mirTx]; exact pushEvent_mirTx s _

@[simp] theorem raiseAlarm_linkSeq (s : State) (src : Src) (code key data : Nat) : (raiseAlarm src code key data s).linkSeq = s.linkSeq := by
  unfold raiseAlarm bothLanes; split
  · rfl
  · rw [sysStat_linkSeq, sysStat_linkSeq]; exact pushEvent_linkSeq s _

@[simp] theorem raiseAlarm_cfg (s : State) (src : Src) (code key data : Nat) : (raiseAlarm src code key data s).cfg = s.cfg := by
  unfold raiseAlarm bothLanes; split
  · rfl
  · rw [sysStat_cfg, sysStat_cfg]; exact pushEvent_cfg s _

@[simp] theorem raiseAlarm_kpr (s : State) (src : Src) (code key data : Nat) : (raiseAlarm src code key data s).kpr = s.kpr := by
  unfold raiseAlarm bothLanes; split
  · rfl
  · rw [sysStat_kpr, sysStat_kpr]; exact pushEvent_kpr s _

@[simp] theorem raiseAlarm_net (s : State) (src : Src) (code key data : Nat) : (raiseAlarm src code key data s).net = s.net := by
  unfold raiseAlarm bothLanes; split
  · rfl
  · rw [sysStat_net, sysStat_net]; exact pushEvent_net s _

@[simp] theorem raiseAlarm_netPend (s : State) (src : Src) (code key data : Nat) : (raiseAlarm src code key data s).netPend = s.netPend := by
  unfold raiseAlarm bothLanes; split
  · rfl
  · rw [sysStat_netPend, sysStat_netPend]; exact pushEvent_netPend s _

@[simp] theorem raiseAlarm_netPort (s : State) (src : Src) (code key data : Nat) : (raiseAlarm src code key data s).netPort = s.netPort := by
  unfold raiseAlarm bothLanes; split
  · rfl
  · rw [sysStat_netPort, sysStat_netPort]; exact pushEvent_netPort s _

@[simp] theorem raiseAlarm_upd (s : State) (src : Src) (code key data : Nat) : (raiseAlarm src code key data s).upd = s.upd := by
  unfold raiseAlarm bothLanes; split
  · rfl
  · rw [sysStat_upd, sysStat_upd]; exact pushEvent_upd s _

@[simp] theorem raiseAlarm_ptp (s : State) (src : Src) (code key data : Nat) : (raiseAlarm src code key data s).ptp = s.ptp := by
  unfold raiseAlarm bothLanes; split
  · rfl
  · rw [sysStat_ptp, sysStat_ptp]; exact pushEvent_ptp s _

@[simp] theorem raiseAlarm_rtc (s : State) (src : Src) (code key data : Nat) : (raiseAlarm src code key data s).rtc = s.rtc := by
  unfold raiseAlarm bothLanes; split
  · rfl
  · rw [sysStat_rtc, sysStat_rtc]; exact pushEvent_rtc s _

@[simp] theorem raiseAlarm_ifen (s : State) (src : Src) (code key data : Nat) : (raiseAlarm src code key data s).ifen = s.ifen := by
  unfold raiseAlarm bothLanes; split
  · rfl
  · rw [sysStat_ifen, sysStat_ifen]; exact pushEvent_ifen s _
@[simp] theorem raiseAlarm_mclk (s : State) (src : Src) (code key data : Nat) : (raiseAlarm src code key data s).mclk = s.mclk := by
  unfold raiseAlarm bothLanes; split
  · rfl
  · rw [sysStat_mclk, sysStat_mclk]; exact pushEvent_mclk s _
@[simp] theorem raiseAlarm_tpOut (s : State) (src : Src) (code key data : Nat) : (raiseAlarm src code key data s).tpOut = s.tpOut := by
  unfold raiseAlarm bothLanes; split
  · rfl
  · rw [sysStat_tpOut, sysStat_tpOut]; exact pushEvent_tpOut s _

@[simp] theorem raiseAlarm_met0 (s : State) (src : Src) (code key data : Nat) : (raiseAlarm src code key data s).met0 = s.met0 := by
  unfold raiseAlarm bothLanes; split
  · rfl
  · rw [sysStat_met0, sysStat_met0]; exact pushEvent_met0 s _

@[simp] theorem raiseAlarm_met1 (s : State) (src : Src) (code key data : Nat) : (raiseAlarm src code key data s).met1 = s.met1 := by
  unfold raiseAlarm bothLanes; split
  · rfl
  · rw [sysStat_met1, sysStat_met1]; exact pushEvent_met1 s _

@[simp] theorem raiseAlarm_poOut (s : State) (src : Src) (code key data : Nat) : (raiseAlarm src code key data s).poOut = s.poOut := by
  unfold raiseAlarm bothLanes; split
  · rfl
  · rw [sysStat_poOut, sysStat_poOut]; exact pushEvent_poOut s _

@[simp] theorem raiseAlarm_mbc (s : State) (src : Src) (code key data : Nat) : (raiseAlarm src code key data s).mbc = s.mbc := by
  unfold raiseAlarm bothLanes; split
  · rfl
  · rw [sysStat_mbc, sysStat_mbc]; exact pushEvent_mbc s _

@[simp] theorem raiseAlarm_saf (s : State) (src : Src) (code key data : Nat) : (raiseAlarm src code key data s).saf = s.saf := by
  unfold raiseAlarm bothLanes; split
  · rfl
  · rw [sysStat_saf, sysStat_saf]; exact pushEvent_saf s _

@[simp] theorem raiseAlarm_oscRec (s : State) (src : Src) (code key data : Nat) : (raiseAlarm src code key data s).oscRec = s.oscRec := by
  unfold raiseAlarm bothLanes; split
  · rfl
  · rw [sysStat_oscRec, sysStat_oscRec]; exact pushEvent_oscRec s _

@[simp] theorem clearAlarm_pending (s : State) (src : Src) (code key data : Nat) : (clearAlarm src code key data s).pending = s.pending := by
  unfold clearAlarm; split
  · exact pushEvent_pending s _
  · rfl

@[simp] theorem clearAlarm_now (s : State) (src : Src) (code key data : Nat) : (clearAlarm src code key data s).now = s.now := by
  unfold clearAlarm; split
  · exact pushEvent_now s _
  · rfl

@[simp] theorem clearAlarm_out (s : State) (src : Src) (code key data : Nat) : (clearAlarm src code key data s).out = s.out := by
  unfold clearAlarm; split
  · exact pushEvent_out s _
  · rfl

@[simp] theorem clearAlarm_up (s : State) (src : Src) (code key data : Nat) : (clearAlarm src code key data s).up = s.up := by
  unfold clearAlarm; split
  · exact pushEvent_up s _
  · rfl

@[simp] theorem clearAlarm_la (s : State) (src : Src) (code key data : Nat) : (clearAlarm src code key data s).la = s.la := by
  unfold clearAlarm; split
  · exact pushEvent_la s _
  · rfl

@[simp] theorem clearAlarm_lb (s : State) (src : Src) (code key data : Nat) : (clearAlarm src code key data s).lb = s.lb := by
  unfold clearAlarm; split
  · exact pushEvent_lb s _
  · rfl

@[simp] theorem clearAlarm_cyc (s : State) (src : Src) (code key data : Nat) : (clearAlarm src code key data s).cyc = s.cyc := by
  unfold clearAlarm; split
  · exact pushEvent_cyc s _
  · rfl

@[simp] theorem clearAlarm_slvCfg (s : State) (src : Src) (code key data : Nat) : (clearAlarm src code key data s).slvCfg = s.slvCfg := by
  unfold clearAlarm; split
  · exact pushEvent_slvCfg s _
  · rfl

@[simp] theorem clearAlarm_auth (s : State) (src : Src) (code key data : Nat) : (clearAlarm src code key data s).auth = s.auth := by
  unfold clearAlarm; split
  · exact pushEvent_auth s _
  · rfl

@[simp] theorem clearAlarm_authMir (s : State) (src : Src) (code key data : Nat) : (clearAlarm src code key data s).authMir = s.authMir := by
  unfold clearAlarm; split
  · exact pushEvent_authMir s _
  · rfl

@[simp] theorem clearAlarm_waits (s : State) (src : Src) (code key data : Nat) : (clearAlarm src code key data s).waits = s.waits := by
  unfold clearAlarm; split
  · exact pushEvent_waits s _
  · rfl

@[simp] theorem clearAlarm_tkt (s : State) (src : Src) (code key data : Nat) : (clearAlarm src code key data s).tkt = s.tkt := by
  unfold clearAlarm; split
  · exact pushEvent_tkt s _
  · rfl

@[simp] theorem clearAlarm_fresh (s : State) (src : Src) (code key data : Nat) : (clearAlarm src code key data s).fresh = s.fresh := by
  unfold clearAlarm; split
  · exact pushEvent_fresh s _
  · rfl

@[simp] theorem clearAlarm_ackVer (s : State) (src : Src) (code key data : Nat) : (clearAlarm src code key data s).ackVer = s.ackVer := by
  unfold clearAlarm; split
  · exact pushEvent_ackVer s _
  · rfl

@[simp] theorem clearAlarm_dgSeq (s : State) (src : Src) (code key data : Nat) : (clearAlarm src code key data s).dgSeq = s.dgSeq := by
  unfold clearAlarm; split
  · exact pushEvent_dgSeq s _
  · rfl

@[simp] theorem clearAlarm_mirTx (s : State) (src : Src) (code key data : Nat) : (clearAlarm src code key data s).mirTx = s.mirTx := by
  unfold clearAlarm; split
  · exact pushEvent_mirTx s _
  · rfl

@[simp] theorem clearAlarm_linkSeq (s : State) (src : Src) (code key data : Nat) : (clearAlarm src code key data s).linkSeq = s.linkSeq := by
  unfold clearAlarm; split
  · exact pushEvent_linkSeq s _
  · rfl

@[simp] theorem clearAlarm_cfg (s : State) (src : Src) (code key data : Nat) : (clearAlarm src code key data s).cfg = s.cfg := by
  unfold clearAlarm; split
  · exact pushEvent_cfg s _
  · rfl

@[simp] theorem clearAlarm_kpr (s : State) (src : Src) (code key data : Nat) : (clearAlarm src code key data s).kpr = s.kpr := by
  unfold clearAlarm; split
  · exact pushEvent_kpr s _
  · rfl

@[simp] theorem clearAlarm_net (s : State) (src : Src) (code key data : Nat) : (clearAlarm src code key data s).net = s.net := by
  unfold clearAlarm; split
  · exact pushEvent_net s _
  · rfl

@[simp] theorem clearAlarm_netPend (s : State) (src : Src) (code key data : Nat) : (clearAlarm src code key data s).netPend = s.netPend := by
  unfold clearAlarm; split
  · exact pushEvent_netPend s _
  · rfl

@[simp] theorem clearAlarm_netPort (s : State) (src : Src) (code key data : Nat) : (clearAlarm src code key data s).netPort = s.netPort := by
  unfold clearAlarm; split
  · exact pushEvent_netPort s _
  · rfl

@[simp] theorem clearAlarm_upd (s : State) (src : Src) (code key data : Nat) : (clearAlarm src code key data s).upd = s.upd := by
  unfold clearAlarm; split
  · exact pushEvent_upd s _
  · rfl

@[simp] theorem clearAlarm_ptp (s : State) (src : Src) (code key data : Nat) : (clearAlarm src code key data s).ptp = s.ptp := by
  unfold clearAlarm; split
  · exact pushEvent_ptp s _
  · rfl

@[simp] theorem clearAlarm_rtc (s : State) (src : Src) (code key data : Nat) : (clearAlarm src code key data s).rtc = s.rtc := by
  unfold clearAlarm; split
  · exact pushEvent_rtc s _
  · rfl

@[simp] theorem clearAlarm_ifen (s : State) (src : Src) (code key data : Nat) : (clearAlarm src code key data s).ifen = s.ifen := by
  unfold clearAlarm; split
  · exact pushEvent_ifen s _
  · rfl
@[simp] theorem clearAlarm_mclk (s : State) (src : Src) (code key data : Nat) : (clearAlarm src code key data s).mclk = s.mclk := by
  unfold clearAlarm; split
  · exact pushEvent_mclk s _
  · rfl
@[simp] theorem clearAlarm_tpOut (s : State) (src : Src) (code key data : Nat) : (clearAlarm src code key data s).tpOut = s.tpOut := by
  unfold clearAlarm; split
  · exact pushEvent_tpOut s _
  · rfl

@[simp] theorem clearAlarm_met0 (s : State) (src : Src) (code key data : Nat) : (clearAlarm src code key data s).met0 = s.met0 := by
  unfold clearAlarm; split
  · exact pushEvent_met0 s _
  · rfl

@[simp] theorem clearAlarm_met1 (s : State) (src : Src) (code key data : Nat) : (clearAlarm src code key data s).met1 = s.met1 := by
  unfold clearAlarm; split
  · exact pushEvent_met1 s _
  · rfl

@[simp] theorem clearAlarm_poOut (s : State) (src : Src) (code key data : Nat) : (clearAlarm src code key data s).poOut = s.poOut := by
  unfold clearAlarm; split
  · exact pushEvent_poOut s _
  · rfl

@[simp] theorem clearAlarm_mbc (s : State) (src : Src) (code key data : Nat) : (clearAlarm src code key data s).mbc = s.mbc := by
  unfold clearAlarm; split
  · exact pushEvent_mbc s _
  · rfl

@[simp] theorem clearAlarm_saf (s : State) (src : Src) (code key data : Nat) : (clearAlarm src code key data s).saf = s.saf := by
  unfold clearAlarm; split
  · exact pushEvent_saf s _
  · rfl

@[simp] theorem clearAlarm_oscRec (s : State) (src : Src) (code key data : Nat) : (clearAlarm src code key data s).oscRec = s.oscRec := by
  unfold clearAlarm; split
  · exact pushEvent_oscRec s _
  · rfl

@[simp] theorem begin_lane (s : State) (t : Time) (l' : Lane) : (begin' t s).lane l' = s.lane l' := by cases l' <;> simp [State.lane]

@[simp] theorem begin_ready (s : State) (t : Time) (l' : Lane) : ready (begin' t s) l' = ready s l' := by simp [ready]

@[simp] theorem begin_active (s : State) (t : Time) : active (begin' t s) = active s := by simp [active]

@[simp] theorem begin_isActive (s : State) (t : Time) (l' : Lane) : isActive (begin' t s) l' = isActive s l' := by simp [isActive]

@[simp] theorem begin_rdK (s : State) (t : Time) (j : Nat) : rdK (begin' t s) j = rdK s j := by simp [rdK]

@[simp] theorem begin_getF (s : State) (t : Time) (g : Fld) (l' : Lane) : getF (begin' t s) g l' = getF s g l' := by simp [getF]

@[simp] theorem begin_getB (s : State) (t : Time) (g : Fld) (l' : Lane) : getB (begin' t s) g l' = getB s g l' := by simp [getB]

@[simp] theorem setLane_active (s : State) (l : Lane) (v : LaneSt) : active (s.setLane l v) = active s := by simp [active]

@[simp] theorem setLane_isActive (s : State) (l : Lane) (v : LaneSt) (l' : Lane) : isActive (s.setLane l v) l' = isActive s l' := by simp [isActive]

@[simp] theorem setLane_rdK (s : State) (l : Lane) (v : LaneSt) (j : Nat) : rdK (s.setLane l v) j = rdK s j := by simp [rdK]

@[simp] theorem setLane_getF (s : State) (l : Lane) (v : LaneSt) (g : Fld) (l' : Lane) : getF (s.setLane l v) g l' = getF s g l' := by simp [getF]

@[simp] theorem setLane_getB (s : State) (l : Lane) (v : LaneSt) (g : Fld) (l' : Lane) : getB (s.setLane l v) g l' = getB s g l' := by simp [getB]

@[simp] theorem onLane_active (s : State) (l : Lane) (f : LaneSt → LaneSt) : active (onLane l f s) = active s := by simp [active]

@[simp] theorem onLane_isActive (s : State) (l : Lane) (f : LaneSt → LaneSt) (l' : Lane) : isActive (onLane l f s) l' = isActive s l' := by simp [isActive]

@[simp] theorem onLane_rdK (s : State) (l : Lane) (f : LaneSt → LaneSt) (j : Nat) : rdK (onLane l f s) j = rdK s j := by simp [rdK]

@[simp] theorem onLane_getF (s : State) (l : Lane) (f : LaneSt → LaneSt) (g : Fld) (l' : Lane) : getF (onLane l f s) g l' = getF s g l' := by simp [getF]

@[simp] theorem onLane_getB (s : State) (l : Lane) (f : LaneSt → LaneSt) (g : Fld) (l' : Lane) : getB (onLane l f s) g l' = getB s g l' := by simp [getB]

@[simp] theorem wrK_lane (s : State) (k : Nat) (v : Word) (l' : Lane) : (wrK k v s).lane l' = s.lane l' := by cases l' <;> simp [State.lane]

@[simp] theorem wrK_ready (s : State) (k : Nat) (v : Word) (l' : Lane) : ready (wrK k v s) l' = ready s l' := by simp [ready]

@[simp] theorem wrK_active (s : State) (k : Nat) (v : Word) : active (wrK k v s) = active s := by simp [active]

@[simp] theorem wrK_isActive (s : State) (k : Nat) (v : Word) (l' : Lane) : isActive (wrK k v s) l' = isActive s l' := by simp [isActive]

@[simp] theorem setF_lane (s : State) (f : Fld) (x : Nat) (l : Lane) (l' : Lane) : (setF f x l s).lane l' = s.lane l' := by cases l' <;> simp [State.lane]

@[simp] theorem setF_ready (s : State) (f : Fld) (x : Nat) (l : Lane) (l' : Lane) : ready (setF f x l s) l' = ready s l' := by simp [ready]

@[simp] theorem setF_active (s : State) (f : Fld) (x : Nat) (l : Lane) : active (setF f x l s) = active s := by simp [active]

@[simp] theorem setF_isActive (s : State) (f : Fld) (x : Nat) (l : Lane) (l' : Lane) : isActive (setF f x l s) l' = isActive s l' := by simp [isActive]

@[simp] theorem setB_lane (s : State) (f : Fld) (x : Bool) (l : Lane) (l' : Lane) : (setB f x l s).lane l' = s.lane l' := by cases l' <;> simp [State.lane]

@[simp] theorem setB_ready (s : State) (f : Fld) (x : Bool) (l : Lane) (l' : Lane) : ready (setB f x l s) l' = ready s l' := by simp [ready]

@[simp] theorem setB_active (s : State) (f : Fld) (x : Bool) (l : Lane) : active (setB f x l s) = active s := by simp [active]

@[simp] theorem setB_isActive (s : State) (f : Fld) (x : Bool) (l : Lane) (l' : Lane) : isActive (setB f x l s) l' = isActive s l' := by simp [isActive]

@[simp] theorem incF_lane (s : State) (f : Fld) (l : Lane) (n : Nat) (l' : Lane) : (incF f l s n).lane l' = s.lane l' := by cases l' <;> simp [State.lane]

@[simp] theorem incF_ready (s : State) (f : Fld) (l : Lane) (n : Nat) (l' : Lane) : ready (incF f l s n) l' = ready s l' := by simp [ready]

@[simp] theorem incF_active (s : State) (f : Fld) (l : Lane) (n : Nat) : active (incF f l s n) = active s := by simp [active]

@[simp] theorem incF_isActive (s : State) (f : Fld) (l : Lane) (n : Nat) (l' : Lane) : isActive (incF f l s n) l' = isActive s l' := by simp [isActive]

@[simp] theorem wrapF_lane (s : State) (f : Fld) (l : Lane) (l' : Lane) : (wrapF f l s).lane l' = s.lane l' := by cases l' <;> simp [State.lane]

@[simp] theorem wrapF_ready (s : State) (f : Fld) (l : Lane) (l' : Lane) : ready (wrapF f l s) l' = ready s l' := by simp [ready]

@[simp] theorem wrapF_active (s : State) (f : Fld) (l : Lane) : active (wrapF f l s) = active s := by simp [active]

@[simp] theorem wrapF_isActive (s : State) (f : Fld) (l : Lane) (l' : Lane) : isActive (wrapF f l s) l' = isActive s l' := by simp [isActive]

@[simp] theorem setF2_lane (s : State) (f : Fld) (x : Nat) (l' : Lane) : (setF2 f x s).lane l' = s.lane l' := by cases l' <;> simp [State.lane]

@[simp] theorem setF2_ready (s : State) (f : Fld) (x : Nat) (l' : Lane) : ready (setF2 f x s) l' = ready s l' := by simp [ready]

@[simp] theorem setF2_active (s : State) (f : Fld) (x : Nat) : active (setF2 f x s) = active s := by simp [active]

@[simp] theorem setF2_isActive (s : State) (f : Fld) (x : Nat) (l' : Lane) : isActive (setF2 f x s) l' = isActive s l' := by simp [isActive]

@[simp] theorem clrK_lane (s : State) (off : Nat) (l : Lane) (l' : Lane) : (clrK off l s).lane l' = s.lane l' := by cases l' <;> simp [State.lane]

@[simp] theorem clrK_ready (s : State) (off : Nat) (l : Lane) (l' : Lane) : ready (clrK off l s) l' = ready s l' := by simp [ready]

@[simp] theorem clrK_active (s : State) (off : Nat) (l : Lane) : active (clrK off l s) = active s := by simp [active]

@[simp] theorem clrK_isActive (s : State) (off : Nat) (l : Lane) (l' : Lane) : isActive (clrK off l s) l' = isActive s l' := by simp [isActive]

@[simp] theorem emit_lane (s : State) (e : Emit) (l' : Lane) : (emit e s).lane l' = s.lane l' := by cases l' <;> simp [State.lane]

@[simp] theorem emit_ready (s : State) (e : Emit) (l' : Lane) : ready (emit e s) l' = ready s l' := by simp [ready]

@[simp] theorem emit_active (s : State) (e : Emit) : active (emit e s) = active s := by simp [active]

@[simp] theorem emit_isActive (s : State) (e : Emit) (l' : Lane) : isActive (emit e s) l' = isActive s l' := by simp [isActive]

@[simp] theorem emit_rdK (s : State) (e : Emit) (j : Nat) : rdK (emit e s) j = rdK s j := by simp [rdK]

@[simp] theorem emit_getF (s : State) (e : Emit) (g : Fld) (l' : Lane) : getF (emit e s) g l' = getF s g l' := by simp [getF]

@[simp] theorem emit_getB (s : State) (e : Emit) (g : Fld) (l' : Lane) : getB (emit e s) g l' = getB s g l' := by simp [getB]

@[simp] theorem raiseVec_lane (s : State) (l : Lane) (v : Nat) (l' : Lane) : (raiseVec l v s).lane l' = s.lane l' := by cases l' <;> simp [State.lane]

@[simp] theorem raiseVec_ready (s : State) (l : Lane) (v : Nat) (l' : Lane) : ready (raiseVec l v s) l' = ready s l' := by simp [ready]

@[simp] theorem raiseVec_active (s : State) (l : Lane) (v : Nat) : active (raiseVec l v s) = active s := by simp [active]

@[simp] theorem raiseVec_isActive (s : State) (l : Lane) (v : Nat) (l' : Lane) : isActive (raiseVec l v s) l' = isActive s l' := by simp [isActive]

@[simp] theorem sysStat_lane (s : State) (f : Fld) (l : Lane) (l' : Lane) : (sysStat f l s).lane l' = s.lane l' := by cases l' <;> simp [State.lane]

@[simp] theorem sysStat_ready (s : State) (f : Fld) (l : Lane) (l' : Lane) : ready (sysStat f l s) l' = ready s l' := by simp [ready]

@[simp] theorem sysStat_active (s : State) (f : Fld) (l : Lane) : active (sysStat f l s) = active s := by simp [active]

@[simp] theorem sysStat_isActive (s : State) (f : Fld) (l : Lane) (l' : Lane) : isActive (sysStat f l s) l' = isActive s l' := by simp [isActive]

@[simp] theorem pushEvent_lane (s : State) (e : Event) (l' : Lane) : (pushEvent e s).lane l' = s.lane l' := by cases l' <;> simp [State.lane]

@[simp] theorem pushEvent_ready (s : State) (e : Event) (l' : Lane) : ready (pushEvent e s) l' = ready s l' := by simp [ready]

@[simp] theorem pushEvent_active (s : State) (e : Event) : active (pushEvent e s) = active s := by simp [active]

@[simp] theorem pushEvent_isActive (s : State) (e : Event) (l' : Lane) : isActive (pushEvent e s) l' = isActive s l' := by simp [isActive]

@[simp] theorem raiseAt_lane (s : State) (stamp : Time) (src : Src) (code data : Nat) (alm clr : Bool) (l' : Lane) : (raiseAt stamp src code data alm clr s).lane l' = s.lane l' := by cases l' <;> simp [State.lane]

@[simp] theorem raiseAt_ready (s : State) (stamp : Time) (src : Src) (code data : Nat) (alm clr : Bool) (l' : Lane) : ready (raiseAt stamp src code data alm clr s) l' = ready s l' := by simp [ready]

@[simp] theorem raiseAt_active (s : State) (stamp : Time) (src : Src) (code data : Nat) (alm clr : Bool) : active (raiseAt stamp src code data alm clr s) = active s := by simp [active]

@[simp] theorem raiseAt_isActive (s : State) (stamp : Time) (src : Src) (code data : Nat) (alm clr : Bool) (l' : Lane) : isActive (raiseAt stamp src code data alm clr s) l' = isActive s l' := by simp [isActive]

@[simp] theorem raise_lane (s : State) (src : Src) (code data : Nat) (l' : Lane) : (raise src code data s).lane l' = s.lane l' := by cases l' <;> simp [State.lane]

@[simp] theorem raise_ready (s : State) (src : Src) (code data : Nat) (l' : Lane) : ready (raise src code data s) l' = ready s l' := by simp [ready]

@[simp] theorem raise_active (s : State) (src : Src) (code data : Nat) : active (raise src code data s) = active s := by simp [active]

@[simp] theorem raise_isActive (s : State) (src : Src) (code data : Nat) (l' : Lane) : isActive (raise src code data s) l' = isActive s l' := by simp [isActive]

@[simp] theorem raiseAlarm_lane (s : State) (src : Src) (code key data : Nat) (l' : Lane) : (raiseAlarm src code key data s).lane l' = s.lane l' := by cases l' <;> simp [State.lane]

@[simp] theorem raiseAlarm_ready (s : State) (src : Src) (code key data : Nat) (l' : Lane) : ready (raiseAlarm src code key data s) l' = ready s l' := by simp [ready]

@[simp] theorem raiseAlarm_active (s : State) (src : Src) (code key data : Nat) : active (raiseAlarm src code key data s) = active s := by simp [active]

@[simp] theorem raiseAlarm_isActive (s : State) (src : Src) (code key data : Nat) (l' : Lane) : isActive (raiseAlarm src code key data s) l' = isActive s l' := by simp [isActive]

@[simp] theorem clearAlarm_lane (s : State) (src : Src) (code key data : Nat) (l' : Lane) : (clearAlarm src code key data s).lane l' = s.lane l' := by cases l' <;> simp [State.lane]

@[simp] theorem clearAlarm_ready (s : State) (src : Src) (code key data : Nat) (l' : Lane) : ready (clearAlarm src code key data s) l' = ready s l' := by simp [ready]

@[simp] theorem clearAlarm_active (s : State) (src : Src) (code key data : Nat) : active (clearAlarm src code key data s) = active s := by simp [active]

@[simp] theorem clearAlarm_isActive (s : State) (src : Src) (code key data : Nat) (l' : Lane) : isActive (clearAlarm src code key data s) l' = isActive s l' := by simp [isActive]

end Sys2Proof.Machine
end

