-- ==== Sys2Proof/Laws/Ops.lean ====
section
/-!
SUPPORT. How a command runs, and what raising an event or an interrupt does to the register file.
-/

namespace Sys2Proof.Machine

@[simp] theorem begin_now (t : Time) (s : State) : (begin' t s).now = t := rfl

@[simp] theorem begin_out (t : Time) (s : State) : (begin' t s).out = [] := rfl

@[simp] theorem begin_begin (t u : Time) (s : State) : begin' t (begin' u s) = begin' t s := rfl

/-- A command of a module out of reset runs its meaning. -/
theorem run_up {s : State} (h : s.up = true) (t : Time) (f : State → State) : run t s f = .next (f (begin' t s)) := by
  simp [run, h]

/-- A module in reset or without supply does nothing. -/
theorem run_down {s : State} (h : s.up = false) (t : Time) (f : State → State) : run t s f = .next (begin' t s) := by
  simp [run, h]

/-- A command of a lane that is ready runs its meaning. -/
theorem runLane_ready {s : State} {l : Lane} (h : s.up = true) (hl : ready s l = true) (t : Time) (f : State → State) :
    runLane t l s f = .next (f (begin' t s)) := by
  simp [runLane, run, h, hl]

/-- Every command that runs through `run` answers a next state. -/
theorem run_next (t : Time) (s : State) (f : State → State) : ∃ u, run t s f = .next u := ⟨_, rfl⟩

theorem runLane_next (t : Time) (l : Lane) (s : State) (f : State → State) : ∃ u, runLane t l s f = .next u := ⟨_, rfl⟩

@[simp] theorem when_true (f : State → State) (s : State) : Machine.when true f s = f s := rfl

@[simp] theorem when_false (f : State → State) (s : State) : Machine.when false f s = s := rfl

@[simp] theorem forEach_nil {α : Type} (f : α → State → State) (s : State) : forEach f [] s = s := rfl

@[simp] theorem forEach_cons {α : Type} (f : α → State → State) (x : α) (xs : List α) (s : State) :
    forEach f (x :: xs) s = forEach f xs (f x s) := rfl

/-- What every part keeps, the whole keeps. -/
theorem forEach_keeps {α : Type} (P : State → Prop) (f : α → State → State) (xs : List α) (h : ∀ x s, P s → P (f x s)) :
    ∀ s, P s → P (forEach f xs s) := by
  induction xs with
  | nil => exact fun _ hs => hs
  | cons x xs ih => exact fun s hs => ih _ (h x s hs)

theorem when_keeps (P : State → Prop) (f : State → State) (c : Bool) (h : ∀ s, P s → P (f s)) (s : State) (hs : P s) :
    P (Machine.when c f s) := by
  cases c
  · exact hs
  · exact h s hs

theorem bothLanes_keeps (P : State → Prop) (f : Lane → State → State) (h : ∀ l s, P s → P (f l s)) (s : State) (hs : P s) :
    P (bothLanes f s) := h _ _ (h _ _ hs)

theorem readyLanes_keeps (P : State → Prop) (f : Lane → State → State) (h : ∀ l s, P s → P (f l s)) (s : State) (hs : P s) :
    P (readyLanes f s) :=
  bothLanes_keeps P _ (fun l s hs => by
    split
    · exact h l s hs
    · exact hs) s hs

/-- A field that neither the drop counter nor the dropped-alarm flag of the recorder shares a bit with. -/
def Fld.offRec (g : Fld) : Bool := Reg.REC_STAT_almdrop.apart g && Reg.REC_CNT_drop.apart g

@[simp] theorem pushEvent_getF {g : Fld} (h : g.offRec = true) (e : Event) (s : State) (l : Lane) :
    getF (pushEvent e s) g l = getF s g l := by
  simp only [Fld.offRec, Bool.and_eq_true] at h
  have hr : ∀ (r : RecSt) (l : Lane), getF { s with rec' := r } g l = getF s g l := fun _ _ => rfl
  unfold pushEvent incF
  dsimp only
  split
  · rfl
  · cases (e.alm || e.clr)
    · rw [when_false, getF_setF_apart (by decide) h.2]; exact hr _ _
    · rw [when_true, getF_setF_apart (by decide) h.1, getF_setF_apart (by decide) h.2]; exact hr _ _

@[simp] theorem raiseAt_getF {g : Fld} (h : g.offRec = true) (t : Time) (src : Src) (code data : Nat) (alm clr : Bool) (s : State)
    (l : Lane) : getF (raiseAt t src code data alm clr s) g l = getF s g l := pushEvent_getF h _ _ _

@[simp] theorem raise_getF {g : Fld} (h : g.offRec = true) (src : Src) (code data : Nat) (s : State) (l : Lane) :
    getF (raise src code data s) g l = getF s g l := pushEvent_getF h _ _ _

/-- A field of a register of the map: none of the words of BAR4. -/
def Fld.mapped (g : Fld) : Bool := decide (g.off < 0xB8000) || (decide (0xBA000 ≤ g.off) && decide (g.off < laneSpan))

theorem Fld.key_ne_pba {g : Fld} (h : g.mapped = true) (l l' : Lane) (v : Nat) : g.key l' ≠ pbaKey l v := by
  have h3 := Machine.Lane.idx_lt l
  have h4 := Machine.Lane.idx_lt l'
  have h5 : laneSpan = 16777216 := rfl
  simp only [Fld.mapped, Bool.or_eq_true, Bool.and_eq_true, decide_eq_true_eq] at h
  rw [h5] at h
  unfold Fld.key pbaKey msixKey
  rw [h5]
  split <;> omega

/-- A raised vector leaves every field of a register of the map. -/
@[simp] theorem raiseVec_getF {g : Fld} (h : g.mapped = true) (l : Lane) (v : Nat) (s : State) (l' : Lane) :
    getF (raiseVec l v s) g l' = getF s g l' := by
  unfold raiseVec
  split
  · rfl
  · simp only [getF]; rw [rdK_wrK_ne _ _ (Fld.key_ne_pba h l l' v)]

@[simp] theorem sysStat_getF {f g : Fld} (hf : f.fits = true) (h : f.apart g = true) (hm : g.mapped = true) (l l' : Lane) (s : State) :
    getF (sysStat f l s) g l' = getF s g l' := by
  unfold sysStat
  split
  · rfl
  · rw [raiseVec_getF hm, getF_setF_apart hf h]

@[simp] theorem raiseAlarm_getF {g : Fld} (h : g.offRec = true) (ha : Reg.HRI_SYS_STAT_alarm.apart g = true) (hm : g.mapped = true) (src : Src)
    (code key data : Nat) (s : State) (l : Lane) : getF (raiseAlarm src code key data s) g l = getF s g l := by
  unfold raiseAlarm
  split
  · rfl
  · unfold bothLanes
    rw [sysStat_getF (by decide) ha hm, sysStat_getF (by decide) ha hm]
    exact raiseAt_getF h _ _ _ _ _ _ _ _

@[simp] theorem clearAlarm_getF {g : Fld} (h : g.offRec = true) (src : Src) (code key data : Nat) (s : State) (l : Lane) :
    getF (clearAlarm src code key data s) g l = getF s g l := by
  unfold clearAlarm
  split
  · exact raiseAt_getF h _ _ _ _ _ _ _ _
  · rfl

/-- The event waits at the end of its source group's queue, when the queue has room. -/
def queued (s : State) (e : Event) : Prop := e ∈ (s.rec'.queues.getD e.src.group {}).q

theorem RegsWf.pushEvent {s : State} (h : RegsWf s) (e : Event) : RegsWf (pushEvent e s) := by
  unfold Machine.pushEvent
  dsimp only
  split
  · exact h
  · exact when_keeps RegsWf _ _ (fun _ hs => hs.setF _ _ _) _ (RegsWf.incF (by exact h) _ _ _)

theorem RegsWf.raiseAt {s : State} (h : RegsWf s) (t : Time) (src : Src) (code data : Nat) (alm clr : Bool) :
    RegsWf (raiseAt t src code data alm clr s) := h.pushEvent _

theorem RegsWf.raise {s : State} (h : RegsWf s) (src : Src) (code data : Nat) : RegsWf (raise src code data s) := h.pushEvent _

theorem RegsWf.raiseVec {s : State} (h : RegsWf s) (l : Lane) (v : Nat) : RegsWf (raiseVec l v s) := by
  unfold Machine.raiseVec
  split
  · exact h
  · exact h.wrK _ _

theorem RegsWf.sysStat {s : State} (h : RegsWf s) (f : Fld) (l : Lane) : RegsWf (sysStat f l s) := by
  unfold Machine.sysStat
  split
  · exact h
  · exact (h.setF _ _ _).raiseVec _ _

theorem RegsWf.raiseAlarm {s : State} (h : RegsWf s) (src : Src) (code key data : Nat) : RegsWf (raiseAlarm src code key data s) := by
  unfold Machine.raiseAlarm
  split
  · exact h
  · exact bothLanes_keeps RegsWf _ (fun _ _ hs => hs.sysStat _ _) _ (h.raiseAt _ _ _ _ _ _)

theorem RegsWf.clearAlarm {s : State} (h : RegsWf s) (src : Src) (code key data : Nat) : RegsWf (clearAlarm src code key data s) := by
  unfold Machine.clearAlarm
  split
  · exact h.raiseAt _ _ _ _ _ _
  · exact h

/-! The digest. -/

theorem leBytes_length (n v : Nat) : (leBytes n v).length = n := by
  induction n generalizing v with
  | zero => rfl
  | succ n ih => simp [leBytes, ih]

theorem beBytes_length (n v : Nat) : (beBytes n v).length = n := by simp [beBytes, leBytes_length]

theorem shaRound_length {v : List Nat} (h : v.length = 8) (k w : Nat) : (shaRound v k w).length = 8 := by
  match v, h with
  | [_, _, _, _, _, _, _, _], _ => rfl

theorem shaRounds_length (ks w : List Nat) {v : List Nat} (h : v.length = 8) : (shaRounds ks w v).length = 8 := by
  induction ks generalizing w v with
  | nil => exact h
  | cons k ks ih => exact ih _ (shaRound_length h _ _)

theorem shaBlocks_length (n : Nat) (m : List Byte) {h : List Nat} (hh : h.length = 8) : (shaBlocks n m h).length = 8 := by
  induction n generalizing m h with
  | zero => exact hh
  | succ n ih => exact ih _ (by simp [List.length_zipWith, hh, shaRounds_length _ _ hh])

/-- A digest has 48 bytes. -/
theorem sha_length (bs : List Byte) : (sha bs).length = 48 := by
  have h : ∀ xs : List Nat, ((xs.map (beBytes 8)).flatten).length = 8 * xs.length := by
    intro xs
    induction xs with
    | nil => rfl
    | cons x xs ih => simp [ih, beBytes_length]; omega
  simp only [sha, List.length_take, h, shaBlocks_length _ _ (show shaInit.length = 8 from rfl)]
  rfl

end Sys2Proof.Machine
end

