-- ==== Sys2Proof/Laws/Keep.lean ====
section
/-!
SUPPORT. The relation every operation and command keeps: no operation touches the queue of waiting commands, and each keeps the register
file in its canonical form. One lemma per operation follows in the files Laws/Keep*.
-/

namespace Sys2Proof.Machine
/-- What every operation keeps of a state `s`: the queue of waiting commands, and the canonical form of the register file. -/
structure Keep (s t : State) : Prop where
  pending : t.pending = s.pending
  regs : RegsWf s → RegsWf t
namespace Keep
theorem refl (s : State) : Keep s s := ⟨rfl, id⟩
theorem same {s t u : State} (h : Keep s t) (hp : u.pending = t.pending) (hr : u.regs = t.regs) : Keep s u :=
  ⟨hp.trans h.pending, fun x => by have := h.regs x; unfold RegsWf at *; rw [hr]; exact this⟩
theorem ite {s a b : State} {c : Prop} [Decidable c] (ha : Keep s a) (hb : Keep s b) : Keep s (if c then a else b) := by
  by_cases h : c
  · rw [if_pos h]; exact ha
  · rw [if_neg h]; exact hb
theorem cut {P Q : Prop} (h : P) (k : P → Q) : Q := k h
theorem mk' {s t : State} {a1 : Time} {a2 : List Emit} {a3 : Bool} {a5 : LaneSt} {a6 : LaneSt} {a7 : CycSt} {a8 : SlvCfg} {a9 : Auth} {a10
    : Auth} {a11 : List Wait} {a12 : Nat} {a13 : Nat} {a14 : Word} {a15 : Word} {a16 : List MirItem} {aq : BitVec 16} {a17 : CfgSt} {a18 : KprSt} {a19 :
    NetSt} {a20 : List (Nat × Nat × Time × Nat)} {a21 : List (Nat × Nat)} {a22 : RecSt} {a23 : UpdSt} {a24 : PtpSt} {a25 : RtcSt} {a26 :
    BitVec 4} {am : BitVec 24} {an : BitVec 4} {a27 : Option MetSlot} {a28 : Option MetSlot} {a29 : BitVec 8} {a30 : MbcSt} {a31 : SafSt} {a32 : Option Int} {a33 : List
    (Nat × Nat)} (h : Keep s t) : Keep s (State.mk t.pending a1 a2 a3 t.regs a5 a6 a7 a8 a9 a10 a11 a12 a13 a14 a15 a16 aq a17 a18 a19 a20 a21
    a22 a23 a24 a25 a26 am an a27 a28 a29 a30 a31 a32 a33) := h.same rfl rfl
end Keep
theorem keep_wrK {s : State} (k : Nat) (v : Word) (t : State) (h : Keep s t) : Keep s (wrK k v t) := ⟨h.pending, fun x => (h.regs x).wrK _ _⟩
/-- What every command keeps: its next state, if it answers one, keeps it. -/
def KeepOut (s : State) (o : Host.Outcome State Fault Refusal) : Prop := ∀ u, o = .next u → Keep s u
theorem keep_run : ∀ (s0 : State) (t : Time) (s : State) (_ : Keep s0 s) (f : State → State) (_ : ∀ x, Keep s0 x → Keep s0 (f x)),
    KeepOut s0 (run t s f) := by
  intro s0 t s h f hf u hu
  unfold run at hu
  cases hu
  exact Keep.ite (hf _ (h.same rfl rfl)) (h.same rfl rfl)
theorem keep_runAny : ∀ (s0 : State) (t : Time) (s : State) (_ : Keep s0 s) (f : State → State) (_ : ∀ x, Keep s0 x → Keep s0 (f x)),
    KeepOut s0 (runAny t s f) := by
  intro s0 t s h f hf u hu
  unfold runAny at hu
  cases hu
  exact hf _ (h.same rfl rfl)
theorem keep_runLane : ∀ (s0 : State) (t : Time) (l : Lane) (s : State) (_ : Keep s0 s) (f : State → State) (_ : ∀ x, Keep s0 x → Keep s0 (f x)),
    KeepOut s0 (runLane t l s f) := by
  intro s0 t l s h f hf
  exact keep_run _ _ _ h _ (fun x hx => Keep.ite (hf _ hx) hx)
theorem keep_forEach {s : State} {α : Type} (f : α → State → State) (hf : ∀ x t, Keep s t → Keep s (f x t)) (xs : List α) (t : State) (h :
    Keep s t) : Keep s (forEach f xs t) :=
  forEach_keeps (Keep s) f xs hf t h
theorem keep_clrEach {s : State} (f : Nat → Fld) (l : Lane) (n : Nat) (t : State) (h : Keep s t) : Keep s (clrEach f l n t) := by
  induction n generalizing t with
  | zero => exact h
  | succ n ih => exact ih _ (keep_wrK _ _ _ h)
end Sys2Proof.Machine
end

