-- ==== Sys2Proof/Laws/KeepOps.lean ====
section
/-!
SUPPORT. Each operation keeps the queue and the canonical register file: shared operations, events, time and orders. The proofs follow the cases of the definitions.
-/

namespace Sys2Proof.Machine

theorem keep_setF : ∀ (s0 : State) (f : Fld) (x : Nat) (l : Lane) (s : State), Keep s0 s → Keep s0 (setF f x l s) := by
  intro s0 f x l s h3; unfold setF; apply keep_wrK; assumption

theorem keep_setB : ∀ (s0 : State) (f : Fld) (x : Bool) (l : Lane) (s : State), Keep s0 s → Keep s0 (setB f x l s) := by
  intro s0 f x l s h3; unfold setB; apply keep_setF; assumption

theorem keep_incF : ∀ (s0 : State) (f : Fld) (l : Lane) (s : State), Keep s0 s → ∀ (n : optParam Nat 1), Keep s0 (incF f l s n) := by
  intro s0 f l s h2 n; unfold incF; apply keep_setF; assumption

theorem keep_wrapF : ∀ (s0 : State) (f : Fld) (l : Lane) (s : State), Keep s0 s → Keep s0 (wrapF f l s) := by
  intro s0 f l s h2; unfold wrapF; apply keep_setF; assumption

theorem keep_setF2 : ∀ (s0 : State) (f : Fld) (x : Nat) (s : State), Keep s0 s → Keep s0 (setF2 f x s) := by
  intro s0 f x s h2; unfold setF2; apply keep_setF; apply keep_setF; assumption

theorem keep_clrK : ∀ (s0 : State) (off : Nat) (l : Lane) (s : State), Keep s0 s → Keep s0 (clrK off l s) := by
  intro s0 off l s h2; unfold clrK; apply keep_wrK; assumption

theorem keep_State_setLane : ∀ (s0 s : State), Keep s0 s → ∀ (l : Lane) (v : LaneSt), Keep s0 (s.setLane l v) := by
  intro s0 s h0 l v; unfold State.setLane; split; apply Keep.mk'; assumption; apply Keep.mk'; assumption

theorem keep_onLane : ∀ (s0 : State) (l : Lane) (f : LaneSt → LaneSt) (s : State), Keep s0 s → Keep s0 (onLane l f s) := by
  intro s0 l f s h2; unfold onLane; apply keep_State_setLane; assumption

theorem keep_showPart : ∀ (s0 : State) (s : State), Keep s0 s → Keep s0 (showPart s) := by
  intro s0 s h3; unfold showPart; apply keep_setB; assumption

theorem keep_bothLanes : ∀ (s0 : State) (f : Lane → State → State),
    (∀ (a : Lane) (a_1 : State), Keep s0 a_1 → Keep s0 (f a a_1)) → ∀ (s : State), Keep s0 s → Keep s0 (bothLanes f s) := by
  intro s0 f h0 s h1; unfold bothLanes; refine h0 _ _ ?_; refine h0 _ _ ?_; assumption

theorem keep_readyLanes : ∀ (s0 : State) (f : Lane → State → State),
    (∀ (a : Lane) (a_1 : State), Keep s0 a_1 → Keep s0 (f a a_1)) → ∀ (a : State), Keep s0 a → Keep s0 (readyLanes f a) := by
  intro s0 f h0 _ h1; unfold readyLanes; apply keep_bothLanes; intro y0 y1 y2; apply Keep.ite; refine h0 _ _ ?_; assumption
  assumption; assumption

theorem keep_when : ∀ (s0 : State) (c : Bool) (f : State → State),
    (∀ (a : State), Keep s0 a → Keep s0 (f a)) → ∀ (s : State), Keep s0 s → Keep s0 (when c f s) := by
  intro s0 c f h1 s h2; unfold when; apply Keep.ite; refine h1 _ ?_; assumption; assumption

theorem keep_emit : ∀ (s0 : State) (e : Emit) (s : State), Keep s0 s → Keep s0 (emit e s) := by
  intro s0 e s h1; unfold emit; apply Keep.mk'; assumption

theorem keep_prpSend : ∀ (s0 : State) (src : Option Lane) (e : BitVec 16 → Emit) (s : State), Keep s0 s → Keep s0 (prpSend src e s) := by
  intro s0 src e s h5; unfold prpSend; split; apply keep_emit; apply Keep.mk'; assumption; apply keep_emit; apply Keep.mk'
  assumption; apply keep_emit; apply Keep.mk'; assumption

theorem keep_pushEvent : ∀ (s0 : State) (e : Event) (s : State), Keep s0 s → Keep s0 (pushEvent e s) := by
  intro s0 e s h1; unfold pushEvent; lift_lets; intro x0 x1 x2 x3 x4; refine Keep.cut (P := Keep s0 x4) ?_ (fun hx4 => ?_)
  unfold x4; apply Keep.mk'; assumption; clear_value x4; apply Keep.ite; apply Keep.mk'; assumption; apply keep_when
  intro y5 y6; apply keep_setF; assumption; apply keep_incF; assumption

theorem keep_raiseAt : ∀ (s0 : State) (stamp : Time) (src : Src) (code data : Nat) (alm clr : Bool) (s : State),
    Keep s0 s → Keep s0 (raiseAt stamp src code data alm clr s) := by
  intro s0 stamp src code data alm clr s h6; unfold raiseAt; apply keep_pushEvent; assumption

theorem keep_raise : ∀ (s0 : State) (src : Src) (code data : Nat) (s : State), Keep s0 s → Keep s0 (raise src code data s) := by
  intro s0 src code data s h3; unfold raise; apply keep_raiseAt; assumption

theorem keep_raiseVec : ∀ (s0 : State) (l : Lane) (v : Nat) (s : State), Keep s0 s → Keep s0 (raiseVec l v s) := by
  intro s0 l v s h5; unfold raiseVec; apply Keep.ite; apply keep_emit; assumption; apply keep_wrK; assumption

theorem keep_sysStat : ∀ (s0 : State) (f : Fld) (l : Lane) (s : State), Keep s0 s → Keep s0 (sysStat f l s) := by
  intro s0 f l s h2; unfold sysStat; apply Keep.ite; assumption; apply keep_raiseVec; apply keep_setF; assumption

theorem keep_raiseAlarm : ∀ (s0 : State) (src : Src) (code key data : Nat) (s : State), Keep s0 s → Keep s0 (raiseAlarm src code key data s) := by
  intro s0 src code key data s h4; unfold raiseAlarm; lift_lets; intro x0; refine Keep.cut (P := Keep s0 x0) ?_ (fun hx0 => ?_)
  unfold x0; apply keep_raiseAt; assumption; clear_value x0; apply Keep.ite; assumption; apply keep_bothLanes; intro y1 y2 y3
  apply keep_sysStat; assumption; apply Keep.mk'; assumption

theorem keep_clearAlarm : ∀ (s0 : State) (src : Src) (code key data : Nat) (s : State), Keep s0 s → Keep s0 (clearAlarm src code key data s) := by
  intro s0 src code key data s h4; unfold clearAlarm; lift_lets; intro x0; refine Keep.cut (P := Keep s0 x0) ?_ (fun hx0 => ?_)
  unfold x0; apply keep_raiseAt; assumption; clear_value x0; apply Keep.ite; apply Keep.mk'; assumption; assumption

theorem keep_endAlarms : ∀ (s0 : State) (p : Nat → Bool) (s : State), Keep s0 s → Keep s0 (endAlarms p s) := by
  intro s0 p s h4; unfold endAlarms; apply keep_forEach; intro y0; intro y1; intro y2; apply keep_clearAlarm; assumption
  assumption

theorem keep_onFlash : ∀ (s0 : State) (l : Lane) (f : FlashSt → FlashSt) (s : State), Keep s0 s → Keep s0 (onFlash l f s) := by
  intro s0 l f s h5; unfold onFlash; split; apply Keep.mk'; assumption; apply Keep.mk'; assumption

theorem keep_beginP : ∀ (s0 : State) (t : Time) (s : State), Keep s0 s → Keep s0 (begin' t s) := by
  intro s0 t s h1; unfold begin'; apply Keep.mk'; assumption

theorem keep_onRing : ∀ (s0 : State) (l : Lane) (n : Nat) (f : RingSt → RingSt) (a : State), Keep s0 a → Keep s0 (onRing l n f a) := by
  intro s0 l n f _ h3; unfold onRing; apply keep_onLane; assumption

theorem keep_signalEntry : ∀ (s0 : State) (l : Lane) (n : Nat) (s : State), Keep s0 s → Keep s0 (signalEntry l n s) := by
  intro s0 l n s h2; unfold signalEntry; lift_lets; intro x0; apply Keep.ite; apply Keep.ite; apply keep_raiseVec
  apply keep_onRing; assumption; apply keep_onRing; assumption; assumption

theorem keep_pushEntry : ∀ (s0 : State) (l : Lane) (n : Nat) (mk : Bool → List Byte) (s : State), Keep s0 s → Keep s0 (pushEntry l n mk s) := by
  intro s0 l n mk s h3; unfold pushEntry; lift_lets; intro x0 x1 x2; refine Keep.cut (P := Keep s0 x2) ?_ (fun hx2 => ?_)
  unfold x2; apply keep_emit; assumption; clear_value x2; intro x3 x4; refine Keep.cut (P := Keep s0 x4) ?_ (fun hx4 => ?_)
  unfold x4; apply keep_setF; assumption; clear_value x4; apply keep_signalEntry; apply keep_setB; assumption

theorem keep_streamRec : ∀ (s0 : State) (l : Lane) (cls typ : Nat) (stamp : Time) (rec' : List Byte) (s : State),
    Keep s0 s → Keep s0 (streamRec l cls typ stamp rec' s) := by
  intro s0 l cls typ stamp rec' s h5; unfold streamRec; lift_lets; intro x0 x1; split; assumption; lift_lets; intro x2 x3; split
  lift_lets; intro x4; refine Keep.cut (P := Keep s0 x4) ?_ (fun hx4 => ?_); unfold x4; apply Keep.ite; assumption
  apply keep_emit; assumption; clear_value x4; intro x5; refine Keep.cut (P := Keep s0 x5) ?_ (fun hx5 => ?_); unfold x5
  apply keep_pushEntry; assumption; clear_value x5; apply keep_onRing; assumption; apply keep_incF; apply keep_onRing
  assumption

theorem keep_onTmb : ∀ (s0 : State) (l : Lane) (f : TmbSt → TmbSt) (a : State), Keep s0 a → Keep s0 (onTmb l f a) := by
  intro s0 l f _ h2; unfold onTmb; apply keep_onLane; assumption

theorem keep_showRate : ∀ (s0 : State) (l : Lane) (s : State), Keep s0 s → Keep s0 (showRate l s) := by
  intro s0 l s h1; unfold showRate; lift_lets; intro x0 x1; apply keep_setB; apply keep_wrK; apply keep_wrK; assumption

theorem keep_setTerms : ∀ (s0 : State) (l : Lane) (f sl : Int) (s : State), Keep s0 s → Keep s0 (setTerms l f sl s) := by
  intro s0 l f sl s h3; unfold setTerms; lift_lets; intro x0 x1 x2 x3 x4 x5
  refine Keep.cut (P := Keep s0 x5) ?_ (fun hx5 => ?_); unfold x5; apply keep_showRate; apply keep_onTmb; assumption
  clear_value x5; apply keep_when; intro y6 y7; apply keep_raise; apply keep_incF; assumption; assumption

theorem keep_dropBig : ∀ (s0 : State) (l : Lane) (s : State), Keep s0 s → Keep s0 (dropBig l s) := by
  intro s0 l s h1; unfold dropBig; apply Keep.ite; apply keep_clearAlarm; apply keep_setF; apply keep_onTmb; assumption
  assumption

theorem keep_pendStep : ∀ (s0 : State) (l : Lane) (th : Int) (s : State), Keep s0 s → Keep s0 (pendStep l th s) := by
  intro s0 l th s h2; unfold pendStep; apply keep_setF; apply keep_onTmb; assumption

theorem keep_recAnchor : ∀ (s0 s : State), Keep s0 s → Keep s0 (recAnchor s) := by
  intro s0 s h0; unfold recAnchor; lift_lets; intro x0; apply keep_raise; apply Keep.mk'; assumption

theorem keep_showHold : ∀ (s0 : State) (l : Lane) (s : State), Keep s0 s → Keep s0 (showHold l s) := by
  intro s0 l s h1; unfold showHold; lift_lets; intro x0 x1; apply keep_setF; assumption

theorem keep_setTp : ∀ (s0 : State) (l : Lane) (n : Nat) (g : TpGen) (s : State), Keep s0 s → Keep s0 (setTp l n g s) := by
  intro s0 l n g s h3; unfold setTp; lift_lets; intro x0; refine Keep.cut (P := Keep s0 x0) ?_ (fun hx0 => ?_); unfold x0
  apply keep_onTmb; assumption; clear_value x0; apply keep_setF; apply keep_setB; apply keep_setB; apply keep_setB
  apply keep_setB; assumption

theorem keep_tpStartGen : ∀ (s0 : State) (l : Lane) (n : Nat) (s : State), Keep s0 s → Keep s0 (tpStartGen l n s) := by
  intro s0 l n s h2; unfold tpStartGen; lift_lets; intro x0 x1 x2 x3; apply keep_setTp; assumption

theorem keep_tpStopGen : ∀ (s0 : State) (l : Lane) (n : Nat) (s : State), Keep s0 s → Keep s0 (tpStopGen l n s) := by
  intro s0 l n s h2; unfold tpStopGen; lift_lets; intro x0; apply keep_setTp; assumption

theorem keep_tpRetake : ∀ (s0 : State) (l : Lane) (n : Nat) (s : State), Keep s0 s → Keep s0 (tpRetake l n s) := by
  intro s0 l n s h2; unfold tpRetake; lift_lets; intro x0; apply Keep.ite; apply keep_setTp; assumption; assumption

theorem keep_tpPin : ∀ (s0 : State) (n : Nat) (v : Bool) (s : State), Keep s0 s → Keep s0 (tpPin n v s) := by
  intro s0 n v s h5; unfold tpPin; apply Keep.ite; assumption; apply keep_emit; apply Keep.mk'; assumption

theorem keep_tpDrive : ∀ (s0 : State) (s : State), Keep s0 s → Keep s0 (tpDrive s) := by
  intro s0 s h3; unfold tpDrive; apply keep_forEach; intro y0; intro y1; intro y2; lift_lets; intro x3; apply keep_tpPin
  assumption; assumption

theorem keep_tpPulse_tpLate : ∀ (s0 : State) (n : Nat) (l : Lane) (g : TpGen) (s : State), Keep s0 s → Keep s0 (tpPulse.tpLate n l g s) := by
  intro s0 n l g s h3; unfold tpPulse.tpLate; split; assumption; apply keep_incF; apply keep_tpDrive; apply keep_setTp; assumption

theorem keep_tpPulse : ∀ (s0 : State) (n : Nat) (l : Lane) (s : State), Keep s0 s → Keep s0 (tpPulse n l s) := by
  intro s0 n l s h2; unfold tpPulse; lift_lets; intro x0 x1 x2; apply Keep.ite; assumption; apply Keep.ite; split; assumption
  apply Keep.ite; assumption; apply keep_tpDrive; apply keep_setTp; assumption; split; apply Keep.ite; apply keep_tpPulse_tpLate
  assumption; apply keep_setTp; assumption; apply keep_tpPulse_tpLate; assumption

theorem keep_tpEnd : ∀ (s0 : State) (n : Nat) (l : Lane) (s : State), Keep s0 s → Keep s0 (tpEnd n l s) := by
  intro s0 n l s h5; unfold tpEnd; lift_lets; intro x0; intro x1; intro x2; split; assumption; apply Keep.ite; assumption
  apply keep_tpDrive; apply keep_setTp; assumption

theorem keep_tpStep : ∀ (s0 : State) (l : Lane) (new : Int) (n : Nat) (s : State), Keep s0 s → Keep s0 (tpStep l new n s) := by
  intro s0 l new n s h3; unfold tpStep; lift_lets; intro x0; apply Keep.ite; assumption; split; apply keep_when; intro y1 y2
  apply keep_raise; assumption; apply keep_setTp; assumption; assumption

theorem keep_onRef : ∀ (s0 : State) (l : Lane) (p : Bool) (f : TimeRef → TimeRef) (a : State), Keep s0 a → Keep s0 (onRef l p f a) := by
  intro s0 l p f _ h3; unfold onRef; apply keep_onTmb; assumption

theorem keep_enterSync : ∀ (s0 : State) (l : Lane) (src : Nat) (s : State), Keep s0 s → Keep s0 (enterSync l src s) := by
  intro s0 l src s h2; unfold enterSync; lift_lets; intro x0 x1 x2; refine Keep.cut (P := Keep s0 x2) ?_ (fun hx2 => ?_)
  unfold x2; apply keep_setF; apply keep_setF; assumption; clear_value x2; intro x3
  refine Keep.cut (P := Keep s0 x3) ?_ (fun hx3 => ?_); unfold x3; apply Keep.ite; apply keep_showHold; apply keep_raise
  apply keep_onTmb; assumption; apply Keep.ite; apply keep_forEach; intro y4 y5 y6; apply keep_tpRetake; assumption; assumption
  assumption; clear_value x3; apply keep_when; intro y7 y8; apply keep_recAnchor; assumption; assumption

theorem keep_noteObs : ∀ (s0 : State) (l : Lane) (m : Time) (th : Int) (s : State), Keep s0 s → Keep s0 (noteObs l m th s) := by
  intro s0 l m th s h6; unfold noteObs; apply keep_onTmb; assumption

theorem keep_correct : ∀ (s0 : State) (l : Lane) (m : Time) (th : Int) (s : State), Keep s0 s → Keep s0 (correct l m th s).fst := by
  intro s0 l m th s h6; unfold correct; lift_lets; intro x0; intro x1; intro x2; intro x3; intro x4; split; dsimp only; unfold x4
  apply keep_setTerms; apply keep_noteObs; assumption; split; dsimp only; apply keep_pendStep; unfold x4; apply keep_setTerms
  apply keep_noteObs; assumption; split; dsimp only; apply keep_dropBig; unfold x4; apply keep_setTerms; apply keep_noteObs
  assumption; split; dsimp only; apply keep_dropBig; unfold x4; apply keep_setTerms; apply keep_noteObs; assumption; split
  dsimp only; apply keep_raiseAlarm; apply keep_setF; apply keep_onTmb; apply Keep.ite; unfold x4; apply keep_setTerms
  apply keep_noteObs; assumption; assumption; dsimp only; apply keep_dropBig; apply keep_pendStep; unfold x4; apply keep_setTerms
  apply keep_noteObs; assumption

theorem keep_observe : ∀ (s0 : State) (l : Lane) (p : Bool) (m : Time) (th : Int) (s : State), Keep s0 s → Keep s0 (observe l p m th s) := by
  intro s0 l p m th s h7; unfold observe; lift_lets; intro x0; intro x1; intro x2
  refine Keep.cut (P := Keep s0 x2) ?_ (fun hx2 => ?_); unfold x2; apply keep_setF; apply keep_onRef; assumption; clear_value x2
  intro x3; refine Keep.cut (P := Keep s0 x3) ?_ (fun hx3 => ?_); unfold x3; apply Keep.ite; assumption; apply keep_onRef
  assumption; clear_value x3; intro x4; apply Keep.ite; assumption; apply Keep.ite; apply keep_when; intro y5; intro y6
  apply keep_noteObs; assumption; assumption; split; apply keep_enterSync; apply keep_correct; assumption; apply Keep.ite
  apply keep_correct; assumption; assumption; assumption

theorem keep_refLost : ∀ (s0 : State) (l : Lane) (p : Bool) (code : Nat) (s : State), Keep s0 s → Keep s0 (refLost l p code s) := by
  intro s0 l p code s h6; unfold refLost; lift_lets; intro x0; refine Keep.cut (P := Keep s0 x0) ?_ (fun hx0 => ?_); unfold x0
  apply keep_onRef; assumption; clear_value x0; intro x1; intro x2; refine Keep.cut (P := Keep s0 x2) ?_ (fun hx2 => ?_)
  unfold x2; apply keep_dropBig; apply keep_onTmb; assumption; clear_value x2; apply Keep.ite; assumption; apply Keep.ite
  apply keep_onTmb; assumption; apply Keep.ite; apply keep_setF; assumption; apply keep_raise; apply keep_incF; apply keep_setF
  apply keep_setF; apply keep_setF; apply keep_onTmb; apply keep_setTerms; assumption

theorem keep_execClockWord : ∀ (s0 : State) (t : Time) (l : Lane) (pairOk : Bool) (s : State), Keep s0 s → KeepOut s0 (execClockWord t l pairOk s) := by
  intro s0 t l pairOk s h6; unfold execClockWord; apply keep_runLane; assumption; intro y0; intro y1; split; assumption
  apply Keep.ite; assumption; apply Keep.ite; apply keep_raise; assumption; lift_lets; intro x2; intro x3; apply keep_when
  intro y4; intro y5; apply keep_forEach; intro y6; intro y7; intro y8; apply keep_tpRetake; assumption; assumption
  apply keep_showRate; apply keep_setF; apply keep_setF; apply keep_setF; apply keep_onTmb; assumption

theorem keep_tpJoin : ∀ (s0 : State) (l : Lane) (n : Nat) (s : State), Keep s0 s → Keep s0 (tpJoin l n s) := by
  intro s0 l n s h5; unfold tpJoin; apply Keep.ite; assumption; split; apply Keep.ite; apply keep_tpStartGen; assumption
  apply keep_setTp; assumption; apply keep_tpStartGen; assumption

theorem keep_execTimebasePllLock : ∀ (s0 : State) (t : Time) (l : Lane) (s : State), Keep s0 s → KeepOut s0 (execTimebasePllLock t l s) := by
  intro s0 t l s h5; unfold execTimebasePllLock; apply keep_run; assumption; intro y0; intro y1; apply keep_forEach; intro y2
  intro y3; intro y4; apply keep_tpJoin; assumption; apply keep_setF; apply keep_onTmb; assumption

theorem keep_execTickMarkerLoss : ∀ (s0 : State) (t : Time) (l : Lane) (s : State), Keep s0 s → KeepOut s0 (execTickMarkerLoss t l s) := by
  intro s0 t l s h2; unfold execTickMarkerLoss; apply keep_runLane; assumption; intro y0 y1; apply Keep.ite; assumption
  apply keep_setF; apply keep_onTmb; assumption

theorem keep_execGnssReferenceLoss : ∀ (s0 : State) (t : Time) (l : Lane) (s : State), Keep s0 s → KeepOut s0 (execGnssReferenceLoss t l s) := by
  intro s0 t l s h2; unfold execGnssReferenceLoss; apply keep_runLane; assumption; intro y0 y1; lift_lets; intro x2
  apply Keep.ite; apply keep_refLost; assumption; assumption

theorem keep_execPtpSyncTimeout : ∀ (s0 : State) (t : Time) (n : Nat) (s : State), Keep s0 s → KeepOut s0 (execPtpSyncTimeout t n s) := by
  intro s0 t n s h2; unfold execPtpSyncTimeout; apply keep_run; assumption; intro y0 y1; apply Keep.ite; apply keep_readyLanes
  intro y2 y3 y4; apply keep_refLost; assumption; assumption; assumption

theorem keep_execHoldoverExit : ∀ (s0 : State) (t : Time) (l : Lane) (s : State), Keep s0 s → KeepOut s0 (execHoldoverExit t l s) := by
  intro s0 t l s h
  unfold execHoldoverExit
  refine keep_runLane _ _ _ _ h _ ?_
  intro s hs
  refine Keep.ite hs ?_
  split
  · exact hs
  · split
    · exact hs
    · rename_i o _ _
      have h1 := keep_correct _ l o.m o.theta _ hs
      generalize correct l o.m o.theta s = r at h1
      exact Keep.ite (keep_enterSync _ _ _ _ h1) h1

theorem keep_acceptStep : ∀ (s0 : State) (l : Lane) (s : State), Keep s0 s → Keep s0 (acceptStep l s) := by
  intro s0 l s h1; unfold acceptStep; split; apply Keep.ite; apply keep_pendStep; assumption; assumption; assumption

theorem keep_applyStep : ∀ (s0 : State) (l : Lane) (s : State), Keep s0 s → Keep s0 (applyStep l s) := by
  intro s0 l s h1; unfold applyStep; lift_lets; intro x0 x1 x2; refine Keep.cut (P := Keep s0 x2) ?_ (fun hx2 => ?_); unfold x2
  apply keep_setTerms; assumption; clear_value x2; intro x3; split; assumption; lift_lets; intro x4
  refine Keep.cut (P := Keep s0 x4) ?_ (fun hx4 => ?_); unfold x4; apply keep_setF; apply keep_onTmb; assumption; clear_value x4
  intro x5; refine Keep.cut (P := Keep s0 x5) ?_ (fun hx5 => ?_); unfold x5; apply keep_forEach; intro y6 y7 y8
  apply keep_tpStep; assumption; assumption; clear_value x5; intro x9; refine Keep.cut (P := Keep s0 x9) ?_ (fun hx9 => ?_)
  unfold x9; apply keep_incF; apply keep_dropBig; assumption; clear_value x9; intro x10
  refine Keep.cut (P := Keep s0 x10) ?_ (fun hx10 => ?_); unfold x10; apply keep_raise; assumption; clear_value x10
  apply Keep.ite; assumption; apply Keep.ite; apply keep_recAnchor; apply Keep.ite; apply keep_enterSync; assumption; assumption
  assumption

theorem keep_execTmbMtclRead : ∀ (s0 : State) (t : Time) (ep : Lane) (s : State), Keep s0 s → KeepOut s0 (execTmbMtclRead t ep s) := by
  intro s0 t ep s h2; unfold execTmbMtclRead; lift_lets; intro x0; apply keep_runLane; assumption; intro y1 y2; lift_lets
  intro x3 x4; apply keep_wrK; apply keep_wrK; apply keep_wrK; apply keep_wrK; apply keep_wrK; apply keep_showHold; assumption

theorem keep_execTpPulseStart : ∀ (s0 : State) (t : Time) (n : Nat) (s : State), Keep s0 s → KeepOut s0 (execTpPulseStart t n s) := by
  intro s0 t n s h2; unfold execTpPulseStart; apply keep_run; assumption; intro y0 y1; apply Keep.ite; apply keep_readyLanes
  intro y2 y3 y4; apply keep_tpPulse; assumption; assumption; assumption

theorem keep_execTpPulseEnd : ∀ (s0 : State) (t : Time) (n : Nat) (s : State), Keep s0 s → KeepOut s0 (execTpPulseEnd t n s) := by
  intro s0 t n s h2; unfold execTpPulseEnd; apply keep_run; assumption; intro y0 y1; apply Keep.ite; apply keep_readyLanes
  intro y2 y3 y4; apply keep_tpEnd; assumption; assumption; assumption

theorem keep_tpModeChange : ∀ (s0 : State) (n old new : Nat) (s : State), Keep s0 s → Keep s0 (tpModeChange n old new s) := by
  intro s0 n old new s h6; unfold tpModeChange; apply keep_tpDrive; apply Keep.ite; apply keep_readyLanes; intro y0; intro y1
  intro y2; apply keep_tpStartGen; assumption; assumption; apply Keep.ite; apply keep_readyLanes; intro y3; intro y4; intro y5
  apply keep_tpStopGen; assumption; assumption; assumption

theorem keep_tcCapture : ∀ (s0 : State) (n : Nat) (rise : Bool) (l : Lane) (s : State), Keep s0 s → Keep s0 (tcCapture n rise l s) := by
  intro s0 n rise l s h3; unfold tcCapture; lift_lets; intro x0 x1 x2 x3; refine Keep.cut (P := Keep s0 x3) ?_ (fun hx3 => ?_)
  unfold x3; apply keep_onTmb; assumption; clear_value x3; intro x4 x5; refine Keep.cut (P := Keep s0 x5) ?_ (fun hx5 => ?_)
  unfold x5; apply keep_setF; apply keep_onTmb; assumption; clear_value x5; apply Keep.ite; apply keep_incF; assumption
  apply Keep.ite; apply keep_incF; assumption; apply keep_when; intro y6 y7; apply keep_streamRec; assumption; assumption

theorem keep_tcFilter : ∀ (s0 : State) (n : Nat) (rise : Bool) (held : Nat) (l : Lane) (s : State), Keep s0 s → Keep s0 (tcFilter n rise held l s) := by
  intro s0 n rise held l s h7; unfold tcFilter; lift_lets; intro x0; intro x1; apply Keep.ite; unfold x1; apply keep_onTmb
  assumption; apply Keep.ite; unfold x1; apply keep_onTmb; assumption; apply keep_when; intro y2; intro y3; apply keep_tcCapture
  assumption; assumption

theorem keep_execTcEdge : ∀ (s0 : State) (t : Time) (n : Nat) (rise : Bool) (held : Nat) (s : State), Keep s0 s → KeepOut s0 (execTcEdge t n rise held s) := by
  intro s0 t n rise held s h7; unfold execTcEdge; apply keep_run; assumption; intro y0; intro y1; apply keep_when; intro y2
  intro y3; apply keep_readyLanes; intro y4; intro y5; intro y6; apply keep_tcFilter; assumption; assumption; assumption

theorem keep_execTcFifoRead : ∀ (s0 : State) (t : Time) (ep : Lane) (n : Nat) (s : State), Keep s0 s → KeepOut s0 (execTcFifoRead t ep n s) := by
  intro s0 t ep n s h3; unfold execTcFifoRead; lift_lets; intro x0; apply keep_runLane; assumption; intro y1 y2; apply Keep.ite
  split; apply keep_setF; assumption; apply keep_setF; apply keep_setF; apply keep_setB; apply keep_setF; apply keep_wrK
  apply keep_wrK; apply keep_wrK; apply keep_wrK; apply keep_onTmb; assumption; assumption

theorem keep_tmbCntClear : ∀ (s0 : State) (l : Lane) (s : State), Keep s0 s → Keep s0 (tmbCntClear l s) := by
  intro s0 l s h1; unfold tmbCntClear; apply keep_clrEach; apply keep_clrEach; apply keep_clrK; assumption

theorem keep_takePhase : ∀ (s0 : State) (ph : Nat) (s : State), Keep s0 s → Keep s0 (takePhase ph s) := by
  intro s0 ph s h1; unfold takePhase; lift_lets; intro x0; apply Keep.ite; apply Keep.mk'; assumption; apply Keep.ite
  apply Keep.mk'; assumption; apply Keep.mk'; assumption

theorem keep_stopPll : ∀ (s0 : State) (e : Engine) (l : Lane) (s : State), Keep s0 s → Keep s0 (stopPll e l s) := by
  intro s0 e l s h5; unfold stopPll; apply keep_onLane; assumption

theorem keep_startPll : ∀ (s0 : State) (e : Engine) (l : Lane) (s : State), Keep s0 s → Keep s0 (startPll e l s) := by
  intro s0 e l s h5; unfold startPll; apply Keep.ite; apply keep_onLane; assumption; assumption

theorem keep_holdClocks : ∀ (s0 : State) (l : Lane) (s : State), Keep s0 s → Keep s0 (holdClocks l s) := by
  intro s0 l s h4; unfold holdClocks; apply keep_when; intro y0; intro y1; apply keep_stopPll; apply keep_stopPll; assumption
  assumption

theorem keep_domSet : ∀ (s0 : State) (mask : Nat) (s : State), Keep s0 s → Keep s0 (domSet mask s) := by
  intro s0 mask s h1; unfold domSet; apply keep_setF; assumption

theorem keep_domClr : ∀ (s0 : State) (mask : Nat) (s : State), Keep s0 s → Keep s0 (domClr mask s) := by
  intro s0 mask s h1; unfold domClr; apply keep_setF; assumption

theorem keep_powerFor : ∀ (s0 : State) (m : Mode) (warm : Bool) (a : State), Keep s0 a → Keep s0 (powerFor m warm a) := by
  intro s0 m warm _ h2; unfold powerFor; apply keep_bothLanes; intro y0 y1 y2; apply Keep.ite; apply keep_domSet; assumption
  assumption; assumption

theorem keep_setTxQueue : ∀ (s0 : State) (c : Nat) (q : List CanTx) (s : State), Keep s0 s → Keep s0 (setTxQueue c q s) := by
  intro s0 c q s h2; unfold setTxQueue; lift_lets; intro x0; apply Keep.mk'; assumption

theorem keep_abandon : ∀ (s0 : State) (c k : Nat) (s : State), Keep s0 s → Keep s0 (abandon c k s) := by
  intro s0 c k s h2; unfold abandon; lift_lets; intro x0; refine Keep.cut (P := Keep s0 x0) ?_ (fun hx0 => ?_); unfold x0
  apply keep_incF; apply keep_setF; apply keep_setF; assumption; clear_value x0; intro x1; apply Keep.ite; assumption
  apply keep_raise; apply Keep.mk'; assumption

theorem keep_queueFrame : ∀ (s0 : State) (k : Nat) (data : List Byte) (s : State), Keep s0 s → Keep s0 (queueFrame k data s) := by
  intro s0 k data s h2; unfold queueFrame; lift_lets; intro x0; apply Keep.ite; assumption; apply Keep.ite; apply keep_abandon
  assumption; apply keep_setF; apply keep_setTxQueue; assumption

theorem keep_endRecover : ∀ (s0 : State) (c : Nat) (s : State), Keep s0 s → Keep s0 (endRecover c s) := by
  intro s0 c s h4; unfold endRecover; apply Keep.mk'; assumption

theorem keep_busOff : ∀ (s0 : State) (c : Nat) (s : State), Keep s0 s → Keep s0 (busOff c s) := by
  intro s0 c s h4; unfold busOff; lift_lets; intro x0; apply keep_forEach; intro y1; intro y2; intro y3; apply keep_abandon
  assumption; apply keep_setTxQueue; apply keep_raise; apply keep_incF; apply keep_setF; apply keep_endRecover; assumption

theorem keep_errState : ∀ (s0 : State) (c tec rc : Nat) (s : State), Keep s0 s → Keep s0 (errState c tec rc s) := by
  intro s0 c tec rc s h3; unfold errState; lift_lets; intro x0; refine Keep.cut (P := Keep s0 x0) ?_ (fun hx0 => ?_); unfold x0
  apply keep_setF; apply keep_setF; assumption; clear_value x0; apply Keep.ite; apply keep_busOff; assumption; apply keep_setF
  assumption

theorem keep_setWindow : ∀ (s0 : State) (k : Nat) (bs : List Byte) (n : Nat) (s : State), Keep s0 s → Keep s0 (setWindow k bs n s) := by
  intro s0 k bs n s h
  induction n with
  | zero => exact h
  | succ n ih => exact keep_wrK _ _ _ ih

theorem keep_objLast : ∀ (s0 : State) (k : Nat) (fd : Bool) (len : Nat) (s : State), Keep s0 s → Keep s0 (objLast k fd len s) := by
  intro s0 k fd len s h3; unfold objLast; apply keep_setF; apply keep_setB; apply keep_setF; assumption

theorem keep_canStore : ∀ (s0 : State) (c : Nat) (f : CanFrame) (s : State), Keep s0 s → Keep s0 (canStore c f s) := by
  intro s0 c f s h2; unfold canStore; lift_lets; intro x0; refine Keep.cut (P := Keep s0 x0) ?_ (fun hx0 => ?_); unfold x0
  apply keep_errState; assumption; clear_value x0; split; assumption; lift_lets; intro x1
  refine Keep.cut (P := Keep s0 x1) ?_ (fun hx1 => ?_); unfold x1; apply Keep.ite; apply keep_incF; apply keep_setF; assumption
  assumption; clear_value x1; intro x2; refine Keep.cut (P := Keep s0 x2) ?_ (fun hx2 => ?_); unfold x2; apply keep_setF
  apply keep_setB; apply keep_setF; apply keep_objLast; assumption; clear_value x2; intro x3
  refine Keep.cut (P := Keep s0 x3) ?_ (fun hx3 => ?_); unfold x3; apply keep_setWindow; assumption; clear_value x3; intro x4
  apply Keep.mk'; assumption

theorem keep_execCanTxComplete : ∀ (s0 : State) (t : Time) (c k : Nat) (s : State), Keep s0 s → KeepOut s0 (execCanTxComplete t c k s) := by
  intro s0 t c k s h3; unfold execCanTxComplete; apply keep_run; assumption; intro y0 y1; lift_lets; intro x2 x3
  refine Keep.cut (P := Keep s0 x3) ?_ (fun hx3 => ?_); unfold x3; apply keep_errState; assumption; clear_value x3; split
  assumption; lift_lets; intro x4; refine Keep.cut (P := Keep s0 x4) ?_ (fun hx4 => ?_); unfold x4; apply keep_setF
  apply keep_objLast; apply keep_setTxQueue; assumption; clear_value x4; intro x5; apply Keep.ite; assumption; apply keep_emit
  apply Keep.mk'; assumption

theorem keep_execCanTxFailure : ∀ (s0 : State) (t : Time) (c k : Nat) (x : TxFault) (s : State), Keep s0 s → KeepOut s0 (execCanTxFailure t c k x s) := by
  intro s0 t c k x s h7; unfold execCanTxFailure; apply keep_run; assumption; intro y0; intro y1; split; assumption; lift_lets
  intro x2; intro x3; intro x4; refine Keep.cut (P := Keep s0 x4) ?_ (fun hx4 => ?_); unfold x4; apply Keep.ite
  apply keep_abandon; apply keep_setTxQueue; assumption; apply keep_setTxQueue; assumption; clear_value x4; apply Keep.ite
  apply keep_incF; assumption; apply keep_errState; apply keep_incF; assumption

theorem keep_execCanBusError : ∀ (s0 : State) (t : Time) (c : Nat) (eight : Bool) (s : State), Keep s0 s → KeepOut s0 (execCanBusError t c eight s) := by
  intro s0 t c eight s h3; unfold execCanBusError; apply keep_run; assumption; intro y0 y1; apply Keep.ite; apply keep_errState
  apply keep_incF; assumption; assumption

theorem keep_execBusOffRecovery : ∀ (s0 : State) (t : Time) (c : Nat) (s : State), Keep s0 s → KeepOut s0 (execBusOffRecovery t c s) := by
  intro s0 t c s h5; unfold execBusOffRecovery; apply keep_run; assumption; intro y0; intro y1; apply Keep.ite; apply keep_raise
  apply keep_setF; apply keep_setF; apply keep_setF; apply keep_endRecover; assumption; assumption

theorem keep_canRecoverOp : ∀ (s0 : State) (c : Nat) (s : State), Keep s0 s → Keep s0 (canRecoverOp c s) := by
  intro s0 c s h1; unfold canRecoverOp; lift_lets; intro x0; apply Keep.ite; apply Keep.mk'; assumption; assumption

theorem keep_canClear : ∀ (s0 : State) (c : Nat) (s : State), Keep s0 s → Keep s0 (canClear c s) := by
  intro s0 c s h1; unfold canClear; apply keep_wrK; apply keep_wrK; assumption

theorem keep_canEnableOp : ∀ (s0 : State) (c : Nat) (s : State), Keep s0 s → Keep s0 (canEnableOp c s) := by
  intro s0 c s h4; unfold canEnableOp; lift_lets; intro x0; intro x1; intro x2; intro x3
  refine Keep.cut (P := Keep s0 x3) ?_ (fun hx3 => ?_); unfold x3; apply keep_setF; apply Keep.mk'; assumption; clear_value x3
  apply Keep.ite; apply keep_setF; apply keep_setF; apply keep_setF; assumption; apply keep_raise; apply keep_setF; assumption

theorem keep_canDisableOp : ∀ (s0 : State) (c : Nat) (s : State), Keep s0 s → Keep s0 (canDisableOp c s) := by
  intro s0 c s h4; unfold canDisableOp; apply keep_forEach; intro y0; intro y1; intro y2; apply keep_setF; assumption
  apply keep_setTxQueue; apply keep_setF; apply keep_endRecover; assumption

theorem keep_canStart : ∀ (s0 : State) (s : State), Keep s0 s → Keep s0 (canStart s) := by
  intro s0 s h3; unfold canStart; apply keep_forEach; intro y0; intro y1; intro y2; apply keep_when; intro y3; intro y4
  apply keep_canEnableOp; assumption; assumption; assumption

theorem keep_txreqOp : ∀ (s0 : State) (ep : Lane) (k : Nat) (s : State), Keep s0 s → Keep s0 (txreqOp ep k s) := by
  intro s0 ep k s h2; unfold txreqOp; lift_lets; intro x0; apply Keep.ite; apply keep_queueFrame; assumption; assumption

theorem keep_txAbortOp : ∀ (s0 : State) (ep : Lane) (k : Nat) (s : State), Keep s0 s → Keep s0 (txAbortOp ep k s) := by
  intro s0 ep k s h2; unfold txAbortOp; apply Keep.ite; apply keep_setF; apply keep_setTxQueue; assumption; assumption

theorem keep_packAll : ∀ (s0 : State) (val : Nat → Option F64) (cyc stat : Nat) (os : List (Nat × ObjCfg)) (s : State),
    Keep s0 s → Keep s0 (packAll val cyc stat os s) := by
  intro s0 val cyc stat os
  induction os with
  | nil => exact fun _ h => h
  | cons o os ih =>
    intro s h
    refine ih _ ?_
    split
    · split
      · exact keep_setF _ _ _ _ _ h
      · exact keep_queueFrame _ _ _ _ (keep_setB _ _ _ _ _ (keep_setF _ _ _ _ _ h))
    · exact h

theorem keep_loopTx : ∀ (s0 : State) (out : Nat → F64) (slot : Nat) (os : List (Nat × ObjCfg)) (s : State),
    Keep s0 s → Keep s0 (loopTx out slot os s) := by
  intro s0 out slot os
  induction os with
  | nil => exact fun _ h => h
  | cons o os ih =>
    intro s h
    refine ih _ ?_
    split
    · refine Keep.ite h (Keep.ite (h.same rfl rfl) ?_)
      split
      · exact h.same rfl rfl
      · exact keep_queueFrame _ _ _ _ (keep_setB _ _ _ _ _ (h.same rfl rfl))
    · exact h

theorem keep_itemUpdate : ∀ (s0 : State) (k : Nat) (it : SerItem) (fs : List (List Byte)) (l : Lane) (s : State),
    Keep s0 s → Keep s0 (itemUpdate k it fs l s) := by
  intro s0 k it fs l s h7; unfold itemUpdate; lift_lets; intro x0; intro x1; intro x2; intro x3; intro x4
  refine Keep.cut (P := Keep s0 x4) ?_ (fun hx4 => ?_); unfold x4; apply keep_setB; assumption; clear_value x4; split
  apply keep_setF; unfold x3; apply keep_onLane; assumption; lift_lets; intro x5; apply keep_setF; apply keep_setF
  apply keep_setF; unfold x3; apply keep_onLane; assumption

theorem keep_sentence : ∀ (s0 : State) (src : Nat) (tagSrc : List Byte) (fs : List (List Byte)) (s : State),
    Keep s0 s → Keep s0 (sentence src tagSrc fs s) := by
  intro s0 src tagSrc fs s h3; unfold sentence; apply keep_forEach; intro y0 y1 y2; apply Keep.ite; apply keep_readyLanes
  intro y3 y4 y5; apply keep_itemUpdate; assumption; assumption; assumption; assumption

theorem keep_portHeard : ∀ (s0 : State) (n : Nat) (s : State), Keep s0 s → Keep s0 (portHeard n s) := by
  intro s0 n s h4; unfold portHeard; apply keep_readyLanes; intro y0; intro y1; intro y2; apply keep_setF; assumption
  apply Keep.mk'; assumption

theorem keep_portFramed : ∀ (s0 : State) (n fr : Nat) (s : State), Keep s0 s → Keep s0 (portFramed n fr s) := by
  intro s0 n fr s h5; unfold portFramed; apply keep_readyLanes; intro y0; intro y1; intro y2; apply keep_setF; assumption
  assumption

theorem keep_execSerialSentence : ∀ (s0 : State) (t : Time) (n fr : Nat) (ch : List Byte) (s : State), Keep s0 s → KeepOut s0 (execSerialSentence t n fr ch s) := by
  intro s0 t n fr ch s h7; unfold execSerialSentence; apply keep_run; assumption; intro y0; intro y1; apply Keep.ite; assumption
  lift_lets; intro x2; refine Keep.cut (P := Keep s0 x2) ?_ (fun hx2 => ?_); unfold x2; apply keep_portHeard; assumption
  clear_value x2; apply Keep.ite; apply keep_portFramed; assumption; split; apply keep_sentence; assumption; apply keep_readyLanes
  intro y3; intro y4; intro y5; apply keep_incF; assumption; assumption; apply keep_readyLanes; intro y6; intro y7; intro y8
  apply keep_incF; assumption; assumption; assumption

theorem keep_datagramLines : ∀ (s0 : State) (ls : List (List Byte)) (s : State), Keep s0 s → Keep s0 (datagramLines ls s) := by
  intro s0 ls
  induction ls with
  | nil => exact fun _ h => h
  | cons ln ls ih =>
    intro s h
    cases ls with
    | nil => exact h
    | cons l2 ls =>
      refine ih _ ?_
      split
      · exact keep_sentence _ _ _ _ _ h
      · exact h

theorem keep_secondCopy (s0 : State) (rct : Option (BitVec 48 × BitVec 16)) (s : State) (h : Keep s0 s) : Keep s0 (secondCopy rct s).2 := by
  unfold secondCopy
  split
  · exact h
  · dsimp only
    split <;> exact h.same rfl rfl

theorem keep_execSentenceDatagram : ∀ (s0 : State) (t : Time) (grp : Nat) (rct : Option (BitVec 48 × BitVec 16)) (payload : List Byte) (s : State), Keep s0 s → KeepOut s0 (execSentenceDatagram t grp rct payload s) := by
  intro s0 t grp rct payload s h
  unfold execSentenceDatagram
  refine keep_run _ _ _ h _ (fun x hx => ?_)
  have h2 := keep_secondCopy s0 rct x hx
  dsimp only
  exact Keep.ite h2 (Keep.ite (keep_datagramLines _ _ _ h2) h2)

theorem keep_execSerialLineBreak : ∀ (s0 : State) (t : Time) (n : Nat) (brk : Bool) (s : State), Keep s0 s → KeepOut s0 (execSerialLineBreak t n brk s) := by
  intro s0 t n brk s h3; unfold execSerialLineBreak; apply keep_run; assumption; intro y0 y1; apply Keep.ite
  apply keep_readyLanes; intro y2 y3 y4; apply keep_setB; assumption; assumption; assumption

theorem keep_serCntClear : ∀ (s0 : State) (l : Lane) (s : State), Keep s0 s → Keep s0 (serCntClear l s) := by
  intro s0 l s h1; unfold serCntClear; apply keep_clrEach; apply keep_clrEach; apply keep_clrEach; assumption

theorem keep_expertEnds : ∀ (s0 : State) (s : State), Keep s0 s → Keep s0 (expertEnds s) := by
  intro s0 s h3; unfold expertEnds; apply keep_raise; assumption

theorem keep_putCompletion : ∀ (s0 : State) (l : Lane) (c : Nat) (e : List Byte) (s : State), Keep s0 s → Keep s0 (putCompletion l c e s) := by
  intro s0 l c e s h3; unfold putCompletion; apply Keep.ite; assumption; apply Keep.ite; apply keep_onRing; assumption
  apply keep_pushEntry; assumption

theorem keep_stationDgram : ∀ (s0 : State) (st port : Nat) (e : List Byte) (s : State), Keep s0 s → Keep s0 (stationDgram st port e s) := by
  intro s0 st port e s h6; unfold stationDgram; apply keep_prpSend; apply Keep.mk'; assumption

theorem keep_completeAt : ∀ (s0 : State) (ver : Word) (info : OrdInfo) (code detail : Nat) (eEff : Time) (res : List Byte) (buf : Bool) (s : State), Keep s0 s → Keep s0 (completeAt ver info code detail eEff res buf s) := by
  intro s0 ver info code detail eEff res buf s h
  have h1 := keep_emit _ (.complete info code detail) _ h
  unfold completeAt
  cases info.path with
  | pcie ep n => exact Keep.ite h1 (keep_putCompletion _ _ _ _ _ h1)
  | net st => exact Keep.ite h1 (keep_stationDgram _ _ _ _ _ h1)
  | can =>
    dsimp only
    split
    · exact keep_queueFrame _ _ _ _ (keep_setF _ _ _ _ _ h1)
    · exact keep_setF _ _ _ _ _ h1

theorem keep_complete : ∀ (s0 : State) (info : OrdInfo) (code detail : Nat) (eEff : Time) (res : List Byte) (buf : Bool) (s : State),
    Keep s0 s → Keep s0 (complete info code detail eEff res buf s) := by
  intro s0 info code detail eEff res buf s h9; unfold complete; apply keep_completeAt; assumption

theorem keep_showAuthStat : ∀ (s0 s : State), Keep s0 s → Keep s0 (showAuthStat s) := by
  intro s0 s h0; unfold showAuthStat; lift_lets; intro x0; apply keep_setF; apply keep_setB; apply keep_setB; apply keep_setF
  apply keep_setB; apply keep_setF; apply keep_setB; apply keep_wrK; assumption

theorem keep_showPending : ∀ (s0 s : State), Keep s0 s → Keep s0 (showPending s) := by
  intro s0 s h0; unfold showPending; lift_lets; intro x0 x1; apply keep_setB; apply keep_setB; apply keep_setF; apply keep_setB
  assumption

theorem keep_armSync : ∀ (s0 : State) (l : Lane) (u : Auth) (a : State), Keep s0 a → Keep s0 (armSync l u a) := by
  intro s0 l u _ h2; unfold armSync; apply keep_forEach; intro y0 y1 y2; apply Keep.ite; apply keep_setF; assumption
  apply Keep.ite; apply keep_setF; assumption; assumption; assumption

theorem keep_showJoy : ∀ (s0 s : State), Keep s0 s → Keep s0 (showJoy s) := by
  intro s0 s h0; unfold showJoy; apply keep_setB; assumption

theorem keep_showAuth : ∀ (s0 s : State), Keep s0 s → Keep s0 (showAuth s) := by
  intro s0 s h0; unfold showAuth; lift_lets; intro x0; refine Keep.cut (P := Keep s0 x0) ?_ (fun hx0 => ?_); unfold x0
  apply keep_showJoy; apply keep_showPending; apply keep_showAuthStat; assumption; clear_value x0; split; apply keep_armSync
  assumption; assumption

theorem keep_sendItem : ∀ (s0 : State) (it : MirItem) (s : State), Keep s0 s → Keep s0 (sendItem it s) := by
  intro s0 it s h1; unfold sendItem; apply Keep.ite; apply keep_emit; apply Keep.mk'; assumption; assumption

theorem keep_emitModule : ∀ (s0 : State) (it : MirItem) (s : State), Keep s0 s → Keep s0 (emitModule it s) := by
  intro s0 it s h4; unfold emitModule; apply keep_emit; apply Keep.mk'; assumption

theorem keep_sendModule : ∀ (s0 : State) (it : MirItem) (s : State), Keep s0 s → Keep s0 (sendModule it s) := by
  intro s0 it s h4; unfold sendModule; apply Keep.ite; apply Keep.ite; apply Keep.mk'; assumption; apply keep_emitModule
  assumption; assumption

theorem keep_flushModule : ∀ (s0 : State) (s : State), Keep s0 s → Keep s0 (flushModule s) := by
  intro s0 s h3; unfold flushModule; apply keep_forEach; intro y0; intro y1; intro y2; apply keep_emitModule; assumption
  apply Keep.mk'; assumption

theorem keep_authChange : ∀ (s0 : State) (f : Auth → Auth) (s : State), Keep s0 s → Keep s0 (authChange f s) := by
  intro s0 f s h4; unfold authChange; lift_lets; intro x0; intro x1; apply keep_bothLanes; intro y2; intro y3; intro y4
  apply keep_sysStat; assumption; apply keep_sendModule; apply keep_sendItem; apply keep_showAuth; apply Keep.mk'; assumption

theorem keep_sweepList : ∀ (s0 : State) (ws : List Wait) (s : State), Keep s0 s → Keep s0 (sweepList ws s) := by
  intro s0 ws
  induction ws with
  | nil => exact fun _ h => h
  | cons w ws ih =>
    intro s h
    refine ih _ ?_
    split
    · exact keep_completeAt _ _ _ _ _ _ _ _ _ (h.same rfl rfl)
    · exact h

theorem keep_sweep : ∀ (s0 s : State), Keep s0 s → Keep s0 (sweep s) := by
  intro s0 s h0; unfold sweep; apply keep_sweepList; assumption

theorem keep_finish : ∀ (s0 : State) (tkt code detail : Nat) (s : State), Keep s0 s → Keep s0 (finish tkt code detail s) := by
  intro s0 tkt code detail s h3; unfold finish; split; apply keep_complete; apply Keep.mk'; assumption; assumption

theorem keep_effected : ∀ (s0 : State) (tkt : Nat) (e : Time) (s : State), Keep s0 s → Keep s0 (effected tkt e s) := by
  intro s0 tkt e s h2; unfold effected; apply Keep.mk'; assumption

theorem keep_newWait : ∀ (s0 : State) (info : OrdInfo) (byAcc : Bool) (ver : Word) (s : State), Keep s0 s → Keep s0 (newWait info byAcc ver s) := by
  intro s0 info byAcc ver s h3; unfold newWait; apply Keep.mk'; assumption

theorem keep_conflict : ∀ (s0 : State) (st cls op : Nat) (s : State), Keep s0 s → Keep s0 (conflict st cls op s) := by
  intro s0 st cls op s h3; unfold conflict; apply keep_raise; assumption

theorem keep_dropOrder : ∀ (s0 : State) (p : PendOrd) (code : Nat) (s : State), Keep s0 s → Keep s0 (dropOrder p code s) := by
  intro s0 p code s h2; unfold dropOrder; lift_lets; intro x0; apply keep_finish; apply Keep.mk'; assumption

theorem keep_placeOrder : ∀ (s0 : State) (info : Option OrdInfo) (st : Nat) (t : Time) (v : OrdVal) (earliest : Time) (after : State → State),
    (∀ (a : State), Keep s0 a → Keep s0 (after a)) →
    ∀ (s : State), Keep s0 s → Keep s0 (placeOrder info st t v earliest after s).fst := by
  intro s0 info st t v earliest after h5 s h6; unfold placeOrder; lift_lets; intro x0 x1 x2
  refine Keep.cut (P := Keep s0 x2) ?_ (fun hx2 => ?_); unfold x2; apply keep_forEach; intro y3 y4 y5; apply keep_dropOrder
  apply keep_conflict; assumption; assumption; clear_value x2; intro x6 x7; refine Keep.cut (P := Keep s0 x7) ?_ (fun hx7 => ?_)
  unfold x7; apply keep_forEach; intro y8 y9 y10; apply keep_dropOrder; assumption; assumption; clear_value x7; intro x11 x12
  refine Keep.cut (P := Keep s0 x12) ?_ (fun hx12 => ?_); unfold x12; apply keep_authChange; refine h5 _ ?_; assumption
  clear_value x12; split; dsimp only; apply keep_conflict; assumption; dsimp only; split; apply keep_newWait; assumption
  apply Keep.mk'; assumption

theorem keep_arrive : ∀ (s0 : State) (o : Order) (s : State), Keep s0 s → Keep s0 (arrive o s).snd := by
  intro s0 o s h
  unfold arrive
  dsimp only
  split
  · exact h
  split
  · split
    · exact h
    split
    · exact keep_setF _ _ _ _ _ h
    split
    · exact h
    · exact keep_setF _ _ _ _ _ (keep_setF _ _ _ _ _ (keep_onLane _ _ _ _ h))
  · split
    · exact h.same rfl rfl
    · exact h
  · split <;> exact h

theorem keep_countReject : ∀ (s0 : State) (l : Lane) (s : State), Keep s0 s → Keep s0 (countReject l s) := by
  intro s0 l s h1; unfold countReject; apply keep_sysStat; apply keep_incF; assumption

theorem keep_signOfLife : ∀ (s0 : State) (st : Nat) (s : State), Keep s0 s → Keep s0 (signOfLife st s) := by
  intro s0 st s h1; unfold signOfLife; lift_lets; intro x0; apply Keep.ite; apply Keep.mk'; assumption; assumption

theorem keep_answer : ∀ (s0 : State) (info : OrdInfo) (r : State × Reply), Keep s0 r.1 → Keep s0 (answer info r) := by
  intro s0 info r h
  unfold answer
  split
  · exact keep_complete _ _ _ _ _ _ _ _ h
  · exact keep_sweep _ _ h

theorem keep_pairFail : ∀ (s0 s : State), Keep s0 s → ∀ (off : Nat), Keep s0 (pairFail s off) := by
  intro s0 s h0 off; unfold pairFail; apply keep_raise; assumption

theorem keep_answerAt : ∀ (s0 : State) (l : Lane) (info : OrdInfo) (r : State × Reply), Keep s0 r.1 → Keep s0 (answerAt l info r) := by
  intro s0 l info r h
  refine keep_answer _ _ _ ?_
  split
  · exact keep_when _ _ _ (fun y hy => keep_countReject _ _ _ hy) _ h
  · exact h

theorem keep_serveTaken : ∀ (s0 : State) (info : OrdInfo) (o : Order) (cls op : Nat) (used : List (Nat × Nat)) (pairs : List (Nat × Nat × Nat))
    (lcBad : Bool) (act : OrdInfo → State → State × Reply),
    (∀ (a : OrdInfo) (a_1 : State), Keep s0 a_1 → Keep s0 (act a a_1).fst) →
    ∀ (s : State), Keep s0 s → Keep s0 (serveTaken info o cls op used pairs lcBad act s) := by
  intro s0 info o cls op used pairs lcBad act ha s h
  unfold serveTaken
  dsimp only
  split
  · exact keep_answerAt _ _ _ _ (keep_when _ _ _ (fun y hy => keep_pairFail _ _ hy _) _ h)
  split
  · exact keep_answerAt _ _ _ _ (keep_when _ _ _ (fun y hy => keep_conflict _ _ _ _ _ hy) _ h)
  split
  · exact keep_answerAt _ _ _ _ (keep_pairFail _ _ h _)
  · refine keep_answerAt _ _ _ _ ?_
    split
    · exact keep_signOfLife _ _ _ (ha _ _ h)
    · exact ha _ _ h

theorem keep_serve : ∀ (s0 : State) (o : Order) (cls op : Nat) (used : List (Nat × Nat)) (pairs : List (Nat × Nat × Nat)) (lcBad : Bool)
    (act : OrdInfo → State → State × Reply), (∀ (i : OrdInfo) (s : State), Keep s0 s → Keep s0 (act i s).1) →
    ∀ (s : State), Keep s0 s → Keep s0 (serve o cls op used pairs lcBad act s) := by
  intro s0 o cls op used pairs lcBad act ha s h
  have h1 := keep_arrive _ o _ h
  unfold serve
  generalize arrive o s = r at h1
  obtain ⟨_ | info, s1⟩ := r
  · exact h1
  · exact keep_serveTaken _ _ _ _ _ _ _ _ _ ha _ h1

theorem keep_onBank : ∀ (s0 : State) (l : Lane) (net : Bool) (k : Nat) (f : Bank → Bank) (a : State), Keep s0 a → Keep s0 (onBank l net k f a) := by
  intro s0 l net k f _ h4; unfold onBank; apply keep_onLane; assumption

theorem keep_bankErr : ∀ (s0 : State) (l : Lane) (net : Bool) (k err : Nat) (s : State), Keep s0 s → Keep s0 (bankErr l net k err s) := by
  intro s0 l net k err s h4; unfold bankErr; apply Keep.ite; apply keep_setF; apply keep_setF; assumption; apply keep_setF
  apply keep_setF; assumption

theorem keep_doMode : ∀ (s0 : State) (o : Order) (info : OrdInfo) (s : State), Keep s0 s → Keep s0 (doMode o info s).fst := by
  intro s0 o info s h2; unfold doMode; lift_lets; intro x0; split; dsimp only; assumption; split; dsimp only; assumption; split
  dsimp only; assumption; apply keep_placeOrder; intro y1 y2; apply keep_powerFor; assumption; assumption

theorem keep_execMode : ∀ (s0 : State) (t : Time) (o : Order) (s : State), Keep s0 s → KeepOut s0 (execMode t o s) := by
  intro s0 t o s h2; unfold execMode; apply keep_run; assumption; intro y0 y1; apply keep_serve; intro y2 y3 y4
  apply keep_doMode; assumption; assumption

theorem keep_doSetpoint : ∀ (s0 : State) (o : Order) (info : OrdInfo) (s : State), Keep s0 s → Keep s0 (doSetpoint o info s).fst := by
  intro s0 o info s h2; unfold doSetpoint; lift_lets; intro x0; split; dsimp only; assumption; apply keep_placeOrder
  intro y1 y2; dsimp only [id]; assumption; assumption

theorem keep_execSetpoint : ∀ (s0 : State) (t : Time) (o : Order) (s : State), Keep s0 s → KeepOut s0 (execSetpoint t o s) := by
  intro s0 t o s h2; unfold execSetpoint; apply keep_run; assumption; intro y0 y1; apply keep_serve; intro y2 y3 y4
  apply keep_doSetpoint; assumption; assumption

theorem keep_doArm : ∀ (s0 : State) (o : Order) (info : OrdInfo) (s : State), Keep s0 s → Keep s0 (doArm o info s).fst := by
  intro s0 o info s h2; unfold doArm; lift_lets; intro x0 x1 x2; split; dsimp only; assumption; split; dsimp only; assumption
  split; dsimp only; apply Keep.ite; assumption; apply keep_bankErr; assumption; apply keep_placeOrder; intro y3 y4
  dsimp only [id]; assumption; assumption

theorem keep_execArm : ∀ (s0 : State) (t : Time) (o : Order) (s : State), Keep s0 s → KeepOut s0 (execArm t o s) := by
  intro s0 t o s h2; unfold execArm; apply keep_run; assumption; intro y0 y1; apply keep_serve; intro y2 y3 y4; apply keep_doArm
  assumption; assumption

theorem keep_doneNow : ∀ (s0 : State) (info : OrdInfo) (s : State), Keep s0 s → Keep s0 (doneNow info s).fst := by
  intro s0 info s h1; unfold doneNow; lift_lets; intro x0; dsimp only; apply keep_effected; apply keep_newWait; assumption

theorem keep_doDisarm : ∀ (s0 : State) (o : Order) (info : OrdInfo) (s : State), Keep s0 s → Keep s0 (doDisarm o info s).fst := by
  intro s0 o info s h2; unfold doDisarm; lift_lets; intro x0 x1 x2; split; dsimp only; assumption; split; dsimp only; assumption
  split; dsimp only; assumption; apply keep_doneNow; apply keep_authChange; apply keep_forEach; intro y3 y4 y5
  apply keep_dropOrder; assumption; assumption

theorem keep_execDisarm : ∀ (s0 : State) (t : Time) (o : Order) (s : State), Keep s0 s → KeepOut s0 (execDisarm t o s) := by
  intro s0 t o s h2; unfold execDisarm; apply keep_run; assumption; intro y0 y1; apply keep_serve; intro y2 y3 y4
  apply keep_doDisarm; assumption; assumption

theorem keep_doTrust : ∀ (s0 : State) (o : Order) (info : OrdInfo) (s : State), Keep s0 s → Keep s0 (doTrust o info s).fst := by
  intro s0 o info s h2; unfold doTrust; split; dsimp only; assumption; apply keep_placeOrder; intro y0 y1; dsimp only [id]
  assumption; assumption

theorem keep_execTrust : ∀ (s0 : State) (t : Time) (o : Order) (s : State), Keep s0 s → KeepOut s0 (execTrust t o s) := by
  intro s0 t o s h2; unfold execTrust; apply keep_run; assumption; intro y0 y1; apply keep_serve; intro y2 y3 y4
  apply keep_doTrust; assumption; assumption

theorem keep_doTrustclr : ∀ (s0 : State) (info : OrdInfo) (s : State), Keep s0 s → Keep s0 (doTrustclr info s).fst := by
  intro s0 info s h1; unfold doTrustclr; apply keep_placeOrder; intro y0 y1; dsimp only [id]; assumption; assumption

theorem keep_execTrustclr : ∀ (s0 : State) (t : Time) (o : Order) (s : State), Keep s0 s → KeepOut s0 (execTrustclr t o s) := by
  intro s0 t o s h2; unfold execTrustclr; apply keep_run; assumption; intro y0 y1; apply keep_serve; intro y2 y3 y4
  apply keep_doTrustclr; assumption; assumption

theorem keep_doDatum : ∀ (s0 : State) (o : Order) (info : OrdInfo) (s : State), Keep s0 s → Keep s0 (doDatum o info s).fst := by
  intro s0 o info s h2; unfold doDatum; lift_lets; intro x0 x1; split; dsimp only; assumption; split; dsimp only; assumption
  apply keep_placeOrder; intro y2 y3; dsimp only [id]; assumption; assumption

theorem keep_execDatum : ∀ (s0 : State) (t : Time) (o : Order) (s : State), Keep s0 s → KeepOut s0 (execDatum t o s) := by
  intro s0 t o s h2; unfold execDatum; apply keep_run; assumption; intro y0 y1; apply keep_serve; intro y2 y3 y4
  apply keep_doDatum; assumption; assumption

theorem keep_doSwap : ∀ (s0 : State) (info : OrdInfo) (s : State), Keep s0 s → Keep s0 (doSwap info s).fst := by
  intro s0 info s h1; unfold doSwap; apply keep_placeOrder; intro y0 y1; dsimp only [id]; assumption; assumption

theorem keep_execSwap : ∀ (s0 : State) (t : Time) (o : Order) (s : State), Keep s0 s → KeepOut s0 (execSwap t o s) := by
  intro s0 t o s h2; unfold execSwap; apply keep_run; assumption; intro y0 y1; apply keep_serve; intro y2 y3 y4
  apply keep_doSwap; assumption; assumption

theorem keep_tellHolder : ∀ (s0 : State) (st : Nat) (s : State), Keep s0 s → Keep s0 (tellHolder st s) := by
  intro s0 st s h1; unfold tellHolder; split; apply Keep.ite; apply keep_stationDgram; assumption; assumption; assumption

theorem keep_doRequest : ∀ (s0 : State) (info : OrdInfo) (s : State), Keep s0 s → Keep s0 (doRequest info s).fst := by
  intro s0 info s h1; unfold doRequest; lift_lets; intro x0 x1 x2; refine Keep.cut (P := Keep s0 x2) ?_ (fun hx2 => ?_)
  unfold x2; apply keep_authChange; assumption; clear_value x2; intro x3; refine Keep.cut (P := Keep s0 x3) ?_ (fun hx3 => ?_)
  unfold x3; apply keep_authChange; assumption; clear_value x3; intro x4; refine Keep.cut (P := Keep s0 x4) ?_ (fun hx4 => ?_)
  unfold x4; apply keep_bothLanes; intro y5 y6 y7; apply keep_sysStat; assumption; apply keep_raise; assumption; clear_value x4
  split; dsimp only; assumption; split; dsimp only; assumption; split; dsimp only; apply keep_newWait; assumption; dsimp only
  apply keep_newWait; apply keep_tellHolder; assumption

theorem keep_execRequest : ∀ (s0 : State) (t : Time) (o : Order) (s : State), Keep s0 s → KeepOut s0 (execRequest t o s) := by
  intro s0 t o s h2; unfold execRequest; apply keep_run; assumption; intro y0 y1; apply keep_serve; intro y2 y3 y4
  apply keep_doRequest; assumption; assumption

theorem keep_doGrant : ∀ (s0 : State) (o : Order) (info : OrdInfo) (s : State), Keep s0 s → Keep s0 (doGrant o info s).fst := by
  intro s0 o info s h2; unfold doGrant; lift_lets; intro x0; split; dsimp only; assumption; split; lift_lets; intro x1
  refine Keep.cut (P := Keep s0 x1) ?_ (fun hx1 => ?_); unfold x1; apply keep_authChange; assumption; clear_value x1; split
  dsimp only; apply keep_newWait; assumption; dsimp only; assumption; dsimp only; assumption

theorem keep_execGrant : ∀ (s0 : State) (t : Time) (o : Order) (s : State), Keep s0 s → KeepOut s0 (execGrant t o s) := by
  intro s0 t o s h2; unfold execGrant; apply keep_run; assumption; intro y0 y1; apply keep_serve; intro y2 y3 y4
  apply keep_doGrant; assumption; assumption

theorem keep_doDeny : ∀ (s0 : State) (o : Order) (info : OrdInfo) (s : State), Keep s0 s → Keep s0 (doDeny o info s).fst := by
  intro s0 o info s h2; unfold doDeny; split; dsimp only; assumption; split; split; apply keep_doneNow; apply keep_authChange
  apply keep_finish; assumption; dsimp only; assumption; dsimp only; assumption

theorem keep_execDeny : ∀ (s0 : State) (t : Time) (o : Order) (s : State), Keep s0 s → KeepOut s0 (execDeny t o s) := by
  intro s0 t o s h2; unfold execDeny; apply keep_run; assumption; intro y0 y1; apply keep_serve; intro y2 y3 y4
  apply keep_doDeny; assumption; assumption

theorem keep_doRelease : ∀ (s0 : State) (info : OrdInfo) (s : State), Keep s0 s → Keep s0 (doRelease info s).fst := by
  intro s0 info s h1; unfold doRelease; apply keep_placeOrder; intro y0 y1; dsimp only [id]; assumption; assumption

theorem keep_execRelease : ∀ (s0 : State) (t : Time) (o : Order) (s : State), Keep s0 s → KeepOut s0 (execRelease t o s) := by
  intro s0 t o s h2; unfold execRelease; apply keep_run; assumption; intro y0 y1; apply keep_serve; intro y2 y3 y4
  apply keep_doRelease; assumption; assumption

theorem keep_execKeepalive : ∀ (s0 : State) (t : Time) (o : Order) (s : State), Keep s0 s → KeepOut s0 (execKeepalive t o s) := by
  intro s0 t o s h2; unfold execKeepalive; apply keep_run; assumption; intro y0 y1; apply keep_serve; intro y2 y3 y4; dsimp only
  assumption; assumption

theorem keep_closeExpert : ∀ (s0 s : State), Keep s0 s → Keep s0 (closeExpert s) := by
  intro s0 s h0; unfold closeExpert; apply Keep.ite; apply keep_authChange; apply keep_raise; assumption; assumption

theorem keep_doExpertOn : ∀ (s0 : State) (info : OrdInfo) (s : State), Keep s0 s → Keep s0 (doExpertOn info s).fst := by
  intro s0 info s h1; unfold doExpertOn; lift_lets; intro x0; refine Keep.cut (P := Keep s0 x0) ?_ (fun hx0 => ?_); unfold x0
  apply Keep.ite; assumption; apply keep_raise; assumption; clear_value x0; dsimp only; apply keep_authChange; assumption

theorem keep_execExpertOn : ∀ (s0 : State) (t : Time) (o : Order) (s : State), Keep s0 s → KeepOut s0 (execExpertOn t o s) := by
  intro s0 t o s h2; unfold execExpertOn; apply keep_run; assumption; intro y0 y1; apply keep_serve; intro y2 y3 y4
  apply keep_doExpertOn; assumption; assumption

theorem keep_execExpertOff : ∀ (s0 : State) (t : Time) (o : Order) (s : State), Keep s0 s → KeepOut s0 (execExpertOff t o s) := by
  intro s0 t o s h2; unfold execExpertOff; apply keep_run; assumption; intro y0 y1; apply keep_serve; intro y2 y3 y4; dsimp only
  apply keep_closeExpert; assumption; assumption

theorem keep_execAuthorityRequestTimeout : ∀ (s0 : State) (t : Time) (s : State), Keep s0 s → KeepOut s0 (execAuthorityRequestTimeout t s) := by
  intro s0 t s h1; unfold execAuthorityRequestTimeout; apply keep_run; assumption; intro y0 y1; split; apply Keep.ite
  apply keep_authChange; apply keep_finish; assumption; assumption; assumption

theorem keep_execHolderSilence : ∀ (s0 : State) (t : Time) (s : State), Keep s0 s → KeepOut s0 (execHolderSilence t s) := by
  intro s0 t s h1; unfold execHolderSilence; apply keep_run; assumption; intro y0 y1; split; apply Keep.ite
  apply keep_authChange; apply keep_raise; assumption; assumption; assumption

theorem keep_execExpertSessionTimeout : ∀ (s0 : State) (t : Time) (s : State), Keep s0 s → KeepOut s0 (execExpertSessionTimeout t s) := by
  intro s0 t s h1; unfold execExpertSessionTimeout; apply keep_run; assumption; intro y0 y1; split; apply Keep.ite
  apply keep_closeExpert; assumption; assumption; assumption

theorem keep_onSaf : ∀ (s0 : State) (f : SafSt → SafSt) (s : State), Keep s0 s → Keep s0 (onSaf f s) := by
  intro s0 f s h1; unfold onSaf; apply Keep.mk'; assumption

theorem keep_onFn : ∀ (s0 : State) (f : Nat) (g : SafFn → SafFn) (a : State), Keep s0 a → Keep s0 (onFn f g a) := by
  intro s0 f g _ h2; unfold onFn; apply keep_onSaf; assumption

theorem keep_setFn : ∀ (s0 : State) (f st : Nat) (s : State), Keep s0 s → Keep s0 (setFn f st s) := by
  intro s0 f st s h2; unfold setFn; apply keep_setF; assumption

theorem keep_setBitF : ∀ (s0 : State) (f : Fld) (i : Nat) (b : Bool) (s : State), Keep s0 s → Keep s0 (setBitF f i b s) := by
  intro s0 f i b s h3; unfold setBitF; apply keep_setF; assumption

theorem keep_setOut : ∀ (s0 : State) (k : Nat) (b : Bool) (s : State), Keep s0 s → Keep s0 (setOut k b s) := by
  intro s0 k b s h2; unfold setOut; apply Keep.ite; assumption; apply keep_emit; apply keep_emit; apply keep_onSaf
  apply keep_setBitF; assumption

theorem keep_withChan : ∀ (s0 : State) (ch : SafChan) (s : State), Keep s0 s → Keep s0 (withChan ch s) := by
  intro s0 ch s h4; unfold withChan; apply keep_forEach; intro y0; intro y1; intro y2; apply keep_wrK; assumption; apply keep_wrK
  apply keep_wrK; apply Keep.mk'; assumption

theorem keep_runBoth : ∀ (s0 : State) (f g : State → State) (same : Bool) (s : State), (∀ (v0 : State), Keep s0 v0 → Keep s0 (f v0)) → (∀ (v0 : State), Keep s0 v0 → Keep s0 (g v0)) → Keep s0 s → Keep s0 (runBoth f g same s) := by
  intro s0 f g same s h6 h7 h8; unfold runBoth; lift_lets; intro x0; refine Keep.cut (P := Keep s0 x0) ?_ (fun hx0 => ?_)
  unfold x0; apply h6; assumption; clear_value x0; intro x1; refine Keep.cut (P := Keep s0 x1) ?_ (fun hx1 => ?_); unfold x1
  apply h7; apply keep_withChan; assumption; clear_value x1; apply Keep.ite; assumption; apply keep_onSaf; apply Keep.mk'
  assumption

theorem keep_both : ∀ (s0 : State) (f : State → State) (s : State), (∀ (v0 : State), Keep s0 v0 → Keep s0 (f v0)) → Keep s0 s → Keep s0 (both f s) := by
  intro s0 f s h4 h5; unfold both; apply keep_runBoth; intro y0; intro y1; apply h4; assumption; intro y2; intro y3; apply h4
  assumption; assumption

theorem keep_safFault : ∀ (s0 : State) (code res : Nat) (s : State), Keep s0 s → Keep s0 (safFault code res s) := by
  intro s0 code res s h2; unfold safFault; apply keep_raise; apply keep_incF; apply keep_setF; apply keep_setF; assumption

theorem keep_dropOuts : ∀ (s0 : State) (mask : Nat) (s : State), Keep s0 s → Keep s0 (dropOuts mask s) := by
  intro s0 mask s h1; unfold dropOuts; apply keep_forEach; intro y0 y1 y2; apply Keep.ite; apply keep_setOut; assumption
  assumption; assumption

theorem keep_lockPairFns : ∀ (s0 : State) (c : SafCfg) (k : Nat) (s : State), Keep s0 s → Keep s0 (lockPairFns c k s) := by
  intro s0 c k s h5; unfold lockPairFns; apply keep_forEach; intro y0; intro y1; intro y2; apply Keep.ite; lift_lets; intro x3
  apply keep_dropOuts; apply keep_setF; apply keep_setFn; apply keep_onFn; assumption; assumption; assumption

theorem keep_pairFault : ∀ (s0 : State) (c : SafCfg) (code k : Nat) (s : State), Keep s0 s → Keep s0 (pairFault c code k s) := by
  intro s0 c code k s h3; unfold pairFault; apply keep_lockPairFns; apply keep_safFault; assumption

theorem keep_lockInput : ∀ (s0 : State) (c : SafCfg) (i : Nat) (s : State), Keep s0 s → Keep s0 (lockInput c i s) := by
  intro s0 c i s h5; unfold lockInput; lift_lets; intro x0; refine Keep.cut (P := Keep s0 x0) ?_ (fun hx0 => ?_); unfold x0
  apply keep_setBitF; assumption; clear_value x0; apply Keep.ite; apply keep_lockPairFns; assumption; assumption

theorem keep_inputFault : ∀ (s0 : State) (c : SafCfg) (code i : Nat) (s : State), Keep s0 s → Keep s0 (inputFault c code i s) := by
  intro s0 c code i s h6; unfold inputFault; apply Keep.ite; assumption; apply keep_lockInput; apply keep_safFault; assumption

theorem keep_outFault : ∀ (s0 : State) (code k : Nat) (s : State), Keep s0 s → Keep s0 (outFault code k s) := by
  intro s0 code k s h5; unfold outFault; apply Keep.ite; assumption; apply keep_setOut; apply keep_onSaf; apply keep_setBitF
  apply keep_safFault; assumption

theorem keep_enterSafe : ∀ (s0 : State) (cause : Nat) (s : State), Keep s0 s → Keep s0 (enterSafe cause s) := by
  intro s0 cause s h4; unfold enterSafe; apply Keep.ite; assumption; apply keep_raise; apply keep_both; intro y0; intro y1
  apply keep_dropOuts; assumption; apply keep_setF; apply keep_safFault; assumption

theorem keep_safInputs : ∀ (s0 : State) (c : SafCfg) (img : BitVec 16) (s : State), Keep s0 s → Keep s0 (safInputs c img s) := by
  intro s0 c img s h5; unfold safInputs; lift_lets; intro x0; intro x1; intro x2
  refine Keep.cut (P := Keep s0 x2) ?_ (fun hx2 => ?_); unfold x2; apply keep_onSaf; assumption; clear_value x2
  apply keep_forEach; intro y3; intro y4; intro y5; apply Keep.ite; apply keep_setBitF; assumption; assumption; assumption

theorem keep_safPairStep : ∀ (s0 : State) (c : SafCfg) (k : Nat) (s : State), Keep s0 s → Keep s0 (safPairStep c k s) := by
  intro s0 c k s h2; unfold safPairStep; lift_lets; intro x0 x1 x2 x3 x4 x5 x6 x7
  refine Keep.cut (P := Keep s0 x7) ?_ (fun hx7 => ?_); unfold x7; apply keep_onSaf; assumption; clear_value x7; apply Keep.ite
  assumption; apply Keep.ite; apply keep_pairFault; assumption; assumption

theorem keep_trip : ∀ (s0 : State) (c : SafCfg) (f k : Nat) (s : State), Keep s0 s → Keep s0 (trip c f k s) := by
  intro s0 c f k s h3; unfold trip; lift_lets; intro x0 x1; refine Keep.cut (P := Keep s0 x1) ?_ (fun hx1 => ?_); unfold x1
  apply keep_raise; apply keep_incF; assumption; clear_value x1; apply Keep.ite; apply keep_setF; apply keep_setFn
  apply keep_onFn; assumption; apply keep_setFn; assumption

theorem keep_twoHand : ∀ (s0 : State) (c : SafCfg) (f : Nat) (s : State), Keep s0 s → Keep s0 (twoHand c f s) := by
  intro s0 c f s h
  have hf (g : SafFn → SafFn) := keep_onFn _ f g _ h
  unfold twoHand
  dsimp only
  split
  · exact Keep.ite (Keep.ite h (keep_trip _ _ _ _ _ (hf _))) <| Keep.ite h <| Keep.ite (Keep.ite (hf _) h) <|
      Keep.ite (Keep.ite (keep_setFn _ _ _ _ (hf _)) (keep_raise _ _ _ _ _ (hf _))) <| Keep.ite (Keep.ite (hf _) h) (hf _)
  · exact h

theorem keep_safFnStep : ∀ (s0 : State) (c : SafCfg) (f : Nat) (s : State), Keep s0 s → Keep s0 (safFnStep c f s) := by
  intro s0 c f s h2; unfold safFnStep; lift_lets; intro x0 x1 x2; refine Keep.cut (P := Keep s0 x2) ?_ (fun hx2 => ?_)
  unfold x2; apply Keep.ite; apply keep_onFn; assumption; assumption; clear_value x2; apply Keep.ite; assumption; apply Keep.ite
  apply keep_twoHand; assumption; split; apply Keep.ite; assumption; apply keep_trip; assumption; apply keep_setF; assumption
  apply Keep.ite; assumption; apply Keep.ite; apply keep_setFn; assumption; apply keep_setFn; apply keep_onFn; assumption
  apply Keep.ite; apply keep_setFn; assumption; assumption; assumption

theorem keep_unlockOut : ∀ (s0 : State) (k : Nat) (s : State), Keep s0 s → Keep s0 (unlockOut k s) := by
  intro s0 k s h4; unfold unlockOut; apply keep_setBitF; apply keep_onSaf; assumption

theorem keep_clearLockouts : ∀ (s0 : State) (c : SafCfg) (s : State), Keep s0 s → Keep s0 (clearLockouts c s) := by
  intro s0 c s h4; unfold clearLockouts; lift_lets; intro x0; refine Keep.cut (P := Keep s0 x0) ?_ (fun hx0 => ?_); unfold x0
  apply keep_forEach; intro y1; intro y2; intro y3; apply Keep.ite; apply keep_setBitF; assumption; assumption; assumption
  clear_value x0; intro x4; refine Keep.cut (P := Keep s0 x4) ?_ (fun hx4 => ?_); unfold x4; apply keep_forEach; intro y5
  intro y6; intro y7; apply Keep.ite; apply keep_unlockOut; assumption; assumption; assumption; clear_value x4; apply keep_forEach
  intro y8; intro y9; intro y10; lift_lets; intro x11; intro x12; refine Keep.cut (P := Keep s0 x12) ?_ (fun hx12 => ?_)
  unfold x12; apply keep_onFn; assumption; clear_value x12; apply Keep.ite; apply Keep.ite; apply keep_setFn; apply keep_onFn
  assumption; assumption; assumption; assumption

theorem keep_press : ∀ (s0 : State) (c : SafCfg) (i : Nat) (s : State), Keep s0 s → Keep s0 (press c i s) := by
  intro s0 c i s h2; unfold press; lift_lets; intro x0; refine Keep.cut (P := Keep s0 x0) ?_ (fun hx0 => ?_); unfold x0
  apply Keep.ite; apply keep_clearLockouts; assumption; assumption; clear_value x0; intro x1 x2; apply Keep.ite
  apply keep_raise; apply keep_forEach; intro y3 y4 y5; apply keep_setFn; apply keep_onFn; assumption; assumption; assumption

theorem keep_safReset : ∀ (s0 : State) (c : SafCfg) (i : Nat) (s : State), Keep s0 s → Keep s0 (safReset c i s) := by
  intro s0 c i s h5; unfold safReset; apply Keep.ite; assumption; apply Keep.ite; apply keep_onSaf; assumption; apply Keep.ite
  apply Keep.ite; assumption; apply keep_onSaf; assumption; lift_lets; intro x0
  refine Keep.cut (P := Keep s0 x0) ?_ (fun hx0 => ?_); unfold x0; apply keep_onSaf; assumption; clear_value x0; split; lift_lets
  intro x1; apply Keep.ite; apply keep_press; assumption; assumption; assumption

theorem keep_safRequests : ∀ (s0 : State) (bad : Byte) (s : State), Keep s0 s → Keep s0 (safRequests bad s) := by
  intro s0 bad s h1; unfold safRequests; lift_lets; intro x0 x1 x2 x3 x4 x5
  refine Keep.cut (P := Keep s0 x5) ?_ (fun hx5 => ?_); unfold x5; apply keep_forEach; intro y6 y7 y8; apply Keep.ite
  apply keep_raise; assumption; assumption; assumption; clear_value x5; intro x9
  refine Keep.cut (P := Keep s0 x9) ?_ (fun hx9 => ?_); unfold x9; apply keep_onSaf; assumption; clear_value x9; intro x10
  refine Keep.cut (P := Keep s0 x10) ?_ (fun hx10 => ?_); unfold x10; apply keep_setB; apply keep_when; intro y11 y12
  apply keep_setF; assumption; assumption; clear_value x10; intro x13; apply keep_setF; assumption

theorem keep_safReadback : ∀ (s0 : State) (cmd : Nat → (Bool × Time) × (Bool × Time)) (a b : Byte) (k : Nat) (s : State), Keep s0 s → Keep s0 (safReadback cmd a b k s) := by
  intro s0 cmd h3 b k s h7; unfold safReadback; split; apply keep_outFault; assumption; assumption

theorem keep_safCycle : ∀ (s0 : State) (c : SafCfg) (x : SafIn) (cmd : Nat → (Bool × Time) × (Bool × Time)) (s : State), Keep s0 s → Keep s0 (safCycle c x cmd s) := by
  intro s0 c x cmd s h6; unfold safCycle; lift_lets; intro x0; refine Keep.cut (P := Keep s0 x0) ?_ (fun hx0 => ?_); unfold x0
  apply keep_onSaf; apply keep_safInputs; assumption; clear_value x0; intro x1
  refine Keep.cut (P := Keep s0 x1) ?_ (fun hx1 => ?_); unfold x1; apply keep_forEach; intro y2; intro y3; intro y4
  apply keep_safReadback; assumption; assumption; clear_value x1; intro x5; refine Keep.cut (P := Keep s0 x5) ?_ (fun hx5 => ?_)
  unfold x5; apply keep_forEach; intro y6; intro y7; intro y8; apply keep_safPairStep; assumption; assumption; clear_value x5
  intro x9; refine Keep.cut (P := Keep s0 x9) ?_ (fun hx9 => ?_); unfold x9; apply keep_safRequests; assumption; clear_value x9
  intro x10; refine Keep.cut (P := Keep s0 x10) ?_ (fun hx10 => ?_); unfold x10; apply keep_forEach; intro y11; intro y12
  intro y13; apply keep_safFnStep; assumption; assumption; clear_value x10; intro x14
  refine Keep.cut (P := Keep s0 x14) ?_ (fun hx14 => ?_); unfold x14; apply keep_forEach; intro y15; intro y16; intro y17
  apply keep_safReset; assumption; assumption; clear_value x14; apply keep_forEach; intro y18; intro y19; intro y20
  apply keep_setOut; assumption; assumption

theorem keep_safWatch : ∀ (s0 : State) (x : SafIn) (cmd : Nat → (Bool × Time) × (Bool × Time)) (s : State), Keep s0 s → Keep s0 (safWatch x cmd s) := by
  intro s0 x cmd s h5; unfold safWatch; lift_lets; intro x0; refine Keep.cut (P := Keep s0 x0) ?_ (fun hx0 => ?_); unfold x0
  apply keep_onSaf; apply keep_safInputs; assumption; clear_value x0; apply keep_safRequests; apply keep_forEach; intro y1
  intro y2; intro y3; apply keep_safReadback; assumption; assumption

theorem keep_execSafetyCycle : ∀ (s0 : State) (t : Time) (x y : SafIn) (s : State), Keep s0 s → KeepOut s0 (execSafetyCycle t x y s) := by
  intro s0 t x y s h6; unfold execSafetyCycle; apply keep_run; assumption; intro y0; intro y1; lift_lets; intro x2; intro x3
  intro x4; refine Keep.cut (P := Keep s0 x4) ?_ (fun hx4 => ?_); unfold x4; apply keep_onSaf; assumption; clear_value x4
  apply Keep.ite; apply keep_enterSafe; assumption; apply Keep.ite; apply keep_enterSafe; assumption; apply Keep.ite
  apply keep_enterSafe; assumption; split; apply keep_runBoth; intro y5; intro y6; apply keep_safCycle; assumption; intro y7
  intro y8; apply keep_safCycle; assumption; assumption; apply keep_runBoth; intro y9; intro y10; apply keep_safWatch; assumption
  intro y11; intro y12; apply keep_safWatch; assumption; assumption

theorem keep_safRun : ∀ (s0 : State) (t : Time) (s : State),
    Keep s0 s →
    ∀ (f : SafCfg → State → State),
    (∀ (a : SafCfg) (a_1 : State), Keep s0 a_1 → Keep s0 (f a a_1)) → KeepOut s0 (safRun t s f) := by
  intro s0 t s h1 f h2; unfold safRun; apply keep_run; assumption; intro y0 y1; split; apply Keep.ite; refine h2 _ _ ?_
  assumption; assumption; assumption

theorem keep_pulseChecks : ∀ (s0 : State) (c : SafCfg) (src : Nat) (lvl : BitVec 16) (s : State), Keep s0 s → Keep s0 (pulseChecks c src lvl s) := by
  intro s0 c src lvl s h6; unfold pulseChecks; lift_lets; intro x0; intro x1; intro x2
  refine Keep.cut (P := Keep s0 x2) ?_ (fun hx2 => ?_); unfold x2; apply keep_onSaf; assumption; clear_value x2
  apply keep_forEach; intro y3; intro y4; intro y5; lift_lets; intro x6; refine Keep.cut (P := Keep s0 x6) ?_ (fun hx6 => ?_)
  unfold x6; apply keep_onSaf; assumption; clear_value x6; apply Keep.ite; assumption; apply Keep.ite; apply Keep.ite
  apply keep_inputFault; assumption; apply Keep.ite; apply keep_lockInput; assumption; assumption; apply Keep.ite
  apply keep_inputFault; assumption; assumption; assumption

theorem keep_execTestPulse : ∀ (s0 : State) (t : Time) (src : Nat) (lvl : BitVec 16) (s : State), Keep s0 s → KeepOut s0 (execTestPulse t src lvl s) := by
  intro s0 t src lvl s h6; unfold execTestPulse; apply keep_safRun; assumption; intro y0; intro y1; intro y2; lift_lets; intro x3
  apply Keep.ite; assumption; apply keep_both; intro y4; intro y5; apply keep_pulseChecks; assumption; apply keep_emit
  apply keep_emit; apply keep_onSaf; assumption

theorem keep_execOutputOffPulse : ∀ (s0 : State) (t : Time) (k : Nat) (b below : Bool) (s : State),
    Keep s0 s → KeepOut s0 (execOutputOffPulse t k b below s) := by
  intro s0 t k b below s h7; unfold execOutputOffPulse; apply keep_safRun; assumption; intro y0; intro y1; intro y2; lift_lets
  intro x3; intro x4; intro x5; refine Keep.cut (P := Keep s0 x5) ?_ (fun hx5 => ?_); unfold x5; apply keep_emit; apply keep_onSaf
  assumption; clear_value x5; apply Keep.ite; assumption; apply Keep.ite; apply keep_emit; assumption; apply keep_both; intro y6
  intro y7; apply keep_outFault; assumption; assumption

theorem keep_discrepancy : ∀ (s0 : State) (c : SafCfg) (k : Nat) (s : State), Keep s0 s → Keep s0 (discrepancy c k s) := by
  intro s0 c k s h5; unfold discrepancy; split; apply Keep.ite; apply keep_pairFault; apply keep_onSaf; assumption; assumption
  assumption

theorem keep_execDiscrepancyTimeout : ∀ (s0 : State) (t : Time) (k : Nat) (s : State), Keep s0 s → KeepOut s0 (execDiscrepancyTimeout t k s) := by
  intro s0 t k s h5; unfold execDiscrepancyTimeout; apply keep_safRun; assumption; intro y0; intro y1; intro y2; apply keep_both
  intro y3; intro y4; apply keep_discrepancy; assumption; assumption

theorem keep_delayEnd : ∀ (s0 : State) (c : SafCfg) (f : Nat) (s : State), Keep s0 s → Keep s0 (delayEnd c f s) := by
  intro s0 c f s h5; unfold delayEnd; apply Keep.ite; lift_lets; intro x0; refine Keep.cut (P := Keep s0 x0) ?_ (fun hx0 => ?_)
  unfold x0; apply keep_setF; apply keep_setFn; assumption; clear_value x0; apply keep_forEach; intro y1; intro y2; intro y3
  apply Keep.ite; apply keep_setOut; assumption; assumption; assumption; assumption

theorem keep_execCategory1DelayEnd : ∀ (s0 : State) (t : Time) (f : Nat) (s : State), Keep s0 s → KeepOut s0 (execCategory1DelayEnd t f s) := by
  intro s0 t f s h5; unfold execCategory1DelayEnd; apply keep_safRun; assumption; intro y0; intro y1; intro y2; apply keep_both
  intro y3; intro y4; apply keep_delayEnd; assumption; assumption

theorem keep_resetHeld : ∀ (s0 : State) (c : SafCfg) (i : Nat) (s : State), Keep s0 s → Keep s0 (resetHeld c i s) := by
  intro s0 c i s h5; unfold resetHeld; split; apply Keep.ite; apply keep_safFault; apply keep_onSaf; assumption; assumption
  assumption

theorem keep_execResetHeld : ∀ (s0 : State) (t : Time) (i : Nat) (s : State), Keep s0 s → KeepOut s0 (execResetHeld t i s) := by
  intro s0 t i s h5; unfold execResetHeld; apply keep_safRun; assumption; intro y0; intro y1; intro y2; apply keep_both; intro y3
  intro y4; apply keep_resetHeld; assumption; assumption

theorem keep_edmCheck : ∀ (s0 : State) (c : SafCfg) (k : Nat) (s : State), Keep s0 s → Keep s0 (edmCheck c k s) := by
  intro s0 c k s h5; unfold edmCheck; lift_lets; intro x0; apply Keep.ite; apply keep_outFault; assumption; assumption

theorem keep_execEdmTimeout : ∀ (s0 : State) (t : Time) (k : Nat) (s : State), Keep s0 s → KeepOut s0 (execEdmTimeout t k s) := by
  intro s0 t k s h5; unfold execEdmTimeout; apply keep_safRun; assumption; intro y0; intro y1; intro y2; apply keep_both; intro y3
  intro y4; apply keep_edmCheck; assumption; assumption

theorem keep_requestStable : ∀ (s0 : State) (k : Nat) (s : State), Keep s0 s → Keep s0 (requestStable k s) := by
  intro s0 k s h4; unfold requestStable; apply Keep.ite; apply keep_setBitF; assumption; assumption

theorem keep_execRequestStable : ∀ (s0 : State) (t : Time) (k : Nat) (s : State), Keep s0 s → KeepOut s0 (execRequestStable t k s) := by
  intro s0 t k s h5; unfold execRequestStable; apply keep_run; assumption; intro y0; intro y1; apply keep_both; intro y2; intro y3
  apply keep_requestStable; assumption; assumption

theorem keep_requestHoldEnd : ∀ (s0 : State) (s : State), Keep s0 s → Keep s0 (requestHoldEnd s) := by
  intro s0 s h3; unfold requestHoldEnd; split; apply Keep.ite; apply keep_setF; apply keep_onSaf; assumption; assumption
  assumption

theorem keep_execRequestHoldEnd : ∀ (s0 : State) (t : Time) (s : State), Keep s0 s → KeepOut s0 (execRequestHoldEnd t s) := by
  intro s0 t s h4; unfold execRequestHoldEnd; apply keep_run; assumption; intro y0; intro y1; apply keep_both; intro y2; intro y3
  apply keep_requestHoldEnd; assumption; assumption

theorem keep_execOutputShortTrip : ∀ (s0 : State) (t : Time) (k : Nat) (b : Bool) (s : State), Keep s0 s → KeepOut s0 (execOutputShortTrip t k b s) := by
  intro s0 t k b s h6; unfold execOutputShortTrip; apply keep_safRun; assumption; intro y0; intro y1; intro y2; apply Keep.ite
  apply keep_emit; apply keep_both; intro y3; intro y4; apply keep_outFault; assumption; assumption; assumption

theorem keep_execRomCheck : ∀ (s0 : State) (t : Time) (ok : Bool) (s : State), Keep s0 s → KeepOut s0 (execRomCheck t ok s) := by
  intro s0 t ok s h2; unfold execRomCheck; apply keep_run; assumption; intro y0 y1; apply Keep.ite; assumption
  apply keep_enterSafe; assumption

theorem keep_execRamTest : ∀ (s0 : State) (t : Time) (ok : Bool) (s : State), Keep s0 s → KeepOut s0 (execRamTest t ok s) := by
  intro s0 t ok s h2; unfold execRamTest; apply keep_run; assumption; intro y0 y1; apply Keep.ite; assumption
  apply keep_enterSafe; assumption

theorem keep_showSafCfg : ∀ (s0 s : State), Keep s0 s → Keep s0 (showSafCfg s) := by
  intro s0 s h3; unfold showSafCfg; lift_lets; intro x0; split; apply keep_forEach; intro y1; intro y2; intro y3; apply keep_setF
  assumption; apply keep_setF; apply keep_setF; unfold x0; apply keep_wrK; apply keep_wrK; apply keep_wrK; apply keep_wrK
  assumption; lift_lets; intro x4; refine Keep.cut (P := Keep s0 x4) ?_ (fun hx4 => ?_); unfold x4; apply keep_setF; unfold x0
  apply keep_wrK; apply keep_wrK; apply keep_wrK; apply keep_wrK; assumption; clear_value x4; intro x5
  refine Keep.cut (P := Keep s0 x5) ?_ (fun hx5 => ?_); unfold x5; apply keep_forEach; intro y6; intro y7; intro y8
  apply keep_setBitF; assumption; assumption; clear_value x5; apply keep_forEach; intro y9; intro y10; intro y11; apply keep_setF
  assumption; assumption

theorem keep_safStart : ∀ (s0 : State) (c : SafCfg) (s : State), Keep s0 s → Keep s0 (safStart c s) := by
  intro s0 c s h1; unfold safStart; lift_lets; intro x0; refine Keep.cut (P := Keep s0 x0) ?_ (fun hx0 => ?_); unfold x0
  apply keep_onSaf; assumption; clear_value x0; intro x1; refine Keep.cut (P := Keep s0 x1) ?_ (fun hx1 => ?_); unfold x1
  apply keep_setF; apply keep_setF; assumption; clear_value x1; apply keep_forEach; intro y2 y3 y4; apply keep_setF
  apply keep_setFn; assumption; assumption

theorem keep_execSafetyConfigCheck : ∀ (s0 : State) (t : Time) (s : State), Keep s0 s → KeepOut s0 (execSafetyConfigCheck t s) := by
  intro s0 t s h4; unfold execSafetyConfigCheck; apply keep_run; assumption; intro y0; intro y1; split; assumption; lift_lets
  intro x2; intro x3; refine Keep.cut (P := Keep s0 x3) ?_ (fun hx3 => ?_); unfold x3; apply keep_setF; apply keep_setF
  apply keep_onSaf; assumption; clear_value x3; intro x4; intro x5; refine Keep.cut (P := Keep s0 x5) ?_ (fun hx5 => ?_)
  unfold x5; apply keep_onSaf; assumption; clear_value x5; intro x6; refine Keep.cut (P := Keep s0 x6) ?_ (fun hx6 => ?_)
  unfold x6; apply keep_both; intro y7; intro y8; apply keep_safStart; apply keep_showSafCfg; apply keep_dropOuts; assumption
  assumption; clear_value x6; intro x9; refine Keep.cut (P := Keep s0 x9) ?_ (fun hx9 => ?_); unfold x9; apply Keep.ite
  apply keep_clearAlarm; apply keep_setF; assumption; assumption; clear_value x9; apply Keep.ite; assumption; apply keep_raise
  apply keep_raise; assumption

theorem keep_execIslandSelfTest : ∀ (s0 : State) (t : Time) (xOk yOk pairOk : Bool) (s : State),
    Keep s0 s → KeepOut s0 (execIslandSelfTest t xOk yOk pairOk s) := by
  intro s0 t xOk yOk pairOk s h7; unfold execIslandSelfTest; apply keep_run; assumption; intro y0; intro y1; apply Keep.ite
  assumption; lift_lets; intro x2; refine Keep.cut (P := Keep s0 x2) ?_ (fun hx2 => ?_); unfold x2; apply keep_setB
  apply keep_setB; assumption; clear_value x2; intro x3; intro x4; intro x5; refine Keep.cut (P := Keep s0 x5) ?_ (fun hx5 => ?_)
  unfold x5; apply keep_setF; assumption; clear_value x5; intro x6; apply Keep.ite; apply keep_enterSafe; assumption
  apply Keep.ite; apply keep_raiseAlarm; apply keep_showSafCfg; apply keep_onSaf; apply keep_setF; assumption; apply keep_both
  intro y7; intro y8; apply keep_safStart; apply keep_showSafCfg; assumption; apply keep_onSaf; apply keep_setF; assumption

theorem keep_showBank : ∀ (s0 : State) (l : Lane) (net : Bool) (k : Nat) (s : State), Keep s0 s → Keep s0 (showBank l net k s) := by
  intro s0 l net k s h3; unfold showBank; lift_lets; intro x0 x1 x2 x3; apply Keep.ite; assumption; split; apply keep_wrK
  apply keep_wrK; apply keep_wrK; apply keep_wrK; assumption; apply keep_wrK; apply keep_wrK; apply keep_wrK; apply keep_wrK
  assumption

theorem keep_setBankSt : ∀ (s0 : State) (l : Lane) (net : Bool) (k st : Nat) (s : State), Keep s0 s → Keep s0 (setBankSt l net k st s) := by
  intro s0 l net k st s h4; unfold setBankSt; apply keep_showBank; apply keep_setF; assumption

theorem keep_verifDone : ∀ (s0 : State) (l : Lane) (net : Bool) (s : State), Keep s0 s → Keep s0 (verifDone l net s) := by
  intro s0 l net s h2; unfold verifDone; apply Keep.ite; assumption; apply keep_setF; assumption

theorem keep_doLoadPkg : ∀ (s0 : State) (net : Bool) (o : Order) (b : HostBuf) (x : OrdInfo) (s : State),
    Keep s0 s → Keep s0 (doLoadPkg net o b x s).fst := by
  intro s0 net o b x s h7; unfold doLoadPkg; lift_lets; intro x0; intro x1; intro x2; intro x3; intro x4; intro x5; split
  dsimp only; assumption; split; dsimp only; assumption; split; dsimp only; apply keep_bankErr; assumption; split; dsimp only
  assumption; split; dsimp only; assumption; dsimp only; apply keep_onFlash; apply keep_verifDone; apply keep_setBankSt
  apply keep_onBank; assumption

theorem keep_execLoadModel : ∀ (s0 : State) (t : Time) (o : Order) (b : HostBuf) (s : State), Keep s0 s → KeepOut s0 (execLoadModel t o b s) := by
  intro s0 t o b s h3; unfold execLoadModel; apply keep_run; assumption; intro y0 y1; apply keep_serve; intro y2 y3 y4
  apply keep_doLoadPkg; assumption; assumption

theorem keep_execLoadNetwork : ∀ (s0 : State) (t : Time) (o : Order) (b : HostBuf) (s : State), Keep s0 s → KeepOut s0 (execLoadNetwork t o b s) := by
  intro s0 t o b s h3; unfold execLoadNetwork; apply keep_run; assumption; intro y0 y1; apply keep_serve; intro y2 y3 y4
  apply keep_doLoadPkg; assumption; assumption

theorem keep_readBank : ∀ (s0 : State) (l : Lane) (net : Bool) (k : Nat) (s : State), Keep s0 s → Keep s0 (readBank l net k s) := by
  intro s0 l net k s h6; unfold readBank; apply keep_onFlash; assumption

theorem keep_afterReset : ∀ (s0 : State) (l : Lane) (net : Bool) (k : Nat) (ok : Bool) (s : State), Keep s0 s → Keep s0 (afterReset l net k ok s) := by
  intro s0 l net k ok s h4; unfold afterReset; lift_lets; intro x0 x1; split; apply Keep.ite; apply keep_setBankSt; assumption
  apply Keep.ite; apply Keep.ite; apply keep_setBankSt; assumption; apply keep_raise; apply keep_setBankSt; assumption
  apply keep_setBankSt; assumption; apply keep_setBankSt; assumption

theorem keep_bankOutcome : ∀ (s0 : State) (l : Lane) (net : Bool) (k err : Nat) (m : Option PkgData) (n : Option NetData) (s : State),
    Keep s0 s → Keep s0 (bankOutcome l net k err m n s) := by
  intro s0 l net k err m n s h9; unfold bankOutcome; lift_lets; intro x0; intro x1; intro x2; intro x3; intro x4
  refine Keep.cut (P := Keep s0 x4) ?_ (fun hx4 => ?_); unfold x4; apply Keep.ite; assumption; apply keep_bankErr; assumption
  clear_value x4; intro x5; refine Keep.cut (P := Keep s0 x5) ?_ (fun hx5 => ?_); unfold x5; unfold x3; apply keep_onBank
  assumption; clear_value x5; intro x6; refine Keep.cut (P := Keep s0 x6) ?_ (fun hx6 => ?_); unfold x6; apply keep_verifDone
  unfold x3; apply keep_onBank; assumption; clear_value x6; intro x7; refine Keep.cut (P := Keep s0 x7) ?_ (fun hx7 => ?_)
  unfold x7; apply Keep.ite; assumption; apply keep_raise; assumption; clear_value x7; intro x8; intro x9
  refine Keep.cut (P := Keep s0 x9) ?_ (fun hx9 => ?_); unfold x9; apply keep_setBankSt; assumption; clear_value x9
  apply Keep.ite; apply Keep.ite; apply keep_setBankSt; assumption; assumption; apply Keep.ite; apply Keep.ite; apply keep_when
  intro y10; intro y11; apply keep_raise; assumption; apply keep_verifDone; apply keep_onBank; assumption; apply keep_afterReset
  assumption; apply Keep.ite; apply Keep.ite; apply keep_setBankSt; apply keep_onBank; assumption; assumption; apply Keep.ite
  assumption; apply Keep.ite; apply Keep.ite; apply keep_authChange; apply keep_forEach; intro y12; intro y13; intro y14
  apply keep_dropOrder; assumption; assumption; assumption; apply Keep.ite; apply keep_setBankSt; assumption; assumption

theorem keep_execPackageVerified : ∀ (s0 : State) (t : Time) (l : Lane) (kind : PkgKind) (bank : Nat) (s : State),
    Keep s0 s → KeepOut s0 (execPackageVerified t l kind bank s) := by
  intro s0 t l kind bank s h7; unfold execPackageVerified; apply keep_runLane; assumption; intro y0; intro y1; apply Keep.ite
  assumption; lift_lets; intro x2; intro x3; intro x4; intro x5; apply Keep.ite; assumption; apply Keep.ite
  apply keep_bankOutcome; assumption; apply Keep.ite; apply keep_bankOutcome; apply keep_readBank; assumption
  apply keep_bankOutcome; apply keep_readBank; assumption

theorem keep_onSlv : ∀ (s0 : State) (l : Lane) (f : SlvSt → SlvSt) (a : State), Keep s0 a → Keep s0 (onSlv l f a) := by
  intro s0 l f _ h2; unfold onSlv; apply keep_onLane; assumption

theorem keep_asmShow : ∀ (s0 : State) (l : Lane) (fault : Nat) (s : State), Keep s0 s → Keep s0 (asmShow l fault s) := by
  intro s0 l fault s h2; unfold asmShow; lift_lets; intro x0; apply keep_setF; apply keep_setF; apply keep_setF; assumption

theorem keep_asmFault : ∀ (s0 : State) (l : Lane) (code data : Nat) (s : State), Keep s0 s → Keep s0 (asmFault l code data s) := by
  intro s0 l code data s h3; unfold asmFault; apply keep_raise; apply keep_asmShow; apply keep_onSlv; assumption

theorem keep_asmStep : ∀ (s0 : State) (t : Time) (op : AsmOp) (i : AsmI) (f : AsmCtx → AsmOut) (s : State),
    Keep s0 s → KeepOut s0 (asmStep t op i f s) := by
  intro s0 t op i f s h4; unfold asmStep; apply keep_run; assumption; intro y0 y1; split; assumption; lift_lets; intro x2 x3 x4
  refine Keep.cut (P := Keep s0 x4) ?_ (fun hx4 => ?_); unfold x4; apply keep_onSlv; assumption; clear_value x4; split
  assumption; apply Keep.ite; assumption; split; apply keep_onSlv; assumption; apply keep_asmFault; assumption
  apply keep_asmFault; assumption

theorem keep_execLdm : ∀ (s0 : State) (t : Time) (i : AsmI) (s : State), Keep s0 s → KeepOut s0 (execLdm t i s) := by
  intro s0 t i s h2; unfold execLdm; apply keep_asmStep; assumption

theorem keep_execLds : ∀ (s0 : State) (t : Time) (i : AsmI) (s : State), Keep s0 s → KeepOut s0 (execLds t i s) := by
  intro s0 t i s h2; unfold execLds; apply keep_asmStep; assumption

end Sys2Proof.Machine
end

