-- ==== Sys2Proof/Laws/KeepUnits.lean ====
section
/-!
SUPPORT. Each operation keeps the queue and the canonical register file: units: buses, the safety island, the solver and fusion. The proofs follow the cases of the definitions.
-/

namespace Sys2Proof.Machine

theorem keep_execLdp : ∀ (s0 : State) (t : Time) (i : AsmI) (s : State), Keep s0 s → KeepOut s0 (execLdp t i s) := by
  intro s0 t i s h2; unfold execLdp; apply keep_asmStep; assumption

theorem keep_execItp : ∀ (s0 : State) (t : Time) (i : AsmI) (s : State), Keep s0 s → KeepOut s0 (execItp t i s) := by
  intro s0 t i s h2; unfold execItp; apply keep_asmStep; assumption

theorem keep_execMad : ∀ (s0 : State) (t : Time) (i : AsmI) (s : State), Keep s0 s → KeepOut s0 (execMad t i s) := by
  intro s0 t i s h2; unfold execMad; apply keep_asmStep; assumption

theorem keep_execFop : ∀ (s0 : State) (t : Time) (i : AsmI) (s : State), Keep s0 s → KeepOut s0 (execFop t i s) := by
  intro s0 t i s h2; unfold execFop; apply keep_asmStep; assumption

theorem keep_execCmp : ∀ (s0 : State) (t : Time) (i : AsmI) (s : State), Keep s0 s → KeepOut s0 (execCmp t i s) := by
  intro s0 t i s h2; unfold execCmp; apply keep_asmStep; assumption

theorem keep_execLda : ∀ (s0 : State) (t : Time) (i : AsmI) (s : State), Keep s0 s → KeepOut s0 (execLda t i s) := by
  intro s0 t i s h2; unfold execLda; apply keep_asmStep; assumption

theorem keep_execLoop : ∀ (s0 : State) (t : Time) (i : AsmI) (s : State), Keep s0 s → KeepOut s0 (execLoop t i s) := by
  intro s0 t i s h2; unfold execLoop; apply keep_asmStep; assumption

theorem keep_execBrq : ∀ (s0 : State) (t : Time) (i : AsmI) (s : State), Keep s0 s → KeepOut s0 (execBrq t i s) := by
  intro s0 t i s h2; unfold execBrq; apply keep_asmStep; assumption

theorem keep_execSct : ∀ (s0 : State) (t : Time) (i : AsmI) (s : State), Keep s0 s → KeepOut s0 (execSct t i s) := by
  intro s0 t i s h2; unfold execSct; apply keep_asmStep; assumption

theorem keep_execVst : ∀ (s0 : State) (t : Time) (i : AsmI) (s : State), Keep s0 s → KeepOut s0 (execVst t i s) := by
  intro s0 t i s h2; unfold execVst; lift_lets; intro x0; apply keep_asmStep; assumption

theorem keep_execBnd : ∀ (s0 : State) (t : Time) (i : AsmI) (s : State), Keep s0 s → KeepOut s0 (execBnd t i s) := by
  intro s0 t i s h2; unfold execBnd; apply keep_asmStep; assumption

theorem keep_execRtl : ∀ (s0 : State) (t : Time) (i : AsmI) (s : State), Keep s0 s → KeepOut s0 (execRtl t i s) := by
  intro s0 t i s h2; unfold execRtl; apply keep_asmStep; assumption

theorem keep_execSig : ∀ (s0 : State) (t : Time) (i : AsmI) (s : State), Keep s0 s → KeepOut s0 (execSig t i s) := by
  intro s0 t i s h2; unfold execSig; lift_lets; intro x0; apply keep_run; assumption; intro y1 y2; split; assumption; lift_lets
  intro x3; split; assumption; apply Keep.ite; assumption; apply keep_when; intro y4 y5; apply keep_raise; assumption
  apply keep_incF; apply keep_setF; apply keep_onSlv; assumption

theorem keep_execAsmBudget : ∀ (s0 : State) (t : Time) (s : State), Keep s0 s → KeepOut s0 (execAsmBudget t s) := by
  intro s0 t s h1; unfold execAsmBudget; apply keep_run; assumption; intro y0 y1; split; assumption; lift_lets; intro x2; split
  assumption; apply Keep.ite; apply keep_asmFault; assumption; assumption

theorem keep_freshen : ∀ (s0 s : State), Keep s0 s → Keep s0 (freshen s) := by
  intro s0 s h0; unfold freshen; apply Keep.mk'; assumption

theorem keep_solveStart : ∀ (s0 : State) (l : Lane) (p : PkgData) (s : State), Keep s0 s → Keep s0 (solveStart l p s) := by
  intro s0 l p s h2; unfold solveStart; lift_lets; intro x0 x1; apply keep_freshen; apply keep_onSlv; assumption

theorem keep_execAsmEnd : ∀ (s0 : State) (t : Time) (i : AsmI) (s : State), Keep s0 s → KeepOut s0 (execAsmEnd t i s) := by
  intro s0 t i s h2; unfold execAsmEnd; apply keep_run; assumption; intro y0 y1; split; assumption; lift_lets; intro x2 x3
  refine Keep.cut (P := Keep s0 x3) ?_ (fun hx3 => ?_); unfold x3; apply keep_onSlv; assumption; clear_value x3; split
  assumption; apply Keep.ite; assumption; split; apply keep_raise; apply keep_asmShow; apply keep_onSlv; assumption
  apply keep_solveStart; apply keep_asmShow; assumption

theorem keep_endSolve : ∀ (s0 : State) (l : Lane) (c : Cond) (s : State), Keep s0 s → Keep s0 (endSolve l c s) := by
  intro s0 l c s h2; unfold endSolve; apply keep_onSlv; assumption

theorem keep_iterFailed : ∀ (s0 : State) (l : Lane) (s : State), Keep s0 s → Keep s0 (iterFailed l s) := by
  intro s0 l s h1; unfold iterFailed; apply keep_endSolve; apply keep_incF; apply keep_raise; apply keep_onSlv; assumption

theorem keep_breakdown : ∀ (s0 : State) (l : Lane) (p : PkgData) (col n : Nat) (s : State), Keep s0 s → Keep s0 (breakdown l p col n s) := by
  intro s0 l p col n s h4; unfold breakdown; apply Keep.ite; apply keep_iterFailed; assumption; apply keep_incF
  apply keep_raise; apply keep_onSlv; assumption

theorem keep_schedStep : ∀ (s0 : State) (t : Time) (n : Nat) (op : SOp) (f : SchCtx → SlvSt × List (Nat × F64)) (s : State),
    Keep s0 s → KeepOut s0 (schedStep t n op f s) := by
  intro s0 t n op f s h4; unfold schedStep; apply keep_run; assumption; intro y0 y1; split; assumption; lift_lets; intro x2
  split; assumption; lift_lets; intro x3 x4 x5 x6; refine Keep.cut (P := Keep s0 x6) ?_ (fun hx6 => ?_); unfold x6
  apply keep_onSlv; assumption; clear_value x6; apply Keep.ite; assumption; split; apply keep_breakdown; assumption; assumption

theorem keep_execPan : ∀ (s0 : State) (t : Time) (n sb sld scol db dld dcol : Nat) (s : State),
    Keep s0 s → KeepOut s0 (execPan t n sb sld scol db dld dcol s) := by
  intro s0 t n sb sld scol db dld dcol s h8; unfold execPan; apply keep_schedStep; assumption

theorem keep_execBld : ∀ (s0 : State) (t : Time) (n dst src len : Nat) (zero : Bool) (s : State),
    Keep s0 s → KeepOut s0 (execBld t n dst src len zero s) := by
  intro s0 t n dst src len zero s h6; unfold execBld; apply keep_schedStep; assumption

theorem keep_execDad : ∀ (s0 : State) (t : Time) (n c cnt : Nat) (f0 f1 f2 : Bool) (s : State),
    Keep s0 s → KeepOut s0 (execDad t n c cnt f0 f1 f2 s) := by
  intro s0 t n c cnt f0 f1 f2 s h7; unfold execDad; apply keep_schedStep; assumption

theorem keep_execGmt : ∀ (s0 : State) (t : Time) (n m nn k ar br kc cr cc : Nat) (lower : Bool) (s : State),
    Keep s0 s → KeepOut s0 (execGmt t n m nn k ar br kc cr cc lower s) := by
  intro s0 t n m nn k ar br kc cr cc lower s h11; unfold execGmt; apply keep_schedStep; assumption

theorem keep_execPvs : ∀ (s0 : State) (t : Time) (n cnt c h : Nat) (mask : BitVec 64) (s : State),
    Keep s0 s → KeepOut s0 (execPvs t n cnt c h mask s) := by
  intro s0 t n cnt c h mask s h6; unfold execPvs; apply keep_schedStep; assumption

theorem keep_execTsl : ∀ (s0 : State) (t : Time) (n cnt c : Nat) (s : State), Keep s0 s → KeepOut s0 (execTsl t n cnt c s) := by
  intro s0 t n cnt c s h4; unfold execTsl; apply keep_schedStep; assumption

theorem keep_execTsu : ∀ (s0 : State) (t : Time) (n cnt c : Nat) (s : State), Keep s0 s → KeepOut s0 (execTsu t n cnt c s) := by
  intro s0 t n cnt c s h4; unfold execTsu; apply keep_schedStep; assumption

theorem keep_execDsc : ∀ (s0 : State) (t : Time) (n row cnt : Nat) (s : State), Keep s0 s → KeepOut s0 (execDsc t n row cnt s) := by
  intro s0 t n row cnt s h4; unfold execDsc; apply keep_schedStep; assumption

theorem keep_execGmv : ∀ (s0 : State) (t : Time) (n m k ar kc tt : Nat) (tr pool : Bool) (s : State),
    Keep s0 s → KeepOut s0 (execGmv t n m k ar kc tt tr pool s) := by
  intro s0 t n m k ar kc tt tr pool s h9; unfold execGmv; apply keep_schedStep; assumption

theorem keep_execSca : ∀ (s0 : State) (t : Time) (n src p len : Nat) (zero : Bool) (s : State),
    Keep s0 s → KeepOut s0 (execSca t n src p len zero s) := by
  intro s0 t n src p len zero s h6; unfold execSca; apply keep_schedStep; assumption

theorem keep_execRfn : ∀ (s0 : State) (t : Time) (n : Nat) (f0 f1 f2 : Bool) (s : State), Keep s0 s → KeepOut s0 (execRfn t n f0 f1 f2 s) := by
  intro s0 t n f0 f1 f2 s h5; unfold execRfn; apply keep_schedStep; assumption

theorem keep_nextPhase : ∀ (s0 : State) (l : Lane) (p : PkgData) (s : State), Keep s0 s → Keep s0 (nextPhase l p s) := by
  intro s0 l p s h5; unfold nextPhase; lift_lets; intro x0; apply Keep.ite; split; apply keep_freshen; apply keep_onSlv
  assumption; apply keep_iterFailed; assumption; apply keep_freshen; apply keep_onSlv; assumption

theorem keep_factEnd : ∀ (s0 : State) (l : Lane) (p : PkgData) (s : State), Keep s0 s → Keep s0 (factEnd l p s) := by
  intro s0 l p s h2; unfold factEnd; lift_lets; intro x0 x1; apply keep_freshen; apply keep_onSlv; apply keep_when; intro y2 y3
  apply keep_raise; assumption; assumption

theorem keep_startRef : ∀ (s0 : State) (l : Lane) (p : PkgData) (ph : CtlPh) (s : State), Keep s0 s → Keep s0 (startRef l p ph s) := by
  intro s0 l p ph s h6; unfold startRef; apply keep_freshen; apply keep_onSlv; assumption

theorem keep_solveEnd : ∀ (s0 : State) (l : Lane) (p : PkgData) (s : State), Keep s0 s → Keep s0 (solveEnd l p s) := by
  intro s0 l p s h5; unfold solveEnd; lift_lets; intro x0; split; apply Keep.ite; apply keep_nextPhase; assumption
  apply keep_startRef; assumption; apply Keep.ite; apply keep_nextPhase; assumption; apply keep_startRef; assumption
  apply keep_onSlv; assumption

theorem keep_rfnEnd : ∀ (s0 : State) (l : Lane) (p : PkgData) (n : Nat) (s : State), Keep s0 s → Keep s0 (rfnEnd l p n s) := by
  intro s0 l p n s h6; unfold rfnEnd; lift_lets; intro x0; intro x1; intro x2; apply Keep.ite; apply keep_nextPhase; assumption
  apply Keep.ite; apply keep_onSlv; assumption; apply keep_breakdown; assumption

theorem keep_execBar : ∀ (s0 : State) (t : Time) (n kind : Nat) (s : State), Keep s0 s → KeepOut s0 (execBar t n kind s) := by
  intro s0 t n kind s h3; unfold execBar; apply keep_run; assumption; intro y0 y1; split; assumption; lift_lets; intro x2 x3
  refine Keep.cut (P := Keep s0 x3) ?_ (fun hx3 => ?_); unfold x3; apply keep_onSlv; assumption; clear_value x3; split
  assumption; apply Keep.ite; assumption; split; apply keep_factEnd; assumption; apply keep_solveEnd; assumption
  apply keep_rfnEnd; assumption; assumption

theorem keep_stopTests : ∀ (s0 : State) (l : Lane) (p : PkgData) (r : IterRes) (s : State), Keep s0 s → Keep s0 (stopTests l p r s) := by
  intro s0 l p r s h3; unfold stopTests; lift_lets; intro x0 x1; apply Keep.ite; apply keep_endSolve; apply keep_raise
  assumption; apply Keep.ite; apply keep_endSolve; assumption; apply Keep.ite; apply Keep.ite; apply keep_endSolve; assumption
  apply keep_endSolve; apply keep_onSlv; assumption; apply keep_freshen; apply keep_onSlv; assumption

theorem keep_execIterationComplete : ∀ (s0 : State) (t : Time) (s : State), Keep s0 s → KeepOut s0 (execIterationComplete t s) := by
  intro s0 t s h4; unfold execIterationComplete; apply keep_run; assumption; intro y0; intro y1; split; assumption; split
  assumption; lift_lets; intro x2; apply Keep.ite; assumption; split; apply keep_iterFailed; assumption; apply keep_stopTests
  apply keep_onSlv; assumption

theorem keep_execDeadline : ∀ (s0 : State) (t : Time) (s : State), Keep s0 s → KeepOut s0 (execDeadline t s) := by
  intro s0 t s h1; unfold execDeadline; apply keep_run; assumption; intro y0 y1; split; assumption; lift_lets; intro x2 x3
  split; assumption; apply Keep.ite; assumption; apply Keep.ite; split; apply keep_endSolve; dsimp only [x3]; apply keep_onSlv
  assumption; apply Keep.ite; apply keep_endSolve; dsimp only [x3]; apply keep_onSlv; assumption; apply keep_endSolve
  apply keep_onSlv; dsimp only [x3]; apply keep_onSlv; assumption; apply keep_asmFault; dsimp only [x3]; apply keep_onSlv
  assumption

theorem keep_pubDelay : ∀ (s0 : State) (l : Lane) (s : State), Keep s0 s → Keep s0 (pubDelay l s) := by
  intro s0 l s h1; unfold pubDelay; lift_lets; intro x0; apply keep_setF; apply keep_setF; apply keep_setF; assumption

theorem keep_showTpl : ∀ (s0 : State) (l : Lane) (d : Dispatch) (r : AllocRec) (s : State), Keep s0 s → Keep s0 (showTpl l d r s) := by
  intro s0 l d r s h3; unfold showTpl; lift_lets; intro x0 x1 x2 x3; refine Keep.cut (P := Keep s0 x3) ?_ (fun hx3 => ?_)
  unfold x3; apply keep_when; intro y4 y5; apply keep_raise; assumption; assumption; clear_value x3; intro x6
  refine Keep.cut (P := Keep s0 x6) ?_ (fun hx6 => ?_); unfold x6; apply keep_forEach; intro y7 y8 y9; apply keep_raise
  assumption; assumption; clear_value x6; intro x10; refine Keep.cut (P := Keep s0 x10) ?_ (fun hx10 => ?_); unfold x10
  apply keep_forEach; intro y11 y12 y13; apply Keep.ite; split; apply keep_raise; assumption; assumption; assumption; assumption
  clear_value x10; apply keep_setB; apply keep_setB; apply keep_setB; apply keep_setB; apply keep_setF; apply keep_setF
  apply keep_setF; assumption

theorem keep_countPub : ∀ (s0 : State) (l : Lane) (code cnt : Nat) (noshift : Bool) (s : State),
    Keep s0 s → Keep s0 (countPub l code cnt noshift s) := by
  intro s0 l code cnt noshift s h4; unfold countPub; lift_lets; intro x0 x1
  refine Keep.cut (P := Keep s0 x1) ?_ (fun hx1 => ?_); unfold x1; apply keep_when; intro y2 y3; apply keep_raise; assumption
  assumption; clear_value x1; intro x4; refine Keep.cut (P := Keep s0 x4) ?_ (fun hx4 => ?_); unfold x4; apply Keep.ite
  apply keep_incF; apply keep_raiseAlarm; assumption; apply Keep.ite; apply keep_clearAlarm; assumption; assumption
  clear_value x4; apply Keep.ite; apply keep_incF; assumption; apply keep_setF; assumption

theorem keep_publish : ∀ (s0 : State) (l : Lane) (p : Option PkgData) (u : PubIn) (s : State), Keep s0 s → Keep s0 (publish l p u s) := by
  intro s0 l p u s h6; unfold publish; lift_lets; intro x0; intro x1; intro x2; intro x3; intro x4
  refine Keep.cut (P := Keep s0 x4) ?_ (fun hx4 => ?_); unfold x4; apply keep_showTpl; apply keep_countPub; assumption
  clear_value x4; intro x5; refine Keep.cut (P := Keep s0 x5) ?_ (fun hx5 => ?_); unfold x5; apply keep_wrK; apply keep_pubDelay
  assumption; clear_value x5; intro x6; refine Keep.cut (P := Keep s0 x6) ?_ (fun hx6 => ?_); unfold x6; apply keep_onLane
  assumption; clear_value x6; intro x7; intro x8; refine Keep.cut (P := Keep s0 x8) ?_ (fun hx8 => ?_); unfold x8
  apply keep_streamRec; apply Keep.mk'; assumption; clear_value x8; apply keep_packAll; apply keep_stopPll; assumption

theorem keep_showSolve : ∀ (s0 : State) (l : Lane) (s : State), Keep s0 s → Keep s0 (showSolve l s) := by
  intro s0 l s h4; unfold showSolve; lift_lets; intro x0; intro x1; apply keep_setF; apply keep_setF; apply keep_setF
  apply keep_setF; apply keep_setF; apply keep_setF; apply keep_setF; apply keep_setF; assumption

theorem keep_execAllocationPublished : ∀ (s0 : State) (t : Time) (s : State), Keep s0 s → KeepOut s0 (execAllocationPublished t s) := by
  intro s0 t s h1; unfold execAllocationPublished; apply keep_run; assumption; intro y0 y1; split; assumption; lift_lets
  intro x2 x3; split; assumption; apply Keep.ite; assumption; apply keep_publish; apply keep_showSolve; assumption

theorem keep_onFus : ∀ (s0 : State) (l : Lane) (f : FusSt → FusSt) (a : State), Keep s0 a → Keep s0 (onFus l f a) := by
  intro s0 l f _ h2; unfold onFus; apply keep_onLane; assumption

theorem keep_setStr : ∀ (s0 : State) (l : Lane) (n : Nat) (x : StrSt) (a : State), Keep s0 a → Keep s0 (setStr l n x a) := by
  intro s0 l n x _ h3; unfold setStr; apply keep_onFus; assumption

theorem keep_frameDone : ∀ (s0 : State) (n : Nat) (c : StreamCfg) (l : Lane) (s : State), Keep s0 s → Keep s0 (frameDone n c l s) := by
  intro s0 n c l s h6; unfold frameDone; lift_lets; intro x0; intro x1; intro x2; intro x3; intro x4; intro x5; intro x6; intro x7
  intro x8; intro x9; intro x10; intro x11; intro x12; intro x13; intro x14; intro x15; intro x16; intro x17; intro x18; intro x19
  intro x20; intro x21; refine Keep.cut (P := Keep s0 x21) ?_ (fun hx21 => ?_); unfold x21; apply keep_setStr; assumption
  clear_value x21; intro x22; refine Keep.cut (P := Keep s0 x22) ?_ (fun hx22 => ?_); unfold x22; apply keep_setF; apply keep_setB
  apply keep_setB; apply keep_setF; apply keep_setF; assumption; clear_value x22; intro x23
  refine Keep.cut (P := Keep s0 x23) ?_ (fun hx23 => ?_); unfold x23; apply Keep.ite; apply keep_raise; assumption; apply Keep.ite
  apply keep_raise; assumption; assumption; clear_value x23; apply keep_incF; assumption

theorem keep_packet : ∀ (s0 : State) (n : Nat) (c : StreamCfg) (p : List Byte) (l : Lane) (s : State), Keep s0 s → Keep s0 (packet n c p l s) := by
  intro s0 n c p l s h7; unfold packet; apply Keep.ite; assumption; lift_lets; intro x0; intro x1; intro x2; intro x3; intro x4
  refine Keep.cut (P := Keep s0 x4) ?_ (fun hx4 => ?_); unfold x4; apply Keep.ite; apply keep_incF; assumption; assumption
  clear_value x4; intro x5; intro x6; intro x7; intro x8; refine Keep.cut (P := Keep s0 x8) ?_ (fun hx8 => ?_); unfold x8
  apply keep_setStr; assumption; clear_value x8; apply Keep.ite; assumption; apply Keep.ite; apply keep_frameDone; assumption
  assumption

theorem keep_closeStream : ∀ (s0 : State) (l : Lane) (n : Nat) (c : StreamCfg) (s : State), Keep s0 s → Keep s0 (closeStream l n c s) := by
  intro s0 l n c s h6; unfold closeStream; lift_lets; intro x0; intro x1; intro x2; intro x3
  refine Keep.cut (P := Keep s0 x3) ?_ (fun hx3 => ?_); unfold x3; apply keep_setStr; assumption; clear_value x3; apply keep_incF
  apply Keep.ite; apply keep_incF; assumption; assumption

theorem keep_closeIntake : ∀ (s0 : State) (l : Lane) (s : State), Keep s0 s → Keep s0 (closeIntake l s) := by
  intro s0 l s h1; unfold closeIntake; apply keep_forEach; intro y0 y1 y2; apply keep_closeStream; assumption; assumption

theorem keep_unsuspect : ∀ (s0 : State) (l : Lane) (n : Nat) (s : State), Keep s0 s → Keep s0 (unsuspect l n s) := by
  intro s0 l n s h2; unfold unsuspect; apply keep_clearAlarm; assumption

theorem keep_putRefSt : ∀ (s0 : State) (l : Lane) (n : Nat) (x : RefSt) (s : State), Keep s0 s → Keep s0 (putRefSt l n x s) := by
  intro s0 l n x s h6; unfold putRefSt; apply keep_setF; apply keep_onFus; assumption

theorem keep_refStep : ∀ (s0 : State) (l : Lane) (out grp : Nat → Option Nat) (q : Nat → RefSt) (n : Nat) (s : State), Keep s0 s → Keep s0 (refStep l out grp q n s) := by
  intro s0 l out grp q n s h8; unfold refStep; lift_lets; intro x0; intro x1; intro x2; intro x3; intro x4; intro x5; split
  apply keep_putRefSt; apply keep_when; intro y6; intro y7; apply keep_unsuspect; assumption; assumption; apply keep_putRefSt
  apply keep_when; intro y8; intro y9; apply keep_unsuspect; assumption; assumption; lift_lets; intro x10; intro x11
  apply keep_putRefSt; apply keep_when; intro y12; intro y13; apply keep_raiseAlarm; assumption; apply keep_incF; assumption

theorem keep_trustCheck : ∀ (s0 : State) (l : Lane) (s : State), Keep s0 s → Keep s0 (trustCheck l s) := by
  intro s0 l s h1; unfold trustCheck; split; assumption; apply Keep.ite; assumption; apply keep_raise; apply keep_authChange
  assumption

theorem keep_lateRefs : ∀ (s0 : State) (l : Lane) (s : State), Keep s0 s → Keep s0 (lateRefs l s) := by
  intro s0 l s h4; unfold lateRefs; apply keep_trustCheck; apply keep_forEach; intro y0; intro y1; intro y2; lift_lets; intro x3
  apply keep_onFus; assumption; assumption

theorem keep_gradeAlarms : ∀ (s0 : State) (l : Lane) (prev p : Nat) (s : State), Keep s0 s → Keep s0 (gradeAlarms l prev p s) := by
  intro s0 l prev p s h3; unfold gradeAlarms; apply keep_forEach; intro y0 y1 y2; apply Keep.ite; apply keep_raiseAlarm
  assumption; apply Keep.ite; assumption; apply keep_clearAlarm; assumption; assumption

theorem keep_asmStart : ∀ (s0 : State) (l : Lane) (s : State), Keep s0 s → Keep s0 (asmStart l s) := by
  intro s0 l s h4; unfold asmStart; lift_lets; intro x0; apply Keep.ite; assumption; split; apply keep_onSlv; assumption
  apply keep_setF; apply keep_setF; apply keep_onSlv; apply keep_startPll; assumption

theorem keep_slvOff : ∀ (s0 : State) (l : Lane) (s : State), Keep s0 s → Keep s0 (slvOff l s) := by
  intro s0 l s h1; unfold slvOff; apply keep_setF; apply keep_onSlv; assumption

theorem keep_powerDown : ∀ (s0 : State) (need : Nat) (l : Lane) (s : State), Keep s0 s → Keep s0 (powerDown need l s) := by
  intro s0 need l s h2; unfold powerDown; lift_lets; intro x0 x1; apply keep_when; intro y2 y3; apply keep_slvOff; assumption
  apply keep_domClr; assumption

theorem keep_dropDoms : ∀ (s0 : State) (s : State), Keep s0 s → Keep s0 (dropDoms s) := by
  intro s0 s h3; unfold dropDoms; apply keep_bothLanes; intro y0; intro y1; intro y2; apply keep_powerDown; assumption; assumption

theorem keep_showFus : ∀ (s0 : State) (l : Lane) (s : State), Keep s0 s → Keep s0 (showFus l s) := by
  intro s0 l s h1; unfold showFus; lift_lets; intro x0 x1; apply keep_setF; apply keep_setB; apply keep_setF; apply keep_setB
  apply keep_setF; apply keep_setB; apply keep_setB; apply keep_setB; apply keep_setF; apply keep_forEach; intro y2 y3 y4
  apply keep_setB; assumption; assumption

theorem keep_fusFinish : ∀ (s0 : State) (l : Lane) (comp : Option Nat) (filt att : List F64) (n : Nat) (ego : Bool) (s : State),
    Keep s0 s → Keep s0 (fusFinish l comp filt att n ego s) := by
  intro s0 l comp filt att n ego s h9; unfold fusFinish; lift_lets; intro x0; intro x1; intro x2; intro x3; intro x4; intro x5
  refine Keep.cut (P := Keep s0 x5) ?_ (fun hx5 => ?_); unfold x5; apply keep_gradeAlarms; apply keep_onFus; assumption
  clear_value x5; intro x6; intro x7; refine Keep.cut (P := Keep s0 x7) ?_ (fun hx7 => ?_); unfold x7; apply keep_showFus
  apply Keep.mk'; assumption; clear_value x7; intro x8; refine Keep.cut (P := Keep s0 x8) ?_ (fun hx8 => ?_); unfold x8
  apply keep_onFus; apply keep_setB; apply keep_setB; apply keep_setF; apply keep_setB; apply keep_setB; assumption
  clear_value x8; apply keep_asmStart; apply keep_stopPll; apply keep_streamRec; assumption

theorem keep_gridStep : ∀ (s0 : State) (l : Lane) (cell : Nat) (grid : Sparse (BitVec 16)) (x y : F64) (s : State),
    Keep s0 s → Keep s0 (gridStep l cell grid x y s) := by
  intro s0 l cell grid x y s h5; unfold gridStep; apply keep_onFus; assumption

theorem keep_serveGrids : ∀ (s0 : State) (l : Lane) (all : Bool) (s : State), Keep s0 s → Keep s0 (serveGrids l all s) := by
  intro s0 l all s h2; unfold serveGrids; lift_lets; intro x0 x1; refine Keep.cut (P := Keep s0 x1) ?_ (fun hx1 => ?_)
  unfold x1; apply keep_onLane; assumption; clear_value x1; apply keep_forEach; intro y2 y3 y4; apply keep_complete
  apply keep_emit; assumption; assumption

theorem keep_registration : ∀ (s0 : State) (l : Lane) (f : FusRes) (s : State), Keep s0 s → Keep s0 (registration l f s) := by
  intro s0 l f s h5; unfold registration; split; assumption; lift_lets; intro x0
  refine Keep.cut (P := Keep s0 x0) ?_ (fun hx0 => ?_); unfold x0; apply keep_setF; apply keep_setF; assumption; clear_value x0
  apply Keep.ite; assumption; apply keep_incF; assumption

theorem keep_contraAlarm : ∀ (s0 : State) (l : Lane) (v : Vote) (key : Nat) (s : State), Keep s0 s → Keep s0 (contraAlarm l v key s) := by
  intro s0 l v key s h6; unfold contraAlarm; apply Keep.ite; apply keep_raiseAlarm; assumption; apply keep_clearAlarm; assumption

theorem keep_votes : ∀ (s0 : State) (l : Lane) (f : FusRes) (s : State), Keep s0 s → Keep s0 (votes l f s) := by
  intro s0 l f s h5; unfold votes; lift_lets; intro x0; intro x1; intro x2; intro x3; intro x4; intro x5; intro x6; intro x7
  refine Keep.cut (P := Keep s0 x7) ?_ (fun hx7 => ?_); unfold x7; apply keep_trustCheck; apply keep_forEach; intro y8; intro y9
  intro y10; apply keep_refStep; assumption; assumption; clear_value x7; apply keep_contraAlarm; apply keep_contraAlarm
  apply keep_onFus; assumption

theorem keep_execFusionComplete : ∀ (s0 : State) (t : Time) (s : State), Keep s0 s → KeepOut s0 (execFusionComplete t s) := by
  intro s0 t s h4; unfold execFusionComplete; apply keep_run; assumption; intro y0; intro y1; split; assumption; apply Keep.ite
  assumption; lift_lets; intro x2; intro x3; intro x4; intro x5; intro x6; intro x7; intro x8
  refine Keep.cut (P := Keep s0 x8) ?_ (fun hx8 => ?_); unfold x8; apply keep_votes; apply keep_registration; assumption
  clear_value x8; intro x9; refine Keep.cut (P := Keep s0 x9) ?_ (fun hx9 => ?_); unfold x9; apply keep_onFus; assumption
  clear_value x9; intro x10; refine Keep.cut (P := Keep s0 x10) ?_ (fun hx10 => ?_); unfold x10; apply keep_serveGrids
  apply keep_gridStep; assumption; clear_value x10; apply keep_fusFinish; assumption

theorem keep_fusionLate : ∀ (s0 : State) (l : Lane) (s : State), Keep s0 s → Keep s0 (fusionLate l s) := by
  intro s0 l s h4; unfold fusionLate; lift_lets; intro x0; intro x1; apply keep_fusFinish; apply keep_incF; apply keep_lateRefs
  apply keep_onFus; assumption

theorem keep_execFusionEnd : ∀ (s0 : State) (t : Time) (s : State), Keep s0 s → KeepOut s0 (execFusionEnd t s) := by
  intro s0 t s h1; unfold execFusionEnd; apply keep_run; assumption; intro y0 y1; split; assumption; apply Keep.ite; assumption
  apply Keep.ite; apply keep_fusionLate; assumption; apply keep_asmStart; assumption

theorem keep_intakeEarly : ∀ (s0 : State) (s : State), Keep s0 s → Keep s0 (intakeEarly s) := by
  intro s0 s h3; unfold intakeEarly; split; apply Keep.ite; assumption; apply Keep.ite; apply keep_when; intro y0; intro y1
  apply keep_startPll; assumption; assumption; apply keep_asmStart; assumption; assumption

theorem keep_execStreamPacket : ∀ (s0 : State) (t : Time) (sp dport : Nat) (payload : List Byte) (s : State),
    Keep s0 s → KeepOut s0 (execStreamPacket t sp dport payload s) := by
  intro s0 t sp dport payload s h7; unfold execStreamPacket; apply keep_run; assumption; intro y0; intro y1; apply Keep.ite
  assumption; apply keep_intakeEarly; apply keep_forEach; intro y2; intro y3; intro y4; apply Keep.ite; apply keep_readyLanes
  intro y5; intro y6; intro y7; apply keep_packet; assumption; assumption; assumption; assumption

theorem keep_execIntakeClose : ∀ (s0 : State) (t : Time) (s : State), Keep s0 s → KeepOut s0 (execIntakeClose t s) := by
  intro s0 t s h1; unfold execIntakeClose; apply keep_run; assumption; intro y0 y1; lift_lets; intro x2 x3
  refine Keep.cut (P := Keep s0 x3) ?_ (fun hx3 => ?_); unfold x3; apply keep_readyLanes; intro y4 y5 y6; apply keep_closeIntake
  assumption; apply Keep.mk'; assumption; clear_value x3; apply Keep.ite; assumption; split; apply Keep.ite; assumption
  apply keep_asmStart; assumption; assumption

theorem keep_clearGrids : ∀ (s0 : State) (l : Lane) (a : State), Keep s0 a → Keep s0 (clearGrids l a) := by
  intro s0 l _ h1; unfold clearGrids; apply keep_onFus; assumption

theorem keep_fusStart : ∀ (s0 : State) (l : Lane) (s : State), Keep s0 s → Keep s0 (fusStart l s) := by
  intro s0 l s h1; unfold fusStart; lift_lets; intro x0 x1; apply keep_showFus; apply keep_onFus; assumption

theorem keep_fusStop : ∀ (s0 : State) (l : Lane) (s : State), Keep s0 s → Keep s0 (fusStop l s) := by
  intro s0 l s h1; unfold fusStop; lift_lets; intro x0; refine Keep.cut (P := Keep s0 x0) ?_ (fun hx0 => ?_); unfold x0
  apply keep_serveGrids; assumption; clear_value x0; intro x1; refine Keep.cut (P := Keep s0 x1) ?_ (fun hx1 => ?_); unfold x1
  apply keep_forEach; intro y2 y3 y4; apply keep_clearAlarm; assumption; assumption; clear_value x1; intro x5
  refine Keep.cut (P := Keep s0 x5) ?_ (fun hx5 => ?_); unfold x5; apply keep_forEach; intro y6 y7 y8; apply keep_unsuspect
  assumption; assumption; clear_value x5; intro x9; refine Keep.cut (P := Keep s0 x9) ?_ (fun hx9 => ?_); unfold x9
  apply keep_forEach; intro y10 y11 y12; apply keep_setF; assumption; assumption; clear_value x9; intro x13
  refine Keep.cut (P := Keep s0 x13) ?_ (fun hx13 => ?_); unfold x13; apply Keep.ite; apply keep_authChange; assumption
  assumption; clear_value x13; apply keep_showFus; apply keep_setF; apply keep_setF; apply keep_setF; apply keep_setF
  apply keep_onFus; assumption

theorem keep_onGnb : ∀ (s0 : State) (l : Lane) (f : GnbSt → GnbSt) (a : State), Keep s0 a → Keep s0 (onGnb l f a) := by
  intro s0 l f _ h2; unfold onGnb; apply keep_onLane; assumption

theorem keep_setCh : ∀ (s0 : State) (l : Lane) (c : Nat) (v : GnbCh) (s : State), Keep s0 s → Keep s0 (setCh l c v s) := by
  intro s0 l c v s h3; unfold setCh; lift_lets; intro x0; refine Keep.cut (P := Keep s0 x0) ?_ (fun hx0 => ?_); unfold x0
  apply keep_onGnb; assumption; clear_value x0; intro x1; refine Keep.cut (P := Keep s0 x1) ?_ (fun hx1 => ?_); unfold x1
  apply keep_wrK; assumption; clear_value x1; apply keep_setF; apply keep_setF; assumption

theorem keep_toState : ∀ (s0 : State) (l : Lane) (c st : Nat) (f : GnbCh → GnbCh) (s : State), Keep s0 s → Keep s0 (toState l c st f s) := by
  intro s0 l c st f s h4; unfold toState; lift_lets; intro x0; apply keep_setCh; assumption

theorem keep_releaseCh : ∀ (s0 : State) (l : Lane) (c : Nat) (s : State), Keep s0 s → Keep s0 (releaseCh l c s) := by
  intro s0 l c s h2; unfold releaseCh; lift_lets; intro x0; apply keep_setCh; assumption

theorem keep_allotCh : ∀ (s0 : State) (l : Lane) (c : Nat) (k : Cand) (s : State), Keep s0 s → Keep s0 (allotCh l c k s) := by
  intro s0 l c k s h3; unfold allotCh; lift_lets; intro x0; apply keep_setCh; assumption

theorem keep_slipCh : ∀ (s0 : State) (l : Lane) (c : Nat) (s : State), Keep s0 s → Keep s0 (slipCh l c s) := by
  intro s0 l c s h2; unfold slipCh; lift_lets; intro x0; apply keep_incF; apply keep_setCh; assumption

theorem keep_dump : ∀ (s0 : State) (l : Lane) (d : CorrDump) (s : State), Keep s0 s → Keep s0 (dump l d s) := by
  intro s0 l d s h5; unfold dump; lift_lets; intro x0; apply Keep.ite; assumption; apply keep_when; intro y1; intro y2
  apply keep_slipCh; assumption; apply keep_setCh; assumption

theorem keep_entryOf : ∀ (s0 : State) (l : Lane) (e : Time) (g : EpochIn) (x : BitVec 160) (c : Nat) (s : State),
    Keep s0 s → Keep s0 (entryOf l e g x c s).snd := by
  intro s0 l e g x c s h5; unfold entryOf; lift_lets; intro x0 x1 x2 x3 x4 x5; dsimp only; apply keep_setCh; assumption

theorem keep_entries : ∀ (s0 : State) (l : Lane) (e : Time) (g : EpochIn) (x : BitVec 160) (cs : List Nat) (s : State),
    Keep s0 s → Keep s0 (entries l e g x cs s).2.2 := by
  intro s0 l e g x cs
  induction cs with
  | nil => exact fun _ h => h
  | cons c cs ih =>
    intro s h
    unfold entries
    split
    · exact ih _ h
    · exact ih _ (keep_entryOf _ _ _ _ _ _ _ h)

theorem keep_smoothCh : ∀ (s0 : State) (l : Lane) (e : Time) (g : EpochIn) (c : Nat) (s : State), Keep s0 s → Keep s0 (smoothCh l e g c s) := by
  intro s0 l e g c s h7; unfold smoothCh; lift_lets; intro x0; intro x1; split; lift_lets; intro x2; intro x3; apply keep_setCh
  assumption; apply Keep.ite; assumption; apply keep_setCh; assumption

theorem keep_gnssObserve : ∀ (s0 : State) (l : Lane) (e : Time) (snap : Bool) (x : Option FixRes) (s : State), Keep s0 s → Keep s0 (gnssObserve l e snap x s) := by
  intro s0 l e snap x s h7; unfold gnssObserve; apply Keep.ite; assumption; split; apply keep_readyLanes; intro y0; intro y1
  intro y2; apply keep_observe; assumption; assumption; apply keep_readyLanes; intro y3; intro y4; intro y5; apply keep_onRef
  assumption; assumption

theorem keep_showFix : ∀ (s0 : State) (l : Lane) (snap : Bool) (os : List SatObs) (x : Option FixRes) (s : State), Keep s0 s → Keep s0 (showFix l snap os x s) := by
  intro s0 l snap os x s h7; unfold showFix; split; apply keep_setF; apply keep_setF; assumption; apply keep_setF; apply keep_setF
  assumption

theorem keep_headingStep : ∀ (s0 : State) (l : Lane) (base : Option Baseline) (s : State), Keep s0 s → Keep s0 (headingStep l base s) := by
  intro s0 l base s h2; unfold headingStep; lift_lets; intro x0 x1 x2 x3 x4 x5 x6; apply keep_setB; apply keep_onGnb; assumption

theorem keep_execCorrelatorDump : ∀ (s0 : State) (t : Time) (l : Lane) (d : CorrDump) (s : State), Keep s0 s → KeepOut s0 (execCorrelatorDump t l d s) := by
  intro s0 t l d s h3; unfold execCorrelatorDump; apply keep_runLane; assumption; intro y0 y1; apply keep_when; intro y2 y3
  apply keep_dump; assumption; assumption

theorem keep_execAcqDetection : ∀ (s0 : State) (t : Time) (l : Lane) (ch : Nat) (d : Detection) (s : State),
    Keep s0 s → KeepOut s0 (execAcqDetection t l ch d s) := by
  intro s0 t l ch d s h7; unfold execAcqDetection; apply keep_runLane; assumption; intro y0; intro y1; lift_lets; intro x2
  apply keep_when; intro y3; intro y4; apply keep_toState; assumption; assumption

theorem keep_execPullinTimeout : ∀ (s0 : State) (t : Time) (l : Lane) (ch : Nat) (s : State), Keep s0 s → KeepOut s0 (execPullinTimeout t l ch s) := by
  intro s0 t l ch s h3; unfold execPullinTimeout; apply keep_runLane; assumption; intro y0 y1; lift_lets; intro x2
  apply keep_when; intro y3 y4; apply keep_toState; assumption; assumption

theorem keep_execPhaseLock : ∀ (s0 : State) (t : Time) (l : Lane) (ch : Nat) (s : State), Keep s0 s → KeepOut s0 (execPhaseLock t l ch s) := by
  intro s0 t l ch s h3; unfold execPhaseLock; apply keep_runLane; assumption; intro y0 y1; lift_lets; intro x2; apply keep_when
  intro y3 y4; apply keep_toState; assumption; assumption

theorem keep_execTrackLoss : ∀ (s0 : State) (t : Time) (l : Lane) (ch : Nat) (s : State), Keep s0 s → KeepOut s0 (execTrackLoss t l ch s) := by
  intro s0 t l ch s h3; unfold execTrackLoss; apply keep_runLane; assumption; intro y0 y1; lift_lets; intro x2; apply keep_when
  intro y3 y4; apply keep_toState; assumption; assumption

theorem keep_execLostTimeout : ∀ (s0 : State) (t : Time) (l : Lane) (ch : Nat) (s : State), Keep s0 s → KeepOut s0 (execLostTimeout t l ch s) := by
  intro s0 t l ch s h3; unfold execLostTimeout; apply keep_runLane; assumption; intro y0 y1; lift_lets; intro x2
  apply keep_when; intro y3 y4; apply keep_incF; apply keep_releaseCh; assumption; assumption

theorem keep_execIfPortFault : ∀ (s0 : State) (t : Time) (l : Lane) (n : Nat) (stuck : Bool) (s : State),
    Keep s0 s → KeepOut s0 (execIfPortFault t l n stuck s) := by
  intro s0 t l n stuck s h4; unfold execIfPortFault; apply keep_runLane; assumption; intro y0 y1; lift_lets; intro x2
  refine Keep.cut (P := Keep s0 x2) ?_ (fun hx2 => ?_); unfold x2; apply keep_forEach; intro y3 y4 y5; apply keep_when
  intro y6 y7; apply keep_toState; assumption; assumption; assumption; clear_value x2; apply Keep.ite; apply keep_raise
  apply keep_setB; apply keep_setF; assumption; assumption

theorem keep_execIfPortOk : ∀ (s0 : State) (t : Time) (l : Lane) (n : Nat) (s : State), Keep s0 s → KeepOut s0 (execIfPortOk t l n s) := by
  intro s0 t l n s h3; unfold execIfPortOk; apply keep_runLane; assumption; intro y0 y1; apply keep_when; intro y2 y3
  apply keep_raise; apply keep_setF; apply keep_setF; assumption; assumption

theorem keep_showIfen : ∀ (s0 s : State), Keep s0 s → Keep s0 (showIfen s) := by
  intro s0 s h0; unfold showIfen; lift_lets; intro x0 x1; apply keep_forEach; intro y2 y3 y4; apply Keep.ite; assumption
  apply keep_emit; apply Keep.mk'; assumption; assumption

theorem keep_takeNav : ∀ (s0 : State) (l : Lane) (r : NavRec) (s : State), Keep s0 s → Keep s0 (takeNav l r s) := by
  intro s0 l r s h2; unfold takeNav; lift_lets; intro x0 x1; apply Keep.ite; assumption; apply keep_onGnb; assumption

theorem keep_execNavigationMessageDecoded : ∀ (s0 : State) (t : Time) (l : Lane) (d : NavSet) (s : State),
    Keep s0 s → KeepOut s0 (execNavigationMessageDecoded t l d s) := by
  intro s0 t l d s h3; unfold execNavigationMessageDecoded; apply keep_runLane; assumption; intro y0 y1; apply keep_takeNav
  assumption

theorem keep_doAidNav : ∀ (s0 : State) (o : Order) (b : HostBuf) (s : State), Keep s0 s → Keep s0 (doAidNav o b s).fst := by
  intro s0 o b s h2; unfold doAidNav; lift_lets; intro x0 x1 x2 x3; split; dsimp only; assumption; split; dsimp only; assumption
  split; dsimp only; assumption; dsimp only; apply keep_takeNav; assumption

theorem keep_execAidNav : ∀ (s0 : State) (t : Time) (o : Order) (b : HostBuf) (s : State), Keep s0 s → KeepOut s0 (execAidNav t o b s) := by
  intro s0 t o b s h3; unfold execAidNav; apply keep_run; assumption; intro y0 y1; apply keep_serve; intro y2 y3 y4
  apply keep_doAidNav; assumption; assumption

theorem keep_doAidPos : ∀ (s0 : State) (o : Order) (s : State), Keep s0 s → Keep s0 (doAidPos o s).fst := by
  intro s0 o s h1; unfold doAidPos; lift_lets; intro x0; split; dsimp only; assumption; dsimp only; apply keep_onGnb; assumption

theorem keep_execAidPos : ∀ (s0 : State) (t : Time) (o : Order) (s : State), Keep s0 s → KeepOut s0 (execAidPos t o s) := by
  intro s0 t o s h2; unfold execAidPos; apply keep_run; assumption; intro y0 y1; apply keep_serve; intro y2 y3 y4
  apply keep_doAidPos; assumption; assumption

theorem keep_expertDone : ∀ (s0 : State) (o : Order) (s : State), Keep s0 s → Keep s0 (expertDone o s) := by
  intro s0 o s h1; unfold expertDone; apply keep_raise; assumption

theorem keep_doGnbLoop : ∀ (s0 : State) (o : Order) (s : State), Keep s0 s → Keep s0 (doGnbLoop o s).fst := by
  intro s0 o s h4; unfold doGnbLoop; lift_lets; intro x0; intro x1; intro x2; intro x3; split; split; dsimp only; assumption
  dsimp only; apply keep_onGnb; assumption; split; dsimp only; assumption; dsimp only; apply keep_onGnb; assumption

theorem keep_execGnbLoop : ∀ (s0 : State) (t : Time) (o : Order) (s : State), Keep s0 s → KeepOut s0 (execGnbLoop t o s) := by
  intro s0 t o s h5; unfold execGnbLoop; apply keep_run; assumption; intro y0; intro y1; apply keep_serve; intro y2; intro y3
  intro y4; apply keep_doGnbLoop; apply keep_expertDone; assumption; assumption

theorem keep_doGnbPin : ∀ (s0 : State) (o : Order) (s : State), Keep s0 s → Keep s0 (doGnbPin o s).fst := by
  intro s0 o s h4; unfold doGnbPin; lift_lets; intro x0; intro x1; intro x2; intro x3; intro x4; intro x5; intro x6
  refine Keep.cut (P := Keep s0 x6) ?_ (fun hx6 => ?_); unfold x6; apply keep_setCh; assumption; clear_value x6; split; dsimp only
  assumption; dsimp only; apply Keep.ite; apply keep_allotCh; assumption; apply keep_setCh; assumption

theorem keep_execGnbPin : ∀ (s0 : State) (t : Time) (o : Order) (s : State), Keep s0 s → KeepOut s0 (execGnbPin t o s) := by
  intro s0 t o s h5; unfold execGnbPin; apply keep_run; assumption; intro y0; intro y1; apply keep_serve; intro y2; intro y3
  intro y4; apply keep_doGnbPin; apply keep_expertDone; assumption; assumption

theorem keep_doGnbUnpin : ∀ (s0 : State) (o : Order) (s : State), Keep s0 s → Keep s0 (doGnbUnpin o s).fst := by
  intro s0 o s h4; unfold doGnbUnpin; lift_lets; intro x0; intro x1; intro x2; split; dsimp only; assumption; dsimp only
  apply keep_setCh; assumption

theorem keep_execGnbUnpin : ∀ (s0 : State) (t : Time) (o : Order) (s : State), Keep s0 s → KeepOut s0 (execGnbUnpin t o s) := by
  intro s0 t o s h5; unfold execGnbUnpin; apply keep_run; assumption; intro y0; intro y1; apply keep_serve; intro y2; intro y3
  intro y4; apply keep_doGnbUnpin; apply keep_expertDone; assumption; assumption

theorem keep_allotAll : ∀ (s0 : State) (l : Lane) (ks : List Cand) (cs : List Nat) (s : State),
    Keep s0 s → Keep s0 (allotAll l ks cs s) := by
  intro s0 l ks
  induction ks with
  | nil => exact fun _ _ h => h
  | cons k ks ih =>
    intro cs s h
    cases cs with
    | nil => exact h
    | cons c cs => exact ih _ _ (keep_allotCh _ _ _ _ _ h)

theorem keep_allotSeen : ∀ (s0 : State) (l : Lane) (p : Nat) (e : Time) (s : State), Keep s0 s → Keep s0 (allotSeen l p e s) := by
  intro s0 l p e s h6; unfold allotSeen; lift_lets; intro x0; intro x1; intro x2; intro x3; intro x4; apply keep_allotAll
  apply keep_forEach; intro y5; intro y6; intro y7; apply keep_releaseCh; assumption; assumption

theorem keep_allotBlind : ∀ (s0 : State) (l : Lane) (p : Nat) (e : Time) (s : State), Keep s0 s → Keep s0 (allotBlind l p e s) := by
  intro s0 l p e s h6; unfold allotBlind; lift_lets; intro x0; intro x1; intro x2; intro x3; intro x4; intro x5; intro x6
  intro x7; apply keep_onGnb; apply keep_allotAll; apply keep_forEach; intro y8; intro y9; intro y10; apply keep_releaseCh
  assumption; assumption

theorem keep_allotPort : ∀ (s0 : State) (l : Lane) (e : Time) (p : Nat) (s : State), Keep s0 s → Keep s0 (allotPort l e p s) := by
  intro s0 l e p s h6; unfold allotPort; lift_lets; intro x0; refine Keep.cut (P := Keep s0 x0) ?_ (fun hx0 => ?_); unfold x0
  apply Keep.ite; apply keep_allotBlind; assumption; apply keep_allotSeen; assumption; clear_value x0; apply keep_forEach
  intro y1; intro y2; intro y3; lift_lets; intro x4; intro x5; apply Keep.ite; assumption; apply Keep.ite; apply Keep.ite
  assumption; apply keep_releaseCh; assumption; apply Keep.ite; assumption; apply keep_allotCh; assumption; assumption

theorem keep_pinned : ∀ (s0 : State) (l : Lane) (c : Nat) (s : State), Keep s0 s → Keep s0 (pinned l c s) := by
  intro s0 l c s h5; unfold pinned; lift_lets; intro x0; apply Keep.ite; assumption; apply Keep.ite; apply Keep.ite; assumption
  apply keep_releaseCh; assumption; apply Keep.ite; apply keep_allotCh; assumption; assumption

theorem keep_allocate : ∀ (s0 : State) (l : Lane) (e : Time) (s : State), Keep s0 s → Keep s0 (allocate l e s) := by
  intro s0 l e s h5; unfold allocate; lift_lets; intro x0; refine Keep.cut (P := Keep s0 x0) ?_ (fun hx0 => ?_); unfold x0
  apply keep_forEach; intro y1; intro y2; intro y3; apply keep_pinned; assumption; assumption; clear_value x0; apply Keep.ite
  apply keep_allotPort; apply keep_allotPort; assumption; assumption

theorem keep_useNav : ∀ (s0 : State) (l : Lane) (a : State), Keep s0 a → Keep s0 (useNav l a) := by
  intro s0 l _ h1; unfold useNav; apply keep_onGnb; assumption

theorem keep_takeUtc : ∀ (s0 : State) (l : Lane) (s : State), Keep s0 s → Keep s0 (takeUtc l s) := by
  intro s0 l s h4; unfold takeUtc; split; apply Keep.ite; apply keep_setF; apply keep_setF; assumption; assumption; assumption

theorem keep_gnbStop : ∀ (s0 : State) (l : Lane) (e : Time) (s : State), Keep s0 s → Keep s0 (gnbStop l e s) := by
  intro s0 l e s h2; unfold gnbStop; lift_lets; intro x0; refine Keep.cut (P := Keep s0 x0) ?_ (fun hx0 => ?_); unfold x0
  apply keep_forEach; intro y1 y2 y3; apply Keep.ite; assumption; apply keep_releaseCh; assumption; assumption; clear_value x0
  apply keep_setF; apply keep_onGnb; assumption

theorem keep_portStat : ∀ (s0 : State) (l : Lane) (on : Nat → Bool) (outer : List Nat) (s : State), Keep s0 s → Keep s0 (portStat l on outer s) := by
  intro s0 l on outer s h6; unfold portStat; apply keep_forEach; intro y0; intro y1; intro y2; lift_lets; intro x3
  apply keep_setF; apply keep_setB; assumption; assumption

theorem keep_gnbTrack : ∀ (s0 : State) (l : Lane) (e : Time) (g : EpochIn) (s : State), Keep s0 s → Keep s0 (gnbTrack l e g s) := by
  intro s0 l e g s h; unfold gnbTrack; lift_lets; intro y os x clk q
  have hy : Keep s0 y := by unfold y; apply keep_forEach; intro _ _ _; apply keep_smoothCh; assumption; assumption
  have hq : Keep s0 q.2.2 := by unfold q; apply keep_entries; apply keep_headingStep; assumption
  clear_value q; intro s1 s2
  have h1 : Keep s0 s1 := by unfold s1; apply keep_streamRec; assumption
  clear_value s1
  have h2 : Keep s0 s2 := by unfold s2; apply keep_setB; apply keep_onGnb; assumption
  clear_value s2
  apply keep_allocate; apply keep_portStat; apply keep_gnssObserve; apply keep_showFix; assumption

theorem keep_gnbLayup : ∀ (s0 : State) (l : Lane) (e : Time) (now' : Bool) (i : EpochIn) (s : State), Keep s0 s → Keep s0 (gnbLayup l e now' i s) := by
  intro s0 l e now' i s h7; unfold gnbLayup; lift_lets; intro x0; intro x1; intro x2
  refine Keep.cut (P := Keep s0 x2) ?_ (fun hx2 => ?_); unfold x2; apply Keep.ite; assumption; apply Keep.ite; apply keep_incF
  apply keep_onGnb; assumption; apply keep_setF; apply keep_onGnb; assumption; clear_value x2; intro x3; intro x4; intro x5
  intro x6; apply keep_portStat; apply keep_onGnb; assumption

theorem keep_gnbEpoch : ∀ (s0 : State) (l : Lane) (e : Time) (was : Mode) (now' : Bool) (g : EpochIn) (s : State),
    Keep s0 s → Keep s0 (gnbEpoch l e was now' g s) := by
  intro s0 l e was now' g s h8; unfold gnbEpoch; lift_lets; intro x0; refine Keep.cut (P := Keep s0 x0) ?_ (fun hx0 => ?_)
  unfold x0; apply keep_when; intro y1; intro y2; apply keep_onRef; assumption; apply keep_useNav; apply keep_takeUtc; assumption
  clear_value x0; intro x3; refine Keep.cut (P := Keep s0 x3) ?_ (fun hx3 => ?_); unfold x3; apply keep_onGnb; apply keep_setF
  assumption; clear_value x3; split; apply keep_gnbLayup; apply Keep.ite; assumption; apply keep_gnbStop; assumption
  apply keep_when; intro y4; intro y5; apply keep_gnbTrack; assumption; assumption

theorem keep_clkMoves : ∀ (s0 : State) (l : Lane) (s : State), Keep s0 s → Keep s0 (clkMoves l s) := by
  intro s0 l s h1; unfold clkMoves; lift_lets; intro x0; refine Keep.cut (P := Keep s0 x0) ?_ (fun hx0 => ?_); unfold x0
  apply keep_forEach; intro y1 y2 y3; lift_lets; intro x4; apply Keep.ite; assumption; apply keep_incF; apply keep_setCh
  assumption; assumption; clear_value x0; apply keep_onGnb; assumption

theorem keep_execSnapshotCaptureEnd : ∀ (s0 : State) (t : Time) (l : Lane) (x : List (Nat × List Byte)) (s : State), Keep s0 s → KeepOut s0 (execSnapshotCaptureEnd t l x s) := by
  intro s0 t l x s h6; unfold execSnapshotCaptureEnd; apply keep_runLane; assumption; intro y0; intro y1; split; apply Keep.ite
  lift_lets; intro x2; apply keep_showIfen; apply keep_domSet; apply keep_portStat; apply keep_onGnb; assumption; assumption
  assumption

theorem keep_execSnapshotProcessed : ∀ (s0 : State) (t : Time) (l : Lane) (s : State), Keep s0 s → KeepOut s0 (execSnapshotProcessed t l s) := by
  intro s0 t l s h5; unfold execSnapshotProcessed; apply keep_runLane; assumption; intro y0; intro y1; split; lift_lets; intro x2
  intro x3; intro x4; intro x5; intro x6; intro x7; refine Keep.cut (P := Keep s0 x7) ?_ (fun hx7 => ?_); unfold x7
  apply keep_streamRec; assumption; clear_value x7; intro x8; refine Keep.cut (P := Keep s0 x8) ?_ (fun hx8 => ?_); unfold x8
  apply keep_setF; apply keep_setB; apply keep_onGnb; assumption; clear_value x8; apply keep_gnssObserve; apply keep_when
  intro y9; intro y10; apply keep_domClr; assumption; apply keep_showFix; assumption; assumption

theorem keep_onMet : ∀ (s0 : State) (l : Lane) (f : MetSt → MetSt) (a : State), Keep s0 a → Keep s0 (onMet l f a) := by
  intro s0 l f _ h2; unfold onMet; apply keep_onLane; assumption

theorem keep_setAp : ∀ (s0 : State) (l : Lane) (n : Nat) (v : ApSt) (a : State), Keep s0 a → Keep s0 (setAp l n v a) := by
  intro s0 l n v _ h3; unfold setAp; apply keep_onMet; assumption

theorem keep_setMetCh : ∀ (s0 : State) (l : Lane) (n : Nat) (v : MetCh) (a : State), Keep s0 a → Keep s0 (setMetCh l n v a) := by
  intro s0 l n v _ h3; unfold setMetCh; apply keep_onMet; assumption

theorem keep_setMetPt : ∀ (s0 : State) (l : Lane) (n : Nat) (v : MetPt) (a : State), Keep s0 a → Keep s0 (setMetPt l n v a) := by
  intro s0 l n v _ h3; unfold setMetPt; apply keep_onMet; assumption

theorem keep_setMetPo : ∀ (s0 : State) (l : Lane) (n : Nat) (v : MetPo) (a : State), Keep s0 a → Keep s0 (setMetPo l n v a) := by
  intro s0 l n v _ h3; unfold setMetPo; apply keep_onMet; assumption

theorem keep_chDown : ∀ (s0 : State) (l : Lane) (c : Nat) (s : State), Keep s0 s → Keep s0 (chDown l c s) := by
  intro s0 l c s h5; unfold chDown; lift_lets; intro x0; split; apply keep_setMetCh; assumption; assumption

theorem keep_apDown : ∀ (s0 : State) (l : Lane) (n : Nat) (s : State), Keep s0 s → Keep s0 (apDown l n s) := by
  intro s0 l n s h5; unfold apDown; apply keep_forEach; intro y0; intro y1; intro y2; apply keep_chDown; apply keep_setF
  assumption; apply keep_setAp; assumption

theorem keep_apUnlock : ∀ (s0 : State) (l : Lane) (n st : Nat) (s : State), Keep s0 s → Keep s0 (apUnlock l n st s) := by
  intro s0 l n st s h3; unfold apUnlock; lift_lets; intro x0; apply keep_raise; apply keep_incF; apply keep_setF
  apply keep_setF; apply keep_setAp; apply keep_apDown; assumption

theorem keep_apGood : ∀ (s0 : State) (l : Lane) (n seq : Nat) (d : BitVec 288) (s : State), Keep s0 s → Keep s0 (apGood l n seq d s) := by
  intro s0 l n seq d s h4; unfold apGood; lift_lets; intro x0 x1 x2 x3 x4 x5 x6
  refine Keep.cut (P := Keep s0 x6) ?_ (fun hx6 => ?_); unfold x6; apply keep_setF; apply keep_setF; apply keep_setAp
  assumption; clear_value x6; intro x7; refine Keep.cut (P := Keep s0 x7) ?_ (fun hx7 => ?_); unfold x7; apply Keep.ite
  apply keep_setF; apply keep_setF; apply keep_setF; assumption; assumption; clear_value x7; apply Keep.ite; apply keep_raise
  apply keep_incF; assumption; assumption

theorem keep_apValid : ∀ (s0 : State) (l : Lane) (n : Nat) (s : State), Keep s0 s → Keep s0 (apValid l n s) := by
  intro s0 l n s h2; unfold apValid; lift_lets; intro x0 x1; apply Keep.ite; apply keep_setAp; assumption; apply Keep.ite
  apply keep_apDown; assumption; assumption

theorem keep_apDeliver : ∀ (s0 : State) (l : Lane) (n : Nat) (d : BitVec 288) (ok : Bool) (s : State), Keep s0 s → Keep s0 (apDeliver l n d ok s) := by
  intro s0 l n d ok s h7; unfold apDeliver; lift_lets; intro x0; intro x1; intro x2; intro x3; intro x4
  refine Keep.cut (P := Keep s0 x4) ?_ (fun hx4 => ?_); unfold x4; apply keep_setAp; assumption; clear_value x4
  apply keep_forEach; intro y5; intro y6; intro y7; lift_lets; intro x8; intro x9; apply keep_setMetCh; assumption; assumption

theorem keep_apStep : ∀ (s0 : State) (l : Lane) (n : Nat) (bits : BitVec 288) (s : State), Keep s0 s → Keep s0 (apStep l n bits s) := by
  intro s0 l n bits s h6; unfold apStep; lift_lets; intro x0; intro x1; intro x2; intro x3; intro x4; intro x5
  refine Keep.cut (P := Keep s0 x5) ?_ (fun hx5 => ?_); unfold x5; apply keep_setAp; assumption; clear_value x5; intro x6
  refine Keep.cut (P := Keep s0 x6) ?_ (fun hx6 => ?_); unfold x6; apply keep_apGood; assumption; clear_value x6; intro x7
  intro x8; intro x9; refine Keep.cut (P := Keep s0 x9) ?_ (fun hx9 => ?_); unfold x9; apply keep_setAp; assumption
  clear_value x9; intro x10; intro x11; intro x12; refine Keep.cut (P := Keep s0 x12) ?_ (fun hx12 => ?_); unfold x12
  apply keep_apGood; apply keep_apDeliver; assumption; clear_value x12; intro x13; intro x14
  refine Keep.cut (P := Keep s0 x14) ?_ (fun hx14 => ?_); unfold x14; apply keep_apDeliver; assumption; clear_value x14; intro x15
  intro x16; refine Keep.cut (P := Keep s0 x16) ?_ (fun hx16 => ?_); unfold x16; apply keep_incF; apply keep_incF
  apply keep_setAp; assumption; clear_value x16; intro x17; apply Keep.ite; apply Keep.ite; apply Keep.ite; apply keep_apValid
  apply keep_raise; apply keep_setF; apply keep_setAp; assumption; assumption; apply keep_setAp; assumption; apply Keep.ite
  apply keep_apValid; apply keep_setAp; assumption; apply Keep.ite; apply keep_setAp; apply keep_apUnlock; assumption; assumption

theorem keep_execApFrame : ∀ (s0 : State) (t : Time) (l : Lane) (n : Nat) (bits : BitVec 288) (s : State),
    Keep s0 s → KeepOut s0 (execApFrame t l n bits s) := by
  intro s0 t l n bits s h4; unfold execApFrame; apply keep_runLane; assumption; intro y0 y1; apply keep_when; intro y2 y3
  apply keep_apStep; assumption; assumption

theorem keep_execApPhaseFound : ∀ (s0 : State) (t : Time) (l : Lane) (n : Nat) (s : State), Keep s0 s → KeepOut s0 (execApPhaseFound t l n s) := by
  intro s0 t l n s h3; unfold execApPhaseFound; apply keep_runLane; assumption; intro y0 y1; apply keep_when; intro y2 y3
  apply keep_setF; apply keep_setAp; assumption; assumption

theorem keep_execApLineTimeout : ∀ (s0 : State) (t : Time) (l : Lane) (n : Nat) (s : State), Keep s0 s → KeepOut s0 (execApLineTimeout t l n s) := by
  intro s0 t l n s h3; unfold execApLineTimeout; apply keep_runLane; assumption; intro y0 y1; apply Keep.ite; assumption; split
  apply keep_apUnlock; assumption; apply keep_setF; apply keep_setAp; assumption; assumption

theorem keep_apEnableLane : ∀ (s0 : State) (n : Nat) (l : Lane) (s : State), Keep s0 s → Keep s0 (apEnableLane n l s) := by
  intro s0 n l s h2; unfold apEnableLane; lift_lets; intro x0; apply Keep.ite; apply Keep.ite; apply keep_setF; apply keep_setAp
  assumption; assumption; apply Keep.ite; assumption; apply keep_setF; apply keep_setF; apply keep_setAp; apply keep_apDown
  assumption

theorem keep_mclkPin : ∀ (s0 : State) (n : Nat) (s : State), Keep s0 s → Keep s0 (mclkPin n s) := by
  intro s0 n s h4; unfold mclkPin; lift_lets; intro x0; apply Keep.ite; assumption; apply keep_emit; apply Keep.mk'; assumption

theorem keep_showMclk : ∀ (s0 : State) (s : State), Keep s0 s → Keep s0 (showMclk s) := by
  intro s0 s h3; unfold showMclk; apply keep_forEach; intro y0; intro y1; intro y2; apply keep_mclkPin; assumption; assumption

theorem keep_apCfgWritten : ∀ (s0 : State) (n : Nat) (s : State), Keep s0 s → Keep s0 (apCfgWritten n s) := by
  intro s0 n s h4; unfold apCfgWritten; apply keep_readyLanes; intro y0; intro y1; intro y2; apply keep_apEnableLane; assumption
  apply keep_mclkPin; assumption

theorem keep_execChannelSettle : ∀ (s0 : State) (t : Time) (l : Lane) (ch : Nat) (s : State), Keep s0 s → KeepOut s0 (execChannelSettle t l ch s) := by
  intro s0 t l ch s h6; unfold execChannelSettle; apply keep_runLane; assumption; intro y0; intro y1; apply keep_when; intro y2
  intro y3; apply keep_setF; apply keep_setMetCh; assumption; assumption

theorem keep_chSample : ∀ (s0 : State) (l : Lane) (r : Time) (c : Nat) (s : State), Keep s0 s → Keep s0 (chSample l r c s).snd := by
  intro s0 l r c s h; unfold chSample; dsimp only; apply keep_setB; apply keep_setMetCh; assumption

theorem keep_chIdle : ∀ (s0 : State) (l : Lane) (c : Nat) (s : State), Keep s0 s → Keep s0 (chIdle l c s) := by
  intro s0 l c s h5; unfold chIdle; apply keep_setF; apply keep_setMetCh; assumption

theorem keep_chSamples : ∀ (s0 : State) (l : Lane) (r : Time) (xs : List Nat) (s : State), Keep s0 s → Keep s0 (chSamples l r xs s).2 := by
  intro s0 l r xs
  induction xs with
  | nil => exact fun _ h => h
  | cons x xs ih =>
    intro s h
    unfold chSamples
    split
    · exact ih _ (keep_chSample _ _ _ _ _ h)
    · exact ih _ (keep_chIdle _ _ _ _ h)

theorem keep_metAdd : ∀ (s0 : State) (l : Lane) (n code inc : Nat) (s : State), Keep s0 s → Keep s0 (metAdd l n code inc s) := by
  intro s0 l n code inc s h4; unfold metAdd; lift_lets; intro x0 x1 x2; refine Keep.cut (P := Keep s0 x2) ?_ (fun hx2 => ?_)
  unfold x2; apply keep_setMetPt; assumption; clear_value x2; intro x3 x4; apply Keep.ite; assumption; apply keep_raise
  apply keep_setF; apply keep_setMetPt; assumption

theorem keep_metAddNet : ∀ (s0 : State) (l : Lane) (n code : Nat) (neg : Bool) (inc : Nat) (s : State),
    Keep s0 s → Keep s0 (metAddNet l n code neg inc s) := by
  intro s0 l n code neg inc s h5; unfold metAddNet; lift_lets; intro x0 x1; apply keep_setMetPt; assumption

theorem keep_metDc : ∀ (s0 : State) (l : Lane) (n : Nat) (v i : MVal) (s : State), Keep s0 s → Keep s0 (metDc l n v i s) := by
  intro s0 l n v i s h4; unfold metDc; lift_lets; intro x0 x1; refine Keep.cut (P := Keep s0 x1) ?_ (fun hx1 => ?_); unfold x1
  apply keep_metAddNet; apply keep_metAdd; assumption; clear_value x1; intro x2
  refine Keep.cut (P := Keep s0 x2) ?_ (fun hx2 => ?_); unfold x2; apply keep_metAddNet; apply keep_metAdd; assumption
  clear_value x2; intro x3; apply keep_setMetPt; assumption

theorem keep_metAc : ∀ (s0 : State) (l : Lane) (n kind : Nat) (rev : Bool) (x : AcVals) (s : State),
    Keep s0 s → Keep s0 (metAc l n kind rev x s) := by
  intro s0 l n kind rev x s h8; unfold metAc; lift_lets; intro x0; intro x1; intro x2; intro x3; intro x4
  refine Keep.cut (P := Keep s0 x4) ?_ (fun hx4 => ?_); unfold x4; apply keep_metAddNet; apply keep_metAdd; assumption
  clear_value x4; intro x5; refine Keep.cut (P := Keep s0 x5) ?_ (fun hx5 => ?_); unfold x5; apply keep_metAdd; apply keep_metAdd
  assumption; clear_value x5; intro x6; apply keep_setMetPt; assumption

theorem keep_setPtWin : ∀ (s0 : State) (l : Lane) (n : Nat) (h : List PtSample) (s : State), Keep s0 s → Keep s0 (setPtWin l n h s) := by
  intro s0 l n h s h6; unfold setPtWin; apply keep_onMet; assumption

theorem keep_winStep : ∀ (s0 : State) (l : Lane) (xs : List (Nat × ChVal)) (q : Nat × PointCfg) (s : State), Keep s0 s → Keep s0 (winStep l xs q s) := by
  intro s0 l xs q s h6; unfold winStep; apply Keep.ite; assumption; apply keep_setPtWin; assumption

theorem keep_gapStart : ∀ (s0 : State) (l : Lane) (n : Nat) (r : Time) (s : State), Keep s0 s → Keep s0 (gapStart l n r s) := by
  intro s0 l n r s h3; unfold gapStart; lift_lets; intro x0; apply keep_raiseAt; apply keep_incF; apply keep_setF
  apply keep_setMetPt; assumption

theorem keep_gapEnd : ∀ (s0 : State) (l : Lane) (n : Nat) (r r0 : Time) (s : State), Keep s0 s → Keep s0 (gapEnd l n r r0 s) := by
  intro s0 l n r r0 s h4; unfold gapEnd; lift_lets; intro x0 x1; apply keep_raiseAt; apply keep_incF; apply keep_setMetPt
  assumption

theorem keep_pointSample : ∀ (s0 : State) (l : Lane) (r : Time) (xs : List (Nat × ChVal)) (q : Nat × PointCfg) (s : State),
    Keep s0 s → Keep s0 (pointSample l r xs q s) := by
  intro s0 l r xs q s h7; unfold pointSample; lift_lets; intro x0; intro x1; intro x2
  refine Keep.cut (P := Keep s0 x2) ?_ (fun hx2 => ?_); unfold x2; split; apply keep_gapEnd; assumption; assumption
  clear_value x2; intro x3; intro x4; refine Keep.cut (P := Keep s0 x4) ?_ (fun hx4 => ?_); unfold x4; apply keep_setF
  apply keep_setMetPt; assumption; clear_value x4; intro x5; refine Keep.cut (P := Keep s0 x5) ?_ (fun hx5 => ?_); unfold x5
  apply Keep.ite; assumption; apply keep_gapStart; assumption; clear_value x5; intro x6; apply Keep.ite; assumption
  apply Keep.ite; apply Keep.ite; split; apply keep_metDc; assumption; assumption; apply keep_metAc; assumption
  apply keep_setMetPt; assumption

theorem keep_closeInterval : ∀ (s0 : State) (l : Lane) (n : Nat) (late : Bool) (b : Int) (s : State),
    Keep s0 s → Keep s0 (closeInterval l n late b s) := by
  intro s0 l n late b s h4; unfold closeInterval; lift_lets; intro x0 x1 x2; apply keep_setF; apply keep_setB; apply keep_setB
  apply keep_setMetPt; assumption

theorem keep_intervalSample : ∀ (s0 : State) (l : Lane) (lt : Int) (n : Nat) (s : State), Keep s0 s → Keep s0 (intervalSample l lt n s) := by
  intro s0 l lt n s h3; unfold intervalSample; lift_lets; intro x0; split; apply keep_setMetPt; assumption; apply Keep.ite
  apply keep_closeInterval; assumption; assumption

theorem keep_intervalStep : ∀ (s0 : State) (l : Lane) (was now' : Int) (n : Nat) (s : State), Keep s0 s → Keep s0 (intervalStep l was now' n s) := by
  intro s0 l was now' n s h4; unfold intervalStep; split; assumption; apply Keep.ite; apply keep_closeInterval; assumption
  assumption

theorem keep_execTimeStep : ∀ (s0 : State) (t : Time) (s : State), Keep s0 s → KeepOut s0 (execTimeStep t s) := by
  intro s0 t s h1; unfold execTimeStep; apply keep_run; assumption; intro y0 y1; apply keep_readyLanes; intro y2 y3 y4
  lift_lets; intro x5 x6; refine Keep.cut (P := Keep s0 x6) ?_ (fun hx6 => ?_); unfold x6; apply keep_applyStep; assumption
  clear_value x6; apply Keep.ite; apply keep_forEach; intro y7 y8 y9; apply keep_intervalStep; assumption; assumption
  assumption; assumption

theorem keep_poPin : ∀ (s0 : State) (n : Nat) (v : Bool) (s : State), Keep s0 s → Keep s0 (poPin n v s) := by
  intro s0 n v s h2; unfold poPin; apply Keep.ite; assumption; apply keep_emit; apply Keep.mk'; assumption

theorem keep_poDrive : ∀ (s0 s : State), Keep s0 s → Keep s0 (poDrive s) := by
  intro s0 s h0; unfold poDrive; split; assumption; apply keep_forEach; intro y0 y1 y2; lift_lets; intro x3 x4; apply keep_poPin
  assumption; assumption

theorem keep_poShow : ∀ (s0 : State) (l : Lane) (n : Nat) (s : State), Keep s0 s → Keep s0 (poShow l n s) := by
  intro s0 l n s h2; unfold poShow; apply keep_setB; apply keep_setB; apply keep_setF; assumption

theorem keep_poStep : ∀ (s0 : State) (l : Lane) (n : Nat) (s : State), Keep s0 s → Keep s0 (poStep l n s) := by
  intro s0 l n s h2; unfold poStep; lift_lets; intro x0 x1 x2 x3; refine Keep.cut (P := Keep s0 x3) ?_ (fun hx3 => ?_)
  unfold x3; apply Keep.ite; apply keep_setMetPo; assumption; assumption; clear_value x3; intro x4 x5 x6
  refine Keep.cut (P := Keep s0 x6) ?_ (fun hx6 => ?_); unfold x6; apply Keep.ite; apply keep_raise; apply keep_setF; assumption
  apply Keep.ite; apply keep_setF; assumption; assumption; clear_value x6; apply keep_poShow; assumption

theorem keep_execPulseEnd : ∀ (s0 : State) (t : Time) (l : Lane) (n : Nat) (s : State), Keep s0 s → KeepOut s0 (execPulseEnd t l n s) := by
  intro s0 t l n s h3; unfold execPulseEnd; apply keep_run; assumption; intro y0 y1; apply Keep.ite; apply keep_when
  intro y2 y3; apply keep_poPin; assumption; assumption; apply Keep.ite; assumption; split; apply keep_when; intro y4 y5
  lift_lets; intro x6; apply keep_poDrive; apply keep_poShow; apply keep_setMetPo; assumption; assumption; assumption

theorem keep_poChanged : ∀ (s0 : State) (n : Nat) (s : State), Keep s0 s → Keep s0 (poChanged n s) := by
  intro s0 n s h1; unfold poChanged; apply keep_raise; apply keep_bothLanes; intro y0 y1 y2; lift_lets; intro x3
  apply keep_poShow; apply keep_setF; apply keep_setMetPo; assumption; assumption

theorem keep_loadMatch : ∀ (s0 : State) (l : Lane) (r : Time) (s : State), Keep s0 s → Keep s0 (loadMatch l r s) := by
  intro s0 l r s h2; unfold loadMatch; lift_lets; intro x0; apply keep_onMet; apply keep_forEach; intro y1 y2 y3; lift_lets
  intro x4; apply keep_setMetCh; assumption; assumption

theorem keep_metSecond : ∀ (s0 : State) (l : Lane) (s : State), Keep s0 s → Keep s0 (metSecond l s) := by
  intro s0 l s h1; unfold metSecond; lift_lets; intro x0 x1; refine Keep.cut (P := Keep s0 x1) ?_ (fun hx1 => ?_); unfold x1
  apply keep_forEach; intro y2 y3 y4; lift_lets; intro x5 x6; refine Keep.cut (P := Keep s0 x6) ?_ (fun hx6 => ?_); unfold x6
  apply keep_setB; apply keep_setB; apply keep_setB; assumption; clear_value x6; apply keep_setMetCh; apply keep_when
  intro y7 y8; apply keep_incF; assumption; assumption; assumption; clear_value x1; intro x9
  refine Keep.cut (P := Keep s0 x9) ?_ (fun hx9 => ?_); unfold x9; apply keep_forEach; intro y10 y11 y12; lift_lets; intro x13
  apply keep_setMetPt; apply keep_setB; apply keep_setB; assumption; assumption; clear_value x9; apply keep_setB; assumption

theorem keep_metSample : ∀ (s0 : State) (l : Lane) (r : Time) (s : State), Keep s0 s → Keep s0 (metSample l r s) := by
  intro s0 l r s h; unfold metSample; lift_lets; intro x0; refine Keep.cut (P := Keep s0 x0) ?_ (fun hx0 => ?_); unfold x0
  apply Keep.ite; apply keep_loadMatch; assumption; assumption; clear_value x0; intro x1
  refine Keep.cut (P := Keep s0 x1.2) ?_ (fun hx1 => ?_); unfold x1; apply keep_chSamples; assumption; clear_value x1; intro w
  refine Keep.cut (P := Keep s0 w) ?_ (fun hw => ?_); unfold w; apply keep_forEach; intro z0 z1 z2
  apply keep_winStep; assumption; assumption; clear_value w; intro x2
  refine Keep.cut (P := Keep s0 x2) ?_ (fun hx2 => ?_); unfold x2; apply Keep.ite; apply keep_forEach; intro y3 y4 y5
  apply keep_pointSample; assumption; assumption; assumption; clear_value x2; intro x6
  refine Keep.cut (P := Keep s0 x6) ?_ (fun hx6 => ?_); unfold x6; apply Keep.ite; apply keep_forEach; intro y7 y8 y9
  apply keep_intervalSample; assumption; assumption; assumption; clear_value x6; intro x10
  refine Keep.cut (P := Keep s0 x10) ?_ (fun hx10 => ?_); unfold x10; apply Keep.ite; apply keep_poDrive; apply keep_forEach
  intro y11 y12 y13; apply keep_poStep; assumption; assumption; assumption; clear_value x10; intro x14
  refine Keep.cut (P := Keep s0 x14) ?_ (fun hx14 => ?_); unfold x14; apply Keep.ite; apply keep_metSecond; assumption
  assumption; clear_value x14; apply keep_onMet; assumption

theorem keep_execMetrologySample : ∀ (s0 : State) (t : Time) (l : Lane) (s : State), Keep s0 s → KeepOut s0 (execMetrologySample t l s) := by
  intro s0 t l s h5; unfold execMetrologySample; apply keep_runLane; assumption; intro y0; intro y1; lift_lets; intro x2; intro x3
  apply keep_when; intro y4; intro y5; apply keep_metSample; assumption; assumption

theorem keep_loadSlot : ∀ (s0 : State) (l : Lane) (x : MetSlot) (s : State), Keep s0 s → Keep s0 (loadSlot l x s) := by
  intro s0 l x s h2; unfold loadSlot; lift_lets; intro x0; refine Keep.cut (P := Keep s0 x0) ?_ (fun hx0 => ?_); unfold x0
  apply keep_onMet; assumption; clear_value x0; apply keep_setF; apply keep_forEach; intro y1 y2 y3; apply keep_setF; assumption
  assumption

theorem keep_execBillingSave : ∀ (s0 : State) (t : Time) (s : State), Keep s0 s → KeepOut s0 (execBillingSave t s) := by
  intro s0 t s h4; unfold execBillingSave; apply keep_run; assumption; intro y0; intro y1; lift_lets; intro x2; split; assumption
  lift_lets; intro x3; refine Keep.cut (P := Keep s0 x3) ?_ (fun hx3 => ?_); unfold x3; apply Keep.ite; assumption; split
  apply keep_loadSlot; assumption; apply keep_onMet; assumption; clear_value x3; intro x4; intro x5; intro x6
  refine Keep.cut (P := Keep s0 x6) ?_ (fun hx6 => ?_); unfold x6; apply Keep.ite; apply Keep.mk'; assumption; apply Keep.mk'
  assumption; clear_value x6; apply Keep.ite; assumption; apply keep_readyLanes; intro y7; intro y8; intro y9; apply Keep.ite
  apply keep_setF; assumption; apply Keep.ite; apply keep_loadSlot; assumption; assumption; assumption

theorem keep_metRestore : ∀ (s0 : State) (ok0 ok1 : Bool) (s : State), Keep s0 s → Keep s0 (metRestore ok0 ok1 s) := by
  intro s0 ok0 ok1 s h5; unfold metRestore; lift_lets; intro x0; intro x1; intro x2; intro x3; intro x4; intro x5; intro x6
  intro x7; refine Keep.cut (P := Keep s0 x7) ?_ (fun hx7 => ?_); unfold x7; split; apply keep_raise; assumption; assumption
  clear_value x7; intro x8; refine Keep.cut (P := Keep s0 x8) ?_ (fun hx8 => ?_); unfold x8; apply Keep.ite; assumption
  apply Keep.ite; apply keep_raise; apply keep_setF2; assumption; apply keep_raiseAlarm; apply keep_setF2; assumption
  clear_value x8; intro x9; intro x10; apply keep_bothLanes; intro y11; intro y12; intro y13; apply keep_forEach; intro y14
  intro y15; intro y16; apply keep_poShow; assumption; apply keep_setF; apply keep_forEach; intro y17; intro y18; intro y19
  apply keep_setF; assumption; apply keep_onMet; assumption; assumption

theorem keep_setPoint : ∀ (s0 : State) (n : Nat) (c : PointCfg) (s : State), Keep s0 s → Keep s0 (setPoint n c s) := by
  intro s0 n c s h5; unfold setPoint; lift_lets; intro x0; intro x1; refine Keep.cut (P := Keep s0 x1) ?_ (fun hx1 => ?_)
  unfold x1; apply Keep.mk'; assumption; clear_value x1; apply keep_raise; apply keep_setF; apply keep_bothLanes; intro y2
  intro y3; intro y4; lift_lets; intro x5; apply keep_setPtWin; apply keep_setMetPt; assumption; assumption

theorem keep_metPreset : ∀ (s0 : State) (n code : Nat) (v : BitVec 64) (s : State), Keep s0 s → Keep s0 (metPreset n code v s) := by
  intro s0 n code v s h3; unfold metPreset; lift_lets; intro x0 x1 x2; refine Keep.cut (P := Keep s0 x2) ?_ (fun hx2 => ?_)
  unfold x2; apply keep_bothLanes; intro y3 y4 y5; lift_lets; intro x6 x7 x8 x9; apply keep_forEach; intro y10 y11 y12
  lift_lets; intro x13; apply Keep.ite; apply keep_setMetPo; assumption; assumption; apply keep_setMetPt; assumption; assumption
  clear_value x2; apply keep_raise; apply keep_raise; apply keep_raise; assumption

theorem keep_iqChanged : ∀ (s0 : State) (n : Nat) (s : State), Keep s0 s → Keep s0 (iqChanged n s) := by
  intro s0 n s h1; unfold iqChanged; apply keep_bothLanes; intro y0 y1 y2; lift_lets; intro x3; apply keep_setMetPt; assumption
  assumption

theorem keep_setCal : ∀ (s0 : State) (n : Nat) (c : ChanCal) (s : State), Keep s0 s → Keep s0 (setCal n c s) := by
  intro s0 n c s h2; unfold setCal; lift_lets; intro x0; apply keep_setF2; apply keep_bothLanes; intro y1 y2 y3; lift_lets
  intro x4; apply keep_onMet; apply keep_setMetCh; assumption; apply Keep.mk'; assumption

theorem keep_matchUpdate : ∀ (s0 : State) (l : Lane) (ch : Nat) (aFit bFit : F64) (s : State), Keep s0 s → Keep s0 (matchUpdate l ch aFit bFit s) := by
  intro s0 l ch aFit bFit s h7; unfold matchUpdate; lift_lets; intro x0; intro x1; intro x2; intro x3; intro x4; intro x5
  intro x6; intro x7; intro x8; apply Keep.ite; assumption; apply Keep.ite; apply keep_raise; apply keep_setF; assumption
  apply keep_readyLanes; intro y9; intro y10; intro y11; apply keep_onMet; assumption; apply keep_bothLanes; intro y12; intro y13
  intro y14; lift_lets; intro x15; apply keep_setMetCh; assumption; apply Keep.mk'; assumption

theorem keep_execRangeMatchWindow : ∀ (s0 : State) (t : Time) (l : Lane) (ch : Nat) (s : State),
    Keep s0 s → KeepOut s0 (execRangeMatchWindow t l ch s) := by
  intro s0 t l ch s h6; unfold execRangeMatchWindow; apply keep_runLane; assumption; intro y0; intro y1; lift_lets; intro x2
  apply Keep.ite; assumption; split; lift_lets; intro x3; refine Keep.cut (P := Keep s0 x3) ?_ (fun hx3 => ?_); unfold x3
  apply keep_setMetCh; assumption; clear_value x3; apply Keep.ite; assumption; apply keep_matchUpdate; assumption
  apply keep_setMetCh; assumption

theorem keep_metLatch : ∀ (s0 : State) (l : Lane) (s : State), Keep s0 s → Keep s0 (metLatch l s) := by
  intro s0 l s h1; unfold metLatch; lift_lets; intro x0 x1 x2 x3; refine Keep.cut (P := Keep s0 x3) ?_ (fun hx3 => ?_)
  unfold x3; apply keep_forEach; intro y4 y5 y6; apply keep_forEach; intro y7 y8 y9; apply keep_wrK; assumption; assumption
  assumption; clear_value x3; apply keep_setF; apply keep_setF; apply keep_setB; assumption

theorem keep_metTakeover : ∀ (s0 : State) (old new : Lane) (s : State), Keep s0 s → Keep s0 (metTakeover old new s) := by
  intro s0 old new s h2; unfold metTakeover; lift_lets; intro x0; refine Keep.cut (P := Keep s0 x0) ?_ (fun hx0 => ?_)
  unfold x0; split; apply keep_raise; assumption; assumption; clear_value x0; apply keep_poDrive; apply keep_bothLanes
  intro y1 y2 y3; apply keep_forEach; intro y4 y5 y6; apply keep_poShow; assumption; assumption; assumption

theorem keep_metStart : ∀ (s0 : State) (l : Lane) (s : State), Keep s0 s → Keep s0 (metStart l s) := by
  intro s0 l s h1; unfold metStart; apply keep_forEach; intro y0 y1 y2; apply keep_apEnableLane; assumption; assumption

theorem keep_onLpe : ∀ (s0 : State) (l : Lane) (f : LpeSt → LpeSt) (a : State), Keep s0 a → Keep s0 (onLpe l f a) := by
  intro s0 l f _ h2; unfold onLpe; apply keep_onLane; assumption

theorem keep_setSlot : ∀ (s0 : State) (l : Lane) (n : Nat) (v : LoopSt) (a : State), Keep s0 a → Keep s0 (setSlot l n v a) := by
  intro s0 l n v _ h3; unfold setSlot; apply keep_onLpe; assumption

theorem keep_showLpe : ∀ (s0 : State) (l : Lane) (s : State), Keep s0 s → Keep s0 (showLpe l s) := by
  intro s0 l s h1; unfold showLpe; lift_lets; intro x0; apply keep_setF; apply keep_setF; apply keep_setB; assumption

theorem keep_showFlags : ∀ (s0 : State) (l : Lane) (n : Nat) (hi lo rlim spst : Bool) (s : State),
    Keep s0 s → Keep s0 (showFlags l n hi lo rlim spst s) := by
  intro s0 l n hi lo rlim spst s h6; unfold showFlags; apply keep_setB; apply keep_setB; apply keep_setB; apply keep_setB
  assumption

theorem keep_enterHold : ∀ (s0 : State) (l : Lane) (n cause : Nat) (s : State), Keep s0 s → Keep s0 (enterHold l n cause s) := by
  intro s0 l n cause s h3; unfold enterHold; lift_lets; intro x0; apply keep_raise; apply keep_when; intro y1 y2
  apply keep_raise; assumption; apply keep_incF; apply keep_setB; apply keep_setSlot; apply keep_setF; assumption

theorem keep_autoSample : ∀ (s0 : State) (l : Lane) (n : Nat) (i : LoopIn) (track : Option F64) (back : Bool) (s : State),
    Keep s0 s → Keep s0 (autoSample l n i track back s).snd := by
  intro s0 l n i track back s h5; unfold autoSample; lift_lets; intro x0 x1 x2 x3 x4 x5 x6 x7 x8 x9 x10 x11 x12
  refine Keep.cut (P := Keep s0 x12) ?_ (fun hx12 => ?_); unfold x12; apply keep_setSlot; apply keep_setF; assumption
  clear_value x12; intro x13; refine Keep.cut (P := Keep s0 x13) ?_ (fun hx13 => ?_); unfold x13; apply keep_when; intro y14 y15
  apply keep_raise; assumption; apply keep_showFlags; assumption; clear_value x13; split; split; dsimp only; assumption
  dsimp only; apply keep_enterHold; assumption; dsimp only; apply keep_when; intro y16 y17; apply keep_raise; assumption
  assumption

theorem keep_manSample : ∀ (s0 : State) (l : Lane) (n : Nat) (y : Option F64) (i : LoopIn) (s : State),
    Keep s0 s → Keep s0 (manSample l n y i s).snd := by
  intro s0 l n y i s h4; unfold manSample; lift_lets; intro x0 x1 x2 x3 x4 x5
  refine Keep.cut (P := Keep s0 x5) ?_ (fun hx5 => ?_); unfold x5; apply keep_setSlot; assumption; clear_value x5; dsimp only
  apply keep_showFlags; assumption

theorem keep_loopCompute : ∀ (s0 : State) (l : Lane) (n : Nat) (tk : Time) (s : State), Keep s0 s → Keep s0 (loopCompute l n tk s).snd := by
  intro s0 l n tk s h3; unfold loopCompute; lift_lets; intro x0 x1 x2 x3 x4 x5 x6
  refine Keep.cut (P := Keep s0 x6) ?_ (fun hx6 => ?_); unfold x6; apply keep_setSlot; assumption; clear_value x6; split
  dsimp only; apply keep_setSlot; assumption; apply keep_manSample; assumption; split; dsimp only; assumption
  apply keep_autoSample; assumption; split; dsimp only; apply keep_enterHold; assumption; split; dsimp only
  apply keep_enterHold; assumption; apply keep_autoSample; assumption

theorem keep_keepMode : ∀ (s0 : State) (n m : Nat) (s : State), Keep s0 s → Keep s0 (keepMode n m s) := by
  intro s0 n m s h5; unfold keepMode; apply Keep.mk'; assumption

theorem keep_applyLoop : ∀ (s0 : State) (l : Lane) (n : Nat) (c : LoopCmd) (s : State), Keep s0 s → Keep s0 (applyLoop l n c s) := by
  intro s0 l n c s h6; unfold applyLoop; lift_lets; intro x0; intro x1; split; lift_lets; intro x2; intro x3
  refine Keep.cut (P := Keep s0 x3) ?_ (fun hx3 => ?_); unfold x3; apply keep_setF; assumption; clear_value x3; apply keep_showLpe
  apply keep_setSlot; apply keep_when; intro y4; intro y5; apply keep_keepMode; assumption; assumption; apply keep_setSlot
  assumption; apply keep_setSlot; assumption; apply keep_raise; apply keep_setSlot; apply keep_setF; assumption

theorem keep_takeLoops : ∀ (s0 : State) (l : Lane) (n : Nat) (tk : Time) (s : State), Keep s0 s → Keep s0 (takeLoops l n tk s) := by
  intro s0 l n tk s h3; unfold takeLoops; lift_lets; intro x0 x1; refine Keep.cut (P := Keep s0 x1) ?_ (fun hx1 => ?_)
  unfold x1; apply keep_forEach; intro y2 y3 y4; apply keep_applyLoop; assumption; assumption; clear_value x1; intro x5
  refine Keep.cut (P := Keep s0 x5) ?_ (fun hx5 => ?_); unfold x5; apply keep_authChange; assumption; clear_value x5
  intro x6 x7; refine Keep.cut (P := Keep s0 x7) ?_ (fun hx7 => ?_); unfold x7; apply keep_forEach; intro y8 y9 y10
  apply keep_applyLoop; assumption; assumption; clear_value x7; intro x11
  refine Keep.cut (P := Keep s0 x11) ?_ (fun hx11 => ?_); unfold x11; apply keep_onLpe; assumption; clear_value x11
  apply Keep.ite; apply Keep.ite; assumption; apply keep_sweep; apply keep_setB; apply keep_forEach; intro y12 y13 y14
  apply keep_effected; assumption; assumption; apply Keep.ite; assumption; apply keep_setB; assumption

theorem keep_adoptLoops : ∀ (s0 : State) (l : Lane) (u : Auth) (s : State), Keep s0 s → Keep s0 (adoptLoops l u s) := by
  intro s0 l u s h2; unfold adoptLoops; lift_lets; intro x0 x1 x2; apply keep_forEach; intro y3 y4 y5; apply keep_setF
  assumption; apply keep_onLpe; assumption

theorem keep_loopErr : ∀ (s0 : State) (l : Lane) (n err : Nat) (s : State), Keep s0 s → Keep s0 (loopErr l n err s) := by
  intro s0 l n err s h3; unfold loopErr; apply keep_setF; apply keep_setF; assumption

theorem keep_placeLoop : ∀ (s0 : State) (info : OrdInfo) (n : Nat) (c : LoopCmd) (s : State), Keep s0 s → Keep s0 (placeLoop info n c s).fst := by
  intro s0 info n c s h3; unfold placeLoop; split; dsimp only; assumption; apply keep_placeOrder; intro y0 y1; apply keep_setF
  assumption; assumption

theorem keep_doLoopMode : ∀ (s0 : State) (o : Order) (info : OrdInfo) (s : State), Keep s0 s → Keep s0 (doLoopMode o info s).fst := by
  intro s0 o info s h2; unfold doLoopMode; lift_lets; intro x0 x1 x2; split; dsimp only; assumption; split; dsimp only
  apply keep_loopErr; assumption; split; dsimp only; apply keep_loopErr; assumption; apply keep_placeLoop; assumption

theorem keep_execLoopMode : ∀ (s0 : State) (t : Time) (o : Order) (s : State), Keep s0 s → KeepOut s0 (execLoopMode t o s) := by
  intro s0 t o s h2; unfold execLoopMode; apply keep_run; assumption; intro y0 y1; apply keep_serve; intro y2 y3 y4
  apply keep_doLoopMode; assumption; assumption

theorem keep_doLoopVal : ∀ (s0 : State) (o : Order) (mk : F64 → LoopCmd) (info : OrdInfo) (s : State),
    Keep s0 s → Keep s0 (doLoopVal o mk info s).fst := by
  intro s0 o mk info s h3; unfold doLoopVal; split; dsimp only; assumption; apply keep_placeLoop; assumption

theorem keep_execLoopMan : ∀ (s0 : State) (t : Time) (o : Order) (s : State), Keep s0 s → KeepOut s0 (execLoopMan t o s) := by
  intro s0 t o s h2; unfold execLoopMan; apply keep_run; assumption; intro y0 y1; apply keep_serve; intro y2 y3 y4
  apply keep_doLoopVal; assumption; assumption

theorem keep_execLoopSp : ∀ (s0 : State) (t : Time) (o : Order) (s : State), Keep s0 s → KeepOut s0 (execLoopSp t o s) := by
  intro s0 t o s h2; unfold execLoopSp; apply keep_run; assumption; intro y0 y1; apply keep_serve; intro y2 y3 y4
  apply keep_doLoopVal; assumption; assumption

theorem keep_doLoopBank : ∀ (s0 : State) (o : Order) (info : OrdInfo) (s : State), Keep s0 s → Keep s0 (doLoopBank o info s).fst := by
  intro s0 o info s h2; unfold doLoopBank; split; dsimp only; assumption; apply keep_placeLoop; assumption

theorem keep_execLoopBank : ∀ (s0 : State) (t : Time) (o : Order) (s : State), Keep s0 s → KeepOut s0 (execLoopBank t o s) := by
  intro s0 t o s h2; unfold execLoopBank; apply keep_run; assumption; intro y0 y1; apply keep_serve; intro y2 y3 y4
  apply keep_doLoopBank; assumption; assumption

theorem keep_onTrc : ∀ (s0 : State) (l : Lane) (f : TraceSt → TraceSt) (a : State), Keep s0 a → Keep s0 (onTrc l f a) := by
  intro s0 l f _ h2; unfold onTrc; apply keep_onLpe; assumption

theorem keep_showTrc : ∀ (s0 : State) (l : Lane) (s : State), Keep s0 s → Keep s0 (showTrc l s) := by
  intro s0 l s h1; unfold showTrc; lift_lets; intro x0; apply keep_setF; assumption

theorem keep_trcDone : ∀ (s0 : State) (l : Lane) (s : State), Keep s0 s → Keep s0 (trcDone l s) := by
  intro s0 l s h1; unfold trcDone; lift_lets; intro x0; apply keep_streamRec; apply keep_setF; assumption

theorem keep_trcTrigger : ∀ (s0 : State) (l : Lane) (n : Nat) (q : Terms) (dly : Nat) (s : State), Keep s0 s → Keep s0 (trcTrigger l n q dly s) := by
  intro s0 l n q dly s h7; unfold trcTrigger; apply Keep.ite; lift_lets; intro x0; intro x1; intro x2
  refine Keep.cut (P := Keep s0 x2) ?_ (fun hx2 => ?_); unfold x2; apply keep_onTrc; assumption; clear_value x2; apply Keep.ite
  apply keep_setF; assumption; assumption; assumption

theorem keep_trcSample : ∀ (s0 : State) (l : Lane) (n : Nat) (tk : Time) (q : Terms) (dly : Nat) (s : State),
    Keep s0 s → Keep s0 (trcSample l n tk q dly s) := by
  intro s0 l n tk q dly s h8; unfold trcSample; lift_lets; intro x0; intro x1
  refine Keep.cut (P := Keep s0 x1) ?_ (fun hx1 => ?_); unfold x1; apply keep_trcTrigger; assumption; clear_value x1; intro x2
  refine Keep.cut (P := Keep s0 x2) ?_ (fun hx2 => ?_); unfold x2; apply keep_forEach; intro y3; intro y4; intro y5; lift_lets
  intro x6; intro x7; intro x8; refine Keep.cut (P := Keep s0 x8) ?_ (fun hx8 => ?_); unfold x8; apply keep_onTrc; assumption
  clear_value x8; intro x9; intro x10; intro x11; apply Keep.ite; assumption; apply Keep.ite; assumption; apply keep_onTrc
  assumption; assumption; clear_value x2; intro x12; refine Keep.cut (P := Keep s0 x12) ?_ (fun hx12 => ?_); unfold x12
  apply keep_showTrc; assumption; clear_value x12; apply Keep.ite; assumption; apply Keep.ite; apply keep_trcDone; assumption
  assumption

theorem keep_trcArm : ∀ (s0 : State) (l : Lane) (s : State), Keep s0 s → Keep s0 (trcArm l s) := by
  intro s0 l s h1; unfold trcArm; apply keep_showTrc; apply keep_setF; apply keep_onTrc; assumption

theorem keep_trcAbort : ∀ (s0 : State) (l : Lane) (s : State), Keep s0 s → Keep s0 (trcAbort l s) := by
  intro s0 l s h1; unfold trcAbort; lift_lets; intro x0; apply Keep.ite; apply keep_showTrc; apply keep_setF; apply keep_onTrc
  assumption; assumption

theorem keep_loopWrite : ∀ (s0 : State) (l : Lane) (n : Nat) (tk : Time) (q : Terms) (s : State), Keep s0 s → Keep s0 (loopWrite l n tk q s) := by
  intro s0 l n tk q s h7; unfold loopWrite; lift_lets; intro x0; intro x1; intro x2; intro x3; intro x4
  refine Keep.cut (P := Keep s0 x4) ?_ (fun hx4 => ?_); unfold x4; apply keep_onLpe; apply keep_setSlot; assumption
  clear_value x4; intro x5; intro x6; refine Keep.cut (P := Keep s0 x6) ?_ (fun hx6 => ?_); unfold x6; apply keep_setF
  apply keep_setF; apply keep_setF; apply keep_setB; assumption; clear_value x6; intro x7
  refine Keep.cut (P := Keep s0 x7) ?_ (fun hx7 => ?_); unfold x7; apply keep_trcSample; assumption; clear_value x7
  apply Keep.ite; apply keep_loopTx; assumption; assumption

theorem keep_offSample : ∀ (s0 : State) (l : Lane) (n : Nat) (s : State), Keep s0 s → Keep s0 (offSample l n s) := by
  intro s0 l n s h5; unfold offSample; apply keep_when; intro y0; intro y1; apply keep_trcTrigger; assumption; assumption

theorem keep_loopOne : ∀ (s0 : State) (l : Lane) (tk : Time) (n : Nat) (s : State), Keep s0 s → Keep s0 (loopOne l tk n s) := by
  intro s0 l tk n s h
  have hx0 : Keep s0 (takeLoops l n tk s) := keep_takeLoops _ _ _ _ _ h
  have hx3 := keep_loopCompute s0 l n tk _ hx0
  have hs (y : LoopSt) := keep_setSlot _ l n y _ hx3
  unfold loopOne
  dsimp only
  refine Keep.ite hx0 (Keep.ite (Keep.ite hx0 ?_) (Keep.ite hx0 (Keep.ite ?_ ?_)))
  · apply keep_incF; apply keep_incF; exact keep_setSlot _ _ _ _ _ hx0
  · exact keep_offSample _ _ _ _ (hs _)
  · exact keep_loopWrite _ _ _ _ _ _ (hs _)

theorem keep_execLoopSample : ∀ (s0 : State) (t : Time) (l : Lane) (slot : Nat) (tk : Time) (s : State),
    Keep s0 s → KeepOut s0 (execLoopSample t l slot tk s) := by
  intro s0 t l slot tk s h7; unfold execLoopSample; apply keep_runLane; assumption; intro y0; intro y1; apply Keep.ite; assumption
  apply keep_loopOne; apply keep_forEach; intro y2; intro y3; intro y4; apply keep_loopOne; assumption; assumption

theorem keep_lpeStop : ∀ (s0 : State) (l : Lane) (s : State), Keep s0 s → Keep s0 (lpeStop l s) := by
  intro s0 l s h1; unfold lpeStop; lift_lets; intro x0; refine Keep.cut (P := Keep s0 x0) ?_ (fun hx0 => ?_); unfold x0
  apply keep_setF; assumption; clear_value x0; apply Keep.ite; apply keep_trcDone; assumption; assumption

theorem keep_lpeStart : ∀ (s0 : State) (l : Lane) (s : State), Keep s0 s → Keep s0 (lpeStart l s) := by
  intro s0 l s h4; unfold lpeStart; apply keep_showLpe; apply keep_setF; apply keep_onLpe; apply keep_forEach; intro y0; intro y1
  intro y2; apply Keep.ite; apply keep_setSlot; assumption; assumption; assumption

theorem keep_lpeInit : ∀ (s0 : State) (l : Lane) (s : State), Keep s0 s → Keep s0 (lpeInit l s) := by
  intro s0 l s h4; unfold lpeInit; apply keep_onLpe; assumption

theorem keep_modesInit : ∀ (s0 : State) (l : Lane) (s : State), Keep s0 s → Keep s0 (modesInit l s) := by
  intro s0 l s h4; unfold modesInit; apply keep_forEach; intro y0; intro y1; intro y2; apply keep_when; intro y3; intro y4
  apply keep_setF; assumption; assumption; assumption

theorem keep_execLoopMirror : ∀ (s0 : State) (t : Time) (s : State), Keep s0 s → KeepOut s0 (execLoopMirror t s) := by
  intro s0 t s h4; unfold execLoopMirror; apply keep_run; assumption; intro y0; intro y1; split; lift_lets; intro x2; intro x3
  apply Keep.ite; apply keep_onLpe; apply keep_sendModule; apply keep_sendItem; assumption; assumption; assumption

theorem keep_correctSlot : ∀ (s0 : State) (l : Lane) (m : LoopMir) (s : State), Keep s0 s → Keep s0 (correctSlot l m s) := by
  intro s0 l m s h2; unfold correctSlot; lift_lets; intro x0 x1 x2 x3 x4; apply keep_setF; apply keep_setF; apply keep_setSlot
  assumption

theorem keep_correctLoops : ∀ (s0 : State) (l : Lane) (ms' : List LoopMir) (s : State), Keep s0 s → Keep s0 (correctLoops l ms' s) := by
  intro s0 l ms' s h2; unfold correctLoops; apply keep_showLpe; apply keep_onLane; apply keep_forEach; intro y0 y1 y2
  apply Keep.ite; assumption; apply keep_setF; assumption; apply keep_forEach; intro y3 y4 y5; apply keep_correctSlot
  assumption; assumption

theorem keep_putRecord : ∀ (s0 : State) (n : Nat) (bs : List Byte) (s : State), Keep s0 s →
    ∀ t, putRecord n bs s = .inr t → Keep s0 t := by
  intro s0 n bs s h t ht
  unfold putRecord at ht
  dsimp only at ht
  split at ht
  · cases ht
  · split at ht
    · cases ht
    · split at ht
      · cases ht
      · split at ht
        · cases ht
        · split at ht
          · cases ht
          rw [← Sum.inr.inj ht]
          apply keep_keepMode
          exact keep_bothLanes _ _ (fun _ _ hs => keep_setF _ _ _ _ _ (keep_setF _ _ _ _ _ (keep_setSlot _ _ _ _ _ hs))) _ (h.same rfl rfl)

theorem keep_putBank : ∀ (s0 : State) (n b : Nat) (bs : List Byte) (s : State), Keep s0 s →
    ∀ t, putBank n b bs s = .inr t → Keep s0 t := by
  intro s0 n b bs s h t ht
  unfold putBank at ht
  dsimp only at ht
  split at ht
  · cases ht
  · split at ht
    · cases ht
    · split at ht
      · cases ht
      · rw [← Sum.inr.inj ht]
        exact h.same rfl rfl

theorem keep_latchCal : ∀ (s0 : State) (s : State), Keep s0 s → Keep s0 (latchCal s) := by
  intro s0 s h3; unfold latchCal; apply Keep.mk'; assumption

theorem keep_forgetFired : ∀ (s0 : State) (s : State), Keep s0 s → Keep s0 (forgetFired s) := by
  intro s0 s h3; unfold forgetFired; apply Keep.mk'; assumption

end Sys2Proof.Machine
end

