-- ==== Sys2Proof/Laws/KeepLanes.lean ====
section
/-!
SUPPORT. Each operation keeps the queue and the canonical register file: metrology, loops, recorder, lanes and the Keeper. The proofs follow the cases of the definitions.
-/

namespace Sys2Proof.Machine

theorem keep_setRtc : ∀ (s0 : State) (c : Nat) (s : State), Keep s0 s → Keep s0 (setRtc c s) := by
  intro s0 c s h4; unfold setRtc; apply keep_when; intro y0; intro y1; apply keep_forgetFired; apply keep_setF; assumption
  apply Keep.mk'; assumption

theorem keep_rtcCount : ∀ (s0 : State) (k : Nat) (s : State), Keep s0 s → Keep s0 (rtcCount k s) := by
  intro s0 k s h4; unfold rtcCount; lift_lets; intro x0; intro x1; intro x2; apply keep_setRtc; apply Keep.mk'; assumption

theorem keep_almFire : ∀ (s0 : State) (n : Nat) (late : Bool) (cross : Nat) (s : State), Keep s0 s → Keep s0 (almFire n late cross s) := by
  intro s0 n late cross s h3; unfold almFire; lift_lets; intro x0 x1 x2; refine Keep.cut (P := Keep s0 x2) ?_ (fun hx2 => ?_)
  unfold x2; apply Keep.mk'; assumption; clear_value x2; intro x3; refine Keep.cut (P := Keep s0 x3) ?_ (fun hx3 => ?_)
  unfold x3; apply keep_setB; apply keep_setF; assumption; clear_value x3; intro x4
  refine Keep.cut (P := Keep s0 x4) ?_ (fun hx4 => ?_); unfold x4; apply Keep.ite; apply keep_setF; assumption; assumption
  clear_value x4; intro x5; refine Keep.cut (P := Keep s0 x5) ?_ (fun hx5 => ?_); unfold x5; apply keep_bothLanes
  intro y6 y7 y8; apply keep_sysStat; assumption; apply keep_setF; assumption; clear_value x5; apply Keep.ite; apply keep_when
  intro y9 y10; lift_lets; intro x11; apply Keep.mk'; assumption; assumption; assumption

theorem keep_almCross : ∀ (s0 : State) (a n : Nat) (s : State), Keep s0 s → Keep s0 (almCross a n s) := by
  intro s0 a n s h2; unfold almCross; lift_lets; intro x0 x1 x2; apply Keep.ite; assumption; apply Keep.ite; assumption
  apply keep_almFire; assumption

theorem keep_calLoad : ∀ (s0 : State) (c : Nat) (s : State), Keep s0 s → Keep s0 (calLoad c s) := by
  intro s0 c s h4; unfold calLoad; lift_lets; intro x0; intro x1; refine Keep.cut (P := Keep s0 x1) ?_ (fun hx1 => ?_); unfold x1
  apply keep_setRtc; assumption; clear_value x1; intro x2; refine Keep.cut (P := Keep s0 x2) ?_ (fun hx2 => ?_); unfold x2
  apply keep_raise; apply keep_raise; assumption; clear_value x2; apply keep_almCross; apply keep_almCross; assumption

theorem keep_calShift : ∀ (s0 : State) (n : Nat) (retard : Bool) (s : State), Keep s0 s → Keep s0 (calShift n retard s) := by
  intro s0 n retard s h2; unfold calShift; lift_lets; intro x0 x1; refine Keep.cut (P := Keep s0 x1) ?_ (fun hx1 => ?_)
  unfold x1; apply keep_setRtc; assumption; clear_value x1; apply Keep.ite; apply keep_setRtc; assumption; apply keep_almCross
  apply keep_almCross; assumption

theorem keep_calDue : ∀ (s0 : State) (s : State), Keep s0 s → Keep s0 (calDue s) := by
  intro s0 s h3; unfold calDue; lift_lets; intro x0; intro x1; refine Keep.cut (P := Keep s0 x1) ?_ (fun hx1 => ?_); unfold x1
  apply keep_setF; apply Keep.mk'; assumption; clear_value x1; intro x2; refine Keep.cut (P := Keep s0 x2) ?_ (fun hx2 => ?_)
  unfold x2; apply keep_forEach; intro y3; intro y4; intro y5; apply keep_calShift; assumption; assumption; clear_value x2; split
  apply keep_calLoad; assumption; assumption

theorem keep_rtcTicks : ∀ (s0 : State) (k : Nat) (s : State), Keep s0 s → Keep s0 (rtcTicks k s) := by
  intro s0 k s h4; unfold rtcTicks; apply Keep.ite; apply keep_rtcCount; assumption; apply keep_rtcCount; apply keep_calDue
  apply keep_rtcCount; assumption

theorem keep_calSet : ∀ (s0 s : State), Keep s0 s → Keep s0 (calSet s) := by
  intro s0 s h3; unfold calSet; apply Keep.ite; apply Keep.mk'; assumption; apply keep_raise; apply keep_setF; assumption

theorem keep_calOrder : ∀ (s0 : State) (n : Nat) (retard : Bool) (s : State), Keep s0 s → Keep s0 (calOrder n retard s) := by
  intro s0 n retard s h5; unfold calOrder; apply keep_setF; apply Keep.mk'; assumption

theorem keep_execRtcAlarm : ∀ (s0 : State) (t : Time) (n k : Nat) (s : State), Keep s0 s → KeepOut s0 (execRtcAlarm t n k s) := by
  intro s0 t n k s h3; unfold execRtcAlarm; apply keep_runAny; assumption; intro y0 y1; lift_lets; intro x2
  refine Keep.cut (P := Keep s0 x2) ?_ (fun hx2 => ?_); unfold x2; apply keep_rtcTicks; assumption; clear_value x2; intro x3 x4
  apply Keep.ite; apply keep_almFire; assumption; assumption

theorem keep_execCalendarRollover : ∀ (s0 : State) (t : Time) (k : Nat) (s : State), Keep s0 s → KeepOut s0 (execCalendarRollover t k s) := by
  intro s0 t k s h2; unfold execCalendarRollover; apply keep_runAny; assumption; intro y0 y1; apply keep_rtcTicks; assumption

theorem keep_execRtcCompensation : ∀ (s0 : State) (t : Time) (temp : BitVec 8) (k : Nat) (s : State),
    Keep s0 s → KeepOut s0 (execRtcCompensation t temp k s) := by
  intro s0 t temp k s h3; unfold execRtcCompensation; apply keep_runAny; assumption; intro y0 y1; lift_lets; intro x2
  refine Keep.cut (P := Keep s0 x2) ?_ (fun hx2 => ?_); unfold x2; apply keep_rtcTicks; assumption; clear_value x2; intro x3
  apply Keep.ite; apply keep_setF; apply keep_setF; assumption; assumption

theorem keep_execRtcTracking : ∀ (s0 : State) (t : Time) (k : Nat) (s : State), Keep s0 s → KeepOut s0 (execRtcTracking t k s) := by
  intro s0 t k s h5; unfold execRtcTracking; apply keep_run; assumption; intro y0; intro y1; lift_lets; intro x2
  refine Keep.cut (P := Keep s0 x2) ?_ (fun hx2 => ?_); unfold x2; apply keep_rtcTicks; assumption; clear_value x2; intro x3
  intro x4; intro x5; refine Keep.cut (P := Keep s0 x5) ?_ (fun hx5 => ?_); unfold x5; apply keep_setB; assumption; clear_value x5
  intro x6; intro x7; intro x8; intro x9; refine Keep.cut (P := Keep s0 x9) ?_ (fun hx9 => ?_); unfold x9; apply Keep.mk'
  assumption; clear_value x9; apply Keep.ite; assumption; apply Keep.ite; assumption; apply Keep.ite; apply keep_calOrder
  assumption; apply keep_raise; assumption

theorem keep_execRtcFirstSecond : ∀ (s0 : State) (t : Time) (k : Nat) (s : State), Keep s0 s → KeepOut s0 (execRtcFirstSecond t k s) := by
  intro s0 t k s h2; unfold execRtcFirstSecond; apply keep_run; assumption; intro y0 y1; lift_lets; intro x2
  refine Keep.cut (P := Keep s0 x2) ?_ (fun hx2 => ?_); unfold x2; apply keep_rtcTicks; assumption; clear_value x2
  apply Keep.ite; assumption; apply keep_bothLanes; intro y3 y4 y5; lift_lets; intro x6 x7 x8; apply Keep.ite; assumption
  apply keep_forEach; intro y9 y10 y11; apply keep_tpRetake; assumption; apply keep_onTmb; assumption; assumption

theorem keep_setPort : ∀ (s0 : State) (n : Nat) (p : PtpPort) (s : State), Keep s0 s → Keep s0 (setPort n p s) := by
  intro s0 n p s h2; unfold setPort; lift_lets; intro x0; apply Keep.mk'; assumption

theorem keep_ptpSend : ∀ (s0 : State) (n kind : Nat) (seq : BitVec 16) (ts corr : Int) (dat : List Nat) (s : State),
    Keep s0 s → Keep s0 (ptpSend n kind seq ts corr dat s) := by
  intro s0 n kind seq ts corr dat s h6; unfold ptpSend; apply keep_when; intro y0 y1; apply keep_emit; assumption; assumption

theorem keep_ptpSeq : ∀ (s0 : State) (n kind : Nat) (s : State), Keep s0 s → Keep s0 (ptpSeq n kind s).snd := by
  intro s0 n kind s h2; unfold ptpSeq; lift_lets; intro x0 x1; dsimp only; apply Keep.mk'; assumption

theorem keep_setMpd : ∀ (s0 : State) (n : Nat) (d : Int) (s : State), Keep s0 s → Keep s0 (setMpd n d s) := by
  intro s0 n d s h2; unfold setMpd; lift_lets; intro x0; apply keep_setF2; apply keep_setPort; assumption

theorem keep_dropSilent : ∀ (s0 : State) (n : Nat) (s : State), Keep s0 s → Keep s0 (dropSilent n s) := by
  intro s0 n s h4; unfold dropSilent; lift_lets; intro x0; apply keep_setPort; assumption

theorem keep_ptpObserve : ∀ (s0 : State) (n : Nat) (s : State), Keep s0 s → Keep s0 (ptpObserve n s) := by
  intro s0 n s h1; unfold ptpObserve; lift_lets; intro x0; split; apply Keep.ite; apply keep_readyLanes; intro y1 y2 y3
  apply keep_observe; assumption; apply keep_setPort; assumption; assumption; assumption

theorem keep_execPtpSync : ∀ (s0 : State) (t : Time) (n : Nat) (m : PtpMsg) (s : State), Keep s0 s → KeepOut s0 (execPtpSync t n m s) := by
  intro s0 t n m s h3; unfold execPtpSync; apply keep_run; assumption; intro y0 y1; lift_lets; intro x2; apply Keep.ite
  apply keep_setPort; assumption; assumption

theorem keep_execPtpFollowUp : ∀ (s0 : State) (t : Time) (n : Nat) (m : PtpMsg) (s : State), Keep s0 s → KeepOut s0 (execPtpFollowUp t n m s) := by
  intro s0 t n m s h3; unfold execPtpFollowUp; apply keep_run; assumption; intro y0 y1; lift_lets; intro x2; split
  apply Keep.ite; apply keep_setPort; assumption; assumption; assumption

theorem keep_execPtpDelayReq : ∀ (s0 : State) (t : Time) (n : Nat) (m : PtpMsg) (s : State), Keep s0 s → KeepOut s0 (execPtpDelayReq t n m s) := by
  intro s0 t n m s h3; unfold execPtpDelayReq; apply keep_run; assumption; intro y0 y1; apply Keep.ite; apply keep_ptpSend
  assumption; assumption

theorem keep_execPtpDelayResp : ∀ (s0 : State) (t : Time) (n : Nat) (m : PtpMsg) (s : State), Keep s0 s → KeepOut s0 (execPtpDelayResp t n m s) := by
  intro s0 t n m s h3; unfold execPtpDelayResp; apply keep_run; assumption; intro y0 y1; lift_lets; intro x2 x3; split
  lift_lets; intro x4; apply Keep.ite; apply keep_ptpObserve; apply keep_setMpd; apply keep_setPort; assumption; assumption
  assumption

theorem keep_execPtpPdelayReq : ∀ (s0 : State) (t : Time) (n : Nat) (m : PtpMsg) (s : State), Keep s0 s → KeepOut s0 (execPtpPdelayReq t n m s) := by
  intro s0 t n m s h3; unfold execPtpPdelayReq; apply keep_run; assumption; intro y0 y1; apply Keep.ite; apply keep_ptpSend
  assumption; assumption

theorem keep_execPtpPdelayResp : ∀ (s0 : State) (t : Time) (n : Nat) (m : PtpMsg) (s : State), Keep s0 s → KeepOut s0 (execPtpPdelayResp t n m s) := by
  intro s0 t n m s h3; unfold execPtpPdelayResp; apply keep_run; assumption; intro y0 y1; lift_lets; intro x2 x3; split
  lift_lets; intro x4; apply Keep.ite; apply Keep.ite; apply keep_setPort; assumption; apply keep_ptpObserve; apply keep_setMpd
  apply keep_setPort; assumption; assumption; assumption

theorem keep_execPtpPdelayRespFollowUp : ∀ (s0 : State) (t : Time) (n : Nat) (m : PtpMsg) (s : State), Keep s0 s → KeepOut s0 (execPtpPdelayRespFollowUp t n m s) := by
  intro s0 t n m s h3; unfold execPtpPdelayRespFollowUp; apply keep_run; assumption; intro y0 y1; lift_lets; intro x2 x3; split
  lift_lets; intro x4; apply Keep.ite; apply keep_ptpObserve; apply keep_setMpd; apply keep_setPort; assumption; assumption
  assumption

theorem keep_bmcaPort : ∀ (s0 : State) (want : Nat → Nat) (n : Nat) (s : State), Keep s0 s → Keep s0 (bmcaPort want n s) := by
  intro s0 want n s h2; unfold bmcaPort; lift_lets; intro x0 x1 x2; refine Keep.cut (P := Keep s0 x2) ?_ (fun hx2 => ?_)
  unfold x2; apply Keep.ite; apply keep_readyLanes; intro y3 y4 y5; apply keep_refLost; assumption; assumption; assumption
  clear_value x2; apply keep_setF2; assumption

theorem keep_bmca : ∀ (s0 : State) (s : State), Keep s0 s → Keep s0 (bmca s) := by
  intro s0 s h3; unfold bmca; lift_lets; intro x0; intro x1; refine Keep.cut (P := Keep s0 x1) ?_ (fun hx1 => ?_); unfold x1
  apply keep_forEach; intro y2; intro y3; intro y4; apply keep_dropSilent; assumption; assumption; clear_value x1
  apply keep_forEach; intro y5; intro y6; intro y7; apply keep_bmcaPort; assumption; assumption

theorem keep_execPtpAnnounce : ∀ (s0 : State) (t : Time) (n : Nat) (a : PtpAnn) (s : State), Keep s0 s → KeepOut s0 (execPtpAnnounce t n a s) := by
  intro s0 t n h4 s h6; unfold execPtpAnnounce; apply keep_run; assumption; intro y0; intro y1; apply Keep.ite; assumption
  lift_lets; intro x2; intro x3; refine Keep.cut (P := Keep s0 x3) ?_ (fun hx3 => ?_); unfold x3; apply keep_bmca
  apply keep_setPort; assumption; clear_value x3; split; apply Keep.ite; apply keep_setF; apply keep_setF; assumption; assumption
  assumption

theorem keep_execPtpSignaling : ∀ (s0 : State) (t : Time) (x : Nat) (x_1 : PtpMsg) (s : State), Keep s0 s → KeepOut s0 (execPtpSignaling t x x_1 s) := by
  intro s0 t _ _ s h3; unfold execPtpSignaling; apply keep_run; assumption; intro y0 y1; dsimp only [id]; assumption

theorem keep_execPtpManagement : ∀ (s0 : State) (t : Time) (n : Nat) (m : PtpMsg) (action id : Nat) (s : State),
    Keep s0 s → KeepOut s0 (execPtpManagement t n m action id s) := by
  intro s0 t n m action id s h5; unfold execPtpManagement; apply keep_run; assumption; intro y0 y1; apply Keep.ite; assumption
  apply Keep.ite; apply keep_ptpSend; assumption; apply Keep.ite; apply keep_ptpSend; assumption; assumption

theorem keep_execPtpTxInterval : ∀ (s0 : State) (t : Time) (n : Nat) (k : PtpTx) (s : State), Keep s0 s →
    KeepOut s0 (execPtpTxInterval t n k s) := by
  intro s0 t n k s h
  unfold execPtpTxInterval
  refine keep_run _ _ _ h _ ?_
  intro s hs
  refine Keep.ite hs ?_
  have h1 (kind : Nat) (u : State) (hu : Keep s0 u) : Keep s0 (ptpSeq n kind u).2 := hu.same rfl rfl
  cases k with
  | sync => exact Keep.ite (keep_ptpSend _ _ _ _ _ _ _ _ (h1 _ _ hs)) hs
  | announce => exact Keep.ite (keep_ptpSend _ _ _ _ _ _ _ _ (h1 _ _ (keep_bmca _ _ hs))) (keep_bmca _ _ hs)
  | delayReq => exact Keep.ite (keep_ptpSend _ _ _ _ _ _ _ _ (keep_setPort _ _ _ _ (h1 _ _ hs))) hs
  | pdelayReq => exact Keep.ite (keep_ptpSend _ _ _ _ _ _ _ _ (keep_setPort _ _ _ _ (h1 _ _ hs))) hs

theorem keep_storeRec : ∀ (s0 : State) (e : Event) (s : State), Keep s0 s → Keep s0 (storeRec e s) := by
  intro s0 e s h1; unfold storeRec; lift_lets; intro x0 x1 x2 x3 x4; refine Keep.cut (P := Keep s0 x4) ?_ (fun hx4 => ?_)
  unfold x4; apply Keep.mk'; assumption; clear_value x4; intro x5 x6; refine Keep.cut (P := Keep s0 x6) ?_ (fun hx6 => ?_)
  unfold x6; apply keep_when; intro y7 y8; apply keep_incF; assumption; assumption; clear_value x6; intro x9
  refine Keep.cut (P := Keep s0 x9) ?_ (fun hx9 => ?_); unfold x9; apply keep_setF; apply keep_setF; assumption; clear_value x9
  apply keep_readyLanes; intro y10 y11 y12; apply keep_streamRec; assumption; assumption

theorem keep_appendRec : ∀ (s0 : State) (e : Event) (s : State), Keep s0 s → Keep s0 (appendRec e s) := by
  intro s0 e s h1; unfold appendRec; lift_lets; intro x0 x1; refine Keep.cut (P := Keep s0 x1) ?_ (fun hx1 => ?_); unfold x1
  apply keep_storeRec; assumption; clear_value x1; intro x2; refine Keep.cut (P := Keep s0 x2) ?_ (fun hx2 => ?_); unfold x2
  apply keep_storeRec; assumption; clear_value x2; apply Keep.ite; apply keep_bothLanes; intro y3 y4 y5; apply keep_sysStat
  assumption; apply keep_setF; apply Keep.mk'; assumption; assumption

theorem keep_ownRec : ∀ (s0 : State) (code data : Nat) (s : State), Keep s0 s → Keep s0 (ownRec code data s) := by
  intro s0 code data s h2; unfold ownRec; apply keep_appendRec; assumption

theorem keep_setCount : ∀ (s0 : State) (e : Event) (n sup : Nat) (s : State), Keep s0 s → Keep s0 (setCount e n sup s) := by
  intro s0 e n sup s h3; unfold setCount; lift_lets; intro x0; apply Keep.mk'; assumption

theorem keep_takeRec : ∀ (s0 : State) (g : Nat) (s : State), Keep s0 s → Keep s0 (takeRec g s) := by
  intro s0 g s h
  unfold takeRec
  cases s.rec'.queues.getD g {} with
  | mk q d =>
    cases q with
    | nil => exact h
    | cons e q =>
      have h1 (r : RecSt) : Keep s0 { s with rec' := r } := h.same rfl rfl
      exact Keep.ite (keep_appendRec _ _ _ (h1 _)) (Keep.ite (keep_incF _ _ _ _ (keep_setCount _ _ _ _ _ (h1 _)) _)
        (keep_appendRec _ _ _ (keep_setCount _ _ _ _ _ (h1 _))))

theorem keep_execRecordAppend : ∀ (s0 : State) (t : Time) (g : Nat) (s : State), Keep s0 s → KeepOut s0 (execRecordAppend t g s) := by
  intro s0 t g s h2; unfold execRecordAppend; apply keep_run; assumption; intro y0 y1; apply keep_takeRec; assumption

theorem keep_reportSuppressed : ∀ (s0 : State) (cs : List (Src × BitVec 16 × Nat × Nat)) (s : State),
    Keep s0 s → Keep s0 (reportSuppressed cs s) := by
  intro s0 cs
  induction cs with
  | nil => exact fun _ h => h
  | cons c cs ih => exact fun s h => ih _ (keep_when _ _ _ (fun _ hs => keep_ownRec _ _ _ _ hs) _ h)

theorem keep_execSuppressionSecondEnd : ∀ (s0 : State) (t : Time) (s : State), Keep s0 s → KeepOut s0 (execSuppressionSecondEnd t s) := by
  intro s0 t s h1; unfold execSuppressionSecondEnd; apply keep_run; assumption; intro y0 y1; lift_lets; intro x2; apply Keep.ite
  assumption; apply keep_reportSuppressed; apply Keep.mk'; assumption

theorem keep_execRecAnchor : ∀ (s0 : State) (t : Time) (s : State), Keep s0 s → KeepOut s0 (execRecAnchor t s) := by
  intro s0 t s h1; unfold execRecAnchor; apply keep_run; assumption; intro y0 y1; apply Keep.ite; apply keep_recAnchor
  assumption; assumption

theorem keep_countSave : ∀ (s0 : State) (s : State), Keep s0 s → Keep s0 (countSave s) := by
  intro s0 s h3; unfold countSave; lift_lets; intro x0; intro x1; apply Keep.mk'; assumption

theorem keep_execOperatingSecond : ∀ (s0 : State) (t : Time) (s : State), Keep s0 s → KeepOut s0 (execOperatingSecond t s) := by
  intro s0 t s h4; unfold execOperatingSecond; apply keep_runAny; assumption; intro y0; intro y1; apply Keep.ite; lift_lets
  intro x2; refine Keep.cut (P := Keep s0 x2) ?_ (fun hx2 => ?_); unfold x2; apply keep_incF; assumption; clear_value x2
  apply keep_countSave; apply Keep.ite; apply keep_setF; assumption; assumption; assumption

theorem keep_emptySlots : ∀ (s0 s : State), Keep s0 s → Keep s0 (emptySlots s) := by
  intro s0 s h0; unfold emptySlots; lift_lets; intro x0; refine Keep.cut (P := Keep s0 x0) ?_ (fun hx0 => ?_); unfold x0
  apply keep_setF; apply keep_setF; assumption; clear_value x0; intro x1; apply Keep.mk'; assumption

theorem keep_recMode : ∀ (s0 s : State), Keep s0 s → Keep s0 (recMode s) := by
  intro s0 s h0; unfold recMode; apply keep_setB; assumption

theorem keep_recWipe : ∀ (s0 : State) (old new n : Nat) (s : State), Keep s0 s → Keep s0 (recWipe old new n s) := by
  intro s0 old new n s h6; unfold recWipe; lift_lets; intro x0; intro x1; refine Keep.cut (P := Keep s0 x1) ?_ (fun hx1 => ?_)
  unfold x1; apply keep_emptySlots; apply Keep.mk'; assumption; clear_value x1; intro x2; intro x3
  refine Keep.cut (P := Keep s0 x3) ?_ (fun hx3 => ?_); unfold x3; apply keep_setB; apply Keep.mk'; assumption; clear_value x3
  apply keep_ownRec; assumption

theorem keep_recClear : ∀ (s0 : State) (ep : Lane) (v : Word) (s : State), Keep s0 s → Keep s0 (recClear ep v s) := by
  intro s0 ep v s h5; unfold recClear; lift_lets; intro x0; intro x1; intro x2
  refine Keep.cut (P := Keep s0 x2) ?_ (fun hx2 => ?_); unfold x2; apply keep_appendRec; assumption; clear_value x2; intro x3
  intro x4; apply Keep.ite; apply keep_clearAlarm; apply keep_ownRec; apply keep_emptySlots; assumption; apply keep_sysStat
  apply keep_incF; apply keep_raise; assumption

theorem keep_recStart : ∀ (s0 : State) (cause : Nat) (s : State), Keep s0 s → Keep s0 (recStart cause s) := by
  intro s0 cause s h1; unfold recStart; lift_lets; intro x0 x1; apply keep_ownRec; apply Keep.mk'; assumption

theorem keep_onKpr : ∀ (s0 : State) (l : Lane) (f : KprLane → KprLane) (s : State), Keep s0 s → Keep s0 (onKpr l f s) := by
  intro s0 l f s h2; unfold onKpr; lift_lets; intro x0; split; apply Keep.mk'; assumption; apply Keep.mk'; assumption

theorem keep_roleIrq : ∀ (s0 a : State), Keep s0 a → Keep s0 (roleIrq a) := by
  intro s0 h2 h3; unfold roleIrq; apply keep_bothLanes; intro y0; intro y1; intro y2; apply Keep.ite; assumption
  apply keep_raiseVec; apply keep_setF; assumption; assumption

theorem keep_showRole : ∀ (s0 : State) (l : Lane) (s : State), Keep s0 s → Keep s0 (showRole l s) := by
  intro s0 l s h4; unfold showRole; apply keep_forEach; intro y0; intro y1; intro y2; apply keep_setB; assumption
  apply keep_forEach; intro y3; intro y4; intro y5; apply keep_setB; assumption; apply keep_forEach; intro y6; intro y7; intro y8
  apply keep_setB; assumption; apply keep_setB; apply keep_setB; assumption

theorem keep_lowPins : ∀ (s0 : State) (name k w : Nat) (s : State), Keep s0 s → Keep s0 (lowPins name k w s) := by
  intro s0 name k w s h6; unfold lowPins; apply keep_forEach; intro y0; intro y1; intro y2; apply keep_when; intro y3; intro y4
  apply keep_emit; assumption; assumption; assumption

theorem keep_setRole : ∀ (s0 : State) (r : Option Lane) (s : State), Keep s0 s → Keep s0 (setRole r s) := by
  intro s0 r s h4; unfold setRole; lift_lets; intro x0; intro x1; intro x2; refine Keep.cut (P := Keep s0 x2) ?_ (fun hx2 => ?_)
  unfold x2; apply Keep.mk'; assumption; clear_value x2; intro x3; refine Keep.cut (P := Keep s0 x3) ?_ (fun hx3 => ?_); unfold x3
  apply keep_when; intro y4; intro y5; apply keep_emit; assumption; assumption; clear_value x3; intro x6
  refine Keep.cut (P := Keep s0 x6) ?_ (fun hx6 => ?_); unfold x6; split; apply keep_setF; apply keep_setF; apply keep_setF
  apply keep_setF; apply keep_setF; assumption; assumption; clear_value x6; apply keep_showMclk; apply keep_tpDrive
  apply keep_poDrive; apply keep_bothLanes; intro y7; intro y8; intro y9; apply keep_holdClocks; apply Keep.ite
  apply keep_showRole; assumption; assumption; assumption

theorem keep_laneRegs : ∀ (s0 : State) (l : Lane) (s : State), Keep s0 s → Keep s0 (laneRegs l s) := by
  intro s0 l s h
  unfold laneRegs
  exact keep_forEach _ (fun _ _ hs => keep_setF _ _ _ _ _ (keep_setF _ _ _ _ _ hs)) _ _
    (keep_forEach _ (fun _ _ hs => keep_setF _ _ _ _ _ hs) _ _
      (keep_setF _ _ _ _ _ ⟨h.pending, fun x => Sparse.wf_mapVals _ (h.regs x)⟩))

theorem keep_bankReset : ∀ (s0 : State) (l : Lane) (net : Bool) (k : Nat) (s : State), Keep s0 s → Keep s0 (bankReset l net k s) := by
  intro s0 l net k s h6; unfold bankReset; apply keep_setF; apply keep_setF; apply keep_onBank; assumption

theorem keep_showRev : ∀ (s0 : State) (l : Lane) (s : State), Keep s0 s → Keep s0 (showRev l s) := by
  intro s0 l s h1; unfold showRev; lift_lets; intro x0; apply keep_setF; apply keep_setF; assumption

theorem keep_laneInit : ∀ (s0 : State) (l : Lane) (ph : LanePh) (s : State), Keep s0 s → Keep s0 (laneInit l ph s) := by
  intro s0 l ph s h2; unfold laneInit; lift_lets; intro x0 x1 x2; refine Keep.cut (P := Keep s0 x2) ?_ (fun hx2 => ?_)
  unfold x2; apply keep_State_setLane; assumption; clear_value x2; intro x3
  refine Keep.cut (P := Keep s0 x3) ?_ (fun hx3 => ?_); unfold x3; apply keep_lpeInit; apply keep_laneRegs; assumption; clear_value x3; intro x4
  refine Keep.cut (P := Keep s0 x4) ?_ (fun hx4 => ?_); unfold x4; apply keep_forEach; intro y5 y6 y7; apply keep_bankReset
  assumption; assumption; clear_value x4; intro x8; refine Keep.cut (P := Keep s0 x8) ?_ (fun hx8 => ?_); unfold x8
  apply keep_showRev; apply keep_setB; apply keep_setF; assumption; clear_value x8; intro x9
  refine Keep.cut (P := Keep s0 x9) ?_ (fun hx9 => ?_); unfold x9; apply keep_onKpr; assumption; clear_value x9; apply Keep.ite
  assumption; apply Keep.mk'; assumption

theorem keep_laneReset : ∀ (s0 : State) (l : Lane) (s : State), Keep s0 s → Keep s0 (laneReset l s) := by
  intro s0 l s h1; unfold laneReset; apply Keep.ite; assumption; apply keep_laneInit; assumption

theorem keep_lanePower : ∀ (s0 : State) (l : Lane) (s : State), Keep s0 s → Keep s0 (lanePower l s) := by
  intro s0 l s h1; unfold lanePower; apply keep_laneInit; apply keep_domSet; assumption

theorem keep_laneUnpower : ∀ (s0 : State) (l : Lane) (s : State), Keep s0 s → Keep s0 (laneUnpower l s) := by
  intro s0 l s h1; unfold laneUnpower; lift_lets; intro x0; refine Keep.cut (P := Keep s0 x0) ?_ (fun hx0 => ?_); unfold x0
  apply keep_laneInit; apply keep_domClr; assumption; clear_value x0; apply keep_onKpr; assumption

theorem keep_dropAlarms : ∀ (s0 : State) (codes : List Nat) (s : State), Keep s0 s → Keep s0 (dropAlarms codes s) := by
  intro s0 codes s h4; unfold dropAlarms; apply keep_endAlarms; assumption

theorem keep_newRun : ∀ (s0 s : State), Keep s0 s → Keep s0 (newRun s) := by
  intro s0 s h0; unfold newRun; lift_lets; intro x0 x1; apply Keep.mk'; assumption

theorem keep_endAutojoy : ∀ (s0 s : State), Keep s0 s → Keep s0 (endAutojoy s) := by
  intro s0 s h3; unfold endAutojoy; apply keep_clearAlarm; apply keep_setF; assumption

theorem keep_toLayup : ∀ (s0 s : State), Keep s0 s → Keep s0 (toLayup s) := by
  intro s0 s h3; unfold toLayup; apply keep_endAutojoy; apply keep_when; intro y0; intro y1; apply keep_setF; assumption
  apply keep_setF; apply keep_setF; apply keep_setF; apply keep_setF; apply keep_setF; assumption

theorem keep_loseAuth : ∀ (s0 s : State), Keep s0 s → Keep s0 (loseAuth s) := by
  intro s0 s h3; unfold loseAuth; lift_lets; intro x0; refine Keep.cut (P := Keep s0 x0) ?_ (fun hx0 => ?_); unfold x0
  apply keep_when; intro y1; intro y2; apply keep_expertEnds; assumption; assumption; clear_value x0; apply keep_showJoy
  apply keep_showAuthStat; apply Keep.mk'; assumption

theorem keep_moduleDown : ∀ (s0 s : State), Keep s0 s → Keep s0 (moduleDown s) := by
  intro s0 s h3; unfold moduleDown; lift_lets; intro x0; refine Keep.cut (P := Keep s0 x0) ?_ (fun hx0 => ?_); unfold x0
  apply keep_both; intro y1; intro y2; apply keep_dropOuts; assumption; apply keep_when; intro y3; intro y4; apply keep_expertEnds
  assumption; assumption; clear_value x0; intro x5; refine Keep.cut (P := Keep s0 x5) ?_ (fun hx5 => ?_); unfold x5
  apply keep_lowPins; apply keep_lowPins; apply keep_lowPins; apply keep_lowPins; apply keep_when; intro y6; intro y7
  apply keep_emit; assumption; assumption; clear_value x5; intro x8; intro x9; apply Keep.mk'; assumption

theorem keep_cycRestore : ∀ (s0 s : State), Keep s0 s → Keep s0 (cycRestore s) := by
  intro s0 s h0; unfold cycRestore; lift_lets; intro x0 x1 x2; apply keep_setF; apply Keep.mk'; assumption

theorem keep_badRegs : ∀ (s0 : State) (keys : List Nat) (s : State), Keep s0 s → Keep s0 (badRegs keys s) := by
  intro s0 keys s h4; unfold badRegs; apply keep_forEach; intro y0; intro y1; intro y2; split; apply Keep.ite
  apply keep_raiseAlarm; apply keep_raise; apply keep_forEach; intro y3; intro y4; intro y5; apply keep_wrK; assumption
  assumption; assumption; assumption; assumption

theorem keep_unshowItem : ∀ (s0 : State) (code n : Nat) (s : State), Keep s0 s → Keep s0 (unshowItem code n s) := by
  intro s0 code n s h5; unfold unshowItem; split; apply keep_when; intro y0; intro y1; apply keep_setF2; assumption; assumption
  apply keep_when; intro y2; intro y3; apply keep_setF; assumption; assumption; apply keep_when; intro y4; intro y5
  apply keep_setF2; apply keep_setF2; apply keep_setF2; apply Keep.mk'; assumption; assumption; apply keep_when; intro y6
  intro y7; apply keep_setF; assumption; assumption; assumption

theorem keep_dropItem : ∀ (s0 : State) (code n : Nat) (s : State), Keep s0 s → Keep s0 (dropItem code n s) := by
  intro s0 code n s h5; unfold dropItem; lift_lets; intro x0; intro x1; intro x2; intro x3; split; apply Keep.mk'; assumption
  apply Keep.mk'; assumption; apply Keep.mk'; assumption; apply Keep.mk'; assumption; apply Keep.mk'; assumption; apply Keep.mk'
  assumption; apply Keep.mk'; assumption; apply Keep.mk'; assumption; apply Keep.mk'; assumption; apply Keep.mk'; assumption
  apply Keep.mk'; assumption; apply Keep.mk'; assumption; apply Keep.mk'; assumption; apply Keep.mk'; assumption

theorem keep_aoFailed : ∀ (s0 : State) (l : Lane) (off : Nat) (s : State), Keep s0 s → Keep s0 (aoFailed l off s) := by
  intro s0 l off s h5; unfold aoFailed; apply Keep.ite; assumption; apply keep_raiseAlarm; apply keep_raise; apply keep_incF
  assumption

theorem keep_badVal : ∀ (s0 : State) (v : AoVal) (s : State), Keep s0 s → Keep s0 (badVal v s) := by
  intro s0 v s h4; unfold badVal; split; assumption; apply keep_setF; assumption; apply Keep.mk'; assumption
  apply keep_unshowItem; apply keep_dropItem; assumption

theorem keep_badVals : ∀ (s0 : State) (vs : List (AoVal × Nat)) (s : State), Keep s0 s → Keep s0 (badVals vs s) := by
  intro s0 vs s h4; unfold badVals; apply keep_forEach; intro y0; intro y1; intro y2; apply keep_badVal; apply keep_aoFailed
  assumption; assumption

theorem keep_seqIdle : ∀ (s0 s : State), Keep s0 s → Keep s0 (seqIdle s) := by
  intro s0 s h0; unfold seqIdle; lift_lets; intro x0; refine Keep.cut (P := Keep s0 x0) ?_ (fun hx0 => ?_); unfold x0
  apply keep_setF; apply keep_setF; apply keep_setF; apply keep_setF; apply keep_setF; assumption; clear_value x0; intro x1
  apply Keep.mk'; assumption

theorem keep_rolledBack : ∀ (s0 : State) (kind : Nat) (s : State), Keep s0 s → Keep s0 (rolledBack kind s) := by
  intro s0 kind s h1; unfold rolledBack; lift_lets; intro x0; apply keep_seqIdle; apply keep_setF; apply keep_raise
  apply Keep.mk'; assumption

theorem keep_seqResume : ∀ (s0 s : State), Keep s0 s → Keep s0 (seqResume s) := by
  intro s0 s h0; unfold seqResume; lift_lets; intro x0 x1; apply keep_setF; apply Keep.mk'; assumption

theorem keep_journal : ∀ (s0 s : State), Keep s0 s → Keep s0 (journal s) := by
  intro s0 s h0; unfold journal; lift_lets; intro x0 x1; split; apply keep_seqIdle; apply keep_raise; assumption
  apply keep_rolledBack; assumption; apply keep_seqResume; assumption; apply keep_seqResume; assumption; apply keep_rolledBack
  assumption; apply keep_rolledBack; assumption; apply keep_seqIdle; apply Keep.mk'; assumption; apply keep_seqIdle; assumption

theorem keep_journalDual : ∀ (s0 s : State), Keep s0 s → Keep s0 (journalDual s) := by
  intro s0 s h0; unfold journalDual; lift_lets; intro x0 x1; split; apply keep_rolledBack; assumption; apply keep_seqResume
  assumption; apply keep_rolledBack; assumption; apply keep_rolledBack; assumption; apply keep_seqIdle; apply Keep.mk'
  assumption; assumption

theorem keep_drainGroup : ∀ (s0 : State) (g n : Nat) (s : State), Keep s0 s → Keep s0 (drainGroup g n s) := by
  intro s0 g n
  induction n with
  | zero => exact fun _ h => h
  | succ n ih => exact fun s h => ih _ (keep_takeRec _ _ _ h)

theorem keep_drainAll : ∀ (s0 s : State), Keep s0 s → Keep s0 (drainAll s) := by
  intro s0 s h0; unfold drainAll; apply keep_forEach; intro y0 y1 y2; apply keep_drainGroup; assumption; assumption

theorem keep_dualLane : ∀ (s0 : State) (l : Lane) (s : State), Keep s0 s → Keep s0 (dualLane l s) := by
  intro s0 l s h1; unfold dualLane; apply Keep.ite; assumption; apply keep_laneReset; apply keep_domClr; assumption

theorem keep_carryTimes : ∀ (s0 : State) (s : State), Keep s0 s → Keep s0 (carryTimes s) := by
  intro s0 s h3; unfold carryTimes; lift_lets; intro x0; intro x1; intro x2; intro x3; apply Keep.mk'; assumption

theorem keep_dualReset : ∀ (s0 : State) (cause : Nat) (jr : State → State),
    (∀ (a : State), Keep s0 a → Keep s0 (jr a)) → ∀ (s : State), Keep s0 s → Keep s0 (dualReset cause jr s) := by
  intro s0 cause jr h4 s h6; unfold dualReset; lift_lets; intro x0; refine Keep.cut (P := Keep s0 x0) ?_ (fun hx0 => ?_)
  unfold x0; apply keep_drainAll; apply h4; apply keep_setRole; apply keep_loseAuth; apply keep_toLayup; assumption
  clear_value x0; intro x1; refine Keep.cut (P := Keep s0 x1) ?_ (fun hx1 => ?_); unfold x1; apply keep_carryTimes
  apply keep_bothLanes; intro y2; intro y3; intro y4; apply keep_dualLane; assumption; assumption; clear_value x1; intro x5
  intro x6; refine Keep.cut (P := Keep s0 x6) ?_ (fun hx6 => ?_); unfold x6; apply keep_newRun; apply Keep.mk'; assumption
  clear_value x6; intro x7; refine Keep.cut (P := Keep s0 x7) ?_ (fun hx7 => ?_); unfold x7; apply keep_recStart; apply keep_setF
  apply keep_dropAlarms; assumption; clear_value x7; intro x8; apply keep_metRestore; apply Keep.mk'; assumption

theorem keep_moduleUp : ∀ (s0 : State) (cause : Nat) (i : StartIn) (s : State), Keep s0 s → Keep s0 (moduleUp cause i s) := by
  intro s0 cause i s h
  unfold moduleUp
  extract_lets u c1 c2 c3 c4 c5
  have h0 : Keep s0 c1 := ⟨h.pending, fun x => Sparse.wf_mapVals _ (h.regs x)⟩
  have h1 : Keep s0 c2 := keep_when _ _ _ (fun _ hs => keep_raise _ _ _ _ _ hs) _
    (keep_endAlarms _ _ _ (keep_when _ _ _ (fun _ hs => keep_recStart _ _ _ hs) _ (keep_setF _ _ _ _ _ h0)))
  have h2 : Keep s0 c3 := keep_endAutojoy _ _ h1
  have h3 : Keep s0 c4 := Keep.ite (keep_newRun _ _ (keep_cycRestore _ _ h2))
    (keep_canStart _ _ (keep_metRestore _ _ _ _ (keep_journal _ _ (keep_newRun _ _ (keep_cycRestore _ _
      (keep_badVals _ _ _ (keep_badRegs _ _ _ h2)))))))
  exact keep_showPart _ _ (keep_showAuthStat _ _ (keep_showRev _ _ _ (keep_showRev _ _ _
    (keep_forEach _ (fun _ _ hs => keep_bankReset _ _ _ _ _ hs) _ _
      (keep_bothLanes _ _ (fun _ _ hs => keep_modesInit _ _ _ (keep_lpeInit _ _ _ hs)) _ h3)))))

theorem keep_fusTake : ∀ (s0 : State) (cap : Nat) (l : Lane) (s : State), Keep s0 s → Keep s0 (fusTake cap l s) := by
  intro s0 cap l s h5; unfold fusTake; lift_lets; intro x0; apply Keep.ite; assumption; apply Keep.ite; apply keep_showFus
  apply keep_onFus; assumption; assumption

theorem keep_roleMove : ∀ (s0 : State) (cap : Nat) (old new : Lane) (s : State), Keep s0 s → Keep s0 (roleMove cap old new s) := by
  intro s0 cap old new s h6; unfold roleMove; lift_lets; intro x0; refine Keep.cut (P := Keep s0 x0) ?_ (fun hx0 => ?_); unfold x0
  apply keep_prpSend; apply keep_roleIrq; apply keep_setRole; assumption; clear_value x0; intro x1
  refine Keep.cut (P := Keep s0 x1) ?_ (fun hx1 => ?_); unfold x1; apply keep_metTakeover; apply keep_readyLanes; intro y2
  intro y3; intro y4; apply keep_clkMoves; assumption; apply keep_fusTake; assumption; clear_value x1; intro x5; apply keep_onLpe
  apply Keep.mk'; assumption

theorem keep_takeAuth : ∀ (s0 s : State), Keep s0 s → Keep s0 (takeAuth s) := by
  intro s0 s h3; unfold takeAuth; lift_lets; intro x0; intro x1; refine Keep.cut (P := Keep s0 x1) ?_ (fun hx1 => ?_); unfold x1
  apply Keep.mk'; assumption; clear_value x1; intro x2; intro x3; refine Keep.cut (P := Keep s0 x3) ?_ (fun hx3 => ?_); unfold x3
  apply Keep.ite; assumption; apply keep_authChange; apply keep_forEach; intro y4; intro y5; intro y6; apply keep_dropOrder
  assumption; assumption; clear_value x3; apply keep_dropDoms; apply keep_showAuth; assumption

theorem keep_takeover : ∀ (s0 : State) (old new : Lane) (s : State), Keep s0 s → Keep s0 (takeover old new s) := by
  intro s0 old new s h2; unfold takeover; lift_lets; intro x0 x1 x2; refine Keep.cut (P := Keep s0 x2) ?_ (fun hx2 => ?_)
  unfold x2; apply Keep.mk'; assumption; clear_value x2; intro x3; refine Keep.cut (P := Keep s0 x3) ?_ (fun hx3 => ?_)
  unfold x3; apply keep_incF; apply keep_roleMove; assumption; clear_value x3; intro x4
  refine Keep.cut (P := Keep s0 x4) ?_ (fun hx4 => ?_); unfold x4; apply keep_onKpr; assumption; clear_value x4; intro x5
  refine Keep.cut (P := Keep s0 x5) ?_ (fun hx5 => ?_); unfold x5; apply keep_onLane; assumption; clear_value x5; intro x6
  apply keep_sweep; apply keep_takeAuth; apply Keep.mk'; assumption

theorem keep_noLane : ∀ (s0 : State) (cause : Nat) (s : State), Keep s0 s → Keep s0 (noLane cause s) := by
  intro s0 cause s h1; unfold noLane; lift_lets; intro x0; refine Keep.cut (P := Keep s0 x0) ?_ (fun hx0 => ?_); unfold x0
  apply keep_when; intro y1 y2; apply keep_raise; assumption; assumption; clear_value x0; apply keep_setF; apply keep_dualReset
  intro y3 y4; apply keep_journalDual; assumption; assumption

theorem keep_fail : ∀ (s0 : State) (cause : Nat) (l : Lane) (s : State), Keep s0 s → Keep s0 (fail cause l s) := by
  intro s0 cause l s h2; unfold fail; lift_lets; intro x0; refine Keep.cut (P := Keep s0 x0) ?_ (fun hx0 => ?_); unfold x0
  apply keep_raise; assumption; clear_value x0; apply keep_onKpr; apply keep_setF; apply keep_setF; apply keep_setF; assumption

theorem keep_declare : ∀ (s0 : State) (cause : Nat) (l : Lane) (s : State), Keep s0 s → Keep s0 (declare cause l s) := by
  intro s0 cause l s h2; unfold declare; lift_lets; intro x0 x1 x2; refine Keep.cut (P := Keep s0 x2) ?_ (fun hx2 => ?_)
  unfold x2; apply keep_fail; assumption; clear_value x2; apply Keep.ite; assumption; apply Keep.ite; apply keep_sweep
  assumption; apply Keep.ite; apply keep_takeover; assumption; apply keep_noLane; assumption

theorem keep_declareBoth : ∀ (s0 : State) (cause : Nat) (s : State), Keep s0 s → Keep s0 (declareBoth cause s) := by
  intro s0 cause s h1; unfold declareBoth; apply Keep.ite; apply keep_noLane; apply keep_fail; apply keep_fail; assumption
  apply keep_fail; apply keep_fail; assumption

theorem keep_tryActive : ∀ (s0 : State) (l : Lane) (s : State), Keep s0 s → Keep s0 (tryActive l s) := by
  intro s0 l s h4; unfold tryActive; lift_lets; intro x0; intro x1; refine Keep.cut (P := Keep s0 x1) ?_ (fun hx1 => ?_)
  unfold x1; apply keep_roleIrq; apply keep_prpSend; apply keep_setRole; assumption; clear_value x1; intro x2
  refine Keep.cut (P := Keep s0 x2) ?_ (fun hx2 => ?_); unfold x2; apply keep_when; intro y3; intro y4; apply keep_modesInit
  assumption; assumption; clear_value x2; intro x5; intro x6; apply Keep.ite; assumption; apply Keep.ite; apply keep_onKpr
  apply keep_showAuth; apply Keep.mk'; assumption; assumption

theorem keep_showWord : ∀ (s0 : State) (l : Lane) (seq health : Nat) (s : State), Keep s0 s → Keep s0 (showWord l seq health s) := by
  intro s0 l seq health s h3; unfold showWord; split; apply keep_setF; apply keep_setF; assumption; apply keep_setF
  apply keep_setF; assumption

theorem keep_powerCycle : ∀ (s0 : State) (l : Lane) (s : State), Keep s0 s → Keep s0 (powerCycle l s) := by
  intro s0 l s h1; unfold powerCycle; lift_lets; intro x0 x1; refine Keep.cut (P := Keep s0 x1) ?_ (fun hx1 => ?_); unfold x1
  apply keep_onKpr; apply keep_setF; apply keep_laneUnpower; assumption; clear_value x1; apply Keep.ite; apply keep_raiseAlarm
  apply keep_raise; apply keep_setF; apply keep_onKpr; assumption; apply keep_onKpr; apply keep_incF; assumption

theorem keep_execWatchWord : ∀ (s0 : State) (t : Time) (l : Lane) (w : BitVec 64) (s : State), Keep s0 s → KeepOut s0 (execWatchWord t l w s) := by
  intro s0 t l w s h3; unfold execWatchWord; lift_lets; intro x0 x1 x2 x3 x4; apply keep_run; assumption; intro y5 y6; lift_lets
  intro x7 x8 x9; refine Keep.cut (P := Keep s0 x9) ?_ (fun hx9 => ?_); unfold x9; apply keep_onKpr; assumption; clear_value x9
  intro x10; refine Keep.cut (P := Keep s0 x10) ?_ (fun hx10 => ?_); unfold x10; apply keep_showWord; apply keep_onKpr
  assumption; clear_value x10; intro x11; refine Keep.cut (P := Keep s0 x11) ?_ (fun hx11 => ?_); unfold x11; apply keep_declare
  assumption; clear_value x11; apply Keep.ite; assumption; apply Keep.ite; apply keep_declare; assumption; apply Keep.ite
  assumption; apply Keep.ite; apply Keep.ite; apply keep_powerCycle; assumption; assumption; apply keep_tryActive; assumption

theorem keep_execWatchWordSend : ∀ (s0 : State) (t : Time) (l : Lane) (s : State), Keep s0 s → KeepOut s0 (execWatchWordSend t l s) := by
  intro s0 t l s h2; unfold execWatchWordSend; apply keep_runLane; assumption; intro y0 y1; lift_lets; intro x2 x3 x4
  apply Keep.ite; assumption; apply keep_emit; apply keep_onLane; assumption

theorem keep_execKeeperWord : ∀ (s0 : State) (t : Time) (l : Lane) (role : Option Lane) (s : State),
    Keep s0 s → KeepOut s0 (execKeeperWord t l role s) := by
  intro s0 t l role s h3; unfold execKeeperWord; apply keep_runLane; assumption; intro y0 y1; apply keep_clearAlarm
  apply keep_onLane; assumption

theorem keep_execKeeperWordTimeout : ∀ (s0 : State) (t : Time) (l : Lane) (s : State), Keep s0 s → KeepOut s0 (execKeeperWordTimeout t l s) := by
  intro s0 t l s h2; unfold execKeeperWordTimeout; apply keep_runLane; assumption; intro y0 y1; apply Keep.ite; assumption
  apply keep_raiseAlarm; apply keep_sysStat; assumption

theorem keep_execLaneFatalFault : ∀ (s0 : State) (t : Time) (l : Lane) (bit : Nat) (s : State), Keep s0 s → KeepOut s0 (execLaneFatalFault t l bit s) := by
  intro s0 t l bit s h3; unfold execLaneFatalFault; apply keep_runLane; assumption; intro y0 y1; apply Keep.ite
  apply keep_onLane; assumption; assumption

theorem keep_execReferenceOscillatorLoss : ∀ (s0 : State) (t : Time) (l : Lane) (s : State), Keep s0 s → KeepOut s0 (execReferenceOscillatorLoss t l s) := by
  intro s0 t l s h2; unfold execReferenceOscillatorLoss; apply keep_runLane; assumption; intro y0 y1; apply keep_onLane
  assumption

theorem keep_notOk : ∀ (s0 : State) (l : Lane) (s : State), Keep s0 s → Keep s0 (notOk l s) := by
  intro s0 l s h1; unfold notOk; lift_lets; intro x0; split; apply Keep.mk'; assumption; apply Keep.mk'; assumption

theorem keep_slotLane : ∀ (s0 : State) (l : Lane) (s : State), Keep s0 s → Keep s0 (slotLane l s) := by
  intro s0 l s h1; unfold slotLane; lift_lets; intro x0; refine Keep.cut (P := Keep s0 x0) ?_ (fun hx0 => ?_); unfold x0
  apply keep_notOk; apply keep_incF; apply keep_onKpr; assumption; clear_value x0; apply Keep.ite; assumption; apply Keep.ite
  apply keep_onKpr; assumption; apply keep_when; intro y1 y2; lift_lets; intro x3; apply Keep.mk'; assumption; assumption

theorem keep_mtcSample : ∀ (s0 : State) (d : Int) (s : State), Keep s0 s → Keep s0 (mtcSample d s) := by
  intro s0 d s h4; unfold mtcSample; lift_lets; intro x0; intro x1; intro x2; refine Keep.cut (P := Keep s0 x2) ?_ (fun hx2 => ?_)
  unfold x2; apply keep_bothLanes; intro y3; intro y4; intro y5; apply keep_notOk; assumption; apply keep_when; intro y6; intro y7
  apply keep_raise; assumption; assumption; clear_value x2; intro x8; apply Keep.ite; assumption; apply Keep.ite; unfold x0
  apply keep_bothLanes; intro y9; intro y10; intro y11; apply Keep.ite; assumption; apply keep_onKpr; assumption; apply Keep.mk'
  assumption; apply keep_incF; unfold x0; apply keep_bothLanes; intro y12; intro y13; intro y14; apply Keep.ite; assumption
  apply keep_onKpr; assumption; apply Keep.mk'; assumption

theorem keep_mtcCheck : ∀ (d : Int) (s0 : State) (s : State), Keep s0 s → Keep s0 (mtcCheck d s) := by
  intro d s0 s h3; unfold mtcCheck; split; apply Keep.ite; apply keep_declare; apply Keep.mk'; assumption; assumption; assumption

theorem keep_execKeeperSlot : ∀ (s0 : State) (t : Time) (d : BitVec 64) (s : State), Keep s0 s → KeepOut s0 (execKeeperSlot t d s) := by
  intro s0 t d s h5; unfold execKeeperSlot; apply keep_run; assumption; intro y0; intro y1; apply Keep.ite; assumption; lift_lets
  intro x2; refine Keep.cut (P := Keep s0 x2) ?_ (fun hx2 => ?_); unfold x2; apply keep_setF; assumption; clear_value x2; intro x3
  refine Keep.cut (P := Keep s0 x3) ?_ (fun hx3 => ?_); unfold x3; apply keep_mtcSample; apply keep_bothLanes; intro y4; intro y5
  intro y6; apply keep_slotLane; assumption; assumption; clear_value x3; intro x7; intro x8
  refine Keep.cut (P := Keep s0 x8) ?_ (fun hx8 => ?_); unfold x8; apply Keep.ite; apply keep_declareBoth; assumption
  apply Keep.ite; apply keep_declare; assumption; apply Keep.ite; apply keep_declare; assumption; apply keep_mtcCheck; assumption
  clear_value x8; apply keep_bothLanes; intro y9; intro y10; intro y11; apply Keep.ite; apply keep_emit; assumption; assumption
  assumption

theorem keep_execPubCheck : ∀ (s0 : State) (t : Time) (s : State), Keep s0 s → KeepOut s0 (execPubCheck t s) := by
  intro s0 t s h1; unfold execPubCheck; apply keep_run; assumption; intro y0 y1; lift_lets; intro x2; split; assumption
  apply Keep.ite; assumption; apply Keep.ite; assumption; apply keep_declare; assumption

theorem keep_execMlinkTimeout : ∀ (s0 : State) (t : Time) (s : State), Keep s0 s → KeepOut s0 (execMlinkTimeout t s) := by
  intro s0 t s h1; unfold execMlinkTimeout; apply keep_run; assumption; intro y0 y1; split; assumption; apply Keep.ite
  apply keep_declare; assumption; assumption

theorem keep_execFailedLaneReset : ∀ (s0 : State) (t : Time) (l : Lane) (s : State), Keep s0 s → KeepOut s0 (execFailedLaneReset t l s) := by
  intro s0 t l s h2; unfold execFailedLaneReset; apply keep_run; assumption; intro y0 y1; split; apply Keep.ite
  apply keep_laneReset; assumption; assumption; assumption

theorem keep_execPreferredLaneTimeout : ∀ (s0 : State) (t : Time) (s : State), Keep s0 s → KeepOut s0 (execPreferredLaneTimeout t s) := by
  intro s0 t s h1; unfold execPreferredLaneTimeout; apply keep_run; assumption; intro y0 y1; lift_lets; intro x2 x3
  refine Keep.cut (P := Keep s0 x3) ?_ (fun hx3 => ?_); unfold x3; apply Keep.mk'; assumption; clear_value x3; apply Keep.ite
  apply keep_forEach; intro y4 y5 y6; apply Keep.ite; apply keep_tryActive; assumption; assumption; assumption; assumption

theorem keep_execAdmissionTimeout : ∀ (s0 : State) (t : Time) (l : Lane) (s : State), Keep s0 s → KeepOut s0 (execAdmissionTimeout t l s) := by
  intro s0 t l s h2; unfold execAdmissionTimeout; apply keep_run; assumption; intro y0 y1; split; assumption; apply Keep.ite
  assumption; apply keep_setF; apply keep_onKpr; apply keep_raise; assumption

theorem keep_execKeeperFault : ∀ (s0 : State) (t : Time) (s : State), Keep s0 s → KeepOut s0 (execKeeperFault t s) := by
  intro s0 t s h1; unfold execKeeperFault; apply keep_run; assumption; intro y0 y1; lift_lets; intro x2; apply Keep.mk'
  assumption

theorem keep_keeperStart : ∀ (s0 s : State), Keep s0 s → Keep s0 (keeperStart s) := by
  intro s0 s h0; unfold keeperStart; lift_lets; intro x0 x1 x2; apply Keep.mk'; assumption

theorem keep_execKeeperRestart : ∀ (s0 : State) (t : Time) (s : State), Keep s0 s → KeepOut s0 (execKeeperRestart t s) := by
  intro s0 t s h1; unfold execKeeperRestart; apply keep_run; assumption; intro y0 y1; apply Keep.ite; assumption
  apply keep_keeperStart; assumption

theorem keep_disagree : ∀ (s0 : State) (cause : Nat) (s : State), Keep s0 s → Keep s0 (disagree cause s) := by
  intro s0 cause s h1; unfold disagree; split; apply Keep.ite; apply keep_declare; assumption; apply keep_declare; assumption
  assumption

theorem keep_cmpSlot : ∀ (s0 : State) (m : Lane) (x : Nat × Time × F64) (s : State), Keep s0 s → Keep s0 (cmpSlot m x s) := by
  intro s0 m x s h2; unfold cmpSlot; lift_lets; intro x0; split; assumption; apply Keep.ite; apply keep_bothLanes
  intro y1 y2 y3; apply keep_notOk; assumption; apply keep_incF; apply Keep.mk'; assumption; apply Keep.mk'; assumption

theorem keep_execLoopOutputReport : ∀ (s0 : State) (t : Time) (l : Lane) (s : State), Keep s0 s →
    KeepOut s0 (execLoopOutputReport t l s) := by
  intro s0 t l s h
  unfold execLoopOutputReport
  refine keep_runLane _ _ _ _ h _ ?_
  intro s hs
  refine Keep.ite hs ?_
  extract_lets s1
  have h1 : Keep s0 s1 := keep_onKpr _ _ _ _ hs
  clear_value s1
  split
  · have h2 (m : Lane) := keep_forEach (cmpSlot m) (fun _ _ ht => keep_cmpSlot _ _ _ _ ht) (kprLane s1 m).loopRep _ h1
    exact Keep.ite (Keep.ite (keep_disagree _ _ _ ((h2 _).same rfl rfl)) (h2 _)) h1
  · exact h1

theorem keep_execMetrologyTotalReport : ∀ (s0 : State) (t : Time) (l : Lane) (s : State), Keep s0 s →
    KeepOut s0 (execMetrologyTotalReport t l s) := by
  intro s0 t l s h
  unfold execMetrologyTotalReport
  refine keep_runLane _ _ _ _ h _ ?_
  intro s hs
  split
  · exact hs
  · refine Keep.ite hs ?_
    extract_lets rep s1
    have h1 : Keep s0 s1 := keep_onKpr _ _ _ _ hs
    clear_value s1
    split
    · exact Keep.ite (Keep.ite h1 (keep_disagree _ _ _ (keep_bothLanes _ _ (fun _ _ ht => keep_notOk _ _ _ ht) _ (keep_incF _ _ _ _ h1 _)))) h1
    · exact h1

theorem keep_execTakeoverPublication : ∀ (s0 : State) (t : Time) (s : State), Keep s0 s → KeepOut s0 (execTakeoverPublication t s) := by
  intro s0 t s h1; unfold execTakeoverPublication; apply keep_run; assumption; intro y0 y1; lift_lets; intro x2 x3
  refine Keep.cut (P := Keep s0 x3) ?_ (fun hx3 => ?_); unfold x3; apply Keep.mk'; assumption; clear_value x3; split; lift_lets
  intro x4 x5 x6; apply Keep.ite; assumption; apply keep_publish; assumption; assumption

theorem keep_admitLane : ∀ (s0 : State) (l : Lane) (s : State), Keep s0 s → Keep s0 (admitLane l s) := by
  intro s0 l s h1; unfold admitLane; lift_lets; intro x0 x1; refine Keep.cut (P := Keep s0 x1) ?_ (fun hx1 => ?_); unfold x1
  apply keep_setF; apply keep_setF; assumption; clear_value x1; intro x2; apply Keep.ite; apply keep_sendItem; apply Keep.mk'
  assumption; assumption

theorem keep_onMir : ∀ (s0 : State) (l : Lane) (f : MirSt → MirSt) (a : State), Keep s0 a → Keep s0 (onMir l f a) := by
  intro s0 l f _ h2; unfold onMir; apply keep_onLane; assumption

theorem keep_execMirrorWindowOpen : ∀ (s0 : State) (t : Time) (s : State), Keep s0 s → KeepOut s0 (execMirrorWindowOpen t s) := by
  intro s0 t s h4; unfold execMirrorWindowOpen; apply keep_run; assumption; intro y0; intro y1; split; assumption; apply Keep.ite
  assumption; lift_lets; intro x2; intro x3; intro x4; refine Keep.cut (P := Keep s0 x4) ?_ (fun hx4 => ?_); unfold x4
  apply Keep.mk'; assumption; clear_value x4; intro x5; intro x6; refine Keep.cut (P := Keep s0 x6) ?_ (fun hx6 => ?_); unfold x6
  apply keep_forEach; intro y7; intro y8; intro y9; apply keep_sendModule; assumption; apply keep_forEach; intro y10; intro y11
  intro y12; apply keep_sendItem; assumption; assumption; clear_value x6; intro x13; apply keep_onFus; apply keep_onMir
  assumption

theorem keep_adoptSolution : ∀ (s0 : State) (l : Lane) (cyc w : Word) (x : Option Solution) (s : State), Keep s0 s → Keep s0 (adoptSolution l cyc w x s) := by
  intro s0 l cyc w x s h7; unfold adoptSolution; lift_lets; intro x0; intro x1; apply keep_when; intro y2; intro y3
  apply keep_setF; assumption; apply keep_onSlv; assumption

theorem keep_adoptFusion : ∀ (s0 : State) (l : Lane) (x : FusMir) (s : State), Keep s0 s → Keep s0 (adoptFusion l x s) := by
  intro s0 l x s h5; unfold adoptFusion; lift_lets; intro x0; refine Keep.cut (P := Keep s0 x0) ?_ (fun hx0 => ?_); unfold x0
  apply keep_onFus; assumption; clear_value x0; intro x1; refine Keep.cut (P := Keep s0 x1) ?_ (fun hx1 => ?_); unfold x1
  apply keep_onMir; assumption; clear_value x1; intro x2; intro x3; apply keep_setF; apply keep_setF; apply keep_setF
  apply keep_setB; apply keep_setB; apply keep_setB; apply keep_setB; apply keep_setF; apply keep_setB; apply keep_setB
  apply keep_setB; apply keep_setB; apply keep_setF; apply keep_setF; assumption

theorem keep_adoptRecorder : ∀ (s0 : State) (l : Lane) (x : RecMir) (s : State), Keep s0 s → Keep s0 (adoptRecorder l x s) := by
  intro s0 l x s h2; unfold adoptRecorder; lift_lets; intro x0 x1; apply keep_when; intro y2 y3; apply keep_raise; assumption
  assumption

theorem keep_adoptItem : ∀ (s0 : State) (l : Lane) (cyc : Word) (it : MirItem) (s : State), Keep s0 s → Keep s0 (adoptItem l cyc it s) := by
  intro s0 l cyc it s h3; unfold adoptItem; split; apply keep_adoptSolution; assumption; apply keep_adoptFusion; assumption
  apply keep_onSlv; assumption; apply keep_adoptRecorder; assumption; assumption

theorem keep_adoptSet : ∀ (s0 : State) (l : Lane) (cyc : Word) (s : State), Keep s0 s → Keep s0 (adoptSet l cyc s) := by
  intro s0 l cyc s h2; unfold adoptSet; lift_lets; intro x0; refine Keep.cut (P := Keep s0 x0) ?_ (fun hx0 => ?_); unfold x0
  apply keep_forEach; intro y1 y2 y3; apply keep_adoptItem; assumption; assumption; clear_value x0; intro x4
  refine Keep.cut (P := Keep s0 x4) ?_ (fun hx4 => ?_); unfold x4; apply keep_onMir; assumption; clear_value x4; apply keep_emit
  apply keep_setF; apply keep_clearAlarm; assumption

theorem keep_adoptAuth : ∀ (s0 : State) (l : Lane) (u : Auth) (s : State), Keep s0 s → Keep s0 (adoptAuth l u s) := by
  intro s0 l u s h5; unfold adoptAuth; lift_lets; intro x0; refine Keep.cut (P := Keep s0 x0) ?_ (fun hx0 => ?_); unfold x0
  apply keep_adoptLoops; assumption; clear_value x0; intro x1; refine Keep.cut (P := Keep s0 x1) ?_ (fun hx1 => ?_); unfold x1
  apply keep_setB; apply keep_armSync; apply Keep.mk'; assumption; clear_value x1; apply keep_emit; assumption

theorem keep_takeItem : ∀ (s0 : State) (l : Lane) (cyc : Word) (it : MirItem) (s : State), Keep s0 s → Keep s0 (takeItem l cyc it s) := by
  intro s0 l cyc it s h3; unfold takeItem; lift_lets; intro x0; split; apply keep_adoptAuth; assumption; apply keep_correctLoops
  assumption; apply Keep.ite; apply keep_adoptSet; assumption; apply keep_onMir; assumption; apply keep_onMir; assumption

theorem keep_takeFrame : ∀ (s0 : State) (l : Lane) (f : List Byte) (s : State), Keep s0 s → Keep s0 (takeFrame l f s) := by
  intro s0 l f s h5; unfold takeFrame; lift_lets; intro x0; intro x1; intro x2
  refine Keep.cut (P := Keep s0 x2) ?_ (fun hx2 => ?_); unfold x2; apply keep_onMir; assumption; clear_value x2; split
  apply Keep.ite; unfold x1; apply Keep.mk'; assumption; assumption; apply Keep.ite; apply keep_onMir; assumption; apply Keep.ite
  apply keep_raise; unfold x1; apply Keep.mk'; assumption; split; apply keep_takeItem; apply Keep.mk'; assumption; unfold x1
  apply Keep.mk'; assumption

theorem keep_execMirrorFrame : ∀ (s0 : State) (t : Time) (f : List Byte) (s : State), Keep s0 s → KeepOut s0 (execMirrorFrame t f s) := by
  intro s0 t f s h5; unfold execMirrorFrame; apply keep_run; assumption; intro y0; intro y1; split; assumption; apply Keep.ite
  assumption; lift_lets; intro x2; intro x3; refine Keep.cut (P := Keep s0 x3) ?_ (fun hx3 => ?_); unfold x3; apply Keep.mk'
  assumption; clear_value x3; apply Keep.ite; apply keep_takeFrame; assumption; assumption

theorem keep_execMirrorAck : ∀ (s0 : State) (t : Time) (ver _cyc : Word) (crcOk : Bool) (s : State),
    Keep s0 s → KeepOut s0 (execMirrorAck t ver _cyc crcOk s) := by
  intro s0 t ver _cyc crcOk s h4; unfold execMirrorAck; apply keep_run; assumption; intro y0 y1; lift_lets; intro x2 x3
  refine Keep.cut (P := Keep s0 x3) ?_ (fun hx3 => ?_); unfold x3; apply Keep.mk'; assumption; clear_value x3; apply Keep.ite
  assumption; apply Keep.ite; assumption; apply Keep.ite; apply keep_sweep; apply Keep.mk'; assumption; assumption

theorem keep_mirrorMiss : ∀ (s0 : State) (l : Lane) (s : State), Keep s0 s → Keep s0 (mirrorMiss l s) := by
  intro s0 l s h1; unfold mirrorMiss; lift_lets; intro x0; refine Keep.cut (P := Keep s0 x0) ?_ (fun hx0 => ?_); unfold x0
  apply keep_raise; apply keep_incF; apply keep_setF; assumption; clear_value x0; intro x1
  refine Keep.cut (P := Keep s0 x1) ?_ (fun hx1 => ?_); unfold x1; apply keep_onMir; assumption; clear_value x1; apply Keep.ite
  apply keep_raiseAlarm; assumption; assumption

theorem keep_execMirrorWindowClose : ∀ (s0 : State) (t : Time) (s : State), Keep s0 s → KeepOut s0 (execMirrorWindowClose t s) := by
  intro s0 t s h4; unfold execMirrorWindowClose; apply keep_run; assumption; intro y0; intro y1; apply Keep.ite; assumption
  lift_lets; intro x2; intro x3; intro x4; intro x5; refine Keep.cut (P := Keep s0 x5) ?_ (fun hx5 => ?_); unfold x5; split
  lift_lets; intro x6; refine Keep.cut (P := Keep s0 x6) ?_ (fun hx6 => ?_); unfold x6; apply keep_onMir; apply Keep.mk'
  assumption; clear_value x6; apply Keep.ite; apply keep_mirrorMiss; assumption; assumption; assumption; clear_value x5; intro x7
  refine Keep.cut (P := Keep s0 x7) ?_ (fun hx7 => ?_); unfold x7; split; apply keep_bothLanes; intro y8; intro y9; intro y10
  apply keep_powerDown; assumption; assumption; assumption; clear_value x7; apply Keep.ite; assumption; apply keep_readyLanes
  intro y11; intro y12; intro y13; apply keep_stopPll; assumption; assumption

theorem keep_backupAlarm : ∀ (s0 : State) (mv : Nat) (s : State), Keep s0 s → Keep s0 (backupAlarm mv s) := by
  intro s0 mv s h1; unfold backupAlarm; apply keep_raiseAlarm; apply keep_raise; assumption

theorem keep_backupShow : ∀ (s0 s : State), Keep s0 s → Keep s0 (backupShow s) := by
  intro s0 s h0; unfold backupShow; lift_lets; intro x0 x1; apply Keep.ite; apply keep_backupAlarm; assumption; apply Keep.ite
  apply keep_clearAlarm; assumption; assumption

theorem keep_countStart : ∀ (s0 s : State), Keep s0 s → Keep s0 (countStart s) := by
  intro s0 s h0; unfold countStart; lift_lets; intro x0; refine Keep.cut (P := Keep s0 x0) ?_ (fun hx0 => ?_); unfold x0
  apply keep_incF; assumption; clear_value x0; apply Keep.ite; apply keep_setF; assumption; assumption

theorem keep_countLoad : ∀ (s0 : State) (i : StartIn) (s : State), Keep s0 s → Keep s0 (countLoad i s) := by
  intro s0 i s h4; unfold countLoad; lift_lets; intro x0; intro x1; intro x2; intro x3; intro x4; apply keep_setB; apply keep_setB
  apply keep_wrK; apply keep_wrK; apply Keep.mk'; assumption

theorem keep_countFaults : ∀ (s0 : State) (i : StartIn) (s : State), Keep s0 s → Keep s0 (countFaults i s) := by
  intro s0 i s h4; unfold countFaults; apply Keep.ite; apply keep_forEach; intro y0; intro y1; intro y2; apply keep_aoFailed
  assumption; assumption; apply keep_forEach; intro y3; intro y4; intro y5; apply keep_raise; apply keep_incF; assumption
  assumption

theorem keep_supplyBack : ∀ (s0 : State) (input mv : Nat) (s : State), Keep s0 s → Keep s0 (supplyBack input mv s) := by
  intro s0 input mv s h2; unfold supplyBack; apply keep_clearAlarm; apply keep_raise; assumption

theorem keep_execSupplyPresent : ∀ (s0 : State) (t : Time) (input mv : Nat) (i : StartIn) (s : State),
    Keep s0 s → KeepOut s0 (execSupplyPresent t input mv i s) := by
  intro s0 t input mv i s h7; unfold execSupplyPresent; apply keep_runAny; assumption; intro y0; intro y1; apply Keep.ite
  assumption; lift_lets; intro x2; intro x3; intro x4; intro x5; refine Keep.cut (P := Keep s0 x5) ?_ (fun hx5 => ?_); unfold x5
  apply keep_setF; apply keep_setF; assumption; clear_value x5; intro x6; refine Keep.cut (P := Keep s0 x6) ?_ (fun hx6 => ?_)
  unfold x6; apply keep_backupShow; apply keep_countFaults; apply keep_moduleUp; apply keep_countStart; apply keep_countLoad
  assumption; clear_value x6; apply Keep.ite; assumption; apply Keep.ite; apply Keep.ite; apply keep_supplyBack; assumption
  assumption; apply keep_supplyBack; assumption

theorem keep_execSupplyLost : ∀ (s0 : State) (t : Time) (input mv1 mv2 : Nat) (s : State), Keep s0 s → KeepOut s0 (execSupplyLost t input mv1 mv2 s) := by
  intro s0 t input mv1 mv2 s h4; unfold execSupplyLost; apply keep_runAny; assumption; intro y0 y1; lift_lets; intro x2
  refine Keep.cut (P := Keep s0 x2) ?_ (fun hx2 => ?_); unfold x2; apply keep_setF; apply keep_setF; apply keep_setF; assumption
  clear_value x2; intro x3; refine Keep.cut (P := Keep s0 x3) ?_ (fun hx3 => ?_); unfold x3; apply keep_moduleDown
  apply keep_ownRec; assumption; clear_value x3; intro x4; apply Keep.ite; assumption; apply Keep.ite; apply keep_raiseAlarm
  apply keep_raise; apply keep_incF; assumption; apply keep_setF; apply Keep.mk'; assumption

theorem keep_execBackupLow : ∀ (s0 : State) (t : Time) (mv : Nat) (s : State), Keep s0 s → KeepOut s0 (execBackupLow t mv s) := by
  intro s0 t mv s h2; unfold execBackupLow; apply keep_runAny; assumption; intro y0 y1; lift_lets; intro x2 x3
  refine Keep.cut (P := Keep s0 x3) ?_ (fun hx3 => ?_); unfold x3; apply keep_setF; apply keep_setF; assumption; clear_value x3
  apply Keep.ite; assumption; apply keep_backupAlarm; assumption

theorem keep_execBackupRecovered : ∀ (s0 : State) (t : Time) (mv : Nat) (s : State), Keep s0 s → KeepOut s0 (execBackupRecovered t mv s) := by
  intro s0 t mv s h2; unfold execBackupRecovered; apply keep_runAny; assumption; intro y0 y1; lift_lets; intro x2
  refine Keep.cut (P := Keep s0 x2) ?_ (fun hx2 => ?_); unfold x2; apply keep_setF; apply keep_setF; assumption; clear_value x2
  apply Keep.ite; apply keep_clearAlarm; assumption; assumption

theorem keep_execBackupExhausted : ∀ (s0 : State) (t : Time) (s : State), Keep s0 s → KeepOut s0 (execBackupExhausted t s) := by
  intro s0 t s h4; unfold execBackupExhausted; apply keep_runAny; assumption; intro y0; intro y1; apply Keep.ite; assumption
  apply keep_setF; apply keep_forgetFired; apply Keep.mk'; assumption

theorem keep_execMrstTaken : ∀ (s0 : State) (t : Time) (s : State), Keep s0 s → KeepOut s0 (execMrstTaken t s) := by
  intro s0 t s h1; unfold execMrstTaken; apply keep_run; assumption; intro y0 y1; lift_lets; intro x2
  refine Keep.cut (P := Keep s0 x2) ?_ (fun hx2 => ?_); unfold x2; apply keep_moduleDown; apply keep_drainAll; apply keep_incF
  assumption; clear_value x2; intro x3; apply Keep.ite; assumption; apply Keep.mk'; assumption

theorem keep_execMrstRelease : ∀ (s0 : State) (t : Time) (i : StartIn) (s : State), Keep s0 s → KeepOut s0 (execMrstRelease t i s) := by
  intro s0 t i s h2; unfold execMrstRelease; apply keep_runAny; assumption; intro y0 y1; apply Keep.ite; apply keep_moduleUp
  assumption; assumption

theorem keep_execMrstStuck : ∀ (s0 : State) (t : Time) (i : StartIn) (s : State), Keep s0 s → KeepOut s0 (execMrstStuck t i s) := by
  intro s0 t i s h2; unfold execMrstStuck; apply keep_runAny; assumption; intro y0 y1; lift_lets; intro x2
  refine Keep.cut (P := Keep s0 x2) ?_ (fun hx2 => ?_); unfold x2; apply keep_moduleUp; apply keep_setF; apply keep_incF
  assumption; clear_value x2; intro x3; apply Keep.ite; apply keep_raiseAlarm; apply Keep.mk'; assumption; assumption

theorem keep_execMrstUnmask : ∀ (s0 : State) (t : Time) (s : State), Keep s0 s → KeepOut s0 (execMrstUnmask t s) := by
  intro s0 t s h1; unfold execMrstUnmask; apply keep_run; assumption; intro y0 y1; lift_lets; intro x2; apply Keep.ite
  apply keep_clearAlarm; apply keep_raise; apply keep_setF; apply Keep.mk'; assumption; assumption

theorem keep_setHot : ∀ (s0 : State) (l : Lane) (h : Bool) (s : State), Keep s0 s → Keep s0 (setHot l h s) := by
  intro s0 l h s h2; unfold setHot; lift_lets; intro x0; split; apply Keep.mk'; assumption; apply Keep.mk'; assumption

theorem keep_laneStart : ∀ (s0 : State) (l : Lane) (s : State), Keep s0 s → Keep s0 (laneStart l s) := by
  intro s0 l s h1; unfold laneStart; apply keep_onKpr; apply keep_setF; apply keep_domSet; apply keep_onLane; assumption

theorem keep_execDomainReady : ∀ (s0 : State) (t : Time) (l : Lane) (d : Nat) (s : State), Keep s0 s → KeepOut s0 (execDomainReady t l d s) := by
  intro s0 t l d s h3; unfold execDomainReady; apply keep_run; assumption; intro y0 y1; split; apply Keep.ite
  apply keep_laneStart; assumption; assumption; apply Keep.ite; apply keep_slvOff; assumption; assumption; apply Keep.ite
  apply keep_clearGrids; assumption; assumption; assumption

theorem keep_laneReady : ∀ (s0 : State) (l : Lane) (s : State), Keep s0 s → Keep s0 (laneReady l s) := by
  intro s0 l s h1; unfold laneReady; lift_lets; intro x0 x1; refine Keep.cut (P := Keep s0 x1) ?_ (fun hx1 => ?_); unfold x1
  apply keep_setF; apply keep_onLane; assumption; clear_value x1; intro x2; refine Keep.cut (P := Keep s0 x2) ?_ (fun hx2 => ?_)
  unfold x2; apply keep_sysStat; apply keep_showRole; assumption; clear_value x2; intro x3
  refine Keep.cut (P := Keep s0 x3) ?_ (fun hx3 => ?_); unfold x3; apply keep_onKpr; apply keep_metStart; assumption
  clear_value x3; intro x4; refine Keep.cut (P := Keep s0 x4) ?_ (fun hx4 => ?_); unfold x4; apply Keep.ite; apply keep_lpeStart
  assumption; apply keep_showLpe; assumption; clear_value x4; apply keep_when; intro y5 y6; apply keep_raise; assumption
  apply keep_setHot; assumption

theorem keep_execDramWipeComplete : ∀ (s0 : State) (t : Time) (l : Lane) (s : State), Keep s0 s → KeepOut s0 (execDramWipeComplete t l s) := by
  intro s0 t l s h2; unfold execDramWipeComplete; apply keep_run; assumption; intro y0 y1; lift_lets; intro x2
  refine Keep.cut (P := Keep s0 x2) ?_ (fun hx2 => ?_); unfold x2; apply keep_setF; assumption; clear_value x2; apply Keep.ite
  apply Keep.ite; assumption; apply keep_laneReady; assumption; assumption

theorem keep_execLanePowerRestore : ∀ (s0 : State) (t : Time) (l : Lane) (s : State), Keep s0 s → KeepOut s0 (execLanePowerRestore t l s) := by
  intro s0 t l s h2; unfold execLanePowerRestore; apply keep_run; assumption; intro y0 y1; split; apply Keep.ite
  apply keep_lanePower; apply keep_onKpr; assumption; assumption; assumption

theorem keep_execPlateHot : ∀ (s0 : State) (t : Time) (temp : BitVec 16) (s : State), Keep s0 s → KeepOut s0 (execPlateHot t temp s) := by
  intro s0 t temp s h5; unfold execPlateHot; apply keep_run; assumption; intro y0; intro y1; apply Keep.ite; assumption
  apply keep_raiseAlarm; assumption

theorem keep_execPlateCooled : ∀ (s0 : State) (t : Time) (temp : BitVec 16) (s : State), Keep s0 s → KeepOut s0 (execPlateCooled t temp s) := by
  intro s0 t temp s h2; unfold execPlateCooled; apply keep_run; assumption; intro y0 y1; apply keep_clearAlarm; assumption

theorem keep_execDieWarn : ∀ (s0 : State) (t : Time) (l : Lane) (s : State), Keep s0 s → KeepOut s0 (execDieWarn t l s) := by
  intro s0 t l s h2; unfold execDieWarn; apply keep_runLane; assumption; intro y0 y1; apply keep_onLane; assumption

theorem keep_execDieProtection : ∀ (s0 : State) (t : Time) (l : Lane) (s : State), Keep s0 s → KeepOut s0 (execDieProtection t l s) := by
  intro s0 t l s h2; unfold execDieProtection; apply keep_run; assumption; intro y0 y1; lift_lets; intro x2 x3; apply Keep.ite
  assumption; apply keep_setB; apply keep_onKpr; apply keep_laneUnpower; apply keep_setHot; assumption

theorem keep_execDieCooled : ∀ (s0 : State) (t : Time) (l : Lane) (s : State), Keep s0 s → KeepOut s0 (execDieCooled t l s) := by
  intro s0 t l s h2; unfold execDieCooled; apply keep_run; assumption; intro y0 y1; lift_lets; intro x2
  refine Keep.cut (P := Keep s0 x2) ?_ (fun hx2 => ?_); unfold x2; apply keep_onLane; assumption; clear_value x2; apply Keep.ite
  apply keep_lanePower; assumption; assumption

theorem keep_wipeRegs : ∀ (s0 s : State), Keep s0 s → Keep s0 (wipeRegs s) := by
  exact fun _ _ h => ⟨h.pending, fun x => Sparse.wf_mapVals _ (h.regs x)⟩

theorem keep_wipeBanks : ∀ (s0 : State) (l : Lane) (s : State), Keep s0 s → Keep s0 (wipeBanks l s) := by
  intro s0 l s h1; unfold wipeBanks; apply keep_forEach; intro y0 y1 y2; apply keep_setF; assumption; apply keep_forEach
  intro y3 y4 y5; apply keep_setF; assumption; apply keep_onLane; assumption

theorem keep_wipeShown : ∀ (s0 s : State), Keep s0 s → Keep s0 (wipeShown s) := by
  intro s0 s h0; unfold wipeShown; lift_lets; intro x0; refine Keep.cut (P := Keep s0 x0) ?_ (fun hx0 => ?_); unfold x0
  apply keep_bothLanes; intro y1 y2 y3; apply keep_forEach; intro y4 y5 y6; apply keep_setF; apply keep_setF; apply keep_setF
  assumption; apply keep_forEach; intro y7 y8 y9; apply keep_setF; assumption; apply keep_forEach; intro y10 y11 y12
  apply keep_setF; assumption; assumption; assumption; clear_value x0; apply keep_forEach; intro y13 y14 y15; apply keep_setF
  assumption; assumption

theorem keep_wipeSafety : ∀ (s0 s : State), Keep s0 s → Keep s0 (wipeSafety s) := by
  intro s0 s h3; unfold wipeSafety; lift_lets; intro x0; refine Keep.cut (P := Keep s0 x0) ?_ (fun hx0 => ?_); unfold x0
  apply keep_both; intro y1; intro y2; apply keep_dropOuts; assumption; assumption; clear_value x0; intro x3
  refine Keep.cut (P := Keep s0 x3) ?_ (fun hx3 => ?_); unfold x3; apply keep_forEach; intro y4; intro y5; intro y6
  apply keep_wrK; assumption; apply keep_setF; apply keep_setF; apply keep_setF; apply keep_showSafCfg; apply keep_onSaf
  assumption; clear_value x3; apply Keep.ite; apply keep_setF; assumption; assumption

theorem keep_wipeAll : ∀ (s0 s : State), Keep s0 s → Keep s0 (wipeAll s) := by
  intro s0 s h3; unfold wipeAll; lift_lets; intro x0; refine Keep.cut (P := Keep s0 x0) ?_ (fun hx0 => ?_); unfold x0
  apply keep_wipeSafety; apply keep_wipeShown; apply keep_bothLanes; intro y1; intro y2; intro y3; apply keep_wipeBanks
  assumption; apply keep_wipeRegs; apply keep_seqIdle; apply keep_setF; assumption; clear_value x0; intro x4; intro x5; intro x6
  intro x7; apply Keep.mk'; assumption

theorem keep_logChange : ∀ (s0 : State) (old new : Nat) (s : State), Keep s0 s → Keep s0 (logChange old new s) := by
  intro s0 old new s h2; unfold logChange; lift_lets; intro x0; apply keep_incF; apply Keep.mk'; assumption

theorem keep_lanesOff : ∀ (s0 s : State), Keep s0 s → Keep s0 (lanesOff s) := by
  intro s0 s h0; unfold lanesOff; apply keep_setF; apply keep_bothLanes; intro y0 y1 y2; apply Keep.ite; assumption
  apply keep_laneUnpower; assumption; assumption

theorem keep_regrid : ∀ (s0 s : State), Keep s0 s → Keep s0 (regrid s) := by
  intro s0 s h0; unfold regrid; lift_lets; intro x0; apply Keep.mk'; assumption

theorem keep_execLifecycleWipeComplete : ∀ (s0 : State) (t : Time) (s : State), Keep s0 s → KeepOut s0 (execLifecycleWipeComplete t s) := by
  intro s0 t s h4; unfold execLifecycleWipeComplete; apply keep_run; assumption; intro y0; intro y1; apply Keep.ite; assumption
  lift_lets; intro x2; intro x3; intro x4; refine Keep.cut (P := Keep s0 x4) ?_ (fun hx4 => ?_); unfold x4; apply keep_recWipe
  apply keep_wipeAll; assumption; clear_value x4; intro x5; refine Keep.cut (P := Keep s0 x5) ?_ (fun hx5 => ?_); unfold x5
  apply Keep.ite; apply keep_setF; assumption; apply keep_setF; apply keep_setF; apply keep_setF; apply keep_setF
  apply keep_logChange; assumption; clear_value x5; intro x6; intro x7; refine Keep.cut (P := Keep s0 x7) ?_ (fun hx7 => ?_)
  unfold x7; apply keep_setF; apply Keep.mk'; assumption; clear_value x7; intro x8
  refine Keep.cut (P := Keep s0 x8) ?_ (fun hx8 => ?_); unfold x8; apply keep_dropAlarms; apply keep_metRestore
  apply keep_recStart; apply keep_regrid; assumption; clear_value x8; apply Keep.ite; apply keep_lanesOff; assumption
  apply keep_bothLanes; intro y9; intro y10; intro y11; apply Keep.ite; apply keep_laneReady; assumption; assumption
  apply keep_showAuthStat; assumption

theorem keep_setCommitted : ∀ (s0 : State) (v : Nat) (s : State), Keep s0 s → Keep s0 (setCommitted v s) := by
  intro s0 v s h1; unfold setCommitted; apply keep_forEach; intro y0 y1 y2; apply keep_setF; assumption; assumption

theorem keep_doLifecycle : ∀ (s0 : State) (o : Order) (info : OrdInfo) (s : State), Keep s0 s → Keep s0 (doLifecycle o info s).fst := by
  intro s0 o info s h2; unfold doLifecycle; lift_lets; intro x0 x1 x2; refine Keep.cut (P := Keep s0 x2) ?_ (fun hx2 => ?_)
  unfold x2; apply keep_complete; assumption; clear_value x2; intro x3; refine Keep.cut (P := Keep s0 x3) ?_ (fun hx3 => ?_)
  unfold x3; apply keep_setCommitted; apply keep_setF; apply keep_setF; apply keep_setF; apply keep_setF; assumption
  clear_value x3; intro x4; refine Keep.cut (P := Keep s0 x4) ?_ (fun hx4 => ?_); unfold x4; apply keep_drainAll
  apply keep_raise; assumption; clear_value x4; intro x5; split; dsimp only; assumption; split; dsimp only; assumption; split
  dsimp only; assumption; dsimp only; apply keep_moduleUp; apply keep_moduleDown; apply Keep.mk'; assumption

theorem keep_execLifecycle : ∀ (s0 : State) (t : Time) (o : Order) (s : State), Keep s0 s → KeepOut s0 (execLifecycle t o s) := by
  intro s0 t o s h2; unfold execLifecycle; apply keep_run; assumption; intro y0 y1; apply keep_serve; intro y2 y3 y4
  apply keep_doLifecycle; assumption; assumption

theorem keep_doSeal : ∀ (s0 : State) (x : OrdInfo) (s : State), Keep s0 s → Keep s0 (doSeal x s).fst := by
  intro s0 _ s h1; unfold doSeal; lift_lets; intro x0; refine Keep.cut (P := Keep s0 x0) ?_ (fun hx0 => ?_); unfold x0
  apply keep_logChange; assumption; clear_value x0; intro x1; refine Keep.cut (P := Keep s0 x1) ?_ (fun hx1 => ?_); unfold x1
  apply keep_setF; apply keep_setF; apply keep_setF; apply keep_setF; assumption; clear_value x1; split; dsimp only; assumption
  split; dsimp only; assumption; dsimp only; apply keep_showAuthStat; apply keep_raise; assumption

theorem keep_execSeal : ∀ (s0 : State) (t : Time) (o : Order) (s : State), Keep s0 s → KeepOut s0 (execSeal t o s) := by
  intro s0 t o s h2; unfold execSeal; apply keep_run; assumption; intro y0 y1; apply keep_serve; intro y2 y3 y4
  apply keep_doSeal; assumption; assumption

theorem keep_doLaneReset : ∀ (s0 : State) (o : Order) (x : OrdInfo) (s : State), Keep s0 s → Keep s0 (doLaneReset o x s).fst := by
  intro s0 o _ s h2; unfold doLaneReset; lift_lets; intro x0; split; dsimp only; assumption; split; dsimp only; assumption
  dsimp only; apply keep_laneReset; assumption

theorem keep_execLaneReset : ∀ (s0 : State) (t : Time) (o : Order) (s : State), Keep s0 s → KeepOut s0 (execLaneReset t o s) := by
  intro s0 t o s h2; unfold execLaneReset; apply keep_run; assumption; intro y0 y1; apply keep_serve; intro y2 y3 y4
  apply keep_doLaneReset; assumption; assumption

theorem keep_setImg : ∀ (s0 : State) (key : Nat) (x : ImgSlot) (s : State), Keep s0 s → Keep s0 (setImg key x s) := by
  intro s0 key x s h2; unfold setImg; lift_lets; intro x0; apply Keep.mk'; assumption

theorem keep_doLoadFirmware : ∀ (s0 : State) (o : Order) (b : HostBuf) (x : OrdInfo) (s : State), Keep s0 s → Keep s0 (doLoadFirmware o b x s).fst := by
  intro s0 o b x s h6; unfold doLoadFirmware; lift_lets; intro x0; intro x1; intro x2; intro x3; intro x4; intro x5; split
  dsimp only; assumption; split; dsimp only; assumption; split; dsimp only; assumption; split; dsimp only; assumption; split
  dsimp only; assumption; dsimp only; apply keep_setF; apply keep_setF; apply keep_setImg; assumption

theorem keep_execLoadFirmware : ∀ (s0 : State) (t : Time) (o : Order) (b : HostBuf) (s : State), Keep s0 s → KeepOut s0 (execLoadFirmware t o b s) := by
  intro s0 t o b s h3; unfold execLoadFirmware; apply keep_run; assumption; intro y0 y1; apply keep_serve; intro y2 y3 y4
  apply keep_doLoadFirmware; assumption; assumption

theorem keep_execFirmwareVerified : ∀ (s0 : State) (t : Time) (l : Lane) (keeper : Bool) (slot : Nat) (s : State),
    Keep s0 s → KeepOut s0 (execFirmwareVerified t l keeper slot s) := by
  intro s0 t l keeper slot s h4; unfold execFirmwareVerified; apply keep_run; assumption; intro y0 y1; lift_lets
  intro x2 x3; apply Keep.ite; assumption; split; apply keep_setF; apply keep_setF; apply keep_setF; apply keep_setImg
  assumption; apply keep_setF; apply keep_setF; assumption

theorem keep_doFwActivate : ∀ (s0 : State) (o : Order) (info : OrdInfo) (s : State), Keep s0 s → Keep s0 (doFwActivate o info s).fst := by
  intro s0 o info s h2; unfold doFwActivate; lift_lets; intro x0 x1 x2 x3 x4 x5
  refine Keep.cut (P := Keep s0 x5) ?_ (fun hx5 => ?_); unfold x5; apply keep_setF; apply keep_setF; apply keep_setF
  apply keep_setF; apply keep_setF; assumption; clear_value x5; intro x6; split; dsimp only; assumption; split; dsimp only
  assumption; split; dsimp only; assumption; split; dsimp only; apply keep_bothLanes; intro y7 y8 y9; split; apply keep_setF
  assumption; assumption; assumption; split; dsimp only; assumption; dsimp only; apply Keep.mk'; assumption

theorem keep_execFwActivate : ∀ (s0 : State) (t : Time) (o : Order) (s : State), Keep s0 s → KeepOut s0 (execFwActivate t o s) := by
  intro s0 t o s h2; unfold execFwActivate; apply keep_run; assumption; intro y0 y1; apply keep_serve; intro y2 y3 y4
  apply keep_doFwActivate; assumption; assumption

theorem keep_doFwCancel : ∀ (s0 : State) (x : OrdInfo) (s : State), Keep s0 s → Keep s0 (doFwCancel x s).fst := by
  intro s0 _ s h1; unfold doFwCancel; split; dsimp only; assumption; dsimp only; apply keep_seqIdle; apply keep_raise
  assumption; dsimp only; assumption

theorem keep_execFwCancel : ∀ (s0 : State) (t : Time) (o : Order) (s : State), Keep s0 s → KeepOut s0 (execFwCancel t o s) := by
  intro s0 t o s h2; unfold execFwCancel; apply keep_run; assumption; intro y0 y1; apply keep_serve; intro y2 y3 y4
  apply keep_doFwCancel; assumption; assumption

theorem keep_startImage : ∀ (s0 : State) (l : Lane) (n : Nat) (at' : Option Time) (s : State), Keep s0 s → Keep s0 (startImage l n at' s) := by
  intro s0 l n at' s h3; unfold startImage; lift_lets; intro x0; split; apply Keep.mk'; assumption; apply Keep.mk'; assumption

theorem keep_beginLane : ∀ (s0 : State) (l : Lane) (e : Time) (s : State), Keep s0 s → Keep s0 (beginLane l e s) := by
  intro s0 l e s h2; unfold beginLane; apply keep_laneReset; apply keep_startImage; assumption

theorem keep_revertLane : ∀ (s0 : State) (l : Lane) (s : State), Keep s0 s → Keep s0 (revertLane l s) := by
  intro s0 l s h1; unfold revertLane; apply keep_laneReset; apply keep_startImage; assumption

theorem keep_beginKeeper : ∀ (s0 : State) (e : Time) (s : State), Keep s0 s → Keep s0 (beginKeeper e s) := by
  intro s0 e s h1; unfold beginKeeper; lift_lets; intro x0; refine Keep.cut (P := Keep s0 x0) ?_ (fun hx0 => ?_); unfold x0
  apply keep_setF; assumption; clear_value x0; intro x1 x2; apply Keep.mk'; assumption

theorem keep_orderSwap : ∀ (s0 s : State), Keep s0 s → Keep s0 (orderSwap s) := by
  intro s0 s h0; unfold orderSwap; apply keep_placeOrder; intro y0 y1; dsimp only [id]; assumption; assumption

theorem keep_settleSlots : ∀ (s0 : State) (l : Lane) (k : Bool) (new : Option Nat) (s : State), Keep s0 s → Keep s0 (settleSlots l k new s) := by
  intro s0 l k new s h3; unfold settleSlots; split; apply keep_setF; apply keep_setF; assumption; assumption

theorem keep_seqEvent : ∀ (s0 : State) (l : Lane) (k : Bool) (n : Nat) (s : State), Keep s0 s → Keep s0 (seqEvent l k n s) := by
  intro s0 l k n s h3; unfold seqEvent; apply keep_raise; assumption

theorem keep_lanesDone : ∀ (s0 s : State), Keep s0 s → Keep s0 (lanesDone s) := by
  intro s0 s h0; unfold lanesDone; lift_lets; intro x0; refine Keep.cut (P := Keep s0 x0) ?_ (fun hx0 => ?_); unfold x0
  apply keep_seqEvent; apply keep_settleSlots; apply keep_settleSlots; assumption; clear_value x0; intro x1; apply Keep.ite
  apply keep_beginKeeper; apply Keep.mk'; assumption; apply keep_seqIdle; assumption

theorem keep_execHealthConfirmation : ∀ (s0 : State) (t : Time) (l : Lane) (s : State), Keep s0 s → KeepOut s0 (execHealthConfirmation t l s) := by
  intro s0 t l s h2; unfold execHealthConfirmation; apply keep_runLane; assumption; intro y0 y1; lift_lets; intro x2
  refine Keep.cut (P := Keep s0 x2) ?_ (fun hx2 => ?_); unfold x2; apply keep_setF; apply keep_startImage; assumption
  clear_value x2; apply Keep.ite; assumption; split; apply keep_orderSwap; apply keep_setF; assumption; apply keep_lanesDone
  assumption; apply Keep.ite; apply keep_lanesDone; assumption; assumption; assumption

theorem keep_rollEvent : ∀ (s0 : State) (kind : Nat) (s : State), Keep s0 s → Keep s0 (rollEvent kind s) := by
  intro s0 kind s h1; unfold rollEvent; apply keep_raise; assumption

theorem keep_execConfirmationTimeout : ∀ (s0 : State) (t : Time) (l : Lane) (s : State), Keep s0 s → KeepOut s0 (execConfirmationTimeout t l s) := by
  intro s0 t l s h2; unfold execConfirmationTimeout; apply keep_run; assumption; intro y0 y1; lift_lets; intro x2 x3
  refine Keep.cut (P := Keep s0 x3) ?_ (fun hx3 => ?_); unfold x3; apply keep_setF; apply keep_setF; assumption; clear_value x3
  intro x4 x5 x6; refine Keep.cut (P := Keep s0 x6) ?_ (fun hx6 => ?_); unfold x6; apply keep_setF; apply keep_rollEvent
  assumption; clear_value x6; intro x7; split; assumption; apply Keep.ite; assumption; apply Keep.ite; apply keep_dualReset
  intro y8 y9; dsimp only [id]; assumption; apply keep_rolledBack; assumption; apply keep_revertLane; apply Keep.mk'; assumption

theorem keep_execKeeperImageConfirm : ∀ (s0 : State) (t : Time) (s : State), Keep s0 s → KeepOut s0 (execKeeperImageConfirm t s) := by
  intro s0 t s h1; unfold execKeeperImageConfirm; apply keep_run; assumption; intro y0 y1; lift_lets; intro x2; split
  apply Keep.ite; apply keep_seqIdle; apply keep_seqEvent; apply keep_setF; apply keep_settleSlots; assumption; assumption
  assumption

theorem keep_execKeeperConfirmTimeout : ∀ (s0 : State) (t : Time) (s : State), Keep s0 s → KeepOut s0 (execKeeperConfirmTimeout t s) := by
  intro s0 t s h1; unfold execKeeperConfirmTimeout; apply keep_run; assumption; intro y0 y1; lift_lets; intro x2 x3
  refine Keep.cut (P := Keep s0 x3) ?_ (fun hx3 => ?_); unfold x3; apply keep_setF; apply keep_setF; assumption; clear_value x3
  intro x4; split; apply Keep.ite; apply keep_keeperStart; apply keep_rolledBack; apply Keep.mk'; assumption; assumption
  assumption

theorem keep_countLane : ∀ (s0 : State) (cyc : Word) (l : Lane) (s : State), Keep s0 s → Keep s0 (countLane cyc l s) := by
  intro s0 cyc l s h2; unfold countLane; lift_lets; intro x0 x1 x2 x3 x4 x5 x6; split; assumption; split; apply Keep.mk'
  assumption; apply Keep.mk'; assumption

theorem keep_showSeq : ∀ (s0 : State) (e : Time) (s : State), Keep s0 s → Keep s0 (showSeq e s) := by
  intro s0 e s h1; unfold showSeq; lift_lets; intro x0; split; apply keep_setF; apply keep_setF; assumption; apply keep_setF
  apply keep_setF; assumption; apply keep_setF; apply keep_setF; assumption; apply keep_setF; apply keep_setF; assumption
  apply keep_setF; apply keep_setF; assumption

theorem keep_afterSwap : ∀ (s0 : State) (to' : Lane) (e : Time) (k : State → State),
    (∀ (a : State), Keep s0 a → Keep s0 (k a)) → ∀ (s : State), Keep s0 s → Keep s0 (afterSwap to' e k s) := by
  intro s0 to' e k h2 s h3; unfold afterSwap; lift_lets; intro x0; apply Keep.ite; apply Keep.ite; assumption
  apply keep_orderSwap; assumption; split; apply Keep.mk'; assumption; apply Keep.ite; assumption; refine h2 _ ?_
  apply Keep.mk'; assumption

theorem keep_updEpoch : ∀ (s0 : State) (e : Time) (s : State), Keep s0 s → Keep s0 (updEpoch e s) := by
  intro s0 e s h1; unfold updEpoch; lift_lets; intro x0 x1; refine Keep.cut (P := Keep s0 x1) ?_ (fun hx1 => ?_); unfold x1
  apply keep_bothLanes; intro y2 y3 y4; apply keep_startImage; assumption; apply keep_setF; assumption; clear_value x1; intro x5
  split; apply Keep.ite; assumption; apply Keep.ite; apply keep_beginKeeper; assumption; apply Keep.ite; apply keep_dualReset
  intro y6 y7; dsimp only [id]; assumption; assumption; apply keep_beginLane; apply keep_setF; apply keep_setF; assumption
  apply keep_afterSwap; intro y8 y9; apply keep_beginLane; apply keep_setF; assumption; assumption; split; apply Keep.ite
  apply keep_afterSwap; intro y10 y11; lift_lets; intro x12; apply keep_revertLane; apply Keep.mk'; assumption; assumption
  assumption; apply Keep.ite; apply keep_setF; apply keep_seqIdle; assumption; assumption; assumption

theorem keep_onTnd : ∀ (s0 : State) (l : Lane) (f : TndSt → TndSt) (a : State), Keep s0 a → Keep s0 (onTnd l f a) := by
  intro s0 l f _ h2; unfold onTnd; apply keep_onLane; assumption

theorem keep_setFatal : ∀ (s0 : State) (l : Lane) (bit : Nat) (a : State), Keep s0 a → Keep s0 (setFatal l bit a) := by
  intro s0 l bit _ h2; unfold setFatal; apply keep_onLane; assumption

theorem keep_firstCe : ∀ (s0 : State) (l : Lane) (mem addr : Nat) (s : State), Keep s0 s → Keep s0 (firstCe l mem addr s) := by
  intro s0 l mem addr s h3; unfold firstCe; apply Keep.ite; assumption; apply keep_raise; apply keep_onTnd; assumption

end Sys2Proof.Machine
end

