-- ==== Sys2Proof/Laws/KeepHost.lean ====
section
/-!
SUPPORT. Each operation keeps the queue and the canonical register file: networks, update, host rings and the epoch. The proofs follow the cases of the definitions.
-/

namespace Sys2Proof.Machine

theorem keep_ceRate : ∀ (s0 : State) (l : Lane) (region : Nat) (s : State), Keep s0 s → Keep s0 (ceRate l region s) := by
  intro s0 l region s h2; unfold ceRate; lift_lets; intro x0 x1 x2; apply Keep.ite; assumption; apply keep_raise
  apply keep_setF; apply keep_onTnd; assumption

theorem keep_cePage : ∀ (s0 : State) (l : Lane) (addr : Nat) (s : State), Keep s0 s → Keep s0 (cePage l addr s) := by
  intro s0 l addr s h2; unfold cePage; lift_lets; intro x0 x1 x2; apply Keep.ite; assumption; apply Keep.ite; apply keep_raise
  apply keep_incF; apply keep_onTnd; assumption; apply keep_onTnd; assumption

theorem keep_execDramPatrol : ∀ (s0 : State) (t : Time) (l : Lane) (f : Scrub) (progress : Nat) (s : State),
    Keep s0 s → KeepOut s0 (execDramPatrol t l f progress s) := by
  intro s0 t l f progress s h4; unfold execDramPatrol; apply keep_runLane; assumption; intro y0 y1; lift_lets; intro x2
  refine Keep.cut (P := Keep s0 x2) ?_ (fun hx2 => ?_); unfold x2; apply keep_setF; assumption; clear_value x2; intro x3
  refine Keep.cut (P := Keep s0 x3) ?_ (fun hx3 => ?_); unfold x3; apply keep_when; intro y4 y5; apply keep_setF; assumption
  assumption; clear_value x3; split; assumption; lift_lets; intro x6 x7; refine Keep.cut (P := Keep s0 x7) ?_ (fun hx7 => ?_)
  unfold x7; apply keep_onTnd; assumption; clear_value x7; apply keep_cePage; apply keep_ceRate; apply keep_firstCe
  apply keep_incF; assumption; apply keep_setFatal; assumption

theorem keep_execCeRateHour : ∀ (s0 : State) (t : Time) (l : Lane) (s : State), Keep s0 s → KeepOut s0 (execCeRateHour t l s) := by
  intro s0 t l s h2; unfold execCeRateHour; apply keep_runLane; assumption; intro y0 y1; lift_lets; intro x2
  refine Keep.cut (P := Keep s0 x2) ?_ (fun hx2 => ?_); unfold x2; apply keep_when; intro y3 y4; apply keep_setF; assumption
  assumption; clear_value x2; apply keep_onTnd; assumption

theorem keep_execSramSweep : ∀ (s0 : State) (t : Time) (l : Lane) (mem : Nat) (f : Scrub) (s : State),
    Keep s0 s → KeepOut s0 (execSramSweep t l mem f s) := by
  intro s0 t l mem f s h4; unfold execSramSweep; apply keep_runLane; assumption; intro y0 y1; lift_lets; intro x2
  refine Keep.cut (P := Keep s0 x2) ?_ (fun hx2 => ?_); unfold x2; apply keep_setF; assumption; clear_value x2; intro x3
  refine Keep.cut (P := Keep s0 x3) ?_ (fun hx3 => ?_); unfold x3; apply keep_raise; assumption; clear_value x3; apply Keep.ite
  assumption; split; assumption; apply keep_firstCe; apply keep_incF; apply keep_onTnd; assumption; apply Keep.ite
  apply keep_setFatal; assumption; apply Keep.ite; apply keep_fusionLate; assumption; assumption

theorem keep_rewriteSlot (s0 : State) (v : MramSlot) (s : State) (h : Keep s0 s) : ∀ t, rewriteSlot v s = some t → Keep s0 t := by
  intro t ht
  unfold rewriteSlot at ht
  split at ht
  · obtain ⟨m, -, rfl⟩ := Option.map_eq_some_iff.mp ht
    exact h.same rfl rfl
  · obtain ⟨m, -, rfl⟩ := Option.map_eq_some_iff.mp ht
    exact h.same rfl rfl
  · rw [← Option.some.inj ht]; exact h.same rfl rfl
  · rw [← Option.some.inj ht]; exact h.same rfl rfl
  · rw [← Option.some.inj ht]; exact h

theorem keep_mramBad : ∀ (s0 : State) (f : MramFind) (s : State), Keep s0 s → Keep s0 (mramBad f s) := by
  intro s0 f s h
  have hr (off : Nat) (t : State) (ht : Keep s0 t) :
      Keep s0 (raise (tndSrc (timeLane t)) Ev.TND_MRAMPAIR off (incF Reg.TND_MRAM_repair .a t)) :=
    keep_raise _ _ _ _ _ (keep_incF _ _ _ _ ht _)
  unfold mramBad
  dsimp only
  split
  · rename_i off v
    have hs := keep_rewriteSlot s0 v s h
    cases hv : rewriteSlot v s with
    | none => exact keep_aoFailed _ _ _ _ h
    | some t => exact hr _ _ (hs t hv)
  · exact Keep.ite (hr _ _ h) (keep_aoFailed _ _ _ _ h)
  · exact keep_aoFailed _ _ _ _ h
  · refine Keep.ite h (keep_raise _ _ _ _ _ ?_)
    apply keep_incF
    exact h.same rfl rfl

theorem keep_execMramVerify : ∀ (s0 : State) (t : Time) (f : List MramFind) (s : State), Keep s0 s → KeepOut s0 (execMramVerify t f s) := by
  intro s0 t f s h2; unfold execMramVerify; apply keep_run; assumption; intro y0 y1; apply keep_forEach; intro y2 y3 y4
  apply keep_mramBad; assumption; assumption

theorem keep_execFlashLevelling : ∀ (s0 : State) (t : Time) (l : Lane) (src dst : Nat) (s : State), Keep s0 s → KeepOut s0 (execFlashLevelling t l src dst s) := by
  intro s0 t l src dst s h7; unfold execFlashLevelling; apply keep_runLane; assumption; intro y0; intro y1; lift_lets; intro x2
  apply Keep.ite; apply keep_onFlash; assumption; assumption

theorem keep_execReadDisturbRefresh : ∀ (s0 : State) (t : Time) (l : Lane) (blk : Nat) (s : State), Keep s0 s → KeepOut s0 (execReadDisturbRefresh t l blk s) := by
  intro s0 t l blk s h6; unfold execReadDisturbRefresh; apply keep_runLane; assumption; intro y0; intro y1; apply Keep.ite
  apply keep_onFlash; assumption; assumption

theorem keep_execRetentionPatrol : ∀ (s0 : State) (t : Time) (l : Lane) (weak : List Nat) (s : State), Keep s0 s → KeepOut s0 (execRetentionPatrol t l weak s) := by
  intro s0 t l weak s h6; unfold execRetentionPatrol; apply keep_runLane; assumption; intro y0; intro y1; lift_lets; intro x2
  refine Keep.cut (P := Keep s0 x2) ?_ (fun hx2 => ?_); unfold x2; apply keep_onFlash; assumption; clear_value x2; apply keep_setF
  apply keep_forEach; intro y3; intro y4; intro y5; apply Keep.ite; apply keep_onFlash; assumption; assumption; assumption

theorem keep_execBadBlockRetirement : ∀ (s0 : State) (t : Time) (l : Lane) (blk spare : Nat) (s : State), Keep s0 s → KeepOut s0 (execBadBlockRetirement t l blk spare s) := by
  intro s0 t l blk spare s h7; unfold execBadBlockRetirement; apply keep_runLane; assumption; intro y0; intro y1; apply Keep.ite
  assumption; lift_lets; intro x2; refine Keep.cut (P := Keep s0 x2) ?_ (fun hx2 => ?_); unfold x2; apply keep_onFlash; assumption
  clear_value x2; intro x3; intro x4; refine Keep.cut (P := Keep s0 x4) ?_ (fun hx4 => ?_); unfold x4; apply keep_setF
  apply keep_incF; assumption; clear_value x4; intro x5; refine Keep.cut (P := Keep s0 x5) ?_ (fun hx5 => ?_); unfold x5
  apply Keep.ite; apply keep_raise; apply keep_setF; assumption; assumption; clear_value x5; apply Keep.ite; apply keep_raiseAlarm
  assumption; assumption

theorem keep_execTenderBehind : ∀ (s0 : State) (t : Time) (l : Lane) (bit : Nat) (s : State), Keep s0 s → KeepOut s0 (execTenderBehind t l bit s) := by
  intro s0 t l bit s h3; unfold execTenderBehind; lift_lets; intro x0 x1; apply keep_runLane; assumption; intro y2 y3
  apply Keep.ite; assumption; apply keep_raise; apply keep_setF; assumption

theorem keep_execOscillatorRecord : ∀ (s0 : State) (t : Time) (l : Lane) (mean : Int) (s : State), Keep s0 s → KeepOut s0 (execOscillatorRecord t l mean s) := by
  intro s0 t l mean s h3; unfold execOscillatorRecord; apply keep_runLane; assumption; intro y0 y1; apply Keep.ite
  apply Keep.mk'; assumption; assumption

theorem keep_execLaneReferenceCheck : ∀ (s0 : State) (t : Time) (l : Lane) (ppb : Int) (s : State), Keep s0 s → KeepOut s0 (execLaneReferenceCheck t l ppb s) := by
  intro s0 t l ppb s h3; unfold execLaneReferenceCheck; lift_lets; intro x0; apply keep_runLane; assumption; intro y1 y2
  lift_lets; intro x3; refine Keep.cut (P := Keep s0 x3) ?_ (fun hx3 => ?_); unfold x3; apply keep_when; intro y4 y5
  apply keep_raise; assumption; assumption; clear_value x3; apply keep_setB; apply keep_onTnd; assumption

theorem keep_execHealthFrame : ∀ (s0 : State) (t : Time) (l : Lane) (die plate : BitVec 16) (s : State),
    Keep s0 s → KeepOut s0 (execHealthFrame t l die plate s) := by
  intro s0 t l die plate s h4; unfold execHealthFrame; apply keep_runLane; assumption; intro y0 y1; lift_lets; intro x2
  apply Keep.ite; assumption; apply keep_streamRec; assumption

theorem keep_onNet : ∀ (s0 : State) (f : NetSt → NetSt) (s : State), Keep s0 s → Keep s0 (onNet f s) := by
  intro s0 f s h1; unfold onNet; apply Keep.mk'; assumption

theorem keep_setNode : ∀ (s0 : State) (mac : BitVec 48) (x : PrpNode) (a : State), Keep s0 a → Keep s0 (setNode mac x a) := by
  intro s0 mac x _ h2; unfold setNode; apply keep_onNet; assumption

theorem keep_execPrpFrame : ∀ (s0 : State) (t : Time) (lanB : Bool) (src : BitVec 48) (rct : Option (Nat × BitVec 16)) (s : State),
    Keep s0 s → KeepOut s0 (execPrpFrame t lanB src rct s) := by
  intro s0 t lanB src rct s h
  unfold execPrpFrame
  refine keep_run _ _ _ h _ ?_
  intro s hs
  split
  · exact hs
  · extract_lets s1 old
    have h1 : Keep s0 s1 := keep_when _ _ _ (fun _ ht => keep_incF _ _ _ _ ht _) _ hs
    clear_value s1
    cases old with
    | none => exact Keep.ite (keep_setNode _ _ _ _ h1) h1
    | some x => exact Keep.ite (keep_setNode _ _ _ _ (keep_incF _ _ _ _ h1 _)) (keep_setNode _ _ _ _ (keep_incF _ _ _ _ h1 _))

theorem keep_execPrpSupervision : ∀ (s0 : State) (t : Time) (s : State), Keep s0 s → KeepOut s0 (execPrpSupervision t s) := by
  intro s0 t s h4; unfold execPrpSupervision; apply keep_run; assumption; intro y0; intro y1; apply keep_forEach; intro y2
  intro y3; intro y4; apply keep_prpSend; assumption; assumption

theorem keep_execNodeForget : ∀ (s0 : State) (t : Time) (mac : BitVec 48) (s : State), Keep s0 s → KeepOut s0 (execNodeForget t mac s) := by
  intro s0 t mac s h2; unfold execNodeForget; apply keep_run; assumption; intro y0 y1; split; apply Keep.ite; assumption
  apply keep_incF; apply keep_onNet; assumption; assumption

theorem keep_originate : ∀ (s0 : State) (typ dest : Nat) (payload : List Byte) (s : State), Keep s0 s → Keep s0 (originate typ dest payload s) := by
  intro s0 typ dest payload s h3; unfold originate; lift_lets; intro x0 x1; refine Keep.cut (P := Keep s0 x1) ?_ (fun hx1 => ?_)
  unfold x1; apply keep_onNet; assumption; clear_value x1; intro x2; apply Keep.ite; assumption; apply keep_when; intro y3 y4
  dsimp only [x2]; apply keep_emit; assumption; apply keep_when; intro y5 y6; dsimp only [x2]; apply keep_emit; assumption
  assumption

theorem keep_checkXwin : ∀ (s0 s : State), Keep s0 s → Keep s0 (checkXwin s) := by
  intro s0 s h0; unfold checkXwin; lift_lets; intro x0; apply Keep.ite; apply keep_raiseAlarm; assumption; apply keep_clearAlarm
  assumption

theorem keep_showMembers : ∀ (s0 s : State), Keep s0 s → Keep s0 (showMembers s) := by
  intro s0 s h0; unfold showMembers; apply keep_checkXwin; apply keep_setF; assumption

theorem keep_forward : ∀ (s0 : State) (port : Bool) (typ : Nat) (f : RingFrame) (s : State), Keep s0 s → Keep s0 (forward port typ f s) := by
  intro s0 port typ f s h3; unfold forward; lift_lets; intro x0; apply keep_when; intro y1 y2; apply keep_emit; assumption
  assumption

theorem keep_ringArrive : ∀ (s0 : State) (port : Bool) (typ : Nat) (f : RingFrame) (k : State → State),
    (∀ (a : State), Keep s0 a → Keep s0 (k a)) → ∀ (s : State), Keep s0 s → Keep s0 (ringArrive port typ f k s) := by
  intro s0 port typ f k h3 s h4; unfold ringArrive; lift_lets; intro x0 x1; refine Keep.cut (P := Keep s0 x1) ?_ (fun hx1 => ?_)
  unfold x1; apply keep_when; intro y2 y3; apply keep_forward; assumption; assumption; clear_value x1; intro x4 x5
  refine Keep.cut (P := Keep s0 x5) ?_ (fun hx5 => ?_); unfold x5; apply keep_when; intro y6 y7; apply keep_incF; assumption
  apply keep_onNet; assumption; clear_value x5; apply Keep.ite; assumption; apply Keep.ite; apply keep_incF; assumption
  apply Keep.ite; assumption; apply Keep.ite; assumption; apply Keep.ite; assumption; refine h3 _ ?_; apply keep_showMembers
  assumption

theorem keep_rankNow : ∀ (s0 s : State), Keep s0 s → Keep s0 (rankNow s) := by
  intro s0 s h0; unfold rankNow; lift_lets; intro x0; apply keep_onNet; apply keep_checkXwin; assumption

theorem keep_takeSync : ∀ (s0 : State) (f : RingFrame) (s : State), Keep s0 s → Keep s0 (takeSync f s) := by
  intro s0 f s h1; unfold takeSync; lift_lets; intro x0 x1 x2 x3 x4 x5 x6 x7
  refine Keep.cut (P := Keep s0 x7) ?_ (fun hx7 => ?_); unfold x7; apply keep_when; intro y8 y9; apply keep_raise; assumption
  assumption; clear_value x7; intro x10; refine Keep.cut (P := Keep s0 x10) ?_ (fun hx10 => ?_); unfold x10; apply keep_setF
  apply keep_setF; apply keep_onNet; assumption; clear_value x10; intro x11
  refine Keep.cut (P := Keep s0 x11) ?_ (fun hx11 => ?_); unfold x11; apply keep_takePhase; assumption; clear_value x11
  apply Keep.ite; assumption; apply Keep.ite; apply keep_rankNow; assumption; assumption

theorem keep_execSyncFrame : ∀ (s0 : State) (t : Time) (port : Bool) (f : RingFrame) (s : State), Keep s0 s → KeepOut s0 (execSyncFrame t port f s) := by
  intro s0 t port f s h3; unfold execSyncFrame; apply keep_run; assumption; intro y0 y1; apply keep_ringArrive; intro y2 y3
  apply keep_takeSync; assumption; assumption

theorem keep_execSyncLoss : ∀ (s0 : State) (t : Time) (s : State), Keep s0 s → KeepOut s0 (execSyncLoss t s) := by
  intro s0 t s h1; unfold execSyncLoss; apply keep_run; assumption; intro y0 y1; lift_lets; intro x2; apply Keep.ite
  apply keep_onNet; assumption; assumption

theorem keep_ringEpoch : ∀ (s0 : State) (e : Time) (s : State), Keep s0 s → Keep s0 (ringEpoch e s) := by
  intro s0 e s h4; unfold ringEpoch; lift_lets; intro x0; refine Keep.cut (P := Keep s0 x0) ?_ (fun hx0 => ?_); unfold x0
  apply keep_flushModule; assumption; clear_value x0; intro x1; refine Keep.cut (P := Keep s0 x1) ?_ (fun hx1 => ?_); unfold x1
  apply Keep.ite; apply keep_setF; apply keep_setF; apply keep_onNet; assumption; assumption; clear_value x1; intro x2
  refine Keep.cut (P := Keep s0 x2) ?_ (fun hx2 => ?_); unfold x2; apply keep_originate; assumption; clear_value x2; intro x3
  refine Keep.cut (P := Keep s0 x3) ?_ (fun hx3 => ?_); unfold x3; apply Keep.ite; apply Keep.ite; apply keep_rankNow; assumption
  assumption; assumption; clear_value x3; intro x4; refine Keep.cut (P := Keep s0 x4) ?_ (fun hx4 => ?_); unfold x4
  apply keep_originate; assumption; clear_value x4; apply Keep.ite; assumption; apply Keep.ite; assumption; apply keep_onNet
  assumption

theorem keep_execExchangeSlot : ∀ (s0 : State) (t : Time) (s : State), Keep s0 s → KeepOut s0 (execExchangeSlot t s) := by
  intro s0 t s h1; unfold execExchangeSlot; apply keep_run; assumption; intro y0 y1; split; lift_lets; intro x2; apply Keep.ite
  assumption; split; lift_lets; intro x3 x4; refine Keep.cut (P := Keep s0 x4) ?_ (fun hx4 => ?_); unfold x4; apply Keep.ite
  apply keep_onNet; apply keep_raise; assumption; assumption; clear_value x4; apply Keep.ite; assumption; apply keep_originate
  assumption; assumption; assumption

theorem keep_execExchFrame : ∀ (s0 : State) (t : Time) (port : Bool) (f : RingFrame) (s : State), Keep s0 s → KeepOut s0 (execExchFrame t port f s) := by
  intro s0 t port f s h3; unfold execExchFrame; apply keep_run; assumption; intro y0 y1; apply keep_ringArrive; intro y2 y3
  split; apply Keep.ite; apply keep_streamRec; assumption; assumption; assumption; assumption

theorem keep_execProbeTimer : ∀ (s0 : State) (t : Time) (s : State), Keep s0 s → KeepOut s0 (execProbeTimer t s) := by
  intro s0 t s h1; unfold execProbeTimer; apply keep_run; assumption; intro y0 y1; lift_lets; intro x2
  refine Keep.cut (P := Keep s0 x2) ?_ (fun hx2 => ?_); unfold x2; apply keep_when; intro y3 y4; apply keep_setF; assumption
  assumption; clear_value x2; intro x5; refine Keep.cut (P := Keep s0 x5) ?_ (fun hx5 => ?_); unfold x5; apply keep_originate
  assumption; clear_value x5; apply Keep.ite; assumption; apply keep_showMembers; apply keep_onNet; assumption

theorem keep_execProbeFrame : ∀ (s0 : State) (t : Time) (port : Bool) (f : RingFrame) (s : State), Keep s0 s → KeepOut s0 (execProbeFrame t port f s) := by
  intro s0 t port f s h3; unfold execProbeFrame; apply keep_run; assumption; intro y0 y1; lift_lets; intro x2 x3
  refine Keep.cut (P := Keep s0 x3) ?_ (fun hx3 => ?_); unfold x3; apply keep_onNet; assumption; clear_value x3; apply Keep.ite
  apply keep_when; intro y4 y5; apply keep_setF; assumption; apply keep_setF; assumption; apply keep_ringArrive; intro y6 y7
  dsimp only [id]; assumption; assumption

theorem keep_execRingMemberExpiry : ∀ (s0 : State) (t : Time) (m : Nat) (s : State), Keep s0 s → KeepOut s0 (execRingMemberExpiry t m s) := by
  intro s0 t m s h2; unfold execRingMemberExpiry; apply keep_run; assumption; intro y0 y1; split; apply Keep.ite
  apply keep_showMembers; apply keep_onNet; assumption; assumption; assumption

theorem keep_execRingLinkChange : ∀ (s0 : State) (t : Time) (port up : Bool) (s : State), Keep s0 s → KeepOut s0 (execRingLinkChange t port up s) := by
  intro s0 t port up s h3; unfold execRingLinkChange; apply keep_run; assumption; intro y0 y1; apply keep_setB; assumption

theorem keep_takeModule : ∀ (s0 : State) (cyc : Word) (it : MirItem) (s : State), Keep s0 s → Keep s0 (takeModule cyc it s) := by
  intro s0 cyc it s h2; unfold takeModule; split; assumption; split; apply keep_showAuth; apply Keep.mk'; assumption
  apply keep_correctLoops; assumption; apply Keep.ite; apply keep_onNet; apply keep_forEach; intro y0 y1 y2
  apply keep_adoptItem; assumption; assumption; apply keep_onNet; assumption; apply keep_onNet; assumption

theorem keep_takePiece : ∀ (s0 : State) (p : List Byte) (it : Option MirItem) (s : State), Keep s0 s → Keep s0 (takePiece p it s) := by
  intro s0 p it s h5; unfold takePiece; lift_lets; intro x0; intro x1; refine Keep.cut (P := Keep s0 x1) ?_ (fun hx1 => ?_)
  unfold x1; apply keep_onNet; assumption; clear_value x1; split; apply keep_onNet; assumption; apply Keep.ite; apply keep_onNet
  assumption; apply Keep.ite; apply keep_raise; assumption; split; apply keep_takeModule; assumption; assumption

theorem keep_execRingMirrorFrame : ∀ (s0 : State) (t : Time) (port : Bool) (f : RingFrame) (it : Option MirItem) (s : State), Keep s0 s → KeepOut s0 (execRingMirrorFrame t port f it s) := by
  intro s0 t port f it s h7; unfold execRingMirrorFrame; apply keep_run; assumption; intro y0; intro y1; apply keep_ringArrive
  intro y2; intro y3; apply Keep.ite; assumption; apply keep_takePiece; assumption; assumption

theorem keep_releaseOut : ∀ (s0 s : State), Keep s0 s → Keep s0 (releaseOut s) := by
  intro s0 s h3; unfold releaseOut; apply keep_tpDrive; apply keep_poDrive; apply keep_showPart; apply keep_onNet; assumption

theorem keep_takeGrant : ∀ (s0 s : State), Keep s0 s → Keep s0 (takeGrant s) := by
  intro s0 s h3; unfold takeGrant; lift_lets; intro x0; refine Keep.cut (P := Keep s0 x0) ?_ (fun hx0 => ?_); unfold x0
  apply keep_setF; apply keep_onNet; assumption; clear_value x0; intro x1; split; assumption; lift_lets; intro x2
  refine Keep.cut (P := Keep s0 x2) ?_ (fun hx2 => ?_); unfold x2; apply keep_fusTake; apply keep_onSlv; assumption
  clear_value x2; intro x3; apply keep_tpDrive; apply keep_poDrive; apply Keep.mk'; assumption

theorem keep_newTerm : ∀ (s0 : State) (term act : Nat) (s : State), Keep s0 s → Keep s0 (newTerm term act s) := by
  intro s0 term act s h2; unfold newTerm; lift_lets; intro x0 x1; refine Keep.cut (P := Keep s0 x1) ?_ (fun hx1 => ?_)
  unfold x1; apply keep_onNet; assumption; clear_value x1; intro x2; apply Keep.ite; assumption; apply Keep.ite
  apply keep_takeGrant; assumption; apply keep_releaseOut; assumption

theorem keep_doGrantModule : ∀ (s0 s : State), Keep s0 s → Keep s0 (doGrantModule s) := by
  intro s0 s h0; unfold doGrantModule; lift_lets; intro x0; refine Keep.cut (P := Keep s0 x0) ?_ (fun hx0 => ?_); unfold x0
  apply keep_onNet; assumption; clear_value x0; apply keep_originate; assumption

theorem keep_takeArb : ∀ (s0 : State) (f : RingFrame) (s : State), Keep s0 s → Keep s0 (takeArb f s) := by
  intro s0 f s h1; unfold takeArb; lift_lets; intro x0 x1 x2 x3 x4 x5 x6; refine Keep.cut (P := Keep s0 x6) ?_ (fun hx6 => ?_)
  unfold x6; apply Keep.ite; apply keep_clearAlarm; apply keep_onNet; assumption; assumption; clear_value x6; intro x7
  refine Keep.cut (P := Keep s0 x7) ?_ (fun hx7 => ?_); unfold x7; apply keep_when; intro y8 y9; apply keep_onNet; assumption
  assumption; clear_value x7; intro x10 x11; refine Keep.cut (P := Keep s0 x11) ?_ (fun hx11 => ?_); unfold x11; apply Keep.ite
  apply Keep.ite; apply keep_onNet; assumption; apply Keep.ite; apply keep_onNet; assumption; assumption; assumption
  clear_value x11; intro x12; refine Keep.cut (P := Keep s0 x12) ?_ (fun hx12 => ?_); unfold x12; apply Keep.ite
  apply keep_newTerm; assumption; apply Keep.ite; apply keep_onNet; assumption; assumption; clear_value x12; apply Keep.ite
  apply keep_incF; assumption; apply Keep.ite; apply keep_doGrantModule; assumption; assumption

theorem keep_execArbFrame : ∀ (s0 : State) (t : Time) (port : Bool) (f : RingFrame) (s : State), Keep s0 s → KeepOut s0 (execArbFrame t port f s) := by
  intro s0 t port f s h3; unfold execArbFrame; apply keep_run; assumption; intro y0 y1; apply keep_ringArrive; intro y2 y3
  apply keep_takeArb; assumption; assumption

theorem keep_execGrantFrame : ∀ (s0 : State) (t : Time) (port : Bool) (f : RingFrame) (s : State), Keep s0 s → KeepOut s0 (execGrantFrame t port f s) := by
  intro s0 t port f s h3; unfold execGrantFrame; lift_lets; intro x0; apply keep_run; assumption; intro y1 y2
  apply keep_ringArrive; intro y3 y4; apply Keep.ite; apply keep_incF; assumption; apply Keep.ite; assumption; apply Keep.ite
  apply keep_newTerm; assumption; assumption; assumption

theorem keep_execArbTimer : ∀ (s0 : State) (t : Time) (s : State), Keep s0 s → KeepOut s0 (execArbTimer t s) := by
  intro s0 t s h1; unfold execArbTimer; apply keep_run; assumption; intro y0 y1; lift_lets; intro x2
  refine Keep.cut (P := Keep s0 x2) ?_ (fun hx2 => ?_); unfold x2; apply keep_originate; assumption; clear_value x2
  apply Keep.ite; assumption; apply Keep.ite; apply keep_originate; apply keep_onNet; assumption; assumption

theorem keep_execActiveModuleAbsence : ∀ (s0 : State) (t : Time) (s : State), Keep s0 s → KeepOut s0 (execActiveModuleAbsence t s) := by
  intro s0 t s h1; unfold execActiveModuleAbsence; apply keep_run; assumption; intro y0 y1; apply Keep.ite
  apply keep_doGrantModule; assumption; assumption

theorem keep_execQuorumTimeout : ∀ (s0 : State) (t : Time) (s : State), Keep s0 s → KeepOut s0 (execQuorumTimeout t s) := by
  intro s0 t s h1; unfold execQuorumTimeout; apply keep_run; assumption; intro y0 y1; lift_lets; intro x2; apply Keep.ite
  apply keep_raise; apply keep_releaseOut; assumption; assumption

theorem keep_execArbiterLoss : ∀ (s0 : State) (t : Time) (s : State), Keep s0 s → KeepOut s0 (execArbiterLoss t s) := by
  intro s0 t s h1; unfold execArbiterLoss; apply keep_run; assumption; intro y0 y1; lift_lets; intro x2; apply Keep.ite
  apply keep_raiseAlarm; assumption; assumption

theorem keep_onPost : ∀ (s0 : State) (p : Path) (f : Lane → State → State),
    (∀ (a : Lane) (a_1 : State), Keep s0 a_1 → Keep s0 (f a a_1)) → ∀ (s : State), Keep s0 s → Keep s0 (onPost p f s) := by
  intro s0 p f h1 s h2; unfold onPost; split; refine h1 _ _ ?_; assumption; split; split; refine h1 _ _ ?_; refine h1 _ _ ?_
  assumption; refine h1 _ _ ?_; assumption; assumption

theorem keep_doDispatch : ∀ (s0 : State) (o : Order) (info : OrdInfo) (s : State), Keep s0 s → Keep s0 (doDispatch o info s).fst := by
  intro s0 o info s h2; unfold doDispatch; lift_lets; intro x0 x1 x2; split; dsimp only; assumption; dsimp only
  apply keep_onPost; intro y3 y4 y5; apply keep_onLane; assumption; assumption

theorem keep_execDispatch : ∀ (s0 : State) (t : Time) (o : Order) (s : State), Keep s0 s → KeepOut s0 (execDispatch t o s) := by
  intro s0 t o s h2; unfold execDispatch; apply keep_run; assumption; intro y0 y1; apply keep_serve; intro y2 y3 y4
  apply keep_doDispatch; assumption; assumption

theorem keep_doPostReference : ∀ (s0 : State) (o : Order) (s : State), Keep s0 s → Keep s0 (doPostReference o s).fst := by
  intro s0 o s h1; unfold doPostReference; lift_lets; intro x0 x1 x2 x3 x4; split; dsimp only; assumption; dsimp only
  apply keep_onPost; intro y5 y6 y7; apply keep_onFus; assumption; assumption

theorem keep_execPostReference : ∀ (s0 : State) (t : Time) (o : Order) (s : State), Keep s0 s → KeepOut s0 (execPostReference t o s) := by
  intro s0 t o s h2; unfold execPostReference; apply keep_run; assumption; intro y0 y1; apply keep_serve; intro y2 y3 y4
  apply keep_doPostReference; assumption; assumption

theorem keep_doEvent : ∀ (s0 : State) (o : Order) (s : State), Keep s0 s → Keep s0 (doEvent o s).fst := by
  intro s0 o s h1; unfold doEvent; lift_lets; intro x0; split; dsimp only; assumption; dsimp only; apply keep_raiseAt
  assumption

theorem keep_execEvent : ∀ (s0 : State) (t : Time) (o : Order) (s : State), Keep s0 s → KeepOut s0 (execEvent t o s) := by
  intro s0 t o s h2; unfold execEvent; apply keep_run; assumption; intro y0 y1; apply keep_serve; intro y2 y3 y4
  apply keep_doEvent; assumption; assumption

theorem keep_doLoadSafety : ∀ (s0 : State) (o : Order) (b : HostBuf) (s : State), Keep s0 s → Keep s0 (doLoadSafety o b s).fst := by
  intro s0 o b s h2; unfold doLoadSafety; split; dsimp only; assumption; split; dsimp only; assumption; dsimp only
  apply keep_setF; apply keep_onSaf; assumption

theorem keep_execLoadSafety : ∀ (s0 : State) (t : Time) (o : Order) (b : HostBuf) (s : State), Keep s0 s → KeepOut s0 (execLoadSafety t o b s) := by
  intro s0 t o b s h3; unfold execLoadSafety; apply keep_run; assumption; intro y0 y1; apply keep_serve; intro y2 y3 y4
  apply keep_doLoadSafety; assumption; assumption

theorem keep_reverifyAll : ∀ (s0 s : State), Keep s0 s → Keep s0 (reverifyAll s) := by
  intro s0 s h0; unfold reverifyAll; apply keep_bothLanes; intro y0 y1 y2; apply keep_forEach; intro y3 y4 y5; apply Keep.ite
  apply keep_onBank; assumption; assumption; assumption; assumption

theorem keep_putKey : ∀ (s0 : State) (n : Nat) (bs : List Byte) (s : State), Keep s0 s → ∀ t, putKey n bs s = some t → Keep s0 t := by
  intro s0 n bs s h t ht
  unfold putKey at ht
  split at ht
  · cases ht
  · rw [← Option.some.inj ht]
    exact keep_reverifyAll _ _ (keep_wrK _ _ _ (h.same rfl rfl))

theorem keep_putRef : ∀ (s0 : State) (n : Nat) (c : RefCfg) (s : State), Keep s0 s → Keep s0 (putRef n c s) := by
  intro s0 n c s h2; unfold putRef; lift_lets; intro x0; apply keep_setF2; apply Keep.mk'; assumption

theorem keep_loopAnswer : ∀ (s0 : State) (n : Nat) (r : Nat ⊕ State) (s : State), Keep s0 s → (∀ t, r = .inr t → Keep s0 t) →
    Keep s0 (loopAnswer n r s).2 := by
  intro s0 n r s h hr
  have hb (e : Nat) : Keep s0 (bothLanes (fun l => loopErr l n e) s) :=
    keep_bothLanes _ _ (fun l t ht => keep_loopErr _ _ _ _ _ ht) _ h
  unfold loopAnswer
  split
  · exact h
  · dsimp only
    exact hb _
  · exact hr _ rfl

theorem keep_putItem : ∀ (s0 : State) (item n : Nat) (bs : List Byte) (s : State), Keep s0 s → Keep s0 (putItem item n bs s).2 := by
  intro s0 item n bs s h
  have hput (ok : Bool) (t : State) (ht : Keep s0 t) :
      Keep s0 (if ok = true then ((none : Option Reply), t) else (some (Reply.code Code.RANGE), s)).2 := by
    cases ok
    · exact h
    · exact ht
  unfold putItem
  dsimp only
  split
  · split
    · rename_i t ht
      exact keep_putKey _ _ _ _ h t ht
    · exact h
  · exact hput _ _ (h.same rfl rfl)
  · exact hput _ _ (keep_putRef _ _ _ _ h)
  · exact hput _ _ (keep_setCal _ _ _ _ h)
  · exact hput _ _ (keep_setPoint _ _ _ _ h)
  · exact hput _ _ (keep_metPreset _ _ _ _ _ h)
  · split
    · exact keep_loopAnswer _ _ _ _ h (keep_putRecord _ _ _ _ h)
    · exact h
  · split
    · exact keep_loopAnswer _ _ _ _ h (keep_putBank _ _ _ _ _ h)
    · exact h
  · exact hput _ _ (h.same rfl rfl)
  · exact hput _ _ (h.same rfl rfl)
  · exact h.same rfl rfl
  · exact hput _ _ (keep_setF _ _ _ _ _ (h.same rfl rfl))
  · exact hput _ _ (h.same rfl rfl)
  · exact hput _ _ (h.same rfl rfl)
  · exact h

theorem keep_doConfigItem : ∀ (s0 : State) (o : Order) (b : HostBuf) (s : State), Keep s0 s → Keep s0 (doConfigItem o b s).1 := by
  intro s0 o b s h
  have h1 := keep_putItem _ (bodyN o 0 2) (bodyN o 2 2) b.bytes _ h
  unfold doConfigItem
  dsimp only
  split
  · exact h
  · split
    · exact h
    · generalize putItem (bodyN o 0 2) (bodyN o 2 2) b.bytes s = r at h1
      obtain ⟨_ | e, s1⟩ := r
      · exact Keep.ite h1 (h1.same rfl rfl)
      · exact h1

theorem keep_execConfigItem : ∀ (s0 : State) (t : Time) (o : Order) (b : HostBuf) (s : State), Keep s0 s → KeepOut s0 (execConfigItem t o b s) := by
  intro s0 t o b s h6; unfold execConfigItem; apply keep_run; assumption; intro y0; intro y1; apply keep_serve; intro y2; intro y3
  intro y4; apply keep_doConfigItem; assumption; assumption

theorem keep_afterRead : ∀ (s0 : State) (off : Nat) (s : State), Keep s0 s → Keep s0 (afterRead off s) := by
  intro s0 off s h4; unfold afterRead; apply keep_when; intro y0; intro y1; apply keep_latchCal; assumption; assumption

theorem keep_snapTo : ∀ (s0 : State) (o : Order) (dmaOk : Bool) (bytes : List Byte) (s : State),
    Keep s0 s → Keep s0 (snapTo o dmaOk bytes s).fst := by
  intro s0 o dmaOk bytes s h3; unfold snapTo; split; dsimp only; assumption; dsimp only; apply keep_emit; assumption

theorem keep_doSnapshotMetro : ∀ (s0 : State) (o : Order) (dmaOk : Bool) (s : State), Keep s0 s → Keep s0 (doSnapshotMetro o dmaOk s).fst := by
  intro s0 o dmaOk s h2; unfold doSnapshotMetro; split; dsimp only; assumption; apply keep_snapTo; assumption

theorem keep_execSnapshotMetro : ∀ (s0 : State) (t : Time) (o : Order) (dmaOk : Bool) (s : State), Keep s0 s → KeepOut s0 (execSnapshotMetro t o dmaOk s) := by
  intro s0 t o dmaOk s h3; unfold execSnapshotMetro; apply keep_run; assumption; intro y0 y1; apply keep_serve; intro y2 y3 y4
  apply keep_doSnapshotMetro; assumption; assumption

theorem keep_doSnapshotBlock : ∀ (s0 : State) (o : Order) (dmaOk : Bool) (s : State), Keep s0 s → Keep s0 (doSnapshotBlock o dmaOk s).fst := by
  intro s0 o dmaOk s h5; unfold doSnapshotBlock; lift_lets; intro x0; intro x1
  refine Keep.cut (P := Keep s0 x1) ?_ (fun hx1 => ?_); unfold x1; apply keep_afterRead; assumption; clear_value x1; split
  dsimp only; assumption; split; dsimp only; assumption; apply keep_snapTo; assumption

theorem keep_execSnapshotBlock : ∀ (s0 : State) (t : Time) (o : Order) (dmaOk : Bool) (s : State), Keep s0 s → KeepOut s0 (execSnapshotBlock t o dmaOk s) := by
  intro s0 t o dmaOk s h3; unfold execSnapshotBlock; apply keep_run; assumption; intro y0 y1; apply keep_serve; intro y2 y3 y4
  apply keep_doSnapshotBlock; assumption; assumption

theorem keep_doGrid : ∀ (s0 : State) (o : Order) (dmaOk : Bool) (info : OrdInfo) (s : State), Keep s0 s → Keep s0 (doGrid o dmaOk info s).fst := by
  intro s0 o dmaOk info s h6; unfold doGrid; lift_lets; intro x0; split; dsimp only; assumption; split; dsimp only; assumption
  split; dsimp only; apply keep_onLane; assumption; apply keep_snapTo; assumption

theorem keep_execGrid : ∀ (s0 : State) (t : Time) (o : Order) (dmaOk : Bool) (s : State), Keep s0 s → KeepOut s0 (execGrid t o dmaOk s) := by
  intro s0 t o dmaOk s h3; unfold execGrid; apply keep_run; assumption; intro y0 y1; apply keep_serve; intro y2 y3 y4
  apply keep_doGrid; assumption; assumption

theorem keep_doKeyframe : ∀ (s0 : State) (o : Order) (dmaOk : Bool) (s : State), Keep s0 s → Keep s0 (doKeyframe o dmaOk s).fst := by
  intro s0 o dmaOk s h2; unfold doKeyframe; lift_lets; intro x0; split; dsimp only; assumption; apply keep_snapTo; assumption

theorem keep_execKeyframe : ∀ (s0 : State) (t : Time) (o : Order) (dmaOk : Bool) (s : State), Keep s0 s → KeepOut s0 (execKeyframe t o dmaOk s) := by
  intro s0 t o dmaOk s h3; unfold execKeyframe; apply keep_run; assumption; intro y0 y1; apply keep_serve; intro y2 y3 y4
  apply keep_doKeyframe; assumption; assumption

theorem keep_doMemRead : ∀ (s0 : State) (o : Order) (dmaOk : Bool) (s : State), Keep s0 s → Keep s0 (doMemRead o dmaOk s).fst := by
  intro s0 o dmaOk s h5; unfold doMemRead; split; dsimp only; assumption; dsimp only; apply keep_emit; assumption

theorem keep_execMemRead : ∀ (s0 : State) (t : Time) (o : Order) (dmaOk : Bool) (s : State), Keep s0 s → KeepOut s0 (execMemRead t o dmaOk s) := by
  intro s0 t o dmaOk s h6; unfold execMemRead; apply keep_run; assumption; intro y0; intro y1; apply keep_serve; intro y2
  intro y3; intro y4; apply keep_doMemRead; apply keep_expertDone; assumption; assumption

theorem keep_ringStart : ∀ (s0 : State) (l : Lane) (n : Nat) (s : State), Keep s0 s → Keep s0 (ringStart l n s) := by
  intro s0 l n s h2; unfold ringStart; apply keep_onRing; apply keep_setF; apply keep_setF; apply keep_setF; apply keep_setF
  assumption

theorem keep_ringOff : ∀ (s0 : State) (l : Lane) (n : Nat) (s : State), Keep s0 s → Keep s0 (ringOff l n s) := by
  intro s0 l n s h2; unfold ringOff; apply Keep.ite; apply keep_onRing; apply keep_setF; apply keep_setF; assumption; assumption

theorem keep_ringCfg : ∀ (s0 : State) (l : Lane) (n : Nat) (v : Word) (s : State), Keep s0 s → Keep s0 (ringCfg l n v s) := by
  intro s0 l n v s h3; unfold ringCfg; lift_lets; intro x0; refine Keep.cut (P := Keep s0 x0) ?_ (fun hx0 => ?_); unfold x0
  apply keep_wrK; assumption; clear_value x0; intro x1; apply Keep.ite; apply Keep.ite; assumption; apply keep_ringOff
  assumption; apply Keep.ite; assumption; apply Keep.ite; apply keep_ringStart; apply keep_setF; assumption; apply keep_setF
  assumption

theorem keep_flushRing : ∀ (s0 : State) (l : Lane) (n k : Nat) (s : State), Keep s0 s → Keep s0 (flushRing l n k s) := by
  intro s0 l n k
  induction k with
  | zero => exact fun _ h => h
  | succ k ih =>
    intro s h
    unfold flushRing
    split
    · exact h
    · split
      · exact h
      · exact ih _ (keep_pushEntry _ _ _ _ _ (keep_onRing _ _ _ _ _ h))

theorem keep_unstall : ∀ (s0 : State) (l : Lane) (c : Nat) (s : State), Keep s0 s → Keep s0 (unstall l c s) := by
  intro s0 l c s h2; unfold unstall; apply keep_forEach; intro y0 y1 y2; apply Keep.ite; apply keep_setF; assumption; assumption
  assumption

theorem keep_ringBell : ∀ (s0 : State) (l : Lane) (n i : Nat) (s : State), Keep s0 s → Keep s0 (ringBell l n i s) := by
  intro s0 l n i s h3; unfold ringBell; lift_lets; intro x0 x1; refine Keep.cut (P := Keep s0 x1) ?_ (fun hx1 => ?_); unfold x1
  apply keep_setF; assumption; clear_value x1; intro x2; refine Keep.cut (P := Keep s0 x2) ?_ (fun hx2 => ?_); unfold x2
  apply keep_flushRing; assumption; clear_value x2; apply Keep.ite; apply Keep.ite; assumption; apply keep_unstall; assumption
  apply Keep.ite; apply keep_onRing; assumption; assumption

theorem keep_execDoorbell : ∀ (s0 : State) (t : Time) (ep : Lane) (ofs : Nat) (v : Word) (s : State),
    Keep s0 s → KeepOut s0 (execDoorbell t ep ofs v s) := by
  intro s0 t ep ofs v s h4; unfold execDoorbell; lift_lets; intro x0; apply keep_runLane; assumption; intro y1 y2
  apply Keep.ite; assumption; apply Keep.ite; apply keep_sysStat; apply keep_incF; apply keep_raise; assumption; apply Keep.ite
  assumption; apply keep_ringBell; assumption

theorem keep_execInterruptModeration : ∀ (s0 : State) (t : Time) (l : Lane) (n : Nat) (s : State), Keep s0 s → KeepOut s0 (execInterruptModeration t l n s) := by
  intro s0 t l n s h3; unfold execInterruptModeration; apply keep_runLane; assumption; intro y0 y1; lift_lets; intro x2
  apply Keep.ite; apply keep_raiseVec; apply keep_onRing; assumption; assumption

theorem keep_execPerst : ∀ (s0 : State) (t : Time) (l : Lane) (s : State), Keep s0 s → KeepOut s0 (execPerst t l s) := by
  intro s0 t l s h5; unfold execPerst; apply keep_runLane; assumption; intro y0; intro y1; apply keep_forEach; intro y2; intro y3
  intro y4; apply keep_wrK; assumption; apply keep_clrK; apply keep_forEach; intro y5; intro y6; intro y7; apply keep_ringOff
  assumption; assumption

theorem keep_execStationDatagram : ∀ (s0 : State) (t : Time) (src dst : Word) (sport : Nat) (hdr : BitVec 64) (copies : Nat) (s : State), Keep s0 s → KeepOut s0 (execStationDatagram t src dst sport hdr copies s) := by
  intro s0 t src dst sport hdr copies s h9; unfold execStationDatagram; apply keep_run; assumption; intro y0; intro y1; split
  assumption; lift_lets; intro x2; apply Keep.ite; assumption; split; apply keep_countReject; assumption; apply Keep.mk'
  assumption

theorem keep_joyReject : ∀ (s0 s : State), Keep s0 s → Keep s0 (joyReject s) := by
  intro s0 s h0; unfold joyReject; apply keep_incF; assumption

theorem keep_joyAccept : ∀ (s0 : State) (sq : Byte) (s : State), Keep s0 s → Keep s0 (joyAccept sq s) := by
  intro s0 sq s h1; unfold joyAccept; lift_lets; intro x0; apply keep_signOfLife; apply keep_setF; apply Keep.mk'; assumption

theorem keep_serveMode : ∀ (s0 : State) (o : Order) (s : State), Keep s0 s → Keep s0 (serveMode o s) := by
  intro s0 o s h
  exact keep_serve _ _ _ _ _ _ _ _ (fun i t ht => keep_doMode _ _ _ _ ht) _ h

theorem keep_joyServe : ∀ (s0 : State) (fop sq : Byte) (s : State), Keep s0 s → Keep s0 (joyServe fop sq s) := by
  intro s0 fop sq s h
  unfold joyServe
  split
  · exact keep_serve _ _ _ _ _ _ _ _ (fun i t ht => keep_doRequest _ _ _ ht) _ h
  · exact keep_serve _ _ _ _ _ _ _ _ (fun i t ht => keep_doRelease _ _ _ ht) _ h
  · exact keep_serve _ _ _ _ _ _ _ _ (fun i t ht => ht) _ h
  · exact keep_serveMode _ _ _ h
  · have h1 := keep_arrive _ (joyOrder 0#8 fop fop sq 0#320) _ h
    generalize arrive (joyOrder 0#8 fop fop sq 0#320) s = r at h1
    obtain ⟨_ | info, s1⟩ := r
    · exact h1
    · exact keep_answerAt _ _ _ _ h1

theorem keep_joyOrderFrame : ∀ (s0 : State) (d : List Byte) (s : State), Keep s0 s → Keep s0 (joyOrderFrame d s) := by
  intro s0 d s h1; unfold joyOrderFrame; lift_lets; intro x0; apply Keep.ite; apply keep_joyReject; assumption
  apply keep_joyServe; apply keep_joyAccept; assumption

theorem keep_joySp : ∀ (s0 : State) (n : Nat) (v : Option F64) (s : State), Keep s0 s → Keep s0 (joySp n v s) := by
  intro s0 n v s h2; unfold joySp; apply Keep.ite; apply keep_sweep; apply keep_placeOrder; intro y0 y1; dsimp only [id]
  assumption; assumption; assumption

theorem keep_joyDemandFrame : ∀ (s0 : State) (o : ObjCfg) (fd : Bool) (d : List Byte) (s : State), Keep s0 s → Keep s0 (joyDemandFrame o fd d s) := by
  intro s0 o fd d s h3; unfold joyDemandFrame; lift_lets; intro x0 x1; refine Keep.cut (P := Keep s0 x1) ?_ (fun hx1 => ?_)
  unfold x1; apply keep_joyReject; assumption; clear_value x1; intro x2 x3; refine Keep.cut (P := Keep s0 x3) ?_ (fun hx3 => ?_)
  unfold x3; apply keep_joyAccept; assumption; clear_value x3; intro x4 x5; refine Keep.cut (P := Keep s0 x5) ?_ (fun hx5 => ?_)
  unfold x5; apply keep_setF; apply Keep.mk'; assumption; clear_value x5; apply Keep.ite; apply keep_joyReject; assumption
  apply Keep.ite; apply Keep.ite; assumption; apply keep_conflict; apply Keep.mk'; assumption; apply keep_forEach
  intro y6 y7 y8; apply keep_joySp; assumption; assumption

theorem keep_canReceive : ∀ (s0 : State) (c : Nat) (f : CanFrame) (s : State), Keep s0 s → Keep s0 (canReceive c f s) := by
  intro s0 c f s h2; unfold canReceive; lift_lets; intro x0; refine Keep.cut (P := Keep s0 x0) ?_ (fun hx0 => ?_); unfold x0
  apply keep_canStore; assumption; clear_value x0; apply Keep.ite; assumption; split; assumption; apply Keep.ite; assumption
  split; apply keep_joyOrderFrame; assumption; apply keep_joyDemandFrame; assumption; assumption

theorem keep_execCanFrameReceived : ∀ (s0 : State) (t : Time) (c : Nat) (f : CanFrame) (s : State), Keep s0 s → KeepOut s0 (execCanFrameReceived t c f s) := by
  intro s0 t c f s h3; unfold execCanFrameReceived; apply keep_run; assumption; intro y0 y1; apply keep_canReceive; assumption

theorem keep_execJoystickOrderFrame : ∀ (s0 : State) (t : Time) (c : Nat) (f : CanFrame) (s : State), Keep s0 s → KeepOut s0 (execJoystickOrderFrame t c f s) := by
  intro s0 t c f s h3; unfold execJoystickOrderFrame; apply keep_run; assumption; intro y0 y1; apply Keep.ite
  apply keep_canReceive; assumption; assumption

theorem keep_execJoystickDemandFrame : ∀ (s0 : State) (t : Time) (c : Nat) (f : CanFrame) (s : State), Keep s0 s → KeepOut s0 (execJoystickDemandFrame t c f s) := by
  intro s0 t c f s h3; unfold execJoystickDemandFrame; apply keep_run; assumption; intro y0 y1; apply Keep.ite
  apply keep_canReceive; assumption; assumption

theorem keep_execJoystickDemandTimeout : ∀ (s0 : State) (t : Time) (s : State), Keep s0 s → KeepOut s0 (execJoystickDemandTimeout t s) := by
  intro s0 t s h1; unfold execJoystickDemandTimeout; apply keep_run; assumption; intro y0 y1; lift_lets; intro x2
  apply Keep.ite; apply keep_forEach; intro y3 y4 y5; apply keep_joySp; assumption; apply keep_raise; apply keep_setF
  apply Keep.mk'; assumption; assumption

theorem keep_execPllWake : ∀ (s0 : State) (t : Time) (l : Lane) (e : Engine) (s : State), Keep s0 s → KeepOut s0 (execPllWake t l e s) := by
  intro s0 t l e s h6; unfold execPllWake; apply keep_runLane; assumption; intro y0; intro y1; apply Keep.ite; apply keep_startPll
  assumption; assumption

theorem keep_cfgEvent : ∀ (s0 : State) (ep : Lane) (off : Nat) (s : State), Keep s0 s → Keep s0 (cfgEvent ep off s) := by
  intro s0 ep off s h2; unfold cfgEvent; split; apply keep_raise; assumption; assumption

theorem keep_cycApply : ∀ (s0 s : State), Keep s0 s → Keep s0 (cycApply s) := by
  intro s0 s h0; unfold cycApply; lift_lets; intro x0 x1 x2 x3 x4 x5 x6; apply Keep.ite; apply keep_setF; assumption
  apply keep_setF; apply keep_setF; apply Keep.mk'; assumption

theorem keep_metCntClear : ∀ (s0 : State) (l : Lane) (s : State), Keep s0 s → Keep s0 (metCntClear l s) := by
  intro s0 l s h1; unfold metCntClear; apply keep_clrEach; apply keep_clrEach; apply keep_clrEach; apply keep_clrEach
  apply keep_clrK; assumption

theorem keep_fusCntClear : ∀ (s0 : State) (l : Lane) (s : State), Keep s0 s → Keep s0 (fusCntClear l s) := by
  intro s0 l s h1; unfold fusCntClear; apply keep_clrEach; apply keep_clrEach; apply keep_clrEach; apply keep_clrK; assumption

theorem keep_lpeCntClear : ∀ (s0 : State) (l : Lane) (s : State), Keep s0 s → Keep s0 (lpeCntClear l s) := by
  intro s0 l s h1; unfold lpeCntClear; apply keep_clrEach; apply keep_clrEach; apply keep_clrK; assumption

theorem keep_pubdlyClear : ∀ (s0 : State) (l : Lane) (s : State), Keep s0 s → Keep s0 (pubdlyClear l s) := by
  intro s0 l s h1; unfold pubdlyClear; apply keep_setF; apply keep_setF; assumption

theorem keep_ptpCfgWritten : ∀ (s0 : State) (n : Nat) (s : State), Keep s0 s → Keep s0 (ptpCfgWritten n s) := by
  intro s0 n s h1; unfold ptpCfgWritten; apply keep_bmcaPort; apply keep_setPort; assumption

theorem keep_almForget : ∀ (s0 : State) (n : Nat) (s : State), Keep s0 s → Keep s0 (almForget n s) := by
  intro s0 n s h1; unfold almForget; lift_lets; intro x0; apply Keep.mk'; assumption

theorem keep_afterLow : ∀ (s0 : State) (ep : Lane) (off : Nat) (old v : Word) (s : State), Keep s0 s → Keep s0 (afterLow ep off old v s) := by
  intro s0 ep off old v s h7; unfold afterLow; apply Keep.ite; apply keep_when; intro y0; intro y1; apply keep_cycApply
  assumption; assumption; apply Keep.ite; apply keep_when; intro y2; intro y3; apply keep_pubdlyClear; assumption; assumption
  apply Keep.ite; apply keep_when; intro y4; intro y5; apply keep_wrK; apply keep_wrK; assumption; assumption; apply Keep.ite
  apply keep_when; intro y6; intro y7; apply keep_acceptStep; assumption; assumption; apply Keep.ite; apply keep_when; intro y8
  intro y9; apply keep_tmbCntClear; assumption; assumption; apply Keep.ite; apply keep_when; intro y10; intro y11
  apply keep_ptpCfgWritten; assumption; assumption; apply Keep.ite; apply keep_tpModeChange; assumption; apply Keep.ite
  apply keep_when; intro y12; intro y13; apply keep_calSet; assumption; assumption; apply Keep.ite; apply keep_when; intro y14
  intro y15; apply keep_calOrder; assumption; assumption; apply Keep.ite; lift_lets; intro x16; intro x17; apply keep_when
  intro y18; intro y19; apply keep_almForget; assumption; assumption; assumption

theorem keep_afterMid : ∀ (s0 : State) (ep : Lane) (off : Nat) (old v : Word) (s : State), Keep s0 s →
    Keep s0 (afterMid ep off old v s) := by
  intro s0 ep off old v s h7; unfold afterMid; apply Keep.ite; apply keep_recClear; assumption; apply Keep.ite; apply keep_when
  intro y0; intro y1; apply keep_clrK; apply keep_clrK; assumption; assumption; apply Keep.ite; apply keep_when; intro y2
  intro y3; apply keep_reverifyAll; assumption; assumption; apply Keep.ite; apply keep_when; intro y4; intro y5
  apply keep_fusCntClear; assumption; assumption; apply Keep.ite; apply keep_showIfen; assumption; apply Keep.ite; apply keep_when
  intro y6; intro y7; apply keep_clrK; assumption; assumption; apply Keep.ite; apply keep_when; intro y8; intro y9
  apply keep_metCntClear; assumption; assumption; apply Keep.ite; apply keep_apCfgWritten; assumption; apply Keep.ite
  apply keep_when; intro y10; intro y11; apply keep_iqChanged; assumption; assumption; apply Keep.ite; apply keep_when; intro y12
  intro y13; apply keep_metLatch; assumption; assumption; apply Keep.ite; apply keep_when; intro y14; intro y15
  apply keep_poChanged; assumption; assumption; assumption

theorem keep_ringDown : ∀ (s0 : State) (s : State), Keep s0 s → Keep s0 (ringDown s) := by
  intro s0 s h3; unfold ringDown; lift_lets; intro x0; refine Keep.cut (P := Keep s0 x0) ?_ (fun hx0 => ?_); unfold x0
  apply keep_setF; apply keep_takePhase; assumption; clear_value x0; intro x1; apply Keep.mk'; assumption

theorem keep_afterHigh : ∀ (s0 : State) (ep : Lane) (off : Nat) (old v : Word) (s : State), Keep s0 s → Keep s0 (afterHigh ep off old v s) := by
  intro s0 ep off old v s h7; unfold afterHigh; apply Keep.ite; apply keep_when; intro y0; intro y1; apply keep_lpeCntClear
  assumption; assumption; apply Keep.ite; apply keep_when; intro y2; intro y3; apply keep_trcAbort; assumption; apply keep_when
  intro y4; intro y5; apply keep_trcArm; assumption; assumption; apply Keep.ite; apply keep_when; intro y6; intro y7
  apply keep_clrEach; apply keep_clrK; assumption; assumption; apply Keep.ite; lift_lets; intro x8; apply Keep.ite
  apply keep_canEnableOp; assumption; apply Keep.ite; apply keep_canDisableOp; assumption; assumption; apply Keep.ite; lift_lets
  intro x9; apply keep_when; intro y10; intro y11; apply keep_canClear; assumption; apply keep_when; intro y12; intro y13
  apply keep_canRecoverOp; assumption; assumption; apply Keep.ite; lift_lets; intro x14; apply keep_when; intro y15; intro y16
  apply keep_txAbortOp; assumption; apply keep_when; intro y17; intro y18; apply keep_txreqOp; assumption; assumption
  apply Keep.ite; apply keep_when; intro y19; intro y20; apply keep_serCntClear; assumption; assumption; apply Keep.ite
  apply keep_when; intro y21; intro y22; apply keep_clrK; assumption; assumption; apply Keep.ite; apply keep_showPart
  apply keep_when; intro y23; intro y24; apply keep_ringDown; assumption; assumption; assumption

theorem keep_afterWrite : ∀ (s0 : State) (ep : Lane) (off : Nat) (old v : Word) (s : State), Keep s0 s → Keep s0 (afterWrite ep off old v s) := by
  intro s0 ep off old v s h4; unfold afterWrite; apply Keep.ite; apply keep_afterLow; assumption; apply Keep.ite
  apply keep_afterMid; assumption; apply keep_afterHigh; assumption

theorem keep_commit : ∀ (s0 : State) (ep : Lane) (r : RegRow) (off : Nat) (v : Word) (s : State), Keep s0 s → Keep s0 (commit ep r off v s) := by
  intro s0 ep r off v s h4; unfold commit; lift_lets; intro x0 x1; apply keep_afterWrite; apply keep_wrK; assumption

theorem keep_checkedWrite : ∀ (s0 : State) (ep : Lane) (r : RegRow) (off : Nat) (v : Word) (s : State),
    Keep s0 s → Keep s0 (checkedWrite ep r off v s) := by
  intro s0 ep r off v s h4; unfold checkedWrite; lift_lets; intro x0 x1; refine Keep.cut (P := Keep s0 x1) ?_ (fun hx1 => ?_)
  unfold x1; apply Keep.ite; apply keep_setF; assumption; assumption; clear_value x1; apply Keep.ite; assumption; apply Keep.ite
  apply Keep.ite; apply keep_commit; assumption; assumption; apply Keep.ite; assumption; apply Keep.ite; apply Keep.ite
  apply keep_ringCfg; assumption; apply keep_cfgEvent; assumption; apply Keep.ite; apply keep_cfgEvent; assumption
  apply Keep.ite; apply keep_raise; apply keep_setF; assumption; apply keep_commit; assumption

theorem keep_msixWrite : ∀ (s0 : State) (ep : Lane) (o : Nat) (v : Word) (s : State), Keep s0 s → Keep s0 (msixWrite ep o v s) := by
  intro s0 ep o v s h6; unfold msixWrite; apply Keep.ite; assumption; apply Keep.ite; apply keep_wrK; assumption; lift_lets
  intro x0; intro x1; refine Keep.cut (P := Keep s0 x1) ?_ (fun hx1 => ?_); unfold x1; apply keep_wrK; assumption; clear_value x1
  intro x2; apply Keep.ite; apply keep_raiseVec; apply keep_wrK; assumption; assumption

theorem keep_write32 : ∀ (s0 : State) (ep : Lane) (off : Nat) (v : Word) (s : State), Keep s0 s → Keep s0 (write32 ep off v s) := by
  intro s0 ep off v s h6; unfold write32; apply Keep.ite; apply keep_msixWrite; assumption; split; assumption; apply Keep.ite
  assumption; apply Keep.ite; apply keep_raise; assumption; apply Keep.ite; apply keep_raise; assumption; apply keep_checkedWrite
  assumption

theorem keep_hostWrite : ∀ (s0 : State) (ep : Lane) (off bytes : Nat) (v : BitVec 64) (s : State),
    Keep s0 s → Keep s0 (hostWrite ep off bytes v s) := by
  intro s0 ep off bytes v s h4; unfold hostWrite; apply Keep.ite; assumption; apply Keep.ite; apply keep_write32; assumption
  apply Keep.ite; apply keep_write32; apply keep_write32; assumption; apply keep_raise; assumption

theorem keep_regWrite : ∀ (s0 : State) (t : Time) (ep : Lane) (off : Nat) (v : Word) (s : State), Keep s0 s → KeepOut s0 (regWrite t ep off v s) := by
  intro s0 t ep off v s h4; unfold regWrite; apply keep_run; assumption; intro y0 y1; apply keep_hostWrite; assumption

theorem keep_regWriteN : ∀ (s0 : State) (t : Time) (ep : Lane) (count n off : Nat) (v : Word) (s : State),
    Keep s0 s → KeepOut s0 (regWriteN t ep count n off v s) := by
  intro s0 t ep count n off v s h6; unfold regWriteN; apply keep_run; assumption; intro y0 y1; apply Keep.ite
  apply keep_hostWrite; assumption; assumption

theorem keep_execRegisterWrite : ∀ (s0 : State) (t : Time) (ep : Lane) (off bytes : Nat) (v : BitVec 64) (s : State),
    Keep s0 s → KeepOut s0 (execRegisterWrite t ep off bytes v s) := by
  intro s0 t ep off bytes v s h5; unfold execRegisterWrite; apply keep_run; assumption; intro y0 y1; apply keep_hostWrite
  assumption

theorem keep_execCycleSetApply : ∀ (s0 : State) (t : Time) (ep : Lane) (v : Word) (s : State), Keep s0 s → KeepOut s0 (execCycleSetApply t ep v s) := by
  intro s0 t ep v s h3; unfold execCycleSetApply; apply keep_regWrite; assumption

theorem keep_execPubdlyClear : ∀ (s0 : State) (t : Time) (ep : Lane) (v : Word) (s : State), Keep s0 s → KeepOut s0 (execPubdlyClear t ep v s) := by
  intro s0 t ep v s h3; unfold execPubdlyClear; apply keep_regWrite; assumption

theorem keep_execSlvCntClr : ∀ (s0 : State) (t : Time) (ep : Lane) (v : Word) (s : State), Keep s0 s → KeepOut s0 (execSlvCntClr t ep v s) := by
  intro s0 t ep v s h3; unfold execSlvCntClr; apply keep_regWrite; assumption

theorem keep_execFusCntClr : ∀ (s0 : State) (t : Time) (ep : Lane) (v : Word) (s : State), Keep s0 s → KeepOut s0 (execFusCntClr t ep v s) := by
  intro s0 t ep v s h3; unfold execFusCntClr; apply keep_regWrite; assumption

theorem keep_execGnbCntClr : ∀ (s0 : State) (t : Time) (ep : Lane) (v : Word) (s : State), Keep s0 s → KeepOut s0 (execGnbCntClr t ep v s) := by
  intro s0 t ep v s h3; unfold execGnbCntClr; apply keep_regWrite; assumption

theorem keep_execMetCntClr : ∀ (s0 : State) (t : Time) (ep : Lane) (v : Word) (s : State), Keep s0 s → KeepOut s0 (execMetCntClr t ep v s) := by
  intro s0 t ep v s h3; unfold execMetCntClr; apply keep_regWrite; assumption

theorem keep_execLpeCntClr : ∀ (s0 : State) (t : Time) (ep : Lane) (v : Word) (s : State), Keep s0 s → KeepOut s0 (execLpeCntClr t ep v s) := by
  intro s0 t ep v s h3; unfold execLpeCntClr; apply keep_regWrite; assumption

theorem keep_execKprCntClr : ∀ (s0 : State) (t : Time) (ep : Lane) (v : Word) (s : State), Keep s0 s → KeepOut s0 (execKprCntClr t ep v s) := by
  intro s0 t ep v s h3; unfold execKprCntClr; apply keep_regWrite; assumption

theorem keep_execTmbCntClr : ∀ (s0 : State) (t : Time) (ep : Lane) (v : Word) (s : State), Keep s0 s → KeepOut s0 (execTmbCntClr t ep v s) := by
  intro s0 t ep v s h3; unfold execTmbCntClr; apply keep_regWrite; assumption

theorem keep_execHriCntClr : ∀ (s0 : State) (t : Time) (ep : Lane) (v : Word) (s : State), Keep s0 s → KeepOut s0 (execHriCntClr t ep v s) := by
  intro s0 t ep v s h3; unfold execHriCntClr; apply keep_regWrite; assumption

theorem keep_execSerCntClr : ∀ (s0 : State) (t : Time) (ep : Lane) (v : Word) (s : State), Keep s0 s → KeepOut s0 (execSerCntClr t ep v s) := by
  intro s0 t ep v s h3; unfold execSerCntClr; apply keep_regWrite; assumption

theorem keep_execTndCntClr : ∀ (s0 : State) (t : Time) (ep : Lane) (v : Word) (s : State), Keep s0 s → KeepOut s0 (execTndCntClr t ep v s) := by
  intro s0 t ep v s h3; unfold execTndCntClr; apply keep_regWrite; assumption

theorem keep_execRecorderClear : ∀ (s0 : State) (t : Time) (ep : Lane) (v : Word) (s : State), Keep s0 s → KeepOut s0 (execRecorderClear t ep v s) := by
  intro s0 t ep v s h3; unfold execRecorderClear; apply keep_regWrite; assumption

theorem keep_execStepAccept : ∀ (s0 : State) (t : Time) (ep : Lane) (v : Word) (s : State), Keep s0 s → KeepOut s0 (execStepAccept t ep v s) := by
  intro s0 t ep v s h3; unfold execStepAccept; apply keep_regWrite; assumption

theorem keep_execTpStart : ∀ (s0 : State) (t : Time) (ep : Lane) (n : Nat) (v : Word) (s : State), Keep s0 s → KeepOut s0 (execTpStart t ep n v s) := by
  intro s0 t ep n v s h4; unfold execTpStart; apply keep_regWriteN; assumption

theorem keep_execTpStop : ∀ (s0 : State) (t : Time) (ep : Lane) (n : Nat) (v : Word) (s : State), Keep s0 s → KeepOut s0 (execTpStop t ep n v s) := by
  intro s0 t ep n v s h4; unfold execTpStop; apply keep_regWriteN; assumption

theorem keep_execApEnable : ∀ (s0 : State) (t : Time) (ep : Lane) (n : Nat) (v : Word) (s : State), Keep s0 s → KeepOut s0 (execApEnable t ep n v s) := by
  intro s0 t ep n v s h4; unfold execApEnable; apply keep_regWriteN; assumption

theorem keep_execApDisable : ∀ (s0 : State) (t : Time) (ep : Lane) (n : Nat) (v : Word) (s : State),
    Keep s0 s → KeepOut s0 (execApDisable t ep n v s) := by
  intro s0 t ep n v s h4; unfold execApDisable; apply keep_regWriteN; assumption

theorem keep_execMetSnapGo : ∀ (s0 : State) (t : Time) (ep : Lane) (v : Word) (s : State), Keep s0 s → KeepOut s0 (execMetSnapGo t ep v s) := by
  intro s0 t ep v s h3; unfold execMetSnapGo; apply keep_regWrite; assumption

theorem keep_execTraceArm : ∀ (s0 : State) (t : Time) (ep : Lane) (v : Word) (s : State), Keep s0 s → KeepOut s0 (execTraceArm t ep v s) := by
  intro s0 t ep v s h3; unfold execTraceArm; apply keep_regWrite; assumption

theorem keep_execTraceAbort : ∀ (s0 : State) (t : Time) (ep : Lane) (v : Word) (s : State), Keep s0 s → KeepOut s0 (execTraceAbort t ep v s) := by
  intro s0 t ep v s h3; unfold execTraceAbort; apply keep_regWrite; assumption

theorem keep_execRingEnable : ∀ (s0 : State) (t : Time) (ep : Lane) (n : Nat) (v : Word) (s : State),
    Keep s0 s → KeepOut s0 (execRingEnable t ep n v s) := by
  intro s0 t ep n v s h4; unfold execRingEnable; apply keep_regWriteN; assumption

theorem keep_execRingDisable : ∀ (s0 : State) (t : Time) (ep : Lane) (n : Nat) (v : Word) (s : State),
    Keep s0 s → KeepOut s0 (execRingDisable t ep n v s) := by
  intro s0 t ep n v s h4; unfold execRingDisable; apply keep_regWriteN; assumption

theorem keep_execCanEnable : ∀ (s0 : State) (t : Time) (ep : Lane) (c : Nat) (v : Word) (s : State),
    Keep s0 s → KeepOut s0 (execCanEnable t ep c v s) := by
  intro s0 t ep c v s h4; unfold execCanEnable; apply keep_regWriteN; assumption

theorem keep_execCanRecover : ∀ (s0 : State) (t : Time) (ep : Lane) (c : Nat) (v : Word) (s : State),
    Keep s0 s → KeepOut s0 (execCanRecover t ep c v s) := by
  intro s0 t ep c v s h4; unfold execCanRecover; apply keep_regWriteN; assumption

theorem keep_execMbcCounterClear : ∀ (s0 : State) (t : Time) (ep : Lane) (c : Nat) (v : Word) (s : State),
    Keep s0 s → KeepOut s0 (execMbcCounterClear t ep c v s) := by
  intro s0 t ep c v s h4; unfold execMbcCounterClear; apply keep_regWriteN; assumption

theorem keep_execTxreq : ∀ (s0 : State) (t : Time) (ep : Lane) (k : Nat) (v : Word) (s : State), Keep s0 s → KeepOut s0 (execTxreq t ep k v s) := by
  intro s0 t ep k v s h4; unfold execTxreq; apply keep_regWriteN; assumption

theorem keep_execTxAbort : ∀ (s0 : State) (t : Time) (ep : Lane) (k : Nat) (v : Word) (s : State), Keep s0 s → KeepOut s0 (execTxAbort t ep k v s) := by
  intro s0 t ep k v s h4; unfold execTxAbort; apply keep_regWriteN; assumption

theorem keep_execCalendarSet : ∀ (s0 : State) (t : Time) (ep : Lane) (v : Word) (k : Nat) (s : State),
    Keep s0 s → KeepOut s0 (execCalendarSet t ep v k s) := by
  intro s0 t ep v k s h4; unfold execCalendarSet; apply keep_runAny; assumption; intro y0 y1; apply keep_when; intro y2 y3
  apply keep_hostWrite; assumption; apply keep_rtcTicks; assumption

theorem keep_execSubsecondShift : ∀ (s0 : State) (t : Time) (ep : Lane) (v : Word) (k : Nat) (s : State),
    Keep s0 s → KeepOut s0 (execSubsecondShift t ep v k s) := by
  intro s0 t ep v k s h4; unfold execSubsecondShift; apply keep_runAny; assumption; intro y0 y1; apply keep_when; intro y2 y3
  apply keep_hostWrite; assumption; apply keep_rtcTicks; assumption

theorem keep_closeCycle : ∀ (s0 s : State), Keep s0 s → Keep s0 (closeCycle s) := by
  intro s0 s h0; unfold closeCycle; lift_lets; intro x0 x1; refine Keep.cut (P := Keep s0 x1) ?_ (fun hx1 => ?_); unfold x1
  apply keep_bothLanes; intro y2 y3 y4; apply keep_countLane; assumption; assumption; clear_value x1; intro x5
  refine Keep.cut (P := Keep s0 x5) ?_ (fun hx5 => ?_); unfold x5; split; apply Keep.ite; apply keep_forEach; intro y6 y7 y8
  apply keep_raise; assumption; assumption; assumption; assumption; clear_value x5; apply Keep.ite; apply Keep.mk'; assumption
  assumption

theorem keep_turnGrid : ∀ (s0 : State) (e : Time) (s : State), Keep s0 s → Keep s0 (turnGrid e s) := by
  intro s0 e s h
  unfold turnGrid
  extract_lets u c1 p ph tt
  have h1 : Keep s0 c1 := by
    unfold c1
    split
    · exact keep_setF _ _ _ _ _ (h.same rfl rfl)
    · exact h
  have h2 (n : Time) (x : Nat) (a b : Option Nat) : Keep s0 (tt n x a b c1) := keep_wrK _ _ _ (h1.same rfl rfl)
  split
  · exact keep_raise _ _ _ _ _ (h2 _ _ _ _)
  · exact h2 _ _ _ _
  · exact h2 _ _ _ _

theorem keep_takeEffect : ∀ (s0 : State) (o : PendOrd) (f : Auth → Auth) (e : Time) (s : State), Keep s0 s → Keep s0 (takeEffect o f e s) := by
  intro s0 o f e s h3; unfold takeEffect; apply keep_effected; apply keep_authChange; assumption

theorem keep_setPtr : ∀ (s0 : State) (net : Bool) (k : Nat) (s : State), Keep s0 s → Keep s0 (setPtr net k s) := by
  intro s0 net k s h5; unfold setPtr; apply keep_bothLanes; intro y0; intro y1; intro y2; apply keep_setF; assumption
  apply Keep.mk'; assumption

theorem keep_swapBank : ∀ (s0 : State) (l : Lane) (net : Bool) (k : Nat) (s : State), Keep s0 s → Keep s0 (swapBank l net k s) := by
  intro s0 l net k s h6; unfold swapBank; lift_lets; intro x0; refine Keep.cut (P := Keep s0 x0) ?_ (fun hx0 => ?_); unfold x0
  apply Keep.ite; apply keep_setBankSt; assumption; assumption; clear_value x0; intro x1
  refine Keep.cut (P := Keep s0 x1) ?_ (fun hx1 => ?_); unfold x1; apply keep_setBankSt; apply keep_onBank; assumption
  clear_value x1; intro x2; refine Keep.cut (P := Keep s0 x2) ?_ (fun hx2 => ?_); unfold x2; apply keep_setPtr; assumption
  clear_value x2; intro x3; apply Keep.ite; assumption; apply keep_onSlv; apply keep_setF; apply Keep.mk'; assumption

theorem keep_actLate : ∀ (s0 : State) (l : Lane) (a : State), Keep s0 a → Keep s0 (actLate l a) := by
  intro s0 l _ h1; unfold actLate; apply keep_forEach; intro y0 y1 y2; apply Keep.ite; assumption; apply Keep.ite
  apply keep_swapBank; assumption; apply keep_onBank; assumption; assumption

theorem keep_applyArm : ∀ (s0 : State) (e : Time) (net : Bool) (k : Nat) (o : PendOrd) (s : State), Keep s0 s → Keep s0 (applyArm e net k o s) := by
  intro s0 e net k o s h4; unfold applyArm; split; assumption; lift_lets; intro x0 x1 x2
  refine Keep.cut (P := Keep s0 x2) ?_ (fun hx2 => ?_); unfold x2; apply keep_swapBank; assumption; clear_value x2; intro x3
  refine Keep.cut (P := Keep s0 x3) ?_ (fun hx3 => ?_); unfold x3; apply Keep.ite; apply keep_swapBank; assumption; assumption
  clear_value x3; apply keep_takeEffect; apply keep_when; intro y4 y5; apply keep_bothLanes; intro y6 y7 y8
  apply keep_clearGrids; assumption; assumption; assumption

theorem keep_setMode : ∀ (s0 : State) (m : Mode) (warm : Bool) (s : State), Keep s0 s → Keep s0 (setMode m warm s) := by
  intro s0 m warm s h2; unfold setMode; apply keep_setF; apply keep_setB; apply keep_setF; assumption

theorem keep_forgetFusion : ∀ (s0 a : State), Keep s0 a → Keep s0 (forgetFusion a) := by
  intro s0 _ h0; unfold forgetFusion; apply keep_bothLanes; intro y0 y1 y2; apply keep_onMir; assumption; assumption

theorem keep_stopFusion : ∀ (s0 : State) (l : Lane) (s : State), Keep s0 s → Keep s0 (stopFusion l s) := by
  intro s0 l s h1; unfold stopFusion; apply keep_showFus; apply keep_forgetFusion; apply keep_fusStop; assumption

theorem keep_changeMode : ∀ (s0 : State) (l : Lane) (m : Mode) (warm : Bool) (s : State), Keep s0 s → Keep s0 (changeMode l m warm s) := by
  intro s0 l m warm s h6; unfold changeMode; lift_lets; intro x0; intro x1; intro x2
  refine Keep.cut (P := Keep s0 x2) ?_ (fun hx2 => ?_); unfold x2; apply keep_setMode; assumption; clear_value x2; intro x3
  refine Keep.cut (P := Keep s0 x3) ?_ (fun hx3 => ?_); unfold x3; apply keep_when; intro y4; intro y5; apply keep_stopFusion
  assumption; assumption; clear_value x3; intro x6; refine Keep.cut (P := Keep s0 x6) ?_ (fun hx6 => ?_); unfold x6
  apply Keep.ite; apply keep_readyLanes; intro y7; intro y8; intro y9; apply keep_lpeStop; assumption; apply Keep.ite
  apply keep_authChange; assumption; assumption; assumption; clear_value x6; apply keep_bothLanes; intro y10; intro y11; intro y12
  apply keep_powerDown; assumption; apply Keep.ite; apply keep_readyLanes; intro y13; intro y14; intro y15; apply keep_lpeStart
  assumption; assumption; assumption

theorem keep_applyMode : ∀ (s0 : State) (e : Time) (m : Mode) (warm : Bool) (o : PendOrd) (s : State),
    Keep s0 s → Keep s0 (applyMode e m warm o s) := by
  intro s0 e m warm o s h7; unfold applyMode; split; assumption; lift_lets; intro x0; intro x1
  refine Keep.cut (P := Keep s0 x1) ?_ (fun hx1 => ?_); unfold x1; apply keep_endAutojoy; assumption; clear_value x1
  apply Keep.ite; apply keep_dropDoms; apply keep_authChange; apply keep_dropOrder; assumption; apply Keep.ite
  apply keep_dropDoms; apply keep_takeEffect; assumption; apply keep_takeEffect; apply keep_changeMode; assumption

theorem keep_fallbackJoy : ∀ (s0 s : State), Keep s0 s → Keep s0 (fallbackJoy s) := by
  intro s0 s h0; unfold fallbackJoy; lift_lets; intro x0 x1 x2; refine Keep.cut (P := Keep s0 x2) ?_ (fun hx2 => ?_); unfold x2
  apply Keep.ite; assumption; apply keep_authChange; apply keep_forEach; intro y3 y4 y5; apply keep_dropOrder; assumption
  assumption; clear_value x2; split; assumption; apply Keep.ite; assumption; apply keep_onFus; apply keep_raiseAlarm
  apply keep_setF; apply keep_setMode; assumption

theorem keep_nameTrust : ∀ (s0 : State) (l : Lane) (n : Nat) (s : State), Keep s0 s → Keep s0 (nameTrust l n s) := by
  intro s0 l n s h2; unfold nameTrust; lift_lets; intro x0 x1; apply keep_forEach; intro y2 y3 y4; dsimp only [x0]
  apply keep_unsuspect; apply keep_setF; apply keep_onFus; assumption; assumption

theorem keep_applyDatum : ∀ (s0 : State) (l : Lane) (old : Option Datum) (d : Datum) (s : State), Keep s0 s → Keep s0 (applyDatum l old d s) := by
  intro s0 l old d s h6; unfold applyDatum; lift_lets; intro x0; intro x1; intro x2; apply keep_clearGrids; apply keep_onFus
  assumption

theorem keep_setHolder : ∀ (s0 : State) (h : Option Nat) (e : Time) (s : State), Keep s0 s → Keep s0 (setHolder h e s) := by
  intro s0 h e s h2; unfold setHolder; lift_lets; intro x0; refine Keep.cut (P := Keep s0 x0) ?_ (fun hx0 => ?_); unfold x0
  apply keep_closeExpert; assumption; clear_value x0; intro x1 x2; refine Keep.cut (P := Keep s0 x2) ?_ (fun hx2 => ?_)
  unfold x2; apply Keep.ite; apply Keep.mk'; assumption; assumption; clear_value x2; intro x3; apply Keep.mk'; assumption

theorem keep_applyOrder : ∀ (s0 : State) (e : Time) (o : PendOrd) (s : State), Keep s0 s → Keep s0 (applyOrder e o s) := by
  intro s0 e o s h2; unfold applyOrder; split; apply keep_applyArm; assumption; apply keep_applyMode; assumption
  apply keep_takeEffect; assumption; lift_lets; intro x0; refine Keep.cut (P := Keep s0 x0) ?_ (fun hx0 => ?_); unfold x0
  apply keep_takeEffect; assumption; clear_value x0; split; apply keep_showFus; split; apply Keep.ite; apply keep_nameTrust
  assumption; assumption; assumption; assumption; lift_lets; intro x1; refine Keep.cut (P := Keep s0 x1) ?_ (fun hx1 => ?_)
  unfold x1; apply keep_takeEffect; assumption; clear_value x1; split; apply keep_showFus; apply keep_applyDatum; assumption
  assumption; apply keep_takeEffect; apply keep_setHolder; assumption; assumption; assumption

theorem keep_applyRank : ∀ (s0 : State) (e : Time) (r : Nat) (s : State), Keep s0 s → Keep s0 (applyRank e r s) := by
  intro s0 e r s h2; unfold applyRank; apply keep_forEach; intro y0 y1 y2; apply Keep.ite; apply keep_applyOrder; assumption
  assumption; assumption

theorem keep_applyTransfer : ∀ (s0 : State) (e : Time) (s : State), Keep s0 s → Keep s0 (applyTransfer e s) := by
  intro s0 e s h1; unfold applyTransfer; lift_lets; intro x0; refine Keep.cut (P := Keep s0 x0) ?_ (fun hx0 => ?_); unfold x0
  split; apply Keep.ite; apply keep_forEach; intro y1 y2 y3; apply keep_effected; assumption; apply keep_authChange
  apply keep_setHolder; assumption; assumption; assumption; clear_value x0; split; apply keep_authChange; assumption; assumption

theorem keep_applyOrders : ∀ (s0 : State) (e : Time) (s : State), Keep s0 s → Keep s0 (applyOrders e s) := by
  intro s0 e s h4; unfold applyOrders; apply Keep.ite; assumption; apply keep_applyTransfer; apply keep_applyRank
  apply keep_applyRank; apply keep_applyRank; apply keep_fallbackJoy; apply keep_applyRank; apply keep_applyRank; assumption

theorem keep_putRefIn : ∀ (s0 : State) (l : Lane) (n : Nat) (r : RefIn) (a : State), Keep s0 a → Keep s0 (putRefIn l n r a) := by
  intro s0 l n r _ h3; unfold putRefIn; apply keep_onFus; assumption

theorem keep_latchGnss : ∀ (s0 : State) (l : Lane) (e : Time) (s : State), Keep s0 s → Keep s0 (latchGnss l e s) := by
  intro s0 l e s h
  unfold latchGnss
  have h1 := keep_onFus s0 l (fun f => { f with latched := f.latched.filter (fun x => x.1 ≠ 0) }) _ h
  have h2 : Keep s0 (match (s.lane l).gnb.fix with
      | some (x, at') => if at' = e then putRefIn l 0 ⟨e, 1, x.lat, x.lon, F64.to32 (fixStd x (((datumOf s l).map (·.azi)).getD 0#64)).1,
          F64.to32 (fixStd x (((datumOf s l).map (·.azi)).getD 0#64)).2⟩ (onFus l (fun f => { f with latched := f.latched.filter (fun x => x.1 ≠ 0) }) s)
        else onFus l (fun f => { f with latched := f.latched.filter (fun x => x.1 ≠ 0) }) s
      | none => onFus l (fun f => { f with latched := f.latched.filter (fun x => x.1 ≠ 0) }) s) := by
    split
    · exact Keep.ite (keep_putRefIn _ _ _ _ _ h1) h1
    · exact h1
  dsimp only
  split
  · exact keep_putRefIn _ _ _ _ _ h2
  · exact h2

theorem keep_latchSerial : ∀ (s0 : State) (l : Lane) (e : Time) (c : Nat × RefCfg) (s : State), Keep s0 s → Keep s0 (latchSerial l e c s) := by
  intro s0 l e c s h6; unfold latchSerial; apply Keep.ite; assumption; lift_lets; intro x0; intro x1
  refine Keep.cut (P := Keep s0 x1) ?_ (fun hx1 => ?_); unfold x1; split; apply keep_putRefIn; assumption; assumption
  clear_value x1; split; apply keep_putRefIn; assumption; assumption

theorem keep_latchMotion : ∀ (s0 : State) (l : Lane) (e : Time) (s : State), Keep s0 s → Keep s0 (latchMotion l e s) := by
  intro s0 l e s h5; unfold latchMotion; lift_lets; intro x0; apply keep_onFus; assumption

theorem keep_latchPosted : ∀ (s0 : State) (l : Lane) (e : Time) (s : State), Keep s0 s → Keep s0 (latchPosted l e s) := by
  intro s0 l e s h2; unfold latchPosted; lift_lets; intro x0 x1; refine Keep.cut (P := Keep s0 x1) ?_ (fun hx1 => ?_); unfold x1
  apply keep_onFus; assumption; clear_value x1; apply keep_forEach; intro y2 y3 y4; apply keep_putRefIn; assumption; assumption

theorem keep_latchRefs : ∀ (s0 : State) (e : Time) (l : Lane) (s : State), Keep s0 s → Keep s0 (latchRefs e l s) := by
  intro s0 e l s h5; unfold latchRefs; apply keep_latchMotion; apply keep_latchPosted; apply keep_forEach; intro y0; intro y1
  intro y2; apply keep_latchSerial; assumption; apply keep_latchGnss; assumption

theorem keep_swapRoles : ∀ (s0 : State) (m : Lane) (s : State), Keep s0 s → Keep s0 (swapRoles m s) := by
  intro s0 m s h1; unfold swapRoles; lift_lets; intro x0 x1; refine Keep.cut (P := Keep s0 x1) ?_ (fun hx1 => ?_); unfold x1
  apply keep_roleMove; apply Keep.mk'; assumption; clear_value x1; intro x2
  refine Keep.cut (P := Keep s0 x2) ?_ (fun hx2 => ?_); unfold x2; apply keep_onMir; apply keep_onFus; apply keep_onMir
  assumption; clear_value x2; intro x3; refine Keep.cut (P := Keep s0 x3) ?_ (fun hx3 => ?_); unfold x3; apply keep_adoptLoops
  apply Keep.mk'; assumption; clear_value x3; apply keep_setF; apply Keep.mk'; assumption

theorem keep_applySwap : ∀ (s0 : State) (e : Time) (n : Word) (s : State), Keep s0 s → Keep s0 (applySwap e n s) := by
  intro s0 e n s h5; unfold applySwap; split; lift_lets; intro x0; split; apply keep_swapRoles; apply keep_forEach; intro y1
  intro y2; intro y3; apply keep_takeEffect; assumption; assumption; apply Keep.ite; apply keep_authChange; apply keep_dropOrder
  assumption; apply keep_authChange; assumption; assumption; assumption

theorem keep_latchCfg : ∀ (s0 s : State), Keep s0 s → Keep s0 (latchCfg s) := by
  intro s0 s h0; unfold latchCfg; apply Keep.mk'; assumption

theorem keep_latchSlv : ∀ (s0 : State) (e : Time) (l : Lane) (s : State), Keep s0 s → Keep s0 (latchSlv e l s) := by
  intro s0 e l s h2; unfold latchSlv; lift_lets; intro x0; apply keep_onSlv; assumption

theorem keep_startFusion : ∀ (s0 s : State), Keep s0 s → Keep s0 (startFusion s) := by
  intro s0 s h0; unfold startFusion; split; apply Keep.ite; apply keep_fusStart; apply keep_forgetFusion; assumption; assumption
  assumption

theorem keep_beginCycle : ∀ (s0 : State) (e : Time) (s : State), Keep s0 s → Keep s0 (beginCycle e s) := by
  intro s0 e s h1; unfold beginCycle; lift_lets; intro x0 x1 x2; apply keep_bothLanes; intro y3 y4 y5; apply keep_onKpr
  assumption; apply Keep.mk'; assumption

theorem keep_gnssEpoch : ∀ (s0 : State) (e : Time) (was : Mode) (ga gb : EpochIn) (s : State), Keep s0 s → Keep s0 (gnssEpoch e was ga gb s) := by
  intro s0 e was ga gb s h4; unfold gnssEpoch; lift_lets; intro x0 x1 x2; refine Keep.cut (P := Keep s0 x2) ?_ (fun hx2 => ?_)
  unfold x2; apply Keep.mk'; assumption; clear_value x2; apply keep_showIfen; apply keep_readyLanes; intro y3 y4 y5
  apply keep_gnbEpoch; assumption; assumption

theorem keep_epoch : ∀ (s0 : State) (e : Time) (ga gb : EpochIn) (s : State), Keep s0 s → Keep s0 (epoch e ga gb s) := by
  intro s0 e ga gb s h6; unfold epoch; lift_lets; intro x0; intro x1; intro x2
  refine Keep.cut (P := Keep s0 x2) ?_ (fun hx2 => ?_); unfold x2; apply keep_when; intro y3; intro y4; apply keep_incF
  assumption; apply keep_wrK; apply keep_turnGrid; apply keep_closeCycle; assumption; clear_value x2; intro x5
  refine Keep.cut (P := Keep s0 x5) ?_ (fun hx5 => ?_); unfold x5; apply keep_applyOrders; apply keep_readyLanes; intro y6
  intro y7; intro y8; apply keep_actLate; assumption; assumption; clear_value x5; intro x9
  refine Keep.cut (P := Keep s0 x9) ?_ (fun hx9 => ?_); unfold x9; apply keep_readyLanes; intro y10; intro y11; intro y12
  apply keep_latchRefs; assumption; apply keep_gnssEpoch; assumption; clear_value x9; intro x13
  refine Keep.cut (P := Keep s0 x13) ?_ (fun hx13 => ?_); unfold x13; apply keep_startFusion; apply keep_bothLanes; intro y14
  intro y15; intro y16; apply keep_admitLane; assumption; apply keep_applySwap; assumption; clear_value x13; intro x17
  refine Keep.cut (P := Keep s0 x17) ?_ (fun hx17 => ?_); unfold x17; apply keep_beginCycle; apply keep_readyLanes; intro y18
  intro y19; intro y20; apply keep_latchSlv; assumption; apply keep_latchCfg; assumption; clear_value x17; apply keep_intakeEarly
  apply keep_updEpoch; apply keep_showSeq; apply keep_ringEpoch; apply keep_sweep; assumption

theorem keep_execEpoch : ∀ (s0 : State) (t : Time) (ga gb : EpochIn) (s : State), Keep s0 s → KeepOut s0 (execEpoch t ga gb s) := by
  intro s0 t ga gb s h3; unfold execEpoch; apply keep_run; assumption; intro y0 y1; apply Keep.ite; assumption; apply keep_epoch
  assumption

end Sys2Proof.Machine
end

