-- ==== Sys2Proof/Laws/Step.lean ====
section
/-!
SUPPORT. Every command, and the step, keep the queue behind the command taken and the canonical register file.
-/

namespace Sys2Proof.Machine

/-- Every command leaves the queue as it was and keeps the register file canonical. -/
theorem keep_exec : ∀ (s0 : State) (i : Instr) (s : State), Keep s0 s → KeepOut s0 (exec i s) := by
  intro s0 i s h
  match i with
  | .epoch t ga gb => apply keep_execEpoch <;> assumption
  | .pllWake t l e => apply keep_execPllWake <;> assumption
  | .intakeClose t => apply keep_execIntakeClose <;> assumption
  | .fusionEnd t => apply keep_execFusionEnd <;> assumption
  | .mirrorWindowOpen t => apply keep_execMirrorWindowOpen <;> assumption
  | .mirrorWindowClose t => apply keep_execMirrorWindowClose <;> assumption
  | .deadline t => apply keep_execDeadline <;> assumption
  | .fusionComplete t => apply keep_execFusionComplete <;> assumption
  | .asmBudget t => apply keep_execAsmBudget <;> assumption
  | .asmEnd t q => apply keep_execAsmEnd <;> assumption
  | .ldm t q => apply keep_execLdm <;> assumption
  | .lds t q => apply keep_execLds <;> assumption
  | .ldp t q => apply keep_execLdp <;> assumption
  | .itp t q => apply keep_execItp <;> assumption
  | .mad t q => apply keep_execMad <;> assumption
  | .fop t q => apply keep_execFop <;> assumption
  | .cmp t q => apply keep_execCmp <;> assumption
  | .lda t q => apply keep_execLda <;> assumption
  | .loop t q => apply keep_execLoop <;> assumption
  | .brq t q => apply keep_execBrq <;> assumption
  | .sct t q => apply keep_execSct <;> assumption
  | .vst t q => apply keep_execVst <;> assumption
  | .bnd t q => apply keep_execBnd <;> assumption
  | .rtl t q => apply keep_execRtl <;> assumption
  | .sig t q => apply keep_execSig <;> assumption
  | .bar t n kind => apply keep_execBar <;> assumption
  | .pan t n sb sld scol db dld dcol => apply keep_execPan <;> assumption
  | .bld t n dst src len zero => apply keep_execBld <;> assumption
  | .dad t n c cnt f0 f1 f2 => apply keep_execDad <;> assumption
  | .gmt t n m nn k ar br kc cr cc lower => apply keep_execGmt <;> assumption
  | .pvs t n cnt c h mask => apply keep_execPvs <;> assumption
  | .tsl t n cnt c => apply keep_execTsl <;> assumption
  | .tsu t n cnt c => apply keep_execTsu <;> assumption
  | .dsc t n row cnt => apply keep_execDsc <;> assumption
  | .gmv t n m k ar kc tt tr pool => apply keep_execGmv <;> assumption
  | .sca t n src p len zero => apply keep_execSca <;> assumption
  | .rfn t n f0 f1 f2 => apply keep_execRfn <;> assumption
  | .iterationComplete t => apply keep_execIterationComplete <;> assumption
  | .allocationPublished t => apply keep_execAllocationPublished <;> assumption
  | .packageVerified t l kind bank => apply keep_execPackageVerified <;> assumption
  | .mirrorFrame t f => apply keep_execMirrorFrame <;> assumption
  | .mirrorAck t ver cyc crcOk => apply keep_execMirrorAck <;> assumption
  | .loopMirror t => apply keep_execLoopMirror <;> assumption
  | .watchWordSend t l => apply keep_execWatchWordSend <;> assumption
  | .watchWord t l w => apply keep_execWatchWord <;> assumption
  | .keeperSlot t d => apply keep_execKeeperSlot <;> assumption
  | .takeoverPublication t => apply keep_execTakeoverPublication <;> assumption
  | .failedLaneReset t l => apply keep_execFailedLaneReset <;> assumption
  | .pubCheck t => apply keep_execPubCheck <;> assumption
  | .loopOutputReport t l => apply keep_execLoopOutputReport <;> assumption
  | .metrologyTotalReport t l => apply keep_execMetrologyTotalReport <;> assumption
  | .mlinkTimeout t => apply keep_execMlinkTimeout <;> assumption
  | .keeperWord t l role => apply keep_execKeeperWord <;> assumption
  | .keeperWordTimeout t l => apply keep_execKeeperWordTimeout <;> assumption
  | .keeperRestart t => apply keep_execKeeperRestart <;> assumption
  | .preferredLaneTimeout t => apply keep_execPreferredLaneTimeout <;> assumption
  | .admissionTimeout t l => apply keep_execAdmissionTimeout <;> assumption
  | .laneFatalFault t l bit => apply keep_execLaneFatalFault <;> assumption
  | .referenceOscillatorLoss t l => apply keep_execReferenceOscillatorLoss <;> assumption
  | .prpFrame t lanB src rct => apply keep_execPrpFrame <;> assumption
  | .prpSupervision t => apply keep_execPrpSupervision <;> assumption
  | .nodeForget t mac => apply keep_execNodeForget <;> assumption
  | .syncFrame t port f => apply keep_execSyncFrame <;> assumption
  | .exchFrame t port f => apply keep_execExchFrame <;> assumption
  | .ringMirrorFrame t port f it => apply keep_execRingMirrorFrame <;> assumption
  | .arbFrame t port f => apply keep_execArbFrame <;> assumption
  | .grantFrame t port f => apply keep_execGrantFrame <;> assumption
  | .probeFrame t port f => apply keep_execProbeFrame <;> assumption
  | .exchangeSlot t => apply keep_execExchangeSlot <;> assumption
  | .probeTimer t => apply keep_execProbeTimer <;> assumption
  | .syncLoss t => apply keep_execSyncLoss <;> assumption
  | .ringMemberExpiry t m => apply keep_execRingMemberExpiry <;> assumption
  | .arbTimer t => apply keep_execArbTimer <;> assumption
  | .activeModuleAbsence t => apply keep_execActiveModuleAbsence <;> assumption
  | .quorumTimeout t => apply keep_execQuorumTimeout <;> assumption
  | .clockWord t l pairOk => apply keep_execClockWord <;> assumption
  | .timebasePllLock t l => apply keep_execTimebasePllLock <;> assumption
  | .ptpSync t n m => apply keep_execPtpSync <;> assumption
  | .ptpFollowUp t n m => apply keep_execPtpFollowUp <;> assumption
  | .ptpDelayReq t n m => apply keep_execPtpDelayReq <;> assumption
  | .ptpDelayResp t n m => apply keep_execPtpDelayResp <;> assumption
  | .ptpPdelayReq t n m => apply keep_execPtpPdelayReq <;> assumption
  | .ptpPdelayResp t n m => apply keep_execPtpPdelayResp <;> assumption
  | .ptpPdelayRespFollowUp t n m => apply keep_execPtpPdelayRespFollowUp <;> assumption
  | .ptpAnnounce t n a => apply keep_execPtpAnnounce <;> assumption
  | .ptpSignaling t n m => apply keep_execPtpSignaling <;> assumption
  | .ptpManagement t n m action id => apply keep_execPtpManagement <;> assumption
  | .ptpTxInterval t n k => apply keep_execPtpTxInterval <;> assumption
  | .ptpSyncTimeout t n => apply keep_execPtpSyncTimeout <;> assumption
  | .gnssReferenceLoss t l => apply keep_execGnssReferenceLoss <;> assumption
  | .holdoverExit t l => apply keep_execHoldoverExit <;> assumption
  | .timeStep t => apply keep_execTimeStep <;> assumption
  | .rtcFirstSecond t k => apply keep_execRtcFirstSecond <;> assumption
  | .tpPulseStart t n => apply keep_execTpPulseStart <;> assumption
  | .tpPulseEnd t n => apply keep_execTpPulseEnd <;> assumption
  | .tpStart t ep n v => apply keep_execTpStart <;> assumption
  | .tpStop t ep n v => apply keep_execTpStop <;> assumption
  | .stepAccept t ep v => apply keep_execStepAccept <;> assumption
  | .tmbMtclRead t ep => apply keep_execTmbMtclRead <;> assumption
  | .tcEdge t n rise held => apply keep_execTcEdge <;> assumption
  | .tcFifoRead t ep n => apply keep_execTcFifoRead <;> assumption
  | .calendarSet t ep v k => apply keep_execCalendarSet <;> assumption
  | .subsecondShift t ep v k => apply keep_execSubsecondShift <;> assumption
  | .rtcAlarm t n k => apply keep_execRtcAlarm <;> assumption
  | .calendarRollover t k => apply keep_execCalendarRollover <;> assumption
  | .rtcCompensation t temp k => apply keep_execRtcCompensation <;> assumption
  | .rtcTracking t k => apply keep_execRtcTracking <;> assumption
  | .correlatorDump t l d => apply keep_execCorrelatorDump <;> assumption
  | .acqDetection t l ch d => apply keep_execAcqDetection <;> assumption
  | .pullinTimeout t l ch => apply keep_execPullinTimeout <;> assumption
  | .phaseLock t l ch => apply keep_execPhaseLock <;> assumption
  | .trackLoss t l ch => apply keep_execTrackLoss <;> assumption
  | .lostTimeout t l ch => apply keep_execLostTimeout <;> assumption
  | .ifPortFault t l n stuck => apply keep_execIfPortFault <;> assumption
  | .ifPortOk t l n => apply keep_execIfPortOk <;> assumption
  | .navigationMessageDecoded t l d => apply keep_execNavigationMessageDecoded <;> assumption
  | .snapshotCaptureEnd t l x => apply keep_execSnapshotCaptureEnd <;> assumption
  | .snapshotProcessed t l => apply keep_execSnapshotProcessed <;> assumption
  | .apFrame t l n bits => apply keep_execApFrame <;> assumption
  | .apLineTimeout t l n => apply keep_execApLineTimeout <;> assumption
  | .apPhaseFound t l n => apply keep_execApPhaseFound <;> assumption
  | .apEnable t ep n v => apply keep_execApEnable <;> assumption
  | .apDisable t ep n v => apply keep_execApDisable <;> assumption
  | .channelSettle t l ch => apply keep_execChannelSettle <;> assumption
  | .metrologySample t l => apply keep_execMetrologySample <;> assumption
  | .pulseEnd t l n => apply keep_execPulseEnd <;> assumption
  | .billingSave t => apply keep_execBillingSave <;> assumption
  | .rangeMatchWindow t l ch => apply keep_execRangeMatchWindow <;> assumption
  | .metSnapGo t ep v => apply keep_execMetSnapGo <;> assumption
  | .loopSample t l slot tk => apply keep_execLoopSample <;> assumption
  | .traceArm t ep v => apply keep_execTraceArm <;> assumption
  | .traceAbort t ep v => apply keep_execTraceAbort <;> assumption
  | .streamPacket t sp dport payload => apply keep_execStreamPacket <;> assumption
  | .doorbell t ep ofs v => apply keep_execDoorbell <;> assumption
  | .ringEnable t ep n v => apply keep_execRingEnable <;> assumption
  | .ringDisable t ep n v => apply keep_execRingDisable <;> assumption
  | .interruptModeration t l n => apply keep_execInterruptModeration <;> assumption
  | .perst t l => apply keep_execPerst <;> assumption
  | .stationDatagram t src dst sport hdr copies => apply keep_execStationDatagram <;> assumption
  | .mode t o => apply keep_execMode <;> assumption
  | .setpoint t o => apply keep_execSetpoint <;> assumption
  | .arm t o => apply keep_execArm <;> assumption
  | .disarm t o => apply keep_execDisarm <;> assumption
  | .loopMode t o => apply keep_execLoopMode <;> assumption
  | .loopMan t o => apply keep_execLoopMan <;> assumption
  | .loopSp t o => apply keep_execLoopSp <;> assumption
  | .loopBank t o => apply keep_execLoopBank <;> assumption
  | .trust t o => apply keep_execTrust <;> assumption
  | .trustclr t o => apply keep_execTrustclr <;> assumption
  | .datum t o => apply keep_execDatum <;> assumption
  | .swap t o => apply keep_execSwap <;> assumption
  | .laneReset t o => apply keep_execLaneReset <;> assumption
  | .lifecycle t o => apply keep_execLifecycle <;> assumption
  | .seal t o => apply keep_execSeal <;> assumption
  | .fwActivate t o => apply keep_execFwActivate <;> assumption
  | .fwCancel t o => apply keep_execFwCancel <;> assumption
  | .request t o => apply keep_execRequest <;> assumption
  | .grant t o => apply keep_execGrant <;> assumption
  | .deny t o => apply keep_execDeny <;> assumption
  | .release t o => apply keep_execRelease <;> assumption
  | .keepalive t o => apply keep_execKeepalive <;> assumption
  | .expertOn t o => apply keep_execExpertOn <;> assumption
  | .expertOff t o => apply keep_execExpertOff <;> assumption
  | .authorityRequestTimeout t => apply keep_execAuthorityRequestTimeout <;> assumption
  | .holderSilence t => apply keep_execHolderSilence <;> assumption
  | .expertSessionTimeout t => apply keep_execExpertSessionTimeout <;> assumption
  | .dispatch t o => apply keep_execDispatch <;> assumption
  | .postReference t o => apply keep_execPostReference <;> assumption
  | .aidNav t o b => apply keep_execAidNav <;> assumption
  | .aidPos t o => apply keep_execAidPos <;> assumption
  | .event t o => apply keep_execEvent <;> assumption
  | .loadModel t o b => apply keep_execLoadModel <;> assumption
  | .loadNetwork t o b => apply keep_execLoadNetwork <;> assumption
  | .loadFirmware t o b => apply keep_execLoadFirmware <;> assumption
  | .loadSafety t o b => apply keep_execLoadSafety <;> assumption
  | .configItem t o b => apply keep_execConfigItem <;> assumption
  | .snapshotMetro t o dmaOk => apply keep_execSnapshotMetro <;> assumption
  | .snapshotBlock t o dmaOk => apply keep_execSnapshotBlock <;> assumption
  | .grid t o dmaOk => apply keep_execGrid <;> assumption
  | .keyframe t o dmaOk => apply keep_execKeyframe <;> assumption
  | .gnbLoop t o => apply keep_execGnbLoop <;> assumption
  | .gnbPin t o => apply keep_execGnbPin <;> assumption
  | .gnbUnpin t o => apply keep_execGnbUnpin <;> assumption
  | .memRead t o dmaOk => apply keep_execMemRead <;> assumption
  | .canFrameReceived t c f => apply keep_execCanFrameReceived <;> assumption
  | .joystickOrderFrame t c f => apply keep_execJoystickOrderFrame <;> assumption
  | .joystickDemandFrame t c f => apply keep_execJoystickDemandFrame <;> assumption
  | .joystickDemandTimeout t => apply keep_execJoystickDemandTimeout <;> assumption
  | .canTxComplete t c k => apply keep_execCanTxComplete <;> assumption
  | .canTxFailure t c k x => apply keep_execCanTxFailure <;> assumption
  | .busOffRecovery t c => apply keep_execBusOffRecovery <;> assumption
  | .canRecover t ep c v => apply keep_execCanRecover <;> assumption
  | .mbcCounterClear t ep c v => apply keep_execMbcCounterClear <;> assumption
  | .canEnable t ep c v => apply keep_execCanEnable <;> assumption
  | .txreq t ep k v => apply keep_execTxreq <;> assumption
  | .txAbort t ep k v => apply keep_execTxAbort <;> assumption
  | .serialSentence t n fr ch => apply keep_execSerialSentence <;> assumption
  | .sentenceDatagram t grp rct payload => apply keep_execSentenceDatagram <;> assumption
  | .safetyCycle t x y => apply keep_execSafetyCycle <;> assumption
  | .testPulse t src lvl => apply keep_execTestPulse <;> assumption
  | .outputOffPulse t k b below => apply keep_execOutputOffPulse <;> assumption
  | .discrepancyTimeout t k => apply keep_execDiscrepancyTimeout <;> assumption
  | .category1DelayEnd t f => apply keep_execCategory1DelayEnd <;> assumption
  | .resetHeld t q => apply keep_execResetHeld <;> assumption
  | .edmTimeout t k => apply keep_execEdmTimeout <;> assumption
  | .requestStable t k => apply keep_execRequestStable <;> assumption
  | .requestHoldEnd t => apply keep_execRequestHoldEnd <;> assumption
  | .outputShortTrip t k b => apply keep_execOutputShortTrip <;> assumption
  | .romCheck t ok => apply keep_execRomCheck <;> assumption
  | .ramTest t ok => apply keep_execRamTest <;> assumption
  | .safetyConfigCheck t => apply keep_execSafetyConfigCheck <;> assumption
  | .islandSelfTest t xOk yOk pairOk => apply keep_execIslandSelfTest <;> assumption
  | .recordAppend t g => apply keep_execRecordAppend <;> assumption
  | .suppressionSecondEnd t => apply keep_execSuppressionSecondEnd <;> assumption
  | .recAnchor t => apply keep_execRecAnchor <;> assumption
  | .operatingSecond t => apply keep_execOperatingSecond <;> assumption
  | .recorderClear t ep v => apply keep_execRecorderClear <;> assumption
  | .dramPatrol t l f progress => apply keep_execDramPatrol <;> assumption
  | .ceRateHour t l => apply keep_execCeRateHour <;> assumption
  | .sramSweep t l mem f => apply keep_execSramSweep <;> assumption
  | .mramVerify t f => apply keep_execMramVerify <;> assumption
  | .flashLevelling t l src dst => apply keep_execFlashLevelling <;> assumption
  | .readDisturbRefresh t l blk => apply keep_execReadDisturbRefresh <;> assumption
  | .retentionPatrol t l weak => apply keep_execRetentionPatrol <;> assumption
  | .badBlockRetirement t l blk spare => apply keep_execBadBlockRetirement <;> assumption
  | .healthFrame t l die plate => apply keep_execHealthFrame <;> assumption
  | .oscillatorRecord t l mean => apply keep_execOscillatorRecord <;> assumption
  | .laneReferenceCheck t l ppb => apply keep_execLaneReferenceCheck <;> assumption
  | .tenderBehind t l bit => apply keep_execTenderBehind <;> assumption
  | .supplyPresent t input mv q => apply keep_execSupplyPresent <;> assumption
  | .supplyLost t input mv1 mv2 => apply keep_execSupplyLost <;> assumption
  | .mrstTaken t => apply keep_execMrstTaken <;> assumption
  | .mrstRelease t q => apply keep_execMrstRelease <;> assumption
  | .mrstStuck t q => apply keep_execMrstStuck <;> assumption
  | .mrstUnmask t => apply keep_execMrstUnmask <;> assumption
  | .domainReady t l d => apply keep_execDomainReady <;> assumption
  | .dramWipeComplete t l => apply keep_execDramWipeComplete <;> assumption
  | .lanePowerRestore t l => apply keep_execLanePowerRestore <;> assumption
  | .plateHot t temp => apply keep_execPlateHot <;> assumption
  | .dieWarn t l => apply keep_execDieWarn <;> assumption
  | .dieProtection t l => apply keep_execDieProtection <;> assumption
  | .dieCooled t l => apply keep_execDieCooled <;> assumption
  | .backupLow t mv => apply keep_execBackupLow <;> assumption
  | .backupRecovered t mv => apply keep_execBackupRecovered <;> assumption
  | .lifecycleWipeComplete t => apply keep_execLifecycleWipeComplete <;> assumption
  | .firmwareVerified t l keeper slot => apply keep_execFirmwareVerified <;> assumption
  | .healthConfirmation t l => apply keep_execHealthConfirmation <;> assumption
  | .confirmationTimeout t l => apply keep_execConfirmationTimeout <;> assumption
  | .keeperImageConfirm t => apply keep_execKeeperImageConfirm <;> assumption
  | .keeperConfirmTimeout t => apply keep_execKeeperConfirmTimeout <;> assumption
  | .cycleSetApply t ep v => apply keep_execCycleSetApply <;> assumption
  | .pubdlyClear t ep v => apply keep_execPubdlyClear <;> assumption
  | .slvCntClr t ep v => apply keep_execSlvCntClr <;> assumption
  | .fusCntClr t ep v => apply keep_execFusCntClr <;> assumption
  | .gnbCntClr t ep v => apply keep_execGnbCntClr <;> assumption
  | .metCntClr t ep v => apply keep_execMetCntClr <;> assumption
  | .lpeCntClr t ep v => apply keep_execLpeCntClr <;> assumption
  | .kprCntClr t ep v => apply keep_execKprCntClr <;> assumption
  | .tmbCntClr t ep v => apply keep_execTmbCntClr <;> assumption
  | .hriCntClr t ep v => apply keep_execHriCntClr <;> assumption
  | .serCntClr t ep v => apply keep_execSerCntClr <;> assumption
  | .tndCntClr t ep v => apply keep_execTndCntClr <;> assumption
  | .registerWrite t ep off bytes v => apply keep_execRegisterWrite <;> assumption
  | .keeperFault t => apply keep_execKeeperFault <;> assumption
  | .tickMarkerLoss t l => apply keep_execTickMarkerLoss <;> assumption
  | .plateCooled t temp => apply keep_execPlateCooled <;> assumption
  | .arbiterLoss t => apply keep_execArbiterLoss <;> assumption
  | .canBusError t c eight => apply keep_execCanBusError <;> assumption
  | .serialLineBreak t n brk => apply keep_execSerialLineBreak <;> assumption
  | .ringLinkChange t port up => apply keep_execRingLinkChange <;> assumption
  | .backupExhausted t => apply keep_execBackupExhausted <;> assumption

end Sys2Proof.Machine
end

