-- ==== Sys2Proof/WellFormed.lean ====
section
/-!
DEFINITION. Which commands are well formed: every index names a unit, port, channel, slot or register the spec gives the block. The
meanings are total: they also say what happens for other terms (nothing, where the unit does not exist).
-/

namespace Sys2Proof

/-- A number in a range. -/
def inRange (lo hi v : Nat) : Bool := decide (lo ≤ v) && decide (v ≤ hi)

/-- Whether a command names only what exists. -/
def Instr.wellFormed (i : Instr) : Bool :=
  match i with
  | .epoch _ _ _ => true
  | .pllWake _ _ _ => true
  | .intakeClose _ => true
  | .fusionEnd _ => true
  | .mirrorWindowOpen _ => true
  | .mirrorWindowClose _ => true
  | .deadline _ => true
  | .fusionComplete _ => true
  | .asmBudget _ => true
  | .asmEnd _ _ => true
  | .ldm _ _ => true
  | .lds _ _ => true
  | .ldp _ _ => true
  | .itp _ _ => true
  | .mad _ _ => true
  | .fop _ _ => true
  | .cmp _ _ => true
  | .lda _ _ => true
  | .loop _ _ => true
  | .brq _ _ => true
  | .sct _ _ => true
  | .vst _ _ => true
  | .bnd _ _ => true
  | .rtl _ _ => true
  | .sig _ _ => true
  | .bar _ n kind => decide (n < 262144) && decide (kind < 5)
  | .pan _ n _ _ _ _ _ _ => decide (n < 262144)
  | .bld _ n _ _ _ _ => decide (n < 262144)
  | .dad _ n _ _ _ _ _ => decide (n < 262144)
  | .gmt _ n _ _ _ _ _ _ _ _ _ => decide (n < 262144)
  | .pvs _ n cnt _ _ _ => decide (n < 262144) && decide (cnt ≤ 64)
  | .tsl _ n _ _ => decide (n < 262144)
  | .tsu _ n _ _ => decide (n < 262144)
  | .dsc _ n _ _ => decide (n < 262144)
  | .gmv _ n _ _ _ _ _ _ _ => decide (n < 262144)
  | .sca _ n _ _ _ _ => decide (n < 262144)
  | .rfn _ n _ _ _ => decide (n < 262144)
  | .iterationComplete _ => true
  | .allocationPublished _ => true
  | .packageVerified _ _ _ bank => decide (bank < 2)
  | .mirrorFrame _ f => f.length == 276
  | .mirrorAck _ _ _ _ => true
  | .loopMirror _ => true
  | .watchWordSend _ _ => true
  | .watchWord _ _ _ => true
  | .keeperSlot _ _ => true
  | .takeoverPublication _ => true
  | .failedLaneReset _ _ => true
  | .pubCheck _ => true
  | .loopOutputReport _ _ => true
  | .metrologyTotalReport _ _ => true
  | .mlinkTimeout _ => true
  | .keeperWord _ _ _ => true
  | .keeperWordTimeout _ _ => true
  | .keeperRestart _ => true
  | .preferredLaneTimeout _ => true
  | .admissionTimeout _ _ => true
  | .laneFatalFault _ _ bit => inRange 8 13 bit
  | .referenceOscillatorLoss _ _ => true
  | .prpFrame _ _ _ _ => true
  | .prpSupervision _ => true
  | .nodeForget _ _ => true
  | .syncFrame _ _ _ => true
  | .exchFrame _ _ _ => true
  | .ringMirrorFrame _ _ _ _ => true
  | .arbFrame _ _ _ => true
  | .grantFrame _ _ _ => true
  | .probeFrame _ _ _ => true
  | .exchangeSlot _ => true
  | .probeTimer _ => true
  | .syncLoss _ => true
  | .ringMemberExpiry _ m => decide (m < 1023)
  | .arbTimer _ => true
  | .activeModuleAbsence _ => true
  | .quorumTimeout _ => true
  | .clockWord _ _ _ => true
  | .timebasePllLock _ _ => true
  | .ptpSync _ n _ => decide (n < 8)
  | .ptpFollowUp _ n _ => decide (n < 8)
  | .ptpDelayReq _ n _ => decide (n < 8)
  | .ptpDelayResp _ n _ => decide (n < 8)
  | .ptpPdelayReq _ n _ => decide (n < 8)
  | .ptpPdelayResp _ n _ => decide (n < 8)
  | .ptpPdelayRespFollowUp _ n _ => decide (n < 8)
  | .ptpAnnounce _ n _ => decide (n < 8)
  | .ptpSignaling _ n _ => decide (n < 8)
  | .ptpManagement _ n _ _ _ => decide (n < 8)
  | .ptpTxInterval _ n _ => decide (n < 8)
  | .ptpSyncTimeout _ n => decide (n < 8)
  | .gnssReferenceLoss _ _ => true
  | .holdoverExit _ _ => true
  | .timeStep _ => true
  | .rtcFirstSecond _ _ => true
  | .tpPulseStart _ n => decide (n < 4)
  | .tpPulseEnd _ n => decide (n < 4)
  | .tpStart _ _ n _ => decide (n < 4)
  | .tpStop _ _ n _ => decide (n < 4)
  | .stepAccept _ _ _ => true
  | .tmbMtclRead _ _ => true
  | .tcEdge _ n _ _ => decide (n < 8)
  | .tcFifoRead _ _ n => decide (n < 8)
  | .calendarSet _ _ _ _ => true
  | .subsecondShift _ _ _ _ => true
  | .rtcAlarm _ n _ => decide (n < 2)
  | .calendarRollover _ _ => true
  | .rtcCompensation _ _ _ => true
  | .rtcTracking _ _ => true
  | .correlatorDump _ _ _ => true
  | .acqDetection _ _ ch _ => decide (ch < 160)
  | .pullinTimeout _ _ ch => decide (ch < 160)
  | .phaseLock _ _ ch => decide (ch < 160)
  | .trackLoss _ _ ch => decide (ch < 160)
  | .lostTimeout _ _ ch => decide (ch < 160)
  | .ifPortFault _ _ n _ => decide (n < 4)
  | .ifPortOk _ _ n => decide (n < 4)
  | .navigationMessageDecoded _ _ _ => true
  | .snapshotCaptureEnd _ _ _ => true
  | .snapshotProcessed _ _ => true
  | .apFrame _ _ n _ => decide (n < 24)
  | .apLineTimeout _ _ n => decide (n < 24)
  | .apPhaseFound _ _ n => decide (n < 24)
  | .apEnable _ _ n _ => decide (n < 24)
  | .apDisable _ _ n _ => decide (n < 24)
  | .channelSettle _ _ ch => decide (ch < 192)
  | .metrologySample _ _ => true
  | .pulseEnd _ _ n => decide (n < 8)
  | .billingSave _ => true
  | .rangeMatchWindow _ _ ch => decide (ch < 192)
  | .metSnapGo _ _ _ => true
  | .loopSample _ _ slot _ => decide (slot < 256)
  | .traceArm _ _ _ => true
  | .traceAbort _ _ _ => true
  | .streamPacket _ sp dport _ => decide (sp < 4) && decide (dport < 65536)
  | .doorbell _ _ ofs _ => decide (ofs < 65536)
  | .ringEnable _ _ n _ => decide (n < 64)
  | .ringDisable _ _ n _ => decide (n < 64)
  | .interruptModeration _ _ n => decide (n < 64)
  | .perst _ _ => true
  | .stationDatagram _ _ _ sport _ copies => decide (sport < 65536) && inRange 1 2 copies
  | .mode _ _ => true
  | .setpoint _ _ => true
  | .arm _ _ => true
  | .disarm _ _ => true
  | .loopMode _ _ => true
  | .loopMan _ _ => true
  | .loopSp _ _ => true
  | .loopBank _ _ => true
  | .trust _ _ => true
  | .trustclr _ _ => true
  | .datum _ _ => true
  | .swap _ _ => true
  | .laneReset _ _ => true
  | .lifecycle _ _ => true
  | .seal _ _ => true
  | .fwActivate _ _ => true
  | .fwCancel _ _ => true
  | .request _ _ => true
  | .grant _ _ => true
  | .deny _ _ => true
  | .release _ _ => true
  | .keepalive _ _ => true
  | .expertOn _ _ => true
  | .expertOff _ _ => true
  | .authorityRequestTimeout _ => true
  | .holderSilence _ => true
  | .expertSessionTimeout _ => true
  | .dispatch _ _ => true
  | .postReference _ _ => true
  | .aidNav _ _ _ => true
  | .aidPos _ _ => true
  | .event _ _ => true
  | .loadModel _ _ _ => true
  | .loadNetwork _ _ _ => true
  | .loadFirmware _ _ _ => true
  | .loadSafety _ _ _ => true
  | .configItem _ _ _ => true
  | .snapshotMetro _ _ _ => true
  | .snapshotBlock _ _ _ => true
  | .grid _ _ _ => true
  | .keyframe _ _ _ => true
  | .gnbLoop _ _ => true
  | .gnbPin _ _ => true
  | .gnbUnpin _ _ => true
  | .memRead _ _ _ => true
  | .canFrameReceived _ c _ => decide (c < 4)
  | .joystickOrderFrame _ c _ => decide (c < 4)
  | .joystickDemandFrame _ c _ => decide (c < 4)
  | .joystickDemandTimeout _ => true
  | .canTxComplete _ c k => decide (c < 4) && decide (k < 512)
  | .canTxFailure _ c k _ => decide (c < 4) && decide (k < 512)
  | .busOffRecovery _ c => decide (c < 4)
  | .canRecover _ _ c _ => decide (c < 4)
  | .mbcCounterClear _ _ c _ => decide (c < 4)
  | .canEnable _ _ c _ => decide (c < 4)
  | .txreq _ _ k _ => decide (k < 512)
  | .txAbort _ _ k _ => decide (k < 512)
  | .serialSentence _ n _ _ => decide (n < 8)
  | .sentenceDatagram _ grp _ _ => decide (grp < 16)
  | .safetyCycle _ _ _ => true
  | .testPulse _ src _ => decide (src < 8)
  | .outputOffPulse _ k _ _ => decide (k < 8)
  | .discrepancyTimeout _ k => decide (k < 8)
  | .category1DelayEnd _ f => decide (f < 16)
  | .resetHeld _ i => decide (i < 16)
  | .edmTimeout _ k => decide (k < 8)
  | .requestStable _ k => decide (k < 8)
  | .requestHoldEnd _ => true
  | .outputShortTrip _ k _ => decide (k < 8)
  | .romCheck _ _ => true
  | .ramTest _ _ => true
  | .safetyConfigCheck _ => true
  | .islandSelfTest _ _ _ _ => true
  | .recordAppend _ g => decide (g < 6)
  | .suppressionSecondEnd _ => true
  | .recAnchor _ => true
  | .operatingSecond _ => true
  | .recorderClear _ _ _ => true
  | .dramPatrol _ _ _ progress => decide (progress ≤ 1000)
  | .ceRateHour _ _ => true
  | .sramSweep _ _ mem _ => inRange 1 3 mem
  | .mramVerify _ _ => true
  | .flashLevelling _ _ _ _ => true
  | .readDisturbRefresh _ _ _ => true
  | .retentionPatrol _ _ _ => true
  | .badBlockRetirement _ _ _ _ => true
  | .healthFrame _ _ _ _ => true
  | .oscillatorRecord _ _ _ => true
  | .laneReferenceCheck _ _ _ => true
  | .tenderBehind _ _ bit => decide (bit < 6)
  | .supplyPresent _ input _ _ => decide (input < 2)
  | .supplyLost _ input _ _ => decide (input < 2)
  | .mrstTaken _ => true
  | .mrstRelease _ _ => true
  | .mrstStuck _ _ => true
  | .mrstUnmask _ => true
  | .domainReady _ _ d => decide (d < 4)
  | .dramWipeComplete _ _ => true
  | .lanePowerRestore _ _ => true
  | .plateHot _ _ => true
  | .dieWarn _ _ => true
  | .dieProtection _ _ => true
  | .dieCooled _ _ => true
  | .backupLow _ _ => true
  | .backupRecovered _ _ => true
  | .lifecycleWipeComplete _ => true
  | .firmwareVerified _ _ _ slot => decide (slot < 2)
  | .healthConfirmation _ _ => true
  | .confirmationTimeout _ _ => true
  | .keeperImageConfirm _ => true
  | .keeperConfirmTimeout _ => true
  | .cycleSetApply _ _ _ => true
  | .pubdlyClear _ _ _ => true
  | .slvCntClr _ _ _ => true
  | .fusCntClr _ _ _ => true
  | .gnbCntClr _ _ _ => true
  | .metCntClr _ _ _ => true
  | .lpeCntClr _ _ _ => true
  | .kprCntClr _ _ _ => true
  | .tmbCntClr _ _ _ => true
  | .hriCntClr _ _ _ => true
  | .serCntClr _ _ _ => true
  | .tndCntClr _ _ _ => true
  | .registerWrite _ _ off bytes _ => (bytes == 4 || bytes == 8) && decide (off % 4 = 0) && decide (off < 0x1000000)
  | .keeperFault _ => true
  | .tickMarkerLoss _ _ => true
  | .plateCooled _ _ => true
  | .arbiterLoss _ => true
  | .canBusError _ c _ => decide (c < 4)
  | .serialLineBreak _ n _ => decide (n < 8)
  | .ringLinkChange _ _ _ => true
  | .backupExhausted _ => true

end Sys2Proof
end

