-- ==== Sys2Proof/Tests/Slice0.lean ====
section
/-!
SUPPORT. Tests: the terms WellFormed refuses, reset, and for every statement states and operands that meet the hypotheses of its clauses.
-/

-- One theorem at a time: kernel evaluations side by side each take a thread's stack.
set_option Elab.async false

open Sys2Proof Sys2Proof.Machine

/-! Ill-formed terms: each check of WellFormed refuses one just outside its range. -/

theorem test_wellformed_refuses_0 :
  (∀ x0, (Instr.bar x0 262144 0).wellFormed = false) ∧ (∀ x0, (Instr.bar x0 0 5).wellFormed = false) ∧
  (∀ x0 x2 x3 x4 x5 x6 x7, (Instr.pan x0 262144 x2 x3 x4 x5 x6 x7).wellFormed = false) ∧
  (∀ x0 x2 x3 x4 x5, (Instr.bld x0 262144 x2 x3 x4 x5).wellFormed = false) ∧
  (∀ x0 x2 x3 x4 x5 x6, (Instr.dad x0 262144 x2 x3 x4 x5 x6).wellFormed = false) ∧
  (∀ x0 x2 x3 x4 x5 x6 x7 x8 x9 x10, (Instr.gmt x0 262144 x2 x3 x4 x5 x6 x7 x8 x9 x10).wellFormed = false) ∧
  (∀ x0 x3 x4 x5, (Instr.pvs x0 262144 0 x3 x4 x5).wellFormed = false) ∧ (∀ x0 x3 x4 x5, (Instr.pvs x0 0 65 x3 x4 x5).wellFormed = false) ∧
  (∀ x0 x2 x3, (Instr.tsl x0 262144 x2 x3).wellFormed = false) ∧
  (∀ x0 x2 x3, (Instr.tsu x0 262144 x2 x3).wellFormed = false) ∧
  (∀ x0 x2 x3, (Instr.dsc x0 262144 x2 x3).wellFormed = false) ∧
  (∀ x0 x2 x3 x4 x5 x6 x7 x8, (Instr.gmv x0 262144 x2 x3 x4 x5 x6 x7 x8).wellFormed = false) ∧
  (∀ x0 x2 x3 x4 x5, (Instr.sca x0 262144 x2 x3 x4 x5).wellFormed = false) ∧
  (∀ x0 x2 x3 x4, (Instr.rfn x0 262144 x2 x3 x4).wellFormed = false) := by
  repeat' apply And.intro
  all_goals intros; rfl

theorem test_wellformed_refuses_1 :
  (∀ x0 x1 x2, (Instr.packageVerified x0 x1 x2 2).wellFormed = false) ∧
  (∀ x0 x1, (Instr.laneFatalFault x0 x1 14).wellFormed = false) ∧ (∀ x0 x1, (Instr.laneFatalFault x0 x1 7).wellFormed = false) ∧
  (∀ x0, (Instr.ringMemberExpiry x0 1023).wellFormed = false) ∧
  (∀ x0 x2, (Instr.ptpSync x0 8 x2).wellFormed = false) ∧
  (∀ x0 x2, (Instr.ptpFollowUp x0 8 x2).wellFormed = false) ∧
  (∀ x0 x2, (Instr.ptpDelayReq x0 8 x2).wellFormed = false) ∧
  (∀ x0 x2, (Instr.ptpDelayResp x0 8 x2).wellFormed = false) ∧
  (∀ x0 x2, (Instr.ptpPdelayReq x0 8 x2).wellFormed = false) ∧
  (∀ x0 x2, (Instr.ptpPdelayResp x0 8 x2).wellFormed = false) ∧
  (∀ x0 x2, (Instr.ptpPdelayRespFollowUp x0 8 x2).wellFormed = false) ∧
  (∀ x0 x2, (Instr.ptpAnnounce x0 8 x2).wellFormed = false) ∧
  (∀ x0 x2, (Instr.ptpSignaling x0 8 x2).wellFormed = false) := by
  repeat' apply And.intro
  all_goals intros; rfl

theorem test_wellformed_refuses_2 :
  (∀ x0 x2 x3 x4, (Instr.ptpManagement x0 8 x2 x3 x4).wellFormed = false) ∧
  (∀ x0 x2, (Instr.ptpTxInterval x0 8 x2).wellFormed = false) ∧
  (∀ x0, (Instr.ptpSyncTimeout x0 8).wellFormed = false) ∧
  (∀ x0, (Instr.tpPulseStart x0 4).wellFormed = false) ∧
  (∀ x0, (Instr.tpPulseEnd x0 4).wellFormed = false) ∧
  (∀ x0 x1 x3, (Instr.tpStart x0 x1 4 x3).wellFormed = false) ∧
  (∀ x0 x1 x3, (Instr.tpStop x0 x1 4 x3).wellFormed = false) ∧
  (∀ x0 x2 x3, (Instr.tcEdge x0 8 x2 x3).wellFormed = false) ∧
  (∀ x0 x1, (Instr.tcFifoRead x0 x1 8).wellFormed = false) ∧
  (∀ x0 x2, (Instr.rtcAlarm x0 2 x2).wellFormed = false) ∧
  (∀ x0 x1 x3, (Instr.acqDetection x0 x1 160 x3).wellFormed = false) ∧
  (∀ x0 x1, (Instr.pullinTimeout x0 x1 160).wellFormed = false) := by
  repeat' apply And.intro
  all_goals intros; rfl

theorem test_wellformed_refuses_3 :
  (∀ x0 x1, (Instr.phaseLock x0 x1 160).wellFormed = false) ∧
  (∀ x0 x1, (Instr.trackLoss x0 x1 160).wellFormed = false) ∧
  (∀ x0 x1, (Instr.lostTimeout x0 x1 160).wellFormed = false) ∧
  (∀ x0 x1 x3, (Instr.ifPortFault x0 x1 4 x3).wellFormed = false) ∧
  (∀ x0 x1, (Instr.ifPortOk x0 x1 4).wellFormed = false) ∧
  (∀ x0 x1 x3, (Instr.apFrame x0 x1 24 x3).wellFormed = false) ∧
  (∀ x0 x1, (Instr.apLineTimeout x0 x1 24).wellFormed = false) ∧
  (∀ x0 x1, (Instr.apPhaseFound x0 x1 24).wellFormed = false) ∧
  (∀ x0 x1 x3, (Instr.apEnable x0 x1 24 x3).wellFormed = false) ∧
  (∀ x0 x1 x3, (Instr.apDisable x0 x1 24 x3).wellFormed = false) ∧
  (∀ x0 x1, (Instr.channelSettle x0 x1 192).wellFormed = false) ∧
  (∀ x0 x1, (Instr.pulseEnd x0 x1 8).wellFormed = false) := by
  repeat' apply And.intro
  all_goals intros; rfl

theorem test_wellformed_refuses_4 :
  (∀ x0 x1, (Instr.rangeMatchWindow x0 x1 192).wellFormed = false) ∧
  (∀ x0 x1 x3, (Instr.loopSample x0 x1 256 x3).wellFormed = false) ∧
  (∀ x0 x3, (Instr.streamPacket x0 4 0 x3).wellFormed = false) ∧ (∀ x0 x3, (Instr.streamPacket x0 0 65536 x3).wellFormed = false) ∧
  (∀ x0 x1 x3, (Instr.doorbell x0 x1 65536 x3).wellFormed = false) ∧
  (∀ x0 x1 x3, (Instr.ringEnable x0 x1 64 x3).wellFormed = false) ∧
  (∀ x0 x1 x3, (Instr.ringDisable x0 x1 64 x3).wellFormed = false) ∧
  (∀ x0 x1, (Instr.interruptModeration x0 x1 64).wellFormed = false) ∧
  (∀ x0 x1 x2 x3, (Instr.stationDatagram x0 x1 x2 65536 x3 1).wellFormed = false) ∧ (∀ x0 x1 x2 x3, (Instr.stationDatagram x0 x1 x2 0 x3 3).wellFormed = false) ∧ (∀ x0 x1 x2 x3, (Instr.stationDatagram x0 x1 x2 0 x3 0).wellFormed = false) ∧
  (∀ x0 x2, (Instr.canFrameReceived x0 4 x2).wellFormed = false) ∧
  (∀ x0 x2, (Instr.joystickOrderFrame x0 4 x2).wellFormed = false) ∧
  (∀ x0 x2, (Instr.joystickDemandFrame x0 4 x2).wellFormed = false) ∧
  (∀ x0, (Instr.canTxComplete x0 4 0).wellFormed = false) ∧ (∀ x0, (Instr.canTxComplete x0 0 512).wellFormed = false) := by
  repeat' apply And.intro
  all_goals intros; rfl

theorem test_wellformed_refuses_5 :
  (∀ x0 x3, (Instr.canTxFailure x0 4 0 x3).wellFormed = false) ∧ (∀ x0 x3, (Instr.canTxFailure x0 0 512 x3).wellFormed = false) ∧
  (∀ x0, (Instr.busOffRecovery x0 4).wellFormed = false) ∧
  (∀ x0 x1 x3, (Instr.canRecover x0 x1 4 x3).wellFormed = false) ∧
  (∀ x0 x1 x3, (Instr.mbcCounterClear x0 x1 4 x3).wellFormed = false) ∧
  (∀ x0 x1 x3, (Instr.canEnable x0 x1 4 x3).wellFormed = false) ∧
  (∀ x0 x1 x3, (Instr.txreq x0 x1 512 x3).wellFormed = false) ∧
  (∀ x0 x1 x3, (Instr.txAbort x0 x1 512 x3).wellFormed = false) ∧
  (∀ x0 x2 x3, (Instr.serialSentence x0 8 x2 x3).wellFormed = false) ∧
  (∀ x0 x2 x3, (Instr.sentenceDatagram x0 16 x2 x3).wellFormed = false) ∧
  (∀ x0 x2, (Instr.testPulse x0 8 x2).wellFormed = false) ∧
  (∀ x0 x2 x3, (Instr.outputOffPulse x0 8 x2 x3).wellFormed = false) ∧
  (∀ x0, (Instr.discrepancyTimeout x0 8).wellFormed = false) := by
  repeat' apply And.intro
  all_goals intros; rfl

theorem test_wellformed_refuses_6 :
  (∀ x0, (Instr.category1DelayEnd x0 16).wellFormed = false) ∧
  (∀ x0, (Instr.resetHeld x0 16).wellFormed = false) ∧
  (∀ x0, (Instr.edmTimeout x0 8).wellFormed = false) ∧
  (∀ x0, (Instr.requestStable x0 8).wellFormed = false) ∧
  (∀ x0 x2, (Instr.outputShortTrip x0 8 x2).wellFormed = false) ∧
  (∀ x0, (Instr.recordAppend x0 6).wellFormed = false) ∧
  (∀ x0 x1 x2, (Instr.dramPatrol x0 x1 x2 1001).wellFormed = false) ∧
  (∀ x0 x1 x3, (Instr.sramSweep x0 x1 4 x3).wellFormed = false) ∧ (∀ x0 x1 x3, (Instr.sramSweep x0 x1 0 x3).wellFormed = false) ∧
  (∀ x0 x1, (Instr.tenderBehind x0 x1 6).wellFormed = false) ∧
  (∀ x0 x2 x3, (Instr.supplyPresent x0 2 x2 x3).wellFormed = false) ∧
  (∀ x0 x2 x3, (Instr.supplyLost x0 2 x2 x3).wellFormed = false) ∧
  (∀ x0 x1, (Instr.domainReady x0 x1 4).wellFormed = false) := by
  repeat' apply And.intro
  all_goals intros; rfl

theorem test_wellformed_refuses_7 :
  (∀ x0 x1 x2, (Instr.firmwareVerified x0 x1 x2 2).wellFormed = false) ∧
  (∀ t ep v, (Instr.registerWrite t ep 0 2 v).wellFormed = false) ∧ (∀ t ep v, (Instr.registerWrite t ep 2 4 v).wellFormed = false) ∧
  (∀ t ep v, (Instr.registerWrite t ep 0x1000000 4 v).wellFormed = false) ∧
  (∀ x0 x2, (Instr.canBusError x0 4 x2).wellFormed = false) ∧
  (∀ x0 x2, (Instr.serialLineBreak x0 8 x2).wellFormed = false) := by
  repeat' apply And.intro
  all_goals intros; rfl

/-! What the tests start from. -/

/-- Reset with both lanes ready and Lane A Active. -/
def Sys2Proof.Tests.live : State :=
  { State.reset with la := { State.reset.la with ph := .ready }, lb := { State.reset.lb with ph := .ready },
                     kpr := { State.reset.kpr with role := some .a } }

open Sys2Proof.Tests

/-- Reset leaves the register file canonical and the queue empty. -/
theorem test_reset_inv : RegsWf State.reset ∧ State.reset.pending = [] ∧ State.reset.up = true ∧ modeNow State.reset = .layup := by
  unfold RegsWf; decide +kernel

/-- An empty queue is met, and so is one with a command. -/
theorem test_witness_EmptyQueueIdles : live.pending = [] ∧ ({ live with pending := [.deadline 0#64] } : State).pending ≠ [] := by decide +kernel

/-- Hypotheses of the counter clears: bit 0 set and clear, an endpoint of a lane that is ready and of one that is shut. -/
theorem test_witness_CountersClearOnWrite : live.up = true ∧ decommissioned live = false ∧ shut live .a = false ∧ shut State.reset .a = true ∧
    (1#32).getLsbD 0 = true ∧ (2#32).getLsbD 0 = false ∧ isActive live .a = true ∧ isActive live .b = false ∧ ModWritable live .a ∧ LaneWritable live .b := by
  unfold ModWritable LaneWritable; decide +kernel

/-! The assembler and the solver. -/

/-- Fields of an instruction that reads F1-F3 and A1, with index 0. -/
def Sys2Proof.Tests.i0 : AsmI := ⟨1#5, 1#5, 2#5, 3#5, 0#4, 0#4, 0#32⟩

/-- A package of one instruction and a schedule. -/
def Sys2Proof.Tests.pk (w : List (BitVec 64)) (sch : List (BitVec 128)) : PkgData :=
  ⟨1#64, 1#32, [], 4, 2, 100, 8, 10, 1, 1, [0x3FF0000000000000#64], [⟨0, [0#64, 0x3FF0000000000000#64], [], [0#64, 0#64]⟩], [], [], w, sch, 0, 3, 5,
   [], [], [], [], []⟩

/-- The Active lane with a package in bank 0 and a solver state. -/
def Sys2Proof.Tests.withPkg (p : PkgData) (v : SlvSt) : State :=
  setF Reg.SLV_PKG_BANK_st0 4 .a { live with la := { live.la with bank0 := { live.la.bank0 with model := some p }, slv := v } }

/-- Assembly runs, and the instruction stands at its program counter. -/
def Sys2Proof.Tests.asmS (op : AsmOp) (i : AsmI) : State :=
  withPkg (pk [asmEncode op i] []) { live.la.slv with asmRun := true, mvec := [(0#64, true)], svec := [(0#64, true)] }

/-- AsmAt is met for every opcode; the index 0 is the last in range and 8 the first out of it, at A0; F1 may be stored, a NaN may not. -/
theorem test_witness_AssemblerArithmeticOnRegisters : ∀ op ∈ [AsmOp.fin, .ldm, .lds, .ldp, .itp, .mad, .fop, .cmp, .lda, .loop, .brq, .sct, .vst, .bnd, .rtl, .sig],
    AsmAt op i0 (asmS op i0) .a (pk [asmEncode op i0] []) := by
  unfold AsmAt; decide +kernel

theorem test_witness_AssemblerLoadsWriteDestination : (asmS .ldm i0).la.slv.mvec[effIdx (asmS .ldm i0).la.slv i0]? = some (0#64, true) ∧
    (asmS .lds i0).la.slv.svec[effIdx (asmS .lds i0).la.slv i0]? = some (0#64, true) ∧
    (pk [asmEncode .ldp i0] []).param[effIdx (asmS .ldp i0).la.slv i0]? = some 0x3FF0000000000000#64 ∧
    (pk [asmEncode .itp i0] []).tables[effIdx (asmS .itp i0).la.slv i0]?.isSome = true := by decide +kernel

theorem test_witness_AssemblerJumpsAndSignal : i0.a.toNat ≠ 0 ∧ AsmAt .loop i0 (asmS .loop i0) .a (pk [asmEncode .loop i0] []) := by
  unfold AsmAt; decide +kernel

theorem test_witness_AssemblerStoresWriteTargets : effIdx (asmS .sct i0).la.slv i0 < 8 ∧ effIdx (asmS .vst i0).la.slv i0 < 4 ∧
    storeFin (fReg (asmS .sct i0).la.slv i0.a) = true ∧ storeOk i0.c.toNat (fReg (asmS .vst i0).la.slv i0.a) = true ∧
    storeBound (fReg (asmS .bnd i0).la.slv i0.a) = true ∧ storeSlack 0#64 = true ∧
    storeBound (F64.fma (F64.neg (fReg (asmS .rtl i0).la.slv i0.b)) (fReg (asmS .rtl i0).la.slv i0.c) (fReg (asmS .rtl i0).la.slv i0.a)) = true := by
  decide +kernel

/-- The first index out of range, a value that may not be stored, the budget reached. -/
theorem test_witness_AssemblerFaultsAbandonTheCycle :
    AsmAt .ldm { i0 with imm := 1#32 } (asmS .ldm { i0 with imm := 1#32 }) .a (pk [asmEncode .ldm { i0 with imm := 1#32 }] []) ∧
    (asmS .ldm i0).la.slv.mvec.length ≤ effIdx (asmS .ldm i0).la.slv { i0 with imm := 1#32 } ∧
    (pk [] []).tables.length ≤ effIdx (asmS .itp i0).la.slv { i0 with imm := 1#32 } ∧ storeFin 0x7FF8000000000000#64 = false ∧
    (pk [] []).budget ≤ ({ (asmS .ldm i0).la.slv with steps := 10 } : SlvSt).steps ∧ (asmS .ldm i0).la.slv.steps < (pk [] []).budget := by
  unfold AsmAt; decide +kernel

/-- A hard contradiction at index 0, the first, and none. -/
theorem test_witness_AssemblerEndChecksBounds :
    ((List.range 4).find? (fun j => F64.isZero (vec (setVec 6 0 0x3FF0000000000000#64 {}) 8 j) &&
      F64.lt (vec (setVec 7 0 0#64 (setVec 6 0 0x3FF0000000000000#64 {})) 7 j) (vec (setVec 7 0 0#64 (setVec 6 0 0x3FF0000000000000#64 {})) 6 j))) = some 0 ∧
    (∀ j < 4, F64.isZero (vec (asmS .fin i0).la.slv 8 j) = false ∨ F64.lt (vec (asmS .fin i0).la.slv 7 j) (vec (asmS .fin i0).la.slv 6 j) = false) := by
  decide +kernel

/-- The canonical form is met with a command in front and with none. -/
theorem test_witness_StepKeepsCanonicalRegisters : RegsWf live ∧ RegsWf { live with pending := [.deadline 0#64, .recordAppend 0#64 0] } := by
  unfold RegsWf; decide +kernel

/-- An instruction of each opcode that passes its static check. -/
theorem test_witness_AssemblerDecodeOfEncode : let z : AsmI := ⟨0#5, 0#5, 0#5, 0#5, 0#4, 0#4, 0#32⟩
    (∀ op ∈ [AsmOp.fin, .ldm, .lds, .ldp, .itp, .mad, .fop, .cmp, .lda, .brq, .sct, .vst, .bnd, .rtl, .sig],
      asmInstrOk ⟨1, 1, 1, 1, 1, 1, 1⟩ (asmEncode op z) = true) ∧ asmInstrOk ⟨1, 1, 1, 1, 1, 1, 1⟩ (asmEncode .loop { z with a := 1#5 }) = true := by
  decide +kernel

/-- R72, R73: MAD F31 ← −F1 × F2 + F3, its word written from the layout: op 5, d 31, a 1, b 2, c 3, x 0, m 1, imm 0. -/
theorem test_decode_mad : asmDecode 0b0101_11111_00001_00010_00011_0000_0001_00000000000000000000000000000000#64 =
    (.mad, ⟨31#5, 1#5, 2#5, 3#5, 0#4, 1#4, 0#32⟩) := by decide +kernel

/-- A running solve at instruction 0 of a schedule that begins with the given instruction. -/
def Sys2Proof.Tests.schS (op : SOp) (v : SlvSt) : State :=
  withPkg (pk [] [(sEncode op).getD 0#128]) { v with solving := true, seg := 1, win := 0 }

/-- SchedAt is met for each instruction, and nothing breaks down on zeros. -/
theorem test_witness_ScheduleInstructionsWriteTheirTargets : ∀ op ∈ [SOp.bar 0, .bar 1, .bar 2, .pan 0 1 0 0 1 0, .bld 0 0 1 false, .dad 0 1 true false false,
      .gmt 1 1 1 0 0 0 0 0 false, .pvs 1 0 0 0#64, .tsl 1 0, .tsu 1 0, .dsc 0 1, .gmv 1 1 0 0 0 false false, .sca 0 0 1 false, .rfn true false false],
    SchedAt 0 op (schS op {}) .a (pk [] [(sEncode op).getD 0#128]) := by
  unfold SchedAt; decide +kernel

theorem test_witness_ScheduleInstructionsRunTheirOperation :
    (∀ w ∈ (schBld 0 0 1 false (schedCtx (schS (.bld 0 0 1 false) {}) .a (pk [] []) 0)).2, breaks w.2 = false) ∧
    (∀ w ∈ (schTsl 1 0 (schedCtx (schS (.tsl 1 0) {}) .a (pk [] []) 0)).2, breaks w.2 = false) := by decide +kernel

/-- A division of 1 by the pivot 0 breaks down. -/
theorem test_witness_BreakdownRetriesOnceThenFails :
    ∃ w ∈ (schDsc 0 1 (schedCtx (schS (.dsc 0 1) (setVec 0 0 0x3FF0000000000000#64 {})) .a (pk [] []) 0)).2, breaks w.2 = true := by decide +kernel

theorem test_witness_BarrierEndsWindowsAndSegments : (schS (.bar 0) {}).la.slv.done.length = 0 - (schS (.bar 0) {}).la.slv.win ∧
    (schS (.bar 2) { ph := .solve1 }).la.slv.nrepl = 0 ∧ (schS (.bar 2) { ph := .solve1 }).la.slv.ph = .solve1 ∧
    (schS (.bar 2) { ph := .solve2 }).la.slv.ph = .solve2 ∧ (schS (.bar 0) { done := [0] }).la.slv.done.length ≠ 0 - 0 := by decide +kernel

/-- An iteration waits for its completion. -/
theorem test_witness_IterationEndsByItsTests : let s := schS (.dsc 0 1) { ph := .finish, k := 1 }
    s.up = true ∧ active s = some .a ∧ (actPkg s .a).isSome = true ∧ s.la.slv.solving = true ∧ s.la.slv.ph = .finish := by decide +kernel

/-- Steps 5 and 7 give figures, or fail on an infinite direction; the step stops at 0.995 of a distance of 1 that shrinks by 2. -/
theorem test_witness_IterationSteps : let p : PkgData := { pk [] [] with n := 0 }
    (predictor p 0 {}).isSome = true ∧ (newIterate p 0 {}).isSome = true ∧
    newIterate (pk [] []) 0 (setVec 0 0 (F64.inf false) { bndClr := true }) = none ∧
    predictor (pk [] []) 0 (setVec 0 0 (F64.inf false) { bndClr := true }) = none ∧
    stepLen (F64.ratio 995 1000) [(F64.one, F64.ofInt (-2)), (F64.one, F64.one)] = F64.ratio 4975 10000 := by decide +kernel

/-- The deadline mark of a cycle outside Lay-up, with a solve in progress, with an iterate and without, and with assembly in progress. -/
theorem test_witness_DeadlineChoosesTheOutput :
    let s := setF Reg.JX_MODE_mode 2 .a { schS (.dsc 0 1) {} with cyc := { live.cyc with begun := true, e := 100000000#64 } }
    atMark (begin' 185000000#64 s) s.cyc.cur.deadline = true ∧ s.la.slv.cond = none ∧ s.cyc.published = false ∧ modeNow s ≠ .layup ∧
    s.la.slv.solving = true ∧ s.la.slv.latest = none ∧ (actPkg s .a).isSome = true ∧ (asmS .ldm i0).la.slv.solving = false ∧
    atMark (begin' 185000001#64 s) s.cyc.cur.deadline = false := by decide +kernel

/-! Registers of the host. -/

/-- A register that only stores, through the Active endpoint, with a value in range; NET_RING_CFG of a module on the ring, written to leave it and to
stay. -/
theorem test_witness_RegisterWriteStoresItsFields : ∃ r, Reg.SLV_ITCAP ∈ storeOffs ∧ regRow Reg.SLV_ITCAP = some r ∧ live.up = true ∧
    decommissioned live = false ∧ shut live .a = false ∧ isActive live .a = true ∧ lockRefuses live = false ∧
    rangeOk live r Reg.SLV_ITCAP ((5#64).setWidth 32) = true ∧ LaneWritable live .a := by
  refine ⟨(regRow Reg.SLV_ITCAP).getD ⟨0, 0, 0, false, false, 0#32, 0#32, 0#32, 0#32, 0#32, []⟩, ?_⟩
  unfold LaneWritable; decide +kernel

theorem test_witness_RegisterWriteStoresItsFields_ring : ∃ r, regRow Reg.NET_RING_CFG = some r ∧
    rangeOk (setF Reg.NET_RING_CFG_en 1 .a live) r Reg.NET_RING_CFG ((0#64).setWidth 32) = true ∧
    rangeOk (setF Reg.NET_RING_CFG_en 1 .a live) r Reg.NET_RING_CFG ((0x10001#64).setWidth 32) = true ∧
    ModWritable (setF Reg.NET_RING_CFG_en 1 .a live) .a ∧ lockRefuses (setF Reg.NET_RING_CFG_en 1 .a live) = false ∧
    getB (setF Reg.NET_RING_CFG_en 1 .a live) Reg.NET_RING_CFG_en = true ∧ (0#64).getLsbD 16 = false ∧ (0x10001#64).getLsbD 16 = true := by
  refine ⟨(regRow Reg.NET_RING_CFG).getD ⟨0, 0, 0, false, false, 0#32, 0#32, 0#32, 0#32, 0#32, []⟩, ?_⟩
  unfold ModWritable; decide +kernel

/-- A Decommissioned module; a bad width; an offset the index does not list; a lane's register of a shut lane; a module's register through the
Standby endpoint and with no lane Active; a locked register while Operational. -/
theorem test_witness_RegisterWriteIsCheckedInOrder :
    decommissioned (setF Reg.UPD_LCS_state 4 .a live) = true ∧ ¬ (2 = 4 ∧ 0x100 % 4 = 0) ∧ ¬ (2 = 8 ∧ 0x100 % 8 = 0) ∧
    regRow 0xFFFFF0 = none ∧ 0xFFFFF0 % 4 = 0 ∧ ((regRow Reg.HRI_SYS_STAT).map (·.perLane)) = some true ∧ shut State.reset .a = true ∧
    ((regRow Reg.JX_CYC_PERIOD).map (·.perLane)) = some false ∧ isActive live .b = false ∧ (active State.reset).isNone = true ∧
    ((regRow Reg.JX_CYC_PERIOD).map lockable) = some true ∧ lockRefuses (setF Reg.UPD_LCS_state 2 .a live) = true ∧
    isActive (setF Reg.UPD_LCS_state 2 .a live) .a = true := by decide +kernel

/-- A valid set in Lay-up; a set with PERIOD 49, just out of range; a valid set in Approach. -/
theorem test_witness_CycleSetApplySchedulesAValidSet : ModWritable live .a ∧ lockRefuses live = false ∧ (1#32).getLsbD 0 = true ∧
    setErr (writtenSet live) = 0 ∧ modeNow live = .layup ∧ pendingMode live.auth = none ∧ live.cyc.pend = none ∧
    setErr (writtenSet (setF Reg.JX_CYC_PERIOD_period 49 .a live)) = 1 ∧ modeNow (setF Reg.JX_MODE_mode 2 .a live) = .approach ∧
    setErr (writtenSet (setF Reg.JX_MODE_mode 2 .a live)) = 0 ∧ ModWritable (setF Reg.JX_MODE_mode 2 .a live) .a := by
  unfold ModWritable; decide +kernel

/-! The cycle, packages and the mirror. -/

/-- A cycle begun at 100 ms, in a mode. -/
def Sys2Proof.Tests.inCycle (m : Nat) (s : State) : State :=
  setF Reg.JX_MODE_mode m .a { s with cyc := { s.cyc with begun := true, e := 100000000#64, nextE := 200000000#64, fusionOpen := true, mirrorOpen := true } }

/-- At the intake, fusion and mirror marks and 1 ns after them, with fusion running and without. -/
theorem test_witness_IntakeAndFusionStagesEnd :
    let s := inCycle 2 (withPkg (pk [] []) {})
    let f := { s with la := { s.la with fus := { s.la.fus with run := true } } }
    atMark (begin' 105000000#64 s) s.cyc.cur.intake = true ∧ atMark (begin' 105000001#64 s) s.cyc.cur.intake = false ∧
    atMark (begin' 135000000#64 s) s.cyc.cur.fusion = true ∧ atMark (begin' 135000001#64 s) s.cyc.cur.fusion = false ∧ AsmMayStart s .a (pk [] []) ∧
    active f = some .a ∧ f.la.fus.run = true ∧ f.cyc.fusionOpen = true ∧ s.la.fus.run = false := by
  unfold AsmMayStart; decide +kernel

/-- A cycle with a condition, accepted and shifted; one with none; a publication owed for this cycle and for an earlier one. -/
theorem test_witness_CyclesArePublished :
    let s := inCycle 2 (withPkg (pk [] []) { cond := some .optimal })
    s.la.slv.cond = some .optimal ∧ s.cyc.published = false ∧ modeNow s ≠ .layup ∧ fallback .optimal = false ∧ fallback .shifted = true ∧
    (inCycle 2 live).la.slv.cond = none ∧ active s = some .a ∧ ready s .a = true ∧
    ({ s with kpr := { s.kpr with owed := some 100000000#64 } } : State).kpr.owed = some s.cyc.e ∧ (0#64 : Time) ≠ s.cyc.e := by decide +kernel

/-- A complete bank of either kind that waits to be verified, and the first bank number that does not exist. -/
theorem test_witness_PackageVerificationDecidesTheBank :
    let s := setF Reg.FUS_NPKG_BANK_st1 1 .a (setF Reg.SLV_PKG_BANK_st1 1 .a
      { live with la := { live.la with bank1 := { complete := true }, nbank1 := { complete := true } } })
    LaneRuns s .a ∧ (bankOf s.la false 1).reverify = false ∧ (bankOf s.la false 1).complete = true ∧ getF s (bankFld false 1) .a = 1 ∧
    (bankOf s.la true 1).complete = true ∧ getF s (bankFld true 1) .a = 1 ∧ active s = some .a ∧ 1 < 2 := by
  unfold LaneRuns; decide +kernel

/-- Lane B admitted as Standby. -/
def Sys2Proof.Tests.pair : State := setF Reg.KPR_STAT_badm 1 .a live

theorem test_witness_MirrorWindowSendsTheCycleSet : let s := inCycle 2 pair
    active s = some .a ∧ ready s .a = true ∧ atMark (begin' 188000000#64 s) s.cyc.cur.mirror = true ∧ modeNow s ≠ .layup ∧ s.cyc.mirrorOpen = true ∧
    atMark (begin' 196000000#64 s) (s.cyc.cur.mirror + 8) = true ∧ atMark (begin' 196000001#64 s) (s.cyc.cur.mirror + 8) = false ∧
    standby s = some .b ∧ s.lb.mir.adoptedCyc ≠ some (rdK s Reg.JX_CYC_COUNT) ∧ standby live = none := by decide +kernel

/-- A frame of the mirror link of cycle 0 without the gap: type, flags, offset, payload, CRC-32C. -/
def Sys2Proof.Tests.mf (typ flags ofs : Nat) (pay : List Byte) (crc : Nat) : List Byte :=
  leBytes 2 typ ++ leBytes 2 flags ++ leBytes 4 0 ++ leBytes 4 ofs ++ leBytes 2 pay.length ++ leBytes 2 0 ++ pay
    ++ List.replicate (256 - pay.length) 0#8 ++ leBytes 4 crc

/-- The complement section of a SOLUTION item without a solution, as its last frame carries it. -/
def Sys2Proof.Tests.mfSol : List Byte := mf 1 6 64 ((solutionBytes 0#32 none).map (~~~ ·)) 0x9f8ffe51

set_option maxRecDepth 20000 in
/-- An item of the set after its first frame, its last frame, and content that it is not the complement of; the same frame with another CRC. -/
theorem test_witness_MirrorFramesAreHeldUntilTheSeal :
    let it : MirItem := .solution 0#32 none
    let s := { inCycle 2 pair with mirTx := [.recorder ⟨0, 0#32, 0#32⟩, it] }
    let m := solutionBytes 0#32 none
    active s = some .a ∧ linkSends s = true ∧ frCrcOk mfSol = true ∧ frCrcOk (mfSol.take 272) = false ∧ frLast mfSol = true ∧
    joined [(1, ⟨m, [], []⟩)] mfSol = some (itemSecs it) ∧ complOf (itemSecs it).main (itemSecs it).cpl = true ∧
    takeFlight (frTyp mfSol) (secsAll (itemSecs it)) s.mirTx = some (it, [.recorder ⟨0, 0#32, 0#32⟩]) ∧ s.lb.mir.heldCyc = frCyc mfSol ∧
    s.cyc.mirrorOpen = true ∧ (joined [(1, ⟨List.replicate 64 0#8, [], []⟩)] mfSol).map (fun x => complOf x.main x.cpl) = some false := by
  decide +kernel

set_option maxRecDepth 20000 in
/-- A SEAL that lists a held item, and an authority item. The layout of their bytes is free (log entry 98): the one frame without payload is theirs
where they have none. -/
theorem test_witness_MirrorFramesAreHeldUntilTheSeal_seal (es : List SealEnt) (he : es = [sealEnt (.solution 0#32 none)])
    (hs : Config.itemBytes 0 (.seal es) = []) (ha : Config.itemBytes 0 (.authority {}) = []) :
    frCrcOk (mf 0xF 3 0 [] 0x78e3a95e) = true ∧ frCrcOk (mf (MirItem.authority {}).code 3 0 [] 0xeaeca73a) = true ∧
    joined [] (mf 0xF 3 0 [] 0x78e3a95e) = some {} ∧ joined [] (mf (MirItem.authority {}).code 3 0 [] 0xeaeca73a) = some {} ∧ complOf [] [] = true ∧
    takeFlight (MirItem.seal es).code [] [.seal es] = some (.seal es, []) ∧
    takeFlight (MirItem.authority {}).code [] [.authority {}] = some (.authority {}, []) ∧
    (∀ e ∈ es, ∃ i ∈ [MirItem.solution 0#32 none], sealEnt i = e) := by
  refine ⟨by decide +kernel, by decide +kernel, by decide +kernel, by decide +kernel, rfl, ?_, ?_, ?_⟩
  · simp [takeFlight, itemSecs, itemParts, secsAll, hs]
  · simp [takeFlight, itemSecs, itemParts, secsAll, ha]
  · subst he; exact fun e h => ⟨_, List.mem_singleton_self _, (List.mem_singleton.mp h).symm⟩

/-- An instant 2 ms after a multiple of 10 ms and 1 ns more; one sent already. -/
theorem test_witness_MirrorAckAndLoopMirror : active pair = some .a ∧ standby pair = some .b ∧ linkSends pair = true ∧
    verReached 1#32 pair.ackVer = true ∧ ready pair .a = true ∧ since 12000000#64 (mirAt 12000000#64) = 2 * ms ∧
    2 * ms < since 12000001#64 (mirAt 12000001#64) ∧ (pair.lane .a).lpe.sentAt = none ∧ mirAt 12000000#64 = 10000000#64 ∧
    ({ pair.la.lpe with sentAt := some 10000000#64 } : LpeSt).sentAt = some (mirAt 10000000#64) := by
  decide +kernel

/-- Both sides of each instant and limit of the Keeper's words. -/
theorem test_witness_LanesAndKeeperHearEachOther : LaneRuns live .a ∧ (1000000#64).toNat % ms = 0 ∧ (1000001#64).toNat % ms ≠ 0 ∧
    10 * ms ≤ since 10000000#64 live.la.health.kwordAt ∧ since 9999999#64 live.la.health.kwordAt < 10 * ms ∧ live.kpr.up = true ∧
    ({ live with kpr := { live.kpr with up := false } } : State).kpr.up = false ∧ shut live .a = false := by
  unfold LaneRuns; decide +kernel


/-! The Keeper. -/

/-- Update of one lane's view of the Keeper. -/
def Sys2Proof.Tests.onKpr (f : KprLane → KprLane) (s : State) : State := { s with kpr := { s.kpr with lb := f s.kpr.lb } }

/-- A watch word with its complement. -/
def Sys2Proof.Tests.ww (lo : Nat) : BitVec 64 := BitVec.ofNat 64 (lo + 2 ^ 32 * (2 ^ 32 - 1 - lo))

/-- A word whose complement fails; the first word; a word with bit 28, the highest the clause names; a word that skips a sequence number. -/
theorem test_witness_WatchWordsAreChecked :
    let k := onKpr (fun x => { x with known := true, seq := 7#16 }) pair
    pair.up = true ∧ pair.kpr.up = true ∧ ready pair .b = true ∧ (kprLane pair .b).failed = false ∧ isActive pair .b = false ∧
    (0#64).toNat / 2 ^ 32 ≠ 2 ^ 32 - 1 - (0#64).toNat % 2 ^ 32 ∧ (ww 8).toNat / 2 ^ 32 = 2 ^ 32 - 1 - (ww 8).toNat % 2 ^ 32 ∧
    (kprLane pair .b).known = false ∧ (ww 8).toNat % 2 ^ 16 = ((kprLane k .b).seq.toNat + 1) % 2 ^ 16 ∧ (ww 8).toNat / 2 ^ 22 % 4 = 0 ∧
    (ww 8).toNat / 2 ^ 30 % 4 = 0 ∧ (ww 8).toNat / 2 ^ 24 % 64 = 0 ∧ pair.kpr.role ≠ none ∧ (ww (8 + 2 ^ 28)).toNat / 2 ^ 24 % 32 ≠ 0 ∧
    (ww (8 + 2 ^ 28)).getLsbD 29 = false ∧ (ww (8 + 2 ^ 28)).toNat / 2 ^ 22 % 4 = 0 ∧ (ww (8 + 2 ^ 28)).toNat / 2 ^ 30 % 4 = 0 ∧
    (kprLane k .b).known = true ∧ (ww 9).toNat % 2 ^ 16 ≠ ((kprLane k .b).seq.toNat + 1) % 2 ^ 16 := by decide +kernel

/-- The second miss in a row, and the third. -/
theorem test_witness_KeeperSlotsCountAndDeclare :
    let m (n : Nat) := onKpr (fun x => { x with missRun := n }) pair
    (∀ l ∈ [Lane.a, .b], watched (m 1) l = true → (kprLane (m 1) l).valid = true ∨ (kprLane (m 1) l).missRun + 1 < 3) ∧
    watched (m 2) .b = true ∧ (kprLane (m 2) .b).valid = false ∧ 2 ≤ (kprLane (m 2) .b).missRun ∧ isActive (m 2) .b = false ∧
    (watched (m 2) Lane.b.other = true → (kprLane (m 2) Lane.b.other).valid = true) := by decide +kernel

/-- The bounds and 1 ns before them. -/
theorem test_witness_PublicationAndLinkBounds : let s := inCycle 2 pair
    s.kpr.up = true ∧ active s = some .a ∧ modeNow s ≠ .layup ∧ s.cyc.begun = true ∧ (kprLane s .a).pubSeen = false ∧
    (kprLane s .a).failed = false ∧ s.kpr.grantE ≠ some s.cyc.e ∧ s.kpr.tkE ≠ some s.cyc.e ∧
    (s.cyc.cur.deadline + 2) * ms ≤ since 187000000#64 s.cyc.e ∧ since 186999999#64 s.cyc.e < (s.cyc.cur.deadline + 2) * ms ∧
    standby s = some .b ∧ mayLead s .b = true ∧ (kprLane s .b).failed = false ∧ s.kpr.la.missRun = 0 ∧ s.kpr.lb.missRun = 0 ∧
    25 * ms ≤ since 25000000#64 s.kpr.linkAt ∧ since 24999999#64 s.kpr.linkAt < 25 * ms := by decide +kernel

/-- Each instant reached and 1 ns before it. -/
theorem test_witness_KeeperTimeouts :
    let d := onKpr (fun x => { x with resetDue := some 10000000#64, readyAt := some 0#64 }) live
    let n := onKpr (fun x => { x with known := true }) { live with kpr := { live.kpr with role := none } }
    (kprLane d .b).resetDue = some 10000000#64 ∧ atOrAfter 10000000#64 10000000#64 = true ∧ atOrAfter 9999999#64 10000000#64 = false ∧
    isActive d .b = false ∧ (d.lane .b).ph = .ready ∧ n.kpr.up = true ∧ n.kpr.role = none ∧ 5 * sec ≤ since 5000000000#64 n.kpr.tStart ∧
    since 4999999999#64 n.kpr.tStart < 5 * sec ∧ decommissioned n = false ∧ ready n .b = true ∧ mayLead n .b = true ∧ watched n .b = true ∧
    (kprLane n .b).missRun = 0 ∧ watched n .a = false ∧ active d = some Lane.b.other ∧ (kprLane d .b).readyAt = some 0#64 ∧
    60 * sec ≤ since 60000000000#64 0#64 ∧ since 59999999999#64 0#64 < 60 * sec ∧ admitted d .b = false ∧ (kprLane d .b).adm = false ∧
    (kprLane d .b).admFail = false := by decide +kernel

theorem test_witness_LaneReportsReachTheKeeper : let s := { live with lb := { live.lb with met := { live.lb.met with last := some 1000000000#64 } } }
    LaneRuns s .b ∧ s.kpr.up = true ∧ (10000000#64).toNat % (10 * ms) = 0 ∧ (10000001#64).toNat % (10 * ms) ≠ 0 ∧
    (kprLane s Lane.b.other).loopAt ≠ some 10000000#64 ∧ (s.lane .b).met.last = some 1000000000#64 ∧ (1000000000#64).toNat % sec = 0 ∧
    (kprLane s Lane.b.other).metAt ≠ some 1000000000#64 ∧ (live.lane .b).met.last = none := by
  unfold LaneRuns; decide +kernel

/-! The networks. -/

/-- A node heard at 0 with its frame 5 from LAN B; the forget time and 1 ns before it; an unknown node. -/
theorem test_witness_PrpDuplicatesAreDiscarded :
    let s := { live with net := { live.net with nodes := [(9#48, ⟨0#64, [(5#16, true, 0#64)]⟩)] } }
    s.net.nodes.find? (fun p => p.1 == 9#48) = some (9#48, ⟨0#64, [(5#16, true, 0#64)]⟩) ∧ s.net.nodes.find? (fun p => p.1 == 8#48) = none ∧
    s.net.nodes.length < 256 ∧ [((5#16, true, 0#64) : BitVec 16 × Bool × Time)].all (fun r => decide (since 1#64 r.2.2 < forgetNs)) = true ∧
    (5#16, !false, 0#64) ∈ [((5#16, true, 0#64) : BitVec 16 × Bool × Time)] ∧ forgetNs ≤ since (BitVec.ofNat 64 forgetNs) 0#64 ∧
    since (BitVec.ofNat 64 (forgetNs - 1)) 0#64 < forgetNs := by decide +kernel

/-- A ring frame of type `typ` from module `src` to module `dst`. -/
def Sys2Proof.Tests.rf (typ src dst hops : Nat) (pl : List Byte) : RingFrame :=
  let lo := 1 + 2 ^ 8 * typ + 2 ^ 16 * src + 2 ^ 32 * 7
  ⟨true, BitVec.ofNat 256 (lo + 2 ^ 64 * dst + 2 ^ 80 * hops + 2 ^ 192 * (2 ^ 64 - 1 - lo)), pl⟩

/-- A payload of 32 bytes closed by its complement. -/
def Sys2Proof.Tests.pairPay (lo : Nat) : List Byte := leBytes 16 lo ++ leBytes 16 (2 ^ 128 - 1 - lo)

/-- Module 1 of a ring, in a ring role. -/
def Sys2Proof.Tests.onRing (role : Nat) (s : State) : State :=
  setF Reg.NET_RING_PEER_arb 3 .a (setF Reg.NET_RING_PEER_partner 2 .a (setF Reg.NET_RING_CFG_role role .a (setF Reg.NET_RING_CFG_num 1 .a
    (setF Reg.NET_RING_CFG_en 1 .a s))))

/-- RingFirst holds of the first copy and not of the second; a SYNC of another phase and one of this module's; three cycles without SYNC. -/
theorem test_witness_RingSyncIsCheckedAndTaken :
    let s := onRing 0 (inCycle 2 live)
    let f := rf 1 0 0x3FF 3 (List.replicate 24 0#8)
    RingFirst 0#64 1 f s ∧ active s = some .a ∧ 24 ≤ f.payload.length ∧ s.net.lastSync = none ∧
    before (getF s Reg.NET_RING_CFG_prio) (ringNum s) (leAt f.payload 23 1) (rfSrc f) = false ∧
    phaseOf s (leAt f.payload 8 8 * sec + leAt f.payload 16 4 : Nat) = (rdK s Reg.JX_CYC_PHASE).toNat ∧
    phaseOf s (1000000 : Nat) ≠ (rdK s Reg.JX_CYC_PHASE).toNat ∧ modeNow s = .approach ∧ modeNow (onRing 0 live) = .layup ∧
    getB s Reg.NET_RING_STAT_master = false ∧ 3 * s.cyc.set.ns ≤ since 300000000#64 0#64 ∧ getB live Reg.NET_RING_CFG_en = false ∧
    hdrOk { f with fcsOk := false } = false ∧ rfSrc (rf 1 1 0x3FF 3 []) = ringNum s ∧ rfHops (rf 1 2 0x3FF 0 []) = 0 ∧ hdrN (rf 2 2 1 3 []) 1 1 ≠ 1 ∧
    rfDest (rf 1 2 1 3 []) = ringNum s ∧ (window (some ⟨7#32, 0#64, 0#64⟩) (BitVec.ofNat 32 (hdrN f 4 4)) 0#64).1 = false := by
  unfold RingFirst; decide +kernel

/-- A record published in the cycle, sent in the last slot that fits; a frame in the window; the module's own PROBE; 20 s and 1 ns less. -/
theorem test_witness_ExchangeAndProbe :
    let r : AllocRec := ⟨100000000#64, 0#64, 0#64, 0#32, 0#32, 0#32, false, false, false, false, false, 0#8, 0#8, [], [], 0#64, 0, 0⟩
    let s := onRing 0 (inCycle 2 { live with la := { live.la with slv := { live.la.slv with disp := { live.la.slv.disp with last := some r } } },
                                             net := { live.net with rank := some 0, probeSeq := 7#32, srcs := [(2, ⟨0#32, 0#64, 0#64⟩)] } })
    s.up = true ∧ active s = some .a ∧ s.net.rank = some 0 ∧ getB s Reg.NET_RING_CFG_en = true ∧ s.net.mismatch = false ∧
    plus (winStart s) (0 * 17704) = 198000000#64 ∧ (0 + 1) * 17704 + s.net.nRanked * 13504 ≤ s.cyc.cur.xwin * ms ∧
    (s.lane .a).slv.disp.last = some r ∧ r.e = s.cyc.e ∧ live.net.rank = none ∧ RingFirst 198000000#64 2 (rf 2 2 0x3FF 3 []) s ∧
    winOpen (begin' 198000000#64 s) = true ∧ winOpen (begin' 197999999#64 s) = false ∧ ready s .a = true ∧ hdrOk (rf 5 1 1 3 []) = true ∧
    hdrN (rf 5 1 1 3 []) 0 1 = 1 ∧ hdrN (rf 5 1 1 3 []) 1 1 = 5 ∧ rfSrc (rf 5 1 1 3 []) = ringNum s ∧
    hdrN (rf 5 1 1 3 []) 4 4 = s.net.probeSeq.toNat ∧ (alGet s.net.srcs 2).map (·.last) = some 0#64 ∧ 20 * sec ≤ since 20000000000#64 0#64 ∧
    since 19999999999#64 0#64 < 20 * sec := by
  unfold RingFirst; decide +kernel

set_option maxRecDepth 20000 in
/-- The last piece of an item of the partner and of another module, after its content and after content that it is not the complement of. -/
theorem test_witness_ModuleMirrorIsTakenFromThePartner : let s := onRing 2 live
    let it : MirItem := .solution 0#32 none
    let m := solutionBytes 0#32 none
    let f := rf 3 2 1 3 mfSol
    RingFirst 0#64 3 f s ∧ active s = some .a ∧ getF s Reg.NET_RING_CFG_role = 2 ∧ outReleased s = true ∧
    rfSrc f = getF s Reg.NET_RING_PEER_partner ∧ rfSrc (rf 3 3 1 3 []) ≠ getF s Reg.NET_RING_PEER_partner ∧
    frLast f.payload = true ∧ joined [(1, ⟨m, [], []⟩)] f.payload = some (itemSecs it) ∧
    complOf (itemSecs it).main (itemSecs it).cpl = true ∧ it.code = frTyp f.payload ∧
    (joined [(1, ⟨List.replicate 64 0#8, [], []⟩)] f.payload).map (fun x => complOf x.main x.cpl) = some false := by
  unfold RingFirst; decide +kernel

/-- A grant of term 1 to this module and to another, one of term 0; the arbiter without word of the active module; an active module cut off. -/
theorem test_witness_StandbyModuleTakesOverByTerm :
    let s := onRing 2 live
    let g (n term : Nat) := rf 6 3 0x3FF 3 (pairPay (n + 2 ^ 32 * term))
    let a := onRing 3 { live with net := { live.net with actNum := 1, stbyNum := 2, stbyHeard := some 0#64 } }
    RingFirst 0#64 4 (rf 4 3 0x3FF 3 (pairPay 3)) s ∧ payPairOk (rf 4 3 0x3FF 3 (pairPay 3)) = true ∧ getF s Reg.NET_RING_CFG_role ≠ 3 ∧
    leAt (rf 4 3 0x3FF 3 (pairPay 3)).payload 4 4 ≤ s.net.term.toNat ∧ RingFirst 0#64 6 (g 1 1) s ∧ payPairOk (g 1 1) = true ∧
    rfSrc (g 1 1) = getF s Reg.NET_RING_PEER_arb ∧ s.net.term.toNat < leAt (g 1 1).payload 4 4 ∧ leAt (g 1 1).payload 0 2 % 1024 = ringNum s ∧
    leAt (g 2 1).payload 0 2 % 1024 ≠ ringNum s ∧ leAt (g 1 0).payload 4 4 ≤ s.net.term.toNat ∧ s.net.grantsLeft = 0 ∧
    mayGrant (begin' 9999999#64 a) = true ∧ a.net.actNum ≠ 0x3FF ∧ heard (begin' 9999999#64 a) a.net.actHeard 10 = false ∧
    actPart (onRing 1 live) = ringNum (onRing 1 live) ∧ outReleased (onRing 1 live) = false ∧
    heard (begin' 1#64 (onRing 1 live)) (onRing 1 live).net.arbHeard 20 = false ∧
    heard (begin' 1#64 (onRing 1 live)) (onRing 1 live).net.partnerHeard 20 = false := by
  unfold RingFirst; decide +kernel

/-! Epochs. -/

/-- An epoch with a pending set and with none, with an order that is due at it and 1 ns late; another instant. -/
theorem test_witness_EpochsBeginCyclesAndWakePlls :
    let s := inCycle 2 (withPkg (pk [] []) {})
    let z := inCycle 1 (withPkg (pk [] []) {})
    let l := { live with la := { live.la with pllOff := [.slv] }, cyc := { live.cyc with begun := true } }
    PlainEpoch 200000000#64 s ∧ tickAt s.cyc.nextE = 200000000#64 ∧ tickAt 200000001#64 = 200000008#64 ∧ s.auth.orders = [] ∧ s.cyc.phaseStep = none ∧ s.cyc.slewTo = none ∧ s.cyc.pend = none ∧ active s = some .a ∧
    ready s .a = true ∧ actPkg s .a = some (pk [] []) ∧ (s.lane .a).bank0.actNext = false ∧ (s.lane .a).bank1.actNext = false ∧
    fusionRuns (modeNow s) (getB s Reg.JX_MODE_warm) = true ∧
    atOrAfter 200000000#64 200000000#64 = true ∧ atOrAfter 200000000#64 200000001#64 = false ∧ (s.lane .a).fus.autojoy = false ∧
    PlainEpoch 200000000#64 z ∧ z.auth.orders = [] ∧ active z = some .a ∧ ready z .a = true ∧ actPkg z .a = some (pk [] []) ∧
    (z.lane .a).bank0.actNext = false ∧ (z.lane .a).bank1.actNext = false ∧ modeNow z = .transit ∧ getB z Reg.JX_MODE_warm = false ∧
    (z.lane .a).fus.run = false ∧ outReleased z = false ∧ z.cfg.streams = [] ∧
    modeNow live = .layup ∧ outReleased s = false ∧ (200000001#64 : Time) ≠ tickAt s.cyc.nextE ∧ Engine.slv ∈ (l.lane .a).pllOff ∧
    plus 34800000#64 200000 = tickAt (plus l.cyc.e (l.cyc.cur.fusion * ms)) ∧ l.cyc.begun = true ∧ active l = some .a ∧
    Engine.cores ∉ (live.lane .a).pllOff ∧ plus (0#64 - 200000#64) 200000 = tickAt live.cyc.nextE ∧ LaneRuns l .a ∧ LaneRuns live .a := by
  unfold PlainEpoch LaneRuns; decide +kernel

/-! Time. -/

/-- Lane A with its timebase changed. -/
def Sys2Proof.Tests.tmb (f : TmbSt → TmbSt) : State := onTmb .a f pair

/-- A qualified GNSS reference with one observation; HOLDOVER; the counts of missed snapshots and epochs at their limits and below them; a clock word
that takes a Standby out of FREE; a lane that locks beside another Active one. -/
theorem test_witness_TimeFollowsItsReferences :
    let m (n : Nat) := setF Reg.TMB_STAT_src 8 .a (setF Reg.TMB_STAT_state 1 .a (tmb (fun b => { b with gnss := { b.gnss with miss := n, missSnap := n } })))
    let k := setF Reg.JX_MODE_mode 1 .a (m 3)
    let h := begin' 10000000000#64 (setF Reg.TMB_STAT_state 2 .a (tmb (fun b =>
      { b with first := false, gnss := { obs := [⟨0#64, 999, {}⟩], qual := true } })))
    LaneRuns pair .b ∧ active pair = some .a ∧ getF (m 2) Reg.JX_MODE_mode = 0 ∧ 2 ≤ ((m 2).lane .a).tmb.gnss.missSnap ∧
    ((m 1).lane .a).tmb.gnss.missSnap < 2 ∧ getF k Reg.JX_MODE_mode ≠ 0 ∧ 3 ≤ (k.lane .a).tmb.gnss.miss ∧
    ((setF Reg.JX_MODE_mode 1 .a (m 2)).lane .a).tmb.gnss.miss < 3 ∧ LaneRuns k .a ∧ active k = some .a ∧
    getF (m 2) Reg.TMB_STAT_state .b = 0 ∧ getF (setF Reg.TMB_STAT_state 1 .b pair) Reg.TMB_STAT_state .b ≠ 0 ∧
    getF (setF (Reg.TMB_TPn_CFG_mode 3) 1 .a pair) (Reg.TMB_TPn_CFG_mode 3) ≠ 0 ∧ (tpGen pair .b 3).run = false ∧ getF (m 2) Reg.TMB_STAT_state .a = 1 ∧ getF (m 2) Reg.TMB_STAT_src .a = 8 ∧
    ((m 2).lane .a).tmb.ptp.qual = false ∧ active (m 2) ≠ some .b ∧ LaneRuns h .a ∧ active h = some .a ∧ getF h Reg.TMB_STAT_state .a = 2 ∧
    holdoverRef h .a = some false ∧ (refOf (h.lane .a).tmb false).obs = [⟨0#64, 999, {}⟩] ∧ (h.lane .a).tmb.pend = none ∧
    (h.lane .a).tmb.first = false ∧ holdoverRef (begin' 9999999999#64 h) .a = none := by
  unfold LaneRuns; decide +kernel

/-- A refused step of 5 ns; a pending one at its boundary and 16 ns after it. -/
theorem test_witness_StepsMoveLocalTime :
    let r := tmb (fun b => { b with refused := some 5 })
    let p := tmb (fun b => { b with pend := some 5 })
    LaneWritable r .a ∧ active r = some .a ∧ (1#32).getLsbD 0 = true ∧ (2#32).getLsbD 0 = false ∧ (r.lane .a).tmb.refused = some 5 ∧
    (r.lane .a).tmb.pend = none ∧ (pair.lane .a).tmb.refused = none ∧ (p.lane .a).tmb.pend = some 5 ∧ LaneRuns p .a ∧
    stepDue (begin' 1000000000#64 p) .a = true ∧ stepDue (begin' 1000000016#64 p) .a = false ∧ (pair.lane .b).tmb.pend = none := by
  unfold LaneRuns LaneWritable; decide +kernel

/-- A generator that waits for its instant 0 and one that emits; captures 100 ns apart and 99; the sixteenth and the one that is lost; an edge of a
pulse of 50 ns and of 49, and the end of such a short one. -/
theorem test_witness_TimePulsesAndCaptures :
    let g (x : TpGen) := setF (Reg.TMB_TPn_CFG_free 3) 1 .a (tmb (fun b => { b with set := true, tps := Sparse.set tpDef b.tps 3 x }))
    let w := g { run := true, next := some 5 }
    let c := g { run := true, cur := some (0, 10#64) }
    let e (k : Nat) := setF (Reg.TMB_TCn_CFG_edge 7) 1 .a (tmb (fun b =>
      { b with tcs := Sparse.set tcDef b.tcs 7 (List.replicate k ⟨0#64, 0, true⟩), tcLast := Sparse.set tcLastDef b.tcLast 7 100#64 }))
    ModWritable pair .a ∧ (2#32).toNat % 4 ≠ 3 ∧ getF pair (Reg.TMB_TPn_CFG_mode 3) = 0 ∧ (2#32).toNat % 4 ≠ 0 ∧ (3#32).toNat % 4 = 3 ∧
    (4#32).toNat % 4 = 0 ∧ getF (setF (Reg.TMB_TPn_CFG_mode 3) 1 .a pair) (Reg.TMB_TPn_CFG_mode 3) ≠ 0 ∧ LaneRuns w .a ∧
    (tpGen w .a 3).run = true ∧ (tpGen w .a 3).stopping = false ∧ (tpGen w .a 3).cur = none ∧ tpEmits w .a 3 = true ∧ (tpGen w .a 3).owed = [] ∧
    (tpGen w .a 3).next = some 5 ∧ 5 ≤ ltAt w .a 5#64 ∧ ltAt w .a 4#64 < 5 ∧ (tpGen c .a 3).cur = some (0, 10#64) ∧ (tpGen c .a 3).stopping = false ∧
    (tpGen c .a 3).late = false ∧ atOrAfter 10#64 10#64 = true ∧ atOrAfter 9#64 10#64 = false ∧
    (getF (e 1) (Reg.TMB_TCn_CFG_edge 7)).testBit 0 = true ∧ (getF (e 1) (Reg.TMB_TCn_CFG_edge 7)).testBit 1 = false ∧
    100 ≤ since 200#64 (Sparse.get tcLastDef ((e 1).lane .a).tmb.tcLast 7) ∧ since 199#64 (Sparse.get tcLastDef ((e 1).lane .a).tmb.tcLast 7) < 100 ∧
    (Sparse.get tcDef ((e 15).lane .a).tmb.tcs 7).length < 16 ∧ 16 ≤ (Sparse.get tcDef ((e 16).lane .a).tmb.tcs 7).length ∧
    Sparse.get tcDef (pair.lane .a).tmb.tcs 7 = [] ∧ getF (setF (Reg.TMB_TCn_STAT_cnt 7) 1 .a (e 1)) (Reg.TMB_TCn_STAT_cnt 7) .a ≠ 0 ∧
    TcPasses 200#64 7 50 .a (e 1) ∧ ¬ TcPasses 200#64 7 49 .a (e 1) ∧ (∀ l ∈ [Lane.a, .b], TcPasses 200#64 7 50 l pair) ∧
    ¬ TcPasses 249#64 7 50 .a (onTmb .a (fun b => { b with tcSkip := [(7, 249#64)] }) (e 1)) ∧
    Sparse.get tcDef ((e 1).lane .a).tmb.tcs 7 = [⟨0#64, 0, true⟩] := by
  unfold LaneRuns ModWritable TcPasses; decide +kernel

/-! PTP. -/

/-- A message of domain 0 that answers port `n`. -/
def Sys2Proof.Tests.pm (n : Nat) : PtpMsg := ⟨1#80, 0, false, 4#16, true, 0, 0, portId n⟩

/-- An Announce of the same sender. -/
def Sys2Proof.Tests.pann : PtpAnn := ⟨1#80, 0, false, 1#64, 1, 6, 0x21, 0, 1, 0, 0x20, some 37#8⟩

/-- Port `n` enabled, in a state, with what it holds. -/
def Sys2Proof.Tests.ptpS (n st prof : Nat) (p : PtpPort) : State :=
  setF (Reg.TMB_PTPn_CFG_mo n) 0 .a <| setF (Reg.TMB_PTPn_CFG_prof n) prof .a (setF (Reg.TMB_PTPn_STAT_pst n) st .a (setF (Reg.TMB_PTPn_CFG_en n) 1 .a
    { pair with ptp := { pair.ptp with ports := Sparse.set ptpDef pair.ptp.ports n p } }))

/-- The last port as slave of the sender with a Sync and a request outstanding, as master, and measuring peer to peer. -/
theorem test_witness_PtpMeasuresAndElects : (pm 7).req = portId 7 ∧
    let q : PtpPort := { foreign := [⟨pann, 2, 0#64⟩], sync := some (4#16, 0#64, 0, 0, true), req := some (4#16, 0#64), resp := some (4#16, 0#64, 0, 0) }
    let s := ptpS 7 9 0 q
    ptpTakes s 7 0 false = true ∧ ptpState s 7 = 9 ∧ erBest s 7 = some pann ∧ pann.src = (1#80) ∧ pann.src ≠ 2#80 ∧
    (ptpPort s 7).sync = some (4#16, 0#64, 0, 0, true) ∧ ptpP2p s 7 = false ∧ (ptpPort s 7).req = some (4#16, 0#64) ∧
    (ptpPort (ptpS 7 9 0 { q with sync := some (3#16, 0#64, 0, 0, false) }) 7).sync = some (3#16, 0#64, 0, 0, false) ∧
    ptpState (ptpS 7 6 0 {}) 7 = 6 ∧ (active s).isSome = true ∧ ptpP2p (ptpS 7 9 2 q) 7 = true ∧ ptpTakes (ptpS 7 9 2 q) 7 0 false = true ∧
    (ptpPort s 7).resp = some (4#16, 0#64, 0, 0) ∧ getB (ptpS 7 6 0 {}) (Reg.TMB_PTPn_CFG_mo 7) = false ∧
    (∀ x ∈ [(⟨pann, 2, 0#64⟩ : Foreign)], (x.ann.src == 2#80) = false) ∧ (List.replicate 5 (⟨pann, 1, 0#64⟩ : Foreign)).length = 5 ∧
    (ptpPort (ptpS 7 6 0 {}) 7).foreign = [] ∧ since 5999999999#64 0#64 < annTimeout s 7 ∧ annTimeout s 7 ≤ since 6000000000#64 0#64 ∧
    ptpState (bmca (begin' 0#64 s)) 7 = 9 ∧ ptpState (bmca (begin' 0#64 (ptpS 7 6 0 {}))) 7 = 6 ∧
    ptpTakes s 7 1 false = false ∧ getB s (Reg.TMB_PTPn_CFG_en 7) = true ∧ slavePort s = some 7 ∧ slavePort s ≠ some 6 :=
  ⟨rfl, by refine ⟨?_, ?_, ?_, ?_, ?_, ?_, ?_, ?_, ?_, ?_⟩ <;> decide +kernel⟩

/-! The real-time clock. -/

/-- A calendar at its start and at its last tick. -/
def Sys2Proof.Tests.rtcS (cal : Nat) (s : State) : State := { s with rtc := { s.rtc with cal := cal } }

/-- Local time `d` ns before the calendar's start, in SYNC, tracking. -/
def Sys2Proof.Tests.trk (d : Int) : State :=
  setF Reg.TMB_STAT_state 1 .a (setF Reg.RTC_CFG_track 1 .a (tmb (fun b => { b with set := true, clk := { ofs := (946684800000000000 - d) * 2 ^ 32 } })))

/-- The last tick before the roll-over and the roll-over; a staged calendar that exists and one that does not; an alarm on every second;
an error just below 1 ms, of 1 ms, just below 1 s, of 1 s. -/
theorem test_witness_CalendarCountsAndServes :
    let st := setF Reg.RTC_WYEAR_year 0x2024 .a (setF Reg.RTC_WDATE_mon 0x02 .a (setF Reg.RTC_WDATE_day 0x29 .a pair))
    let al := setF (Reg.RTC_ALMn_CTL_mask 1) 0x3F .a (setF (Reg.RTC_ALMn_CTL_en 1) 1 .a pair)
    let er (d : Int) : Int := ((calTai (rtcTicks 0 (begin' 0#64 (trk d))) * rtcHz + calAfter 0 (trk d) % calSpan % rtcHz) * sec / rtcHz : Nat) -
      ltAt (trk d) .a 0#64
    calSpan ≤ calAfter 1 (rtcS (calSpan - 1) pair) ∧ calAfter 0 (rtcS (calSpan - 1) pair) < calSpan ∧ stagedOk st = true ∧
    stagedOk (setF Reg.RTC_WDATE_day 0x30 .a st) = false ∧ ModWritable st .a ∧ getB st (Reg.RTC_ALMn_CTL_en 0) = false ∧
    getB st (Reg.RTC_ALMn_CTL_en 1) = false ∧ ({ st with up := false } : State).up = false ∧ (0x10001#32).toNat % 2 ^ 15 ≠ 0 ∧
    (0x10001#32).getLsbD 16 = true ∧ getB (setF Reg.RTC_CFG_comp 1 .a pair) Reg.RTC_CFG_comp = true ∧ getB al (Reg.RTC_ALMn_CTL_en 1) = true ∧
    getB al (Reg.RTC_ALMn_CTL_wake 1) = false ∧ almCount (rtcTicks 0 (begin' 0#64 al)) 1 (calSec (rtcTicks 0 (begin' 0#64 al)))
      (calSec (rtcTicks 0 (begin' 0#64 al)) + 1) = 1 ∧ firedAt (rtcTicks 0 (begin' 0#64 al)) 1 = none ∧
    firedAt (rtcTicks 0 (begin' 0#64 { al with rtc := { al.rtc with fired1 := some 0 } })) 1 = some 0 ∧ decommissioned al = false ∧ calSec (rtcTicks 0 (begin' 0#64 al)) ≤ 0 ∧
    active (trk 0) = some .a ∧ getB (trk 0) Reg.RTC_CFG_track = true ∧ getF pair Reg.TMB_STAT_state .a ≠ 1 ∧ getF (trk 0) Reg.TMB_STAT_state .a = 1 ∧
    (er 999999).natAbs < ms ∧ ms ≤ (er 1000000).natAbs ∧ (er (-1000000)).natAbs < sec ∧ (er 999999999).natAbs < sec ∧ sec ≤ (er 1000000000).natAbs ∧
    calAfter 0 pair % calSpan % rtcHz = 0 ∧ (pair.lane .a).tmb.set = false ∧ calAfter 1 pair % calSpan % rtcHz ≠ 0 ∧
    CalIdle st ∧ CalIdle al ∧ CalIdle (trk 0) ∧ ({ pair with rtc := { pair.rtc with shifts := [(1, true)], load := some 0 } } : State).rtc.load = some 0 := by
  unfold ModWritable CalIdle; decide +kernel

/-! GNSS. -/

/-- Lane A's GNSS baseband powered, its last channel as given. -/
def Sys2Proof.Tests.gnb (x : GnbCh) : State :=
  setF Reg.PWR_STAT_dom 0xFFF .a (onGnb .a (fun g => { g with chs := Sparse.set chDef g.chs 159 x }) pair)

/-- The last channel in each state; each time-out reached and 1 ns before it; a port that fails and one that recovers; a data set that is
newer, and older, than the one held; a snapshot captured and processed; samples that end at a boundary and after it; a detection at the
threshold and below, and one of a LOST channel. -/
theorem test_witness_GnssChannelsAndSnapshots :
    let c (st : Nat) := gnb { st := st, hi := some 0#64, lo := some 0#64 }
    let n := { pair with la := { pair.la with gnb := { pair.la.gnb with nav := [⟨0, 1, 0, 5, []⟩], cap := some 0#64, proc := some 0#64 } } }
    let b := gnb { sig := 2, sat := 1, st := 3, chip := 10229, codFrac := 0xFFFFFFFF#32, cod := 1#32 }
    let q (st : Nat) := gnb { sig := 2, sat := 1, st := st }
    let d : Detection := ⟨0#32, 10229, 0xFFFFFFFF#32, 0x4043000000000000#64, 20⟩
    let p := setF (Reg.GNB_IFn_CFG_en 3) 1 .a (c 0)
    LaneRuns (c 2) .a ∧ gnbOn (c 2) .a = true ∧ (gch (c 2) .a 159).st = 2 ∧ (gch (c 3) .a 159).st = 3 ∧ (gch (c 1) .a 159).st < 2 ∧
    (gch (c 4) .a 159).st = 4 ∧ sec ≤ since 1000000000#64 (gch (c 2) .a 159).tIn ∧ since 999999999#64 (gch (c 2) .a 159).tIn < sec ∧
    (gch (c 2) .a 159).hi = some 0#64 ∧ 100 * ms ≤ since 100000000#64 0#64 ∧ since 99999999#64 0#64 < 100 * ms ∧
    (gch (c 3) .a 159).lo = some 0#64 ∧ 200 * ms ≤ since 200000000#64 0#64 ∧ (gch (gnb { st := 3 }) .a 159).lo = none ∧
    (gch (gnb { st := 3 }) .a 159).low = none ∧ 5 * sec ≤ since 5000000000#64 (gch (c 4) .a 159).tIn ∧
    since 4999999999#64 (gch (c 4) .a 159).tIn < 5 * sec ∧ getB p (Reg.GNB_IFn_CFG_en 3) = true ∧ getB p (Reg.GNB_IFn_STAT_fault 3) .a = false ∧
    getB pair (Reg.GNB_IFn_CFG_en 3) = false ∧ getB (setF (Reg.GNB_IFn_STAT_fault 3) 1 .a p) (Reg.GNB_IFn_STAT_fault 3) .a = true ∧
    (∀ y ∈ (n.lane .a).gnb.nav ++ (n.lane .a).gnb.navNew, (y.sys == 0 && y.sat == 1 && y.kind == 0) = true → y.issue ≤ 5) ∧
    (⟨0, 1, 0, 5, []⟩ : NavRec) ∈ (n.lane .a).gnb.nav ++ (n.lane .a).gnb.navNew ∧ 4 < 5 ∧ (n.lane .a).gnb.cap = some 0#64 ∧ modeNow n = .layup ∧
    getF n Reg.GNB_SNAP_len * ms ≤ since (BitVec.ofNat 64 (getF n Reg.GNB_SNAP_len * ms)) 0#64 ∧ (n.lane .a).gnb.proc = some 0#64 ∧
    (pair.lane .a).gnb.proc = none ∧ leavesLayup n = false ∧
    atBoundary (gch b .a 159) (parNow b .a (gch b .a 159) 159) 1 = true ∧ atBoundary (gch b .a 159) (parNow b .a (gch b .a 159) 159) 2 = false ∧
    detects (begin' 0#64 (q 1)) .a 159 d = true ∧ detects (begin' 4999999999#64 (q 4)) .a 159 d = true ∧
    detects (begin' 0#64 (q 1)) .a 159 { d with cn0 := 0x4042FFFFFFFFFFFF#64 } = false ∧ 5 * sec ≤ since 5000000000#64 (gch (q 4) .a 159).tIn ∧
    F64.lt 0x403FFFFFFFFFFFFF#64 (F64.ofInt 32) = true := by
  unfold LaneRuns; decide +kernel

/-! Metrology. -/

/-- An acquisition port in a state, with what it holds. -/
def Sys2Proof.Tests.apS (st : Nat) (a : ApSt) : State :=
  setF (Reg.MET_APn_STAT_state 23) st .a (onMet .a (fun m => { m with aps := Sparse.set apDef m.aps 23 a }) pair)

/-- The line bits, after a history of zeros, of a frame of zeros with its marker, sequence 0 and CRC (R218, R220, R221; worked by hand). -/
def Sys2Proof.Tests.apBits : BitVec 288 := 0x4000b400030001a000110000e000340002c000600001000090000a000100000400020000#288

/-- A frame that fails and a good one; the third bad one; each state; a delay of 16 and of 15; the settling time reached and 1 ns before. -/
theorem test_witness_AcquisitionPortsLock :
    let e := setF (Reg.MET_CHn_CFG_en 191) 1 .a (apS 3 { okAt := some 0#64 })
    LaneRuns (apS 3 {}) .a ∧ getF (apS 2 {}) (Reg.MET_APn_STAT_state 23) .a = 2 ∧ getF (apS 3 {}) (Reg.MET_APn_STAT_state 23) .a = 3 ∧
    getF (apS 1 {}) (Reg.MET_APn_STAT_state 23) .a = 1 ∧ frameOk {} 0#288 = false ∧ frameOk {} apBits = true ∧ (apSt (apS 3 { bad := 1 }) .a 23).bad < 2 ∧
    2 ≤ (apSt (apS 3 { bad := 2 }) .a 23).bad ∧ ModWritable pair .a ∧ lockRefuses pair = false ∧ (33#32).getLsbD 0 = true ∧
    16 ≤ (33#32).toNat / 2 % 256 ∧ (31#32).toNat / 2 % 256 < 16 ∧ (32#32).getLsbD 0 = false ∧ getB pair (Reg.MET_APn_CFG_en 23) = false ∧
    getB (setF (Reg.MET_APn_CFG_en 23) 1 .a pair) (Reg.MET_APn_CFG_en 23) = true ∧ getB e (Reg.MET_CHn_CFG_en 191) = true ∧
    (apSt e .a (191 / 8)).okAt = some 0#64 ∧ settleNs e 191 ≤ since (BitVec.ofNat 64 (settleNs e 191)) 0#64 ∧
    since (BitVec.ofNat 64 (settleNs e 191 - 1)) 0#64 < settleNs e 191 ∧ (apSt pair .a (191 / 8)).okAt = none := by
  unfold LaneRuns ModWritable; decide +kernel

/-! Energy, loops and streams. -/

/-- A channel valid since 0 with the outputs its samples referred to 125 µs need. -/
def Sys2Proof.Tests.metC : MetCh :=
  let x : Strm := { outs := (List.range 97).map (fun (i : Nat) => ⟨(i : Int) - 44, 0, false⟩) }
  { lo := x, hi := x, from' := some 0#64 }

/-- Lane A whose channels 190 and 191 are valid, with one point. -/
def Sys2Proof.Tests.metS (c : PointCfg) : State :=
  onMet .a (fun m => { m with chs := [(190, metC), (191, metC)] })
    (setF (Reg.MET_CHn_STAT_valid 190) 1 .a (setF (Reg.MET_CHn_STAT_valid 191) 1 .a (setF (Reg.MET_CHn_CFG_en 190) 1 .a
      (setF (Reg.MET_CHn_CFG_en 191) 1 .a { pair with cfg := { pair.cfg with points := [(95, c)] } }))))

/-- A DC point and an AC point with all channels, and one with a channel that has none; a pulse ended and not; a whole second and 1 ns more; a window
of 20,000 samples (10,000 of each of two values, by hand) and of one less, its constants in and out of limit; the last point and the first
that does not exist. -/
theorem test_witness_EnergyIsAccumulatedAndBilled :
    let d := metS ⟨4, [190, 191], false⟩
    let a := metS ⟨3, [190, 191], true⟩
    let p := onMet .a (fun m => { m with pos := Sparse.set metPoDef m.pos 7 { busy := some 5#64 } }) pair
    let k (x : F64) := { pair with cfg := { pair.cfg with cals := [(191, ⟨0x3FF0000000000000#64, 0#64, 0#64, 0x3FF0000000000000#64, 0#64, x, 0#64, 0#64⟩)] } }
    let out (x : F64) := Dy.lt (dyAbs (F64.val x))
      ((dyAbs ((F64.val (moveBy (calOf (k x) 191).aL 0x3FF0000000000000#64 (dyAbs (F64.val (calOf (k x) 191).aL)) 100000)).add (F64.val x).neg)).mul ⟨200, 0⟩)
    let f : FitSum := ⟨20000, ⟨30000, 0⟩, ⟨30000, -4⟩, ⟨50000, 0⟩, ⟨50000, -4⟩⟩
    (SampleAt 10125000#64 .a 95 ⟨4, [190, 191], false⟩ d ∧ SampleAt 10125000#64 .a 95 ⟨3, [190, 191], true⟩ a) ∧ (metPt d .a 95).gapAt = none ∧
    sampleOk 10125000#64 .a d 190 = true ∧ sampleOk 10125000#64 .a a 191 = true ∧ sampleOk 10125000#64 .a a 189 = false ∧
    sampleOk 10000000#64 .a { d with la := { d.la with met := { d.la.met with chs := [] } } } 190 = false ∧
    (10125001#64 - BitVec.ofNat 64 (10 * ms) : Time).toNat % 125000 ≠ 0 ∧
    (metPo p .a 7).busy = some 5#64 ∧ atOrAfter 5#64 5#64 = true ∧ atOrAfter 4#64 5#64 = false ∧ LaneRuns p .a ∧
    (1010000000#64 - BitVec.ofNat 64 (10 * ms) : Time).toNat % sec = 0 ∧ (1010000001#64 - BitVec.ofNat 64 (10 * ms) : Time).toNat % sec ≠ 0 ∧
    (pair.lane .a).met.loaded = true ∧ getB (k 0#64) (Reg.MET_CHn_STAT_calf 191) .a = false ∧
    rangeFit 16 f = some (0x3FF0000000000000#64, 0#64) ∧ max 1 (getF pair (Reg.MET_CHn_CFG_g 191)) = 16 ∧ rangeFit 16 { f with n := 19999 } = none ∧
    getB (setF Reg.MET_STAT_ldr 1 .b pair) Reg.MET_STAT_ldr .b = true ∧ getB (setF Reg.MET_STAT_ldr 0 .b pair) Reg.MET_STAT_ldr .b = false ∧ active pair = some .a ∧
    out 0x3FF0000000000000#64 = false ∧ out 0#64 = true ∧ (0x15F#32).toNat % 128 ≤ 95 ∧ (0x15F#32).getLsbD 8 = true ∧ 95 < (0x160#32).toNat % 128 ∧
    LaneWritable pair .a := by
  unfold SampleAt LaneRuns LaneWritable
  refine ⟨⟨⟨by decide +kernel, by decide +kernel, by decide +kernel, by decide +kernel, by decide +kernel, by decide +kernel, by decide +kernel,
    ?_⟩, by decide +kernel, by decide +kernel, by decide +kernel, by decide +kernel, by decide +kernel, by decide +kernel, by decide +kernel,
    ?_⟩, by decide +kernel⟩ <;>
  · intro x hx; have h : (some x).isNone = true := by rw [← hx]; decide +kernel
    cases h

/-- Slot 255 in a mode: law 1 without back-calculation, a period of 10 ms, a dispatch value of age at most 1000 ms as measurement. -/
def Sys2Proof.Tests.lpS (mode : Nat) (disp : List (Nat × List DispVal)) : State :=
  setF (Reg.LPE_SLn_STAT_mode 255) mode .a (inCycle 2 { pair with
    cfg := { pair.cfg with loops := [(255, [0#8, 0#8, 1#8, 4#8, 100#8, 0#8, 0#8, 0#8, 0#8, 0#8, 0#8, 0#8, 0xE8#8, 3#8, 0#8, 0#8, 4#8, 0#8, 0#8, 0#8, 7#8] ++
      List.replicate 40 0#8)] },
    la := { pair.la with hri := { pair.la.hri with disp := disp }, lpe := { pair.la.lpe with slots := Sparse.set slotDef [] 255 { from' := 2 } } } })

/-- The dispatch values 1 and 2^1010, which is too big. -/
def Sys2Proof.Tests.dv (x : F64) : List (Nat × List DispVal) := [(7, [⟨0#64, x, 0, true⟩])]

/-- LoopSampleAt is met in time and late. -/
theorem test_witness_LoopSampleAt : LoopSampleAt 10000000#64 .a 255 10000000#64 (lpS 2 (dv 0x3FF0000000000000#64)) ∧
    LoopSampleAt 20050500#64 .a 255 10000000#64 (lpS 1 []) := by
  unfold LoopSampleAt LaneRuns; decide +kernel

/-- A slot whose outer slot has a sample at the same instant, and a sample that comes after a later one. -/
theorem test_witness_LoopOrder :
    let s := lpS 2 (dv 0x3FF0000000000000#64)
    let rec' (k : Nat) (w : List Byte) : List Byte := [BitVec.ofNat 8 k, 0#8, 1#8, 4#8, 100#8] ++ List.replicate 7 0#8 ++ [0xE8#8, 3#8] ++
      List.replicate 10 0#8 ++ w ++ List.replicate 32 0#8
    let o : State := setF (Reg.LPE_SLn_STAT_mode 3) 2 .a { s with cfg := { s.cfg with loops :=
      [(3, rec' 3 (List.replicate 8 0#8)), (255, rec' 255 [3#8, 0#8, 2#8, 0#8, 3#8, 0#8, 0#8, 0#8])] } }
    let z : State := { s with la := { s.la with lpe := { s.la.lpe with last := some (20000000#64, 1, 100, 255) } } }
    sampleDue (begin' 10000000#64 o) .a 255 10000000#64 = true ∧ outersAt (begin' 10000000#64 o) .a 10000000#64 4 255 = [3] ∧
    lawOf z 255 ≠ 0 ∧ sampleDue (begin' 20000000#64 z) .a 255 10000000#64 = true ∧ inOrder z .a 255 10000000#64 = false ∧
    outersAt (begin' 20000000#64 z) .a 10000000#64 4 255 = [] ∧ dueLoops z.auth 255 10000000#64 = [] ∧ isActive z .a = true ∧
    since 20000000#64 10000000#64 < periodOf z 255 * 100000 + 500 * lawOf z 255 ∧
    atOrAfter 10000000#64 { z.la.lpe with start := 10000001#64 }.start = false := by decide +kernel

/-- Samples in AUTO with a fresh measurement, one too big, and none; in MAN; started in time and at the next instant; a command that is due. -/
theorem test_witness_LoopsTracesAndStreams :
    let s := lpS 2 (dv 0x3FF0000000000000#64)
    let q : State := { s with auth := { s.auth with orders := [⟨.loop 255 (.mode 0), 2, 0#64, 10000000#64, 0⟩] } }
    let c : StreamCfg := {
      port := 3, dport := 5000, lidar := true, ofsCounter := 0, ofsIndex := 2, packets := 2, clk := .none', tf := 100000000, lat := 0,
      width := 64, height := 64, extractor := 7 }
    let w := setF Reg.PWR_STAT_dom 0xFFF .a { pair with cfg := { pair.cfg with streams := [(7, c)] } }
    since 10000000#64 10000000#64 < periodOf s 255 * 100000 + 500 * lawOf s 255 ∧
    periodOf s 255 * 100000 + 500 * lawOf s 255 ≤ since 20000500#64 10000000#64 ∧ since 20000499#64 10000000#64 < periodOf s 255 * 100000 + 500 * lawOf s 255 ∧
    modeSl s .a 255 = 2 ∧ (slotSt s .a 255).from' = 2 ∧ trackRef s .a 255 = none ∧ srcFresh s .a 255 (srcY s 255) 10000000#64 = some 0x3FF0000000000000#64 ∧
    (srcF s 255).cls = 0 ∧ srcFresh (lpS 2 []) .a 255 (srcY s 255) 10000000#64 = none ∧ modeSl (lpS 1 []) .a 255 = 1 ∧
    active q = some .a ∧ sampleDue (begin' 10000000#64 q) .a 255 10000000#64 = true ∧ (slotSt q .a 255).inst = none ∧
    outersAt (begin' 10000000#64 q) .a 10000000#64 4 255 = [] ∧ atOrAfter 10000000#64 10000000#64 = true ∧ modeNow pair = .layup ∧ onGrid s 255 10000001#64 = false ∧ LaneWritable pair .a ∧
    (1#32).getLsbD 0 = true ∧ (1#32).getLsbD 1 = false ∧ (2#32).getLsbD 0 = false ∧ (2#32).getLsbD 1 = true ∧ trcState pair .a ≠ 1 ∧
    trcState (setF Reg.LPE_TRC_STAT_state 2 .a pair) .a = 2 ∧ LaneRuns w .a ∧ sensorPortsOn w = true ∧ w.cfg.streams = [(7, c)] ∧
    c.ofsIndex + 2 ≤ ([0#8, 0#8, 1#8, 0#8] : List Byte).length ∧ 1 < c.packets ∧ (strSt w .a 7).open' = false ∧
    (strSt w .a 7).lastCtr ≠ some (leAt ([0#8, 0#8, 1#8, 0#8] : List Byte) 0 2) ∧
    (strSt (setStr .a 7 { strSt w .a 7 with lastCtr := some 0 } w) .a 7).lastCtr = some (leAt ([0#8, 0#8, 1#8, 0#8] : List Byte) 0 2) ∧
    sensorPortsOn pair = false := by
  unfold LaneRuns LaneWritable; decide +kernel

/-- A result in range and one that is too big. -/
theorem test_witness_badRes : let s := lpS 2 (dv 0x3FF0000000000000#64)
    badRes (lawStep s .a 255 (bankSl s .a 255) (slotSt s .a 255) ⟨0x3FF0000000000000#64, (setpointAt s .a 255 10000000#64).1, none,
      (setpointAt s .a 255 10000000#64).2⟩ none) = false ∧
    badRes (lawStep s .a 255 (bankSl s .a 255) { slotSt s .a 255 with x1 := 0x7F00000000000000#64, i := 0x7F00000000000000#64 }
      ⟨0x7F00000000000000#64, (setpointAt s .a 255 10000000#64).1, none, (setpointAt s .a 255 10000000#64).2⟩ none) = true := by decide +kernel

/-! Orders. -/

/-- Whether an order is taken (Taken), and its information and the state with it taken pass a test. -/
def Sys2Proof.Tests.takes (i : Instr) (s : State) (p : OrdInfo → State → Bool) : Bool :=
  match orderRow i with
  | none => false
  | some (t, o, cls, op, used, pairs, lc) =>
    match arrive o (begin' t s) with
    | (some info, s0) => s.up && (headErr o cls op used).isNone && (rightErr s0 o info.station cls op lc).isNone &&
        pairs.all (fun q => bodyPair o q.1 q.2.1 q.2.2) && p info s0
    | _ => false

/-- What `takes` says: a witness of Taken. -/
theorem takes_sound {i : Instr} {s : State} {p : OrdInfo → State → Bool} (h : takes i s p = true) :
    ∃ info s0, Taken i info s s0 ∧ p info s0 = true := by
  unfold takes at h
  split at h
  · cases h
  · rename_i t o cls op used pairs lc hr
    split at h
    · rename_i info s0 ha
      simp only [Bool.and_eq_true, Option.isNone_iff_eq_none, List.all_eq_true] at h
      obtain ⟨⟨⟨⟨h1, h2⟩, h3⟩, h4⟩, h5⟩ := h
      exact ⟨info, s0, ⟨t, o, cls, op, used, pairs, lc, hr, h1, ha, h2, h3, h4⟩, h5⟩
    · cases h

/-- A descriptor from Ring 0 of Lane A with its CRC and complement. -/
def Sys2Proof.Tests.ord (cls op : Byte) (body : Nat) : Order :=
  let o : Order := ⟨.pcie .a 0, cls, op, 0#16, 5#32, 0#64, crc32c (leBytes 40 (BitVec.ofNat 320 body).toNat), 0#32, BitVec.ofNat 320 body⟩
  { o with cpl := ~~~(orderHead o) }

/-- A body's first pair, and the pair of an 8-byte value at byte 8. -/
def Sys2Proof.Tests.pr (x : Nat) : Nat := x + (0xFFFFFFFF - x) * 2 ^ 32
def Sys2Proof.Tests.prV (x : Nat) : Nat := 2 ^ 64 * x + 2 ^ 128 * (2 ^ 64 - 1 - x)

/-- Ring 0 of Lane A on with an entry, its completion Ring 1 on, every station enabled, station 0 holding authority. -/
def Sys2Proof.Tests.host (s : State) : State :=
  setF (Reg.HRI_RGn_CFG_en 0) 1 .a (setF (Reg.HRI_RGn_CFG_cring 0) 1 .a (setF (Reg.HRI_RGn_STAT_state 0) 1 .a (setF (Reg.HRI_RGn_HOST_idx 0) 2 .a
   (setF (Reg.HRI_RGn_CFG_en 1) 1 .a (setF (Reg.HRI_RGn_CFG_kind 1) 1 .a (setF (Reg.HRI_RGn_STAT_state 1) 1 .a
     (setF Reg.HRI_AUTH_CFG_sten 0xFF .a { s with auth := { s.auth with holder := some 0 } })))))))

/-- An order not served, a complement, CRC and class that fail, a station without authority, a pair that fails. -/
theorem test_witness_OrdersAreCheckedInOrder :
    let o := ord 1#8 1#8 (pr 0)
    let f := ord 1#8 1#8 0
    (arrive o (begin' 0#64 pair)).1 = none ∧ (arrive o (begin' 0#64 (host pair))).1.isSome = true ∧
    headErr { o with cpl := 0#64 } 1 1 [(0, 16), (32, 32)] = some Code.BADPAIR ∧ headErr { o with crc := 0#32 } 1 1 [(0, 16), (32, 32)] = some Code.BADCRC ∧
    headErr o 1 2 [(0, 16), (32, 32)] = some Code.BADCLASS ∧ headErr o 1 1 [(0, 16), (32, 32)] = none ∧
    rightErr (host pair) o 1 1 1 false = some Code.CONFLICT ∧ rightErr (host pair) o 0 1 1 false = none ∧
    headErr f 1 1 [(0, 16), (32, 32)] = none ∧ bodyPair f 0 4 4 = false := by decide +kernel

/-- A setpoint of value `x`, and the state with one pending from station `st`. -/
def Sys2Proof.Tests.spO (x : Nat) : Order := ord 1#8 2#8 (pr 7 + prV x)
def Sys2Proof.Tests.spP (st : Nat) (v : Nat) : State :=
  let s := host pair
  { s with auth := { s.auth with orders := [⟨.sp 7#32 (some (BitVec.ofNat 64 v)), st, 1#64, 5000001#64, 3⟩] },
           waits := [⟨3, ⟨.net 3, 1#8, 0#32, false, 0, 1#64, 3, 0⟩, 0#64, 0#32, false, none⟩] }

/-- Modes that may be entered and not; setpoints that stand alone, conflict with a station's, follow one's own, and are not finite. -/
theorem test_witness_OrdersPendUntilTheirInstant_modes :
    takes (.mode 0#64 (ord 1#8 1#8 (pr 0))) (host pair) (fun _ s0 => modeRefused s0 .layup false == none && (host pair).auth.orders == []) = true ∧
    takes (.mode 0#64 (ord 1#8 1#8 (pr 1))) (host pair) (fun _ s0 => modeRefused s0 .transit false != none) = true ∧
    takes (.setpoint 1#64 (spO 5)) (host pair) (fun _ _ => finite 5#64) = true ∧
    takes (.setpoint 1#64 (spO 5)) (spP 3 6) (fun info s0 => (spP 3 6).auth.orders.all (fun p =>
      contradicts s0 info.station (.sp 7#32 (some 5#64)) (plus info.tAcc (5 * ms)) p && stands p 2#64 info.station)) = true ∧
    takes (.setpoint 2#64 (spO 5)) (spP 3 6) (fun info s0 => (spP 3 6).auth.orders.all (fun p =>
      contradicts s0 info.station (.sp 7#32 (some 5#64)) (plus info.tAcc (5 * ms)) p && stands p info.tAcc info.station)) = true ∧
    takes (.setpoint 1#64 (spO 5)) (spP 0 6) (fun info _ => (spP 0 6).auth.orders.all (fun p =>
      p.stn == info.station && p.val.item == (1, 7) && (spP 0 6).waits.all (fun w => w.tkt == p.tkt))) = true ∧
    takes (.setpoint 1#64 (spO 0x7FF0000000000000)) (host pair) (fun _ _ => !finite 0x7FF0000000000000#64) = true := by decide +kernel

/-- A verified bank 1 and an arm of it; one refused; a disarm with an arm pending that the epoch leaves 20 ms for, and 1 ns less, and none. -/
theorem test_witness_OrdersPendUntilTheirInstant_arms :
    let b := setF Reg.SLV_PKG_BANK_st1 2 .a (host live)
    let p := fun (e : Time) => 
      { host live with auth := { (host live).auth with orders := [⟨.arm false 1 none, 0, 0#64, 0#64, 3⟩] }, cyc := { live.cyc with nextE := e },
                       waits := [⟨3, ⟨.net 3, 1#8, 0#32, false, 0, 1#64, 3, 0⟩, 0#64, 0#32, true, none⟩] }
    takes (.arm 0#64 (ord 1#8 3#8 (pr 256))) b (fun _ s0 => armRefused s0 .a false 1 == none && active b == some .a && b.auth.orders == []) = true ∧
    takes (.arm 0#64 (ord 1#8 3#8 (pr (256 + 65536) + 2 ^ 128 * 999999999))) b (fun _ s0 => armRefused s0 .a false 1 == none) = true ∧
    takes (.arm 0#64 (ord 1#8 3#8 (pr 256))) (host live) (fun _ s0 => armRefused s0 .a false 1 == some (Code.STATE, 0x12)) = true ∧
    takes (.disarm 0#64 (ord 1#8 4#8 (pr 0))) (host live) (fun _ _ => (host live).auth.orders == []) = true ∧
    takes (.disarm 0#64 (ord 1#8 4#8 (pr 0))) (p 20000000#64) (fun info s0 =>
      atOrAfter (epochOf s0 (dueIdx s0 (.arm false 1 none) 0#64)) (plus info.tAcc (20 * ms)) && standby (p 20000000#64) == none) = true ∧
    takes (.disarm 0#64 (ord 1#8 4#8 (pr 0))) (p 19999999#64) (fun info s0 =>
      !atOrAfter (epochOf s0 (dueIdx s0 (.arm false 1 none) 0#64)) (plus info.tAcc (20 * ms))) = true := by decide +kernel

/-- Trust of the last slot and of the first that does not exist; a datum in Joystick and in Lay-up; swap and release. -/
theorem test_witness_OrdersPendUntilTheirInstant_names :
    let j := host (inCycle 4 pair)
    takes (.trust 0#64 (ord 1#8 9#8 (pr 15))) j (fun _ _ => j.auth.orders == []) = true ∧ takes (.trust 0#64 (ord 1#8 9#8 (pr 16))) j (fun _ _ => true) = true ∧
    takes (.trustclr 0#64 (ord 1#8 10#8 0)) j (fun _ _ => true) = true ∧ takes (.datum 0#64 (ord 1#8 11#8 0)) j (fun _ _ => modeNow j == .joystick) = true ∧
    takes (.datum 0#64 (ord 1#8 11#8 0)) (host pair) (fun _ _ => modeNow pair == .layup) = true ∧ takes (.swap 0#64 (ord 1#8 12#8 0)) j (fun _ _ => true) = true ∧
    takes (.release 0#64 (ord 2#8 4#8 0)) j (fun _ _ => true) = true := by decide +kernel

/-- The last slot with a record and mode, and one without; values in and out of range. -/
theorem test_witness_OrdersPendUntilTheirInstant_loops :
    let s := host (lpS 1 [])
    takes (.loopMode 0#64 (ord 1#8 5#8 (pr (255 + 65536 * 2)))) s (fun _ _ => lawOf s 255 != 0 && modeSl s .a 255 != 0 && active s == some .a) = true ∧
    takes (.loopMode 0#64 (ord 1#8 5#8 (pr (254 + 65536 * 2)))) s (fun _ _ => lawOf s 254 == 0) = true ∧
    takes (.loopMan 0#64 (ord 1#8 6#8 (pr 255 + prV 0))) s (fun _ _ => true) = true ∧ takes (.loopMan 0#64 (ord 1#8 6#8 (pr 256 + prV 0))) s (fun _ _ => true) = true ∧
    takes (.loopSp 0#64 (ord 1#8 7#8 (pr 255 + prV 0))) s (fun _ _ => true) = true ∧ takes (.loopSp 0#64 (ord 1#8 7#8 (pr 256 + prV 0))) s (fun _ _ => true) = true ∧
    takes (.loopBank 0#64 (ord 1#8 8#8 (pr (255 + 65536)))) s (fun _ _ => s.auth.orders == []) = true := by decide +kernel

/-- A lane that is Active, one that is off, one that is ready; life-cycle transitions allowed and not, in Lay-up and outside it, with an update;
SEAL with the committed digest and without. -/
theorem test_witness_OrdersActAtOnce :
    let h := host pair
    let off := { h with lb := { h.lb with ph := .off } }
    let q := fun (s : State) => 
      { s with auth := { s.auth with req := some ⟨3, 0#64, 3⟩ },
               waits := [⟨3, ⟨.net 3, 2#8, 0#32, false, 0, 1#64, 3, 0⟩, 0#64, 0#32, true, none⟩] }
    let x := { h with auth := { h.auth with expert := some 0#64 } }
    takes (.laneReset 0#64 (ord 1#8 13#8 (pr 0))) h (fun _ _ => active h == some .a) = true ∧
    takes (.laneReset 0#64 (ord 1#8 13#8 (pr 1))) off (fun _ _ => (off.lane .b).ph == .off) = true ∧
    takes (.laneReset 0#64 (ord 1#8 13#8 (pr 1))) h (fun _ _ => (h.lane .b).ph == .ready) = true ∧
    takes (.lifecycle 0#64 (ord 1#8 14#8 (pr 1 + 2 ^ 192 * (2 ^ 128 - 1)))) h (fun _ _ => lcAllowed (getF h Reg.UPD_LCS_state) 1 && modeNow h == .layup &&
      getF h Reg.UPD_SEQ_step == 0) = true ∧
    takes (.lifecycle 0#64 (ord 1#8 14#8 (pr 2 + 2 ^ 192 * (2 ^ 128 - 1)))) h (fun _ _ => !lcAllowed (getF h Reg.UPD_LCS_state) 2) = true ∧
    takes (.lifecycle 0#64 (ord 1#8 14#8 (pr 4 + 2 ^ 192 * (2 ^ 128 - 1)))) (host (inCycle 2 pair)) (fun _ _ => true) = true ∧
    takes (.lifecycle 0#64 (ord 1#8 14#8 (pr 4 + 2 ^ 192 * (2 ^ 128 - 1)))) (setF Reg.UPD_SEQ_step 1 .a h) (fun _ _ => true) = true ∧
    takes (.seal 0#64 (ord 1#8 15#8 0)) h (fun _ _ => !getB h Reg.UPD_LCS_seal) = true ∧
    takes (.fwActivate 0#64 (ord 1#8 16#8 (pr 1 + 2 ^ 128 * 999999999))) (setF ⟨Reg.UPD_KSLOTn 1, 16, 3, false⟩ 2 .a h) (fun _ _ =>
      (slotIn (setF ⟨Reg.UPD_KSLOTn 1, 16, 3, false⟩ 2 .a h) .a true 2).isSome && !getB h Reg.UPD_LCS_chg) = true ∧
    takes (.fwCancel 0#64 (ord 1#8 17#8 0)) h (fun _ _ => true) = true ∧ takes (.fwCancel 0#64 (ord 1#8 17#8 0)) (setF Reg.UPD_SEQ_step 1 .a h) (fun _ _ => true) = true ∧
    takes (.fwCancel 0#64 (ord 1#8 17#8 0)) (setF Reg.UPD_SEQ_step 2 .a h) (fun _ _ => true) = true ∧
    takes (.request 0#64 (ord 2#8 1#8 0)) h (fun info _ => h.auth.holder == some info.station) = true ∧
    takes (.request 0#64 (ord 2#8 1#8 0)) { q h with auth := { (q h).auth with holder := some 4 } } (fun info _ => info.station != 4) = true ∧
    takes (.request 0#64 (ord 2#8 1#8 0)) { h with auth := {} } (fun _ _ => true) = true ∧
    takes (.request 0#64 (ord 2#8 1#8 0)) { h with auth := { holder := some 4 } } (fun info _ => info.station != 4) = true ∧
    takes (.grant 0#64 (ord 2#8 2#8 3)) (q h) (fun _ _ => true) = true ∧ takes (.grant 0#64 (ord 2#8 2#8 4)) (q h) (fun _ _ => true) = true ∧
    takes (.grant 0#64 (ord 2#8 2#8 7)) h (fun _ _ => h.auth.req == none) = true ∧
    takes (.deny 0#64 (ord 2#8 3#8 3)) (q h) (fun _ _ => standby (q h) == some .b) = true ∧ takes (.deny 0#64 (ord 2#8 3#8 7)) h (fun _ _ => true) = true ∧
    takes (.keepalive 0#64 (ord 2#8 5#8 0)) h (fun _ _ => true) = true ∧ takes (.expertOn 0#64 (ord 2#8 6#8 0)) h (fun _ _ => true) = true ∧
    takes (.expertOff 0#64 (ord 2#8 7#8 0)) h (fun _ _ => h.auth.expert == none) = true ∧ takes (.expertOff 0#64 (ord 2#8 7#8 0)) x (fun _ _ => true) = true ∧
    60 * sec ≤ since 60000000000#64 0#64 ∧ since 59999999999#64 0#64 < 60 * sec ∧ (q h).auth.holder = some 0 ∧
    getF (q h) Reg.HRI_AUTH_CFG_tmo * sec ≤ since (BitVec.ofNat 64 (getF (q h) Reg.HRI_AUTH_CFG_tmo * sec)) (q h).auth.lastSign ∧
    getF x Reg.HRI_AUTH_CFG_xmax * 60 * sec ≤ since (BitVec.ofNat 64 (getF x Reg.HRI_AUTH_CFG_xmax * 60 * sec)) 0#64 ∧
    0 < getF (q h) Reg.HRI_AUTH_CFG_tmo * sec ∧ 0 < getF x Reg.HRI_AUTH_CFG_xmax * 60 * sec := by decide +kernel

/-! Data orders. -/

/-- The body of an order that names a buffer: a field in bytes 0-7, its length and CRC. -/
def Sys2Proof.Tests.bufBody (x : Nat) (bs : List Byte) : Nat := x + 2 ^ 128 * bs.length + 2 ^ 160 * (crc32c bs).toNat

/-- Posts in range and just out of it; the bad CRC of a buffer. -/
theorem test_witness_DataOrdersAreServed_posts : let h := host pair
    takes (.dispatch 0#64 (ord 3#8 1#8 (pr 7 + prV 5 + 2 ^ 192 * 60000 + 2 ^ 224))) h (fun _ _ => finite 5#64) = true ∧
    takes (.dispatch 0#64 (ord 3#8 1#8 (pr 7 + prV 5 + 2 ^ 192 * 60001))) h (fun _ _ => true) = true ∧
    takes (.dispatch 0#64 (ord 3#8 1#8 (pr 7 + prV 0x7FF0000000000000 + 2 ^ 224))) h (fun _ _ => !finite 0x7FF0000000000000#64) = true ∧
    takes (.postReference 0#64 (ord 3#8 2#8 (7 + 256 + 2 ^ 224 * 0x3F800000 + 2 ^ 256 * 0x3F800000))) h (fun _ _ => sigmaOk 0x3F800000#32 && finite 0#64) = true ∧
    takes (.postReference 0#64 (ord 3#8 2#8 (8 + 256))) h (fun _ _ => !sigmaOk 0#32) = true ∧
    takes (.postReference 0#64 (ord 3#8 2#8 (7 + 512 + 2 ^ 224 * 0x3F800000))) h (fun _ _ => sigmaOk 0x3F800000#32) = true ∧
    takes (.postReference 0#64 (ord 3#8 2#8 (7 + 512 + 2 ^ 160 + 2 ^ 224 * 0x3F800000))) h (fun _ _ => true) = true ∧
    takes (.postReference 0#64 (ord 3#8 2#8 (7 + 256 + 2 ^ 160 * 0x7FF0000000000000 + 2 ^ 224 * 0x3F800000))) h
      (fun _ _ => !finite 0x7FF0000000000000#64) = true ∧
    takes (.aidNav 0#64 (ord 3#8 3#8 (bufBody (7 + 2 ^ 16 * 4) [1#8])) ⟨true, [1#8]⟩) h (fun _ _ => true) = true ∧
    takes (.aidNav 0#64 (ord 3#8 3#8 (bufBody (7 + 2 ^ 16 * 4) [1#8])) ⟨true, [2#8]⟩) h (fun _ _ => crc32c [2#8] != crc32c [1#8]) = true ∧
    takes (.aidPos 0#64 (ord 3#8 4#8 (2 ^ 192 * 0x3F800000))) h (fun _ _ => finite 0#64) = true ∧ takes (.aidPos 0#64 (ord 3#8 4#8 0)) h (fun _ _ => true) = true ∧
    (∀ x ∈ [640, 1023, 639, 1024], takes (.event 0#64 (ord 3#8 5#8 (pr x))) h (fun _ _ => true) = true) := by decide +kernel

/-- Block 0 and block 1 of each load in bank or slot 1, of a bank in each state, a safety configuration, a buffer that failed, and a short block that
is the last and one that is not. -/
theorem test_witness_DataOrdersAreServed_loads :
    let h := host pair
    let b : HostBuf := ⟨true, [1#8]⟩
    let o := fun (op : Byte) (k blk : Nat) => ord 4#8 op (bufBody (k + 2 ^ 32 * blk) [1#8])
    let bk := fun (n : Nat) => setF Reg.SLV_PKG_BANK_st1 n .a h
    (∀ blk ∈ [0, 1], takes (.loadModel 0#64 (o 1#8 1 blk) b) h (fun _ _ => loadErr (o 1#8 1 blk) b == none) = true ∧
      takes (.loadNetwork 0#64 (o 2#8 1 blk) b) h (fun _ _ => loadErr (o 2#8 1 blk) b == none) = true ∧
      takes (.loadFirmware 0#64 (o 3#8 1 blk) b) h (fun _ _ => loadErr (o 3#8 1 blk) b == none && decide (runOf h .a true ≤ 1)) = true ∧
      takes (.loadSafety 0#64 (o 4#8 0 blk) b) h (fun _ _ => loadErr (o 4#8 0 blk) b == none) = true) ∧
    (∀ n ∈ [0, 1, 3, 4], takes (.loadModel 0#64 (o 1#8 1 1) b) (bk n) (fun _ _ => getF (bk n) (bankFld false 1) .a == n &&
      !(bankOf { (bk n).la with bank1 := {} } false 1).reverify) = true ∧ takes (.loadModel 0#64 (o 1#8 1 0) b) (bk n) (fun _ _ => true) = true) ∧
    blockFull [(0, [1#8])] 8 0 = true ∧ blockFull (alSet [] 1 [1#8]) 8 1 = true ∧ blockFull [(0, leBytes 8 0 ++ leBytes 4 70000)] 8 0 = false ∧
    takes (.loadNetwork 0#64 (o 2#8 1 0) b) (setF Reg.FUS_NPKG_BANK_st1 3 .a h) (fun _ _ => true) = true ∧
    takes (.loadFirmware 0#64 (o 3#8 1 0) b) (setF Reg.UPD_SEQ_step 1 .a h) (fun _ _ => true) = true ∧
    takes (.loadModel 0#64 (o 1#8 1 0) ⟨false, []⟩) h (fun _ _ => loadErr (o 1#8 1 0) ⟨false, []⟩ == some Code.BUFFER) = true ∧
    takes (.loadNetwork 0#64 (o 2#8 1 0) ⟨true, [2#8]⟩) h (fun _ _ => loadErr (o 2#8 1 0) ⟨true, [2#8]⟩ == some Code.BADCRC) = true ∧
    takes (.loadSafety 0#64 (o 4#8 0 0) ⟨true, []⟩) h (fun _ _ => loadErr (o 4#8 0 0) ⟨true, []⟩ == some Code.BUFFER) = true := by decide +kernel

/-- An item's write from a buffer that is whole. -/
def Sys2Proof.Tests.itemTakes' (item n : Nat) (bs : List Byte) (p : Bool) : Bool :=
  takes (.configItem 0#64 (ord 5#8 1#8 (bufBody (item + 2 ^ 16 * n) bs)) ⟨true, bs⟩) (host pair) (fun _ _ => p)

/-- A serial item record and a key record. -/
def Sys2Proof.Tests.serB : List Byte :=
  ([191#8, 0#8, 8#8, 1#8] ++ List.replicate 6 0#8 ++ [40#8] ++ List.replicate 7 0#8 ++ [1#8, 0#8] ++ List.replicate 4 0#8) ++ List.replicate 24 0#8
def Sys2Proof.Tests.keyB : List Byte := (4#8 :: List.replicate 23 0#8) ++ (List.replicate 24 0#8 ++ (List.replicate 24 0#8 ++ List.replicate 25 0#8))

/-- The CRC register over a byte string in two parts. -/
theorem crcRun_append (a b : List Byte) (r : BitVec 32) : crcRun r (a ++ b) = crcRun (crcRun r a) b := by
  induction a generalizing r with
  | nil => rfl
  | cons x a ih => exact ih _

theorem test_crc_serB : crc32c serB = 0xcfb7c749#32 := by
  have h : crcRun 0xFFFFFFFF#32 (serB.take 24) = 0x25fac543#32 := by decide +kernel
  have e : serB = serB.take 24 ++ List.replicate 24 0#8 := by decide +kernel
  unfold crc32c; rw [e, crcRun_append, h]; decide +kernel

theorem test_crc_keyB : crc32c keyB = 0xb517f132#32 := by
  have h1 : crcRun 0xFFFFFFFF#32 (4#8 :: List.replicate 23 0#8) = 0x99e3f4cb#32 := by decide +kernel
  have h2 : crcRun 0x99e3f4cb#32 (List.replicate 24 0#8) = 0xa7d7b156#32 := by decide +kernel
  have h3 : crcRun 0xa7d7b156#32 (List.replicate 24 0#8) = 0x07536a6c#32 := by decide +kernel
  unfold crc32c keyB; rw [crcRun_append, h1, crcRun_append, h2, crcRun_append, h3]; decide +kernel

/-- A serial item at the last index and a key, with the lengths and CRCs just shown. -/
theorem test_witness_DataOrdersAreServed_serialItemAndKey :
    takes (.configItem 0#64 (ord 5#8 1#8 (13 + 2 ^ 16 * 191 + 2 ^ 128 * 48 + 2 ^ 160 * 0xcfb7c749)) ⟨true, serB⟩) (host pair)
      (fun _ _ => serB.length == 48 && serOk 191 serB) = true ∧
    takes (.configItem 0#64 (ord 5#8 1#8 (1 + 2 ^ 16 + 2 ^ 128 * 97 + 2 ^ 160 * 0xb517f132)) ⟨true, keyB⟩) (host pair)
      (fun _ _ => keyB.length == 97 && keyB.headD 0#8 == 4#8) = true := by decide +kernel

/-- Each item at its last index, and what it may be read as, in range and out of it (the reading of items 2, 3, 9 and 11 is free, log entry 101); a
buffer of another length and one with another CRC. -/
theorem test_witness_DataOrdersAreServed_items :
    let x : StreamCfg := {
      port := 3, dport := 65535, lidar := true, ofsCounter := 0, ofsIndex := 2, packets := 4096, clk := .none', tf := 1000000000,
      lat := 1000000000, width := 64, height := 64, extractor := 7, recLen := 14, ptX := ⟨0, 2, 0x3FF0000000000000#64⟩, ptY := ⟨4, 1, 0x3FF0000000000000#64⟩,
      ptZ := ⟨8, 2, 0x3FF0000000000000#64⟩, intOfs := 12, intWide := true }
    let r : RefCfg := { pos := some (191, 190), hdg := some 189, group := 15, mot := { rate := some 188 } }
    let ob : List Byte := [0xFF#8, 1#8, 1#8, 0#8] ++ List.replicate 8 0#8 ++ [8#8, 1#8, 0#8, 0#8] ++ List.replicate 16 0#8
    itemTakes' 2 7 [1#8] (streamOk 7 x) = true ∧ itemTakes' 2 7 [1#8] (!streamOk 7 { x with tf := 1000000001 }) = true ∧
    itemTakes' 2 7 [1#8] (!streamOk 7 { x with recLen := 13 }) = true ∧ itemTakes' 3 15 [1#8] (refOk 15 r) = true ∧
    itemTakes' 3 0 [1#8] (!refOk 0 r) = true ∧ itemTakes' 9 0 [1#8] ((List.replicate 6 (0#64 : F64)).all F64.isFin) = true ∧
    itemTakes' 11 0 [1#8] true = true ∧ itemTakes' 12 511 ob (objOk (host pair) 511 ob) = true ∧
    takes (.configItem 0#64 (ord 5#8 1#8 (bufBody 11 [1#8])) ⟨true, []⟩) (host pair) (fun _ _ => true) = true ∧
    takes (.configItem 0#64 (ord 5#8 1#8 (bufBody 11 [1#8])) ⟨true, [2#8]⟩) (host pair) (fun _ _ => crc32c [2#8] != crc32c [1#8]) = true := by
  decide +kernel

set_option maxRecDepth 20000 in
/-- The filter item: 48 values of 0. -/
theorem test_witness_DataOrdersAreServed_filterItem : let bs := List.replicate 384 0#8
    itemTakes' 14 0 bs (bs.length == 384 && ((List.range 48).map (fun i => BitVec.ofNat 64 (leAt bs (8 * i) 8))).all F64.isFin) = true := by
  decide +kernel

/-- Buffers of just the length and one byte less; the last point and the first that does not exist; block RTC; a grid of the Active lane with fusion
running and not, and of the Standby. -/
theorem test_witness_DataOrdersAreServed_snapshots :
    let h := host pair
    let o := fun (op : Byte) (x n : Nat) => ord 6#8 op (x + 2 ^ 128 * n)
    let f := { h with la := { h.la with fus := { h.la.fus with run := true } } }
    takes (.snapshotMetro 0#64 (o 1#8 95 184) true) h (fun _ s0 => (metBytes s0 .a 95).length == 184) = true ∧
    takes (.snapshotMetro 0#64 (o 1#8 95 183) true) h (fun _ _ => true) = true ∧ takes (.snapshotMetro 0#64 (o 1#8 96 184) true) h (fun _ _ => true) = true ∧
    takes (.snapshotMetro 0#64 (o 1#8 95 184) false) h (fun _ _ => true) = true ∧
    takes (.snapshotBlock 0#64 (o 2#8 0x1F0000 65536) true) h (fun _ _ => true) = true ∧ takes (.snapshotBlock 0#64 (o 2#8 0x1F0000 65535) true) h (fun _ _ => true) = true ∧
    takes (.snapshotBlock 0#64 (o 2#8 0x40000 65536) true) h (fun _ _ => 0x40000 == Reg.RTC_TIME) = true ∧
    takes (.grid 0#64 (o 3#8 1 67108864) true) f (fun _ _ => isActive f .a && f.la.fus.run) = true ∧
    takes (.grid 0#64 (o 3#8 1 67108864) true) h (fun _ _ => !h.la.fus.run) = true ∧ takes (.grid 0#64 (o 3#8 1 67108863) true) h (fun _ _ => true) = true ∧
    ({ h with kpr := { h.kpr with role := some .b } } : State).up = true ∧ isActive { h with kpr := { h.kpr with role := some .b } } .a = false ∧
    (arrive (o 3#8 1 67108864) (begin' 0#64 { h with kpr := { h.kpr with role := some .b } })).1.isSome = true ∧
    (o 3#8 1 67108864).path = .pcie .a 0 ∧ headErr (o 3#8 1 67108864) 6 3 [(0, 32), (64, 128)] = none ∧
    takes (.keyframe 0#64 (o 4#8 0 4194368) true) h (fun _ _ => true) = true ∧ takes (.keyframe 0#64 (o 4#8 0 4194367) true) h (fun _ _ => true) = true ∧
    takes (.keyframe 0#64 (o 4#8 0 0) false) h (fun _ _ => true) = true := by decide +kernel

/-- Expert operations are taken with the level open; which channel, set or region a body names is open (log entry 32), so either clause may be the one
that applies to it. -/
theorem test_witness_DataOrdersAreServed :
    let h := { host pair with auth := { (host pair).auth with expert := some 0#64 } }
    takes (.gnbLoop 0#64 (ord 7#8 1#8 1)) h (fun _ _ => true) = true ∧ takes (.gnbPin 0#64 (ord 7#8 2#8 1)) h (fun _ _ => true) = true ∧
    takes (.gnbUnpin 0#64 (ord 7#8 3#8 1)) h (fun _ _ => true) = true ∧ takes (.memRead 0#64 (ord 7#8 4#8 1) true) h (fun _ _ => true) = true ∧
    takes (.memRead 0#64 (ord 7#8 4#8 1) false) h (fun _ _ => true) = true := by decide +kernel

/-! Rings, the message buses and serial lines. -/

/-- Ring 63 of Lane A on, of a kind, with 16 entries, the module's index at 2. -/
def Sys2Proof.Tests.bell (kind : Nat) : State :=
  setF (Reg.HRI_RGn_CFG_en 63) 1 .a (setF (Reg.HRI_RGn_STAT_state 63) 1 .a (setF (Reg.HRI_RGn_CFG_lsz 63) 4 .a
    (setF (Reg.HRI_RGn_CFG_kind 63) kind .a (setF (Reg.HRI_RGn_PTR_idx 63) 2 .a (setF (Reg.HRI_RGn_CFG_ie 63) 1 .a
      (setF (Reg.HRI_RGn_MOD_usec 63) 1 .a pair))))))

/-- A doorbell word of an index. -/
def Sys2Proof.Tests.bw (i : Nat) : Word := BitVec.ofNat 32 (i + 2 ^ 16 * (0xFFFF - i))

/-- The last ring's doorbell and the first offset after it; the last index that is good and the first that is bad, on each kind; the index the ring
has; settings with 16, 65,536, 8 and 131,072 entries; an entry signalled at the whole time and 1 ns early; datagrams of 1, 16, 0 and 17 descriptors. -/
theorem test_witness_RingsBellsAndDatagrams :
    let q := onRing .a 63 (fun r => { r with unsig := 1, oldest := 0#64 }) (bell 1)
    let h := setF Reg.HRI_AUTH_CFG_sten 0xFF .a (wrK (Reg.HRI_NETSTn 4) 0x0A000001#32 pair)
    LaneRuns (bell 0) .a ∧ LaneWritable (bell 0) .a ∧ shut (bell 0) .a = false ∧ decommissioned (bell 0) = false ∧ 63 * 256 / 256 < 64 ∧ 64 ≤ 64 * 256 / 256 ∧
    shut State.reset .a = true ∧
    badBell (bell 0) .a 63 (bw 1) = false ∧ badBell (bell 0) .a 63 (bw 2) = true ∧ badBell (bell 0) .a 63 (bw 16) = true ∧ badBell (bell 0) .a 63 15#32 = true ∧
    badBell (bell 1) .a 63 (bw 2) = false ∧ badBell (bell 1) .a 63 (bw 3) = true ∧ badBell (bell 2) .a 63 (bw 2) = false ∧
    badBell (bell 2) .a 63 (bw 3) = true ∧ badBell (bell 0) .a 63 (bw 0) = false ∧ (bw 0).toNat % 2 ^ 16 = getF (bell 0) (Reg.HRI_RGn_HOST_idx 63) .a ∧
    (bw 2).toNat % 2 ^ 16 ≠ getF (bell 1) (Reg.HRI_RGn_HOST_idx 63) .a ∧ (ringSt (bell 1) .a 63).waitQ = [] ∧
    getB pair (Reg.HRI_RGn_CFG_en 63) .a = false ∧ (∀ z ∈ [4, 16], (BitVec.ofNat 32 (3 + 16 * z)).getLsbD 0 = true ∧
      (BitVec.ofNat 32 (3 + 16 * z)).toNat / 2 % 4 = 1 ∧ (BitVec.ofNat 32 (3 + 16 * z)).toNat / 16 % 32 = z) ∧
    (∀ z ∈ [3, 17], (BitVec.ofNat 32 (3 + 16 * z)).toNat / 16 % 32 = z) ∧ getB (bell 1) (Reg.HRI_RGn_CFG_en 63) .a = true ∧ (2#32).getLsbD 0 = false ∧
    ringOn q .a 63 = true ∧ getB q (Reg.HRI_RGn_CFG_ie 63) .a = true ∧ 0 < (ringSt q .a 63).unsig ∧
    1000 * getF q (Reg.HRI_RGn_MOD_usec 63) .a = since 1000#64 (ringSt q .a 63).oldest ∧ (ringSt (bell 1) .a 63).unsig = 0 ∧ LaneRuns q .a ∧ shut q .a = false ∧
    active h = some .a ∧ netStation h 0x0A000001#32 = some 6 ∧ netStation h 0#32 = none ∧ netStation (setF Reg.HRI_AUTH_CFG_sten 0xBF .a h) 0x0A000001#32 = none ∧ h.up = true ∧ decommissioned h = false ∧ shut h .a = false ∧
    (∀ n ∈ [0, 1, 16, 17], (BitVec.ofNat 64 (0x01434A + n * 2 ^ 24)).toNat % 2 ^ 24 = 0x01434A ∧
      (BitVec.ofNat 64 (0x01434A + n * 2 ^ 24)).toNat / 2 ^ 24 % 256 = n) := by
  unfold LaneRuns LaneWritable; decide +kernel

/-- Controller 3 enabled, its last object of a kind that takes the identifier 5. -/
def Sys2Proof.Tests.busS (kind : Nat) : State :=
  let h := host pair
  setF (Reg.MBC_Cn_CFG_fd 3) 1 .a <| setF (Reg.MBC_Cn_CFG_en 3) 1 .a (setF (Reg.MBC_Cn_STAT_state 3) 0 .a { h with mbc := { h.mbc with fdOn := [3], objs := [(511, { kind := kind, id := 5#32, mask := 0x1FFFFFFF#32, retry := 1, len := 8, ents :=
    [⟨0, 0, 3, 0x3F800000#32⟩, ⟨0, 2, 3, 0x3F800000#32⟩, ⟨0, 4, 3, 0x3F800000#32⟩] })] } })

/-- The same with station 7 the holder and its demands on since 0. -/
def Sys2Proof.Tests.joyS (kind : Nat) : State :=
  let h := busS kind
  { h with auth := { h.auth with holder := some 7 }, mbc := { h.mbc with joyOn := true } }

/-- A frame with the identifier 5, and station 7's order and demand frames. -/
def Sys2Proof.Tests.fr (fd : Bool) (d : List Byte) : CanFrame := ⟨false, 5#29, fd, false, d⟩
def Sys2Proof.Tests.joyO (op : Byte) : List Byte :=
  let h := [op, 1#8, ~~~op, 0xFE#8]
  h ++ leBytes 4 (crc32c h).toNat
def Sys2Proof.Tests.joyD : List Byte :=
  let h := [0xFF#8, 0x7F#8, 0#8, 0x80#8, 0#8, 0#8, 1#8, 0#8]
  h ++ h.map (~~~ ·)

/-- A frame the last object takes, read and not; one that no object takes; order frames of KEEPALIVE, REQUEST and another order, and with a wrong CRC;
a demand of the holder and of another, its copy and one of 15 bytes; the whole time-out and 1 ns more. -/
theorem test_witness_CanFramesAndStationSeven :
    let n := { joyS 6 with mbc := { (joyS 6).mbc with joySeq := some 1#8 } }
    let w := { busS 5 with auth := { (busS 5).auth with holder := none } }
    LiveBus (busS 1) 3 ∧ frameObj (busS 1) 3 (fr true (List.replicate 64 1#8)) = some 511 ∧ (objCfg (busS 1) 511).kind = 1 ∧
    frameObj (busS 1) 3 ⟨false, 6#29, true, false, []⟩ = none ∧ frameObj (busS 1) 3 ⟨false, 5#29, false, true, []⟩ = none ∧ canLive (busS 1) 2 = false ∧
    canLive (busS 1) 4 = false ∧ getB (busS 1) (Reg.MBC_OBJk_STAT_new 511) = false ∧
    getB (setF (Reg.MBC_OBJk_STAT_new 511) 1 .a (busS 1)) (Reg.MBC_OBJk_STAT_new 511) = true ∧
    (∀ op ∈ [1#8, 4#8, 5#8, 0x81#8, 2#8], JoyFrame (joyS 5) 3 (fr false (joyO op)) 511 5 ∧ OrderFrameOk (joyS 5) (joyO op)) ∧
    ¬ OrderFrameOk (joyS 5) ((joyO 1#8).take 7 ++ [0#8]) ∧ JoyFrame w 3 (fr false (joyO 1#8)) 511 5 ∧ OrderFrameOk w (joyO 1#8) ∧ w.auth.holder = none ∧
    w.auth.req = none ∧ w.auth.xfer = none ∧ stationEn w 7 = true ∧ frameKind (busS 1) 3 (fr true []) ≠ some 5 ∧ frameKind (busS 1) 3 (fr true []) ≠ some 6 ∧
    JoyFrame (joyS 6) 3 (fr true joyD) 511 6 ∧ joyD.length = 16 ∧ complOf (slice joyD 0 8) (slice joyD 8 8) = true ∧ joyD.getD 6 0#8 = 1#8 ∧
    (joyS 6).mbc.joySeq = none ∧ n.mbc.joySeq = some 1#8 ∧ JoyFrame n 3 (fr true joyD) 511 6 ∧ (joyS 6).auth.holder = some 7 ∧ stationEn (joyS 6) 7 = true ∧
    (joyS 6).auth.orders = [] ∧ (∀ i < 3, finite (joyVal (objCfg (joyS 6) 511) joyD i) = true) ∧ (busS 6).auth.holder ≠ some 7 ∧
    JoyFrame (busS 6) 3 (fr true joyD) 511 6 ∧ JoyFrame (joyS 6) 3 (fr true (joyD.take 15)) 511 6 ∧ (joyS 6).mbc.joyOn = true ∧ (joyS 6).waits = [] ∧
    (active (joyS 6)).isSome = true ∧ (joyS 6).up = true ∧
    getF (joyS 6) Reg.MBC_JOY_CFG_tmo * 10 * ms < since (BitVec.ofNat 64 (getF (joyS 6) Reg.MBC_JOY_CFG_tmo * 10 * ms + 1)) (joyS 6).mbc.joyAt ∧
    since (BitVec.ofNat 64 (getF (joyS 6) Reg.MBC_JOY_CFG_tmo * 10 * ms)) (joyS 6).mbc.joyAt ≤ getF (joyS 6) Reg.MBC_JOY_CFG_tmo * 10 * ms ∧ (busS 6).mbc.joyOn = false := by
  unfold LiveBus JoyFrame LiveBus OrderFrameOk
  refine ⟨?_, ?_, ?_, ?_, ?_, ?_, ?_, ?_, ?_, ?_, ?_, ?_, ?_, ?_, ?_, ?_, ?_, ?_, ?_, ?_⟩ <;> decide +kernel

/-- Controller 3 with a frame of its last object queued after some failures, at error counts and a state. -/
def Sys2Proof.Tests.txS (fails tec st : Nat) : State :=
  setF (Reg.MBC_Cn_STAT_tec 3) tec .a (setF (Reg.MBC_Cn_STAT_state 3) st .a
    { busS 2 with mbc := { (busS 2).mbc with q := [(3, [⟨511, [1#8], fails⟩])] } })

/-- Timing that passes the checks at an enable, and the same controller with another time field. -/
def Sys2Proof.Tests.nbt (ts1 : Nat) : State :=
  setF (Reg.MBC_Cn_NBT_ts1 3) ts1 .a (setF (Reg.MBC_Cn_NBT_ts2 3) 19 .a (setF (Reg.MBC_Cn_NBT_sjw 3) 3 .a (setF (Reg.MBC_Cn_NBT_brp 3) 0 .a
    (setF (Reg.MBC_Cn_DBT_ts1 3) 9 .a (setF (Reg.MBC_Cn_DBT_ts2 3) 4 .a (setF (Reg.MBC_Cn_DBT_sjw 3) 3 .a (setF (Reg.MBC_Cn_DBT_brp 3) 0 .a pair)))))))

/-- A sentence line, its checksum right and wrong, and one without CR LF. -/
def Sys2Proof.Tests.sen (sum : List Byte) : List Byte := [0x24#8, 0x47#8, 0x50#8, 0x58#8, 0x2C#8, 0x31#8, 0x2A#8] ++ sum ++ [0x0D#8, 0x0A#8]
def Sys2Proof.Tests.serS (src stat : Nat) : State :=
  setF (Reg.SER_Pn_CFG_en 7) 1 .a (setF Reg.SER_NET_CFG_grp 0x8000 .a { pair with cfg := { pair.cfg with sers :=
    [(191, ⟨src, 1, [0x2D#8, 0x2D#8, 0x58#8], 1, stat, 0x31#8, 0, 0#8, 0, 0#8, 40, [], 0x3FF0000000000000#64, 0#64⟩)] } })

/-- The frame the controller sends; failures at the retry limit and one less; error counters at 247 and 248; a controller in bus-off and out of it;
timing of 80 quanta and of 79; a transmit request in each state. -/
theorem test_witness_BusesSendAndSerialLinesRead_can :
    let r := { txS 0 0 2 with mbc := { (txS 0 0 2).mbc with recov := [3] } }
    LiveBus (txS 0 0 0) 3 ∧ (txHead (txS 0 0 0) (txQueue (txS 0 0 0) 3)).map (·.k) = some 511 ∧ txHead (busS 2) (txQueue (busS 2) 3) = none ∧
    (txHead (txS 1 0 0) (txQueue (txS 1 0 0) 3)).map (·.fails) = some 1 ∧ (objCfg (txS 0 0 0) 511).retry = 1 ∧
    (txHead (txS 0 0 0) (txQueue (txS 0 0 0) 3)).map (·.fails) = some 0 ∧ fdOk (txS 0 0 0) 3 true = true ∧
    fdOk { txS 0 0 0 with mbc := { (txS 0 0 0).mbc with fdOn := [] } } 3 true = false ∧
    getF (txS 0 247 0) (Reg.MBC_Cn_STAT_tec 3) + 8 = 255 ∧ getF (txS 0 248 0) (Reg.MBC_Cn_STAT_tec 3) + 8 = 256 ∧ LiveBus (txS 0 248 0) 3 ∧ LiveBus (txS 0 247 0) 3 ∧
    getF r (Reg.MBC_Cn_STAT_state 3) = 2 ∧ 3 ∈ r.mbc.recov ∧ r.up = true ∧ getB (setF (Reg.MBC_Cn_CFG_autorec 3) 0 .a (txS 0 0 2)) (Reg.MBC_Cn_CFG_autorec 3) = false ∧
    (setF (Reg.MBC_Cn_CFG_autorec 3) 0 .a (txS 0 0 2)).mbc.recov = [] ∧
    getF (txS 0 0 0) (Reg.MBC_Cn_STAT_state 3) ≠ 2 ∧ ModWritable r .a ∧ (1#32).getLsbD 0 = true ∧ (1#32).getLsbD 1 = false ∧ (2#32).getLsbD 0 = false ∧
    (2#32).getLsbD 1 = true ∧ ModWritable (nbt 58) .a ∧ lockRefuses (nbt 58) = false ∧ getB (nbt 58) (Reg.MBC_Cn_CFG_en 3) = false ∧
    canCfgErr (setF (Reg.MBC_Cn_CFG_tsmp 3) ((1#32).toNat / 4 % 2) .a (nbt 58)) 3 = 0 ∧ canCfgErr (setF (Reg.MBC_Cn_CFG_tsmp 3) ((1#32).toNat / 4 % 2) .a (nbt 57)) 3 = 2 ∧
    getB (txS 0 0 0) (Reg.MBC_Cn_CFG_en 3) = true ∧ LaneWritable (txS 0 0 0) .a ∧ LaneWritable (txS 0 0 0) .b ∧ isActive (txS 0 0 0) .a = true ∧
    isActive (txS 0 0 0) .b = false ∧ (objCfg (txS 0 0 0) 511).kind = 2 ∧ (objCfg (busS 1) 511).kind ≠ 2 ∧ 511 / 128 = 3 ∧ outReleased (txS 0 0 0) = false ∧
    getF (txS 0 0 2) (Reg.MBC_Cn_STAT_state (511 / 128)) = 2 ∧ outReleased (txS 0 0 2) = false ∧ isActive (txS 0 0 2) .a = true ∧ LaneWritable (txS 0 0 2) .a := by
  unfold LiveBus ModWritable LaneWritable; decide +kernel

/-- Errors that move the counter by 8 and those that leave it, a counter of 248 too. -/
theorem test_witness_BusesSendAndSerialLinesRead_tec :
    TecMoves (txS 0 247 0) 3 .other 8 ∧ TecMoves (txS 0 247 0) 3 .ack 8 ∧ TecMoves (txS 0 247 0) 3 .stuff 0 ∧ TecMoves (txS 0 247 1) 3 .ack 0 ∧
    TecMoves (txS 0 248 0) 3 .other 8 := by unfold TecMoves; decide +kernel

/-- Sentences on the last line and as a datagram of the last group: taken with its status and without, for another source, with a wrong sum, too long. -/
theorem test_witness_BusesSendAndSerialLinesRead_serial : let s := serS 7 1
    let g : List Byte := [0x55#8, 0x64#8, 0x50#8, 0x62#8, 0x43#8, 0#8] ++ sen [0x35#8, 0x32#8]
    getB s (Reg.SER_Pn_CFG_en 7) = true ∧ s.up = true ∧ getB s (Reg.SER_Pn_CFG_nocs 7) = false ∧ ready s .a = true ∧ ready s .b = true ∧
    checkSentence false (sen [0x35#8, 0x32#8]) = .good [[0x47#8, 0x50#8, 0x58#8], [0x31#8]] ∧ checkSentence false (sen [0x36#8, 0x33#8]) = .badSum ∧
    checkSentence false ((sen []).take 7) = .tooLong ∧
    (∀ it ∈ s.cfg.sers, itemTakes it.2 7 [] [[0x47#8, 0x50#8, 0x58#8], [0x31#8]] = true ∧ itemTakes it.2 6 [] [[0x47#8, 0x50#8, 0x58#8], [0x31#8]] = false ∧
      fieldIs [[0x47#8, 0x50#8, 0x58#8], [0x31#8]] it.2.stat it.2.statC = true ∧ (convert it.2.conv [0x31#8] []).isSome = true) ∧
    (∀ it ∈ (serS 7 2).cfg.sers, fieldIs [[0x47#8, 0x50#8, 0x58#8], [0x31#8]] it.2.stat it.2.statC = false) ∧
    (∀ it ∈ (serS 8 1).cfg.sers, itemTakes it.2 8 [] [[0x47#8, 0x50#8, 0x58#8], [0x31#8]] = true) ∧ getB s (Reg.SER_Pn_CFG_en 6) = false ∧
    bit (getF s Reg.SER_NET_CFG_grp) 15 = true ∧ bit (getF s Reg.SER_NET_CFG_grp) 14 = false ∧ g.take 5 = [0x55#8, 0x64#8, 0x50#8, 0x62#8, 0x43#8] ∧
    splitAt' 0x0A#8 (g.drop 6) = [(sen [0x35#8, 0x32#8]).take 10, []] ∧ (sen [0x35#8, 0x32#8]).take 10 ++ [0x0A#8] = sen [0x35#8, 0x32#8] := by decide +kernel

/-- No trailer; a copy that is 60 s old, and one that is 1 ns younger (R305). -/
theorem test_witness_BusesSendAndSerialLinesRead_copy : let s := { pair with mbc := { pair.mbc with grams := [(5#48, 9#16, 0#64)] } }
    FirstCopy 0#64 none s ∧ FirstCopy 0#64 (some (5#48, 8#16)) s ∧ FirstCopy 60000000000#64 (some (5#48, 9#16)) s ∧ s.up = true ∧
    (5#48, 9#16, 0#64) ∈ s.mbc.grams ∧ since 59999999999#64 0#64 < 60 * sec := by
  refine ⟨?_, ?_, ?_, by decide +kernel⟩
  · intro x h; cases h
  · intro x h g hg _ h2; cases h
    rw [List.mem_singleton.mp hg] at h2; exact absurd h2 (by decide)
  · intro x h g hg _ _; rw [List.mem_singleton.mp hg]; decide +kernel

/-! The safety island. -/

/-- A configuration whose last input, pair, output and function are in use. -/
def Sys2Proof.Tests.islC : SafCfg :=
  ⟨1#64, 1#32, 0#32, 100, 100, 100, 100, 15, List.replicate 13 ⟨0, 0xFF, 1, 0⟩ ++ [⟨4, 0xFF, 1, 0⟩, ⟨1, 6, 5, 0⟩, ⟨3, 7, 5, 0⟩], List.replicate 8 ⟨1, 10⟩,
   List.replicate 8 ⟨true, false, false, 13⟩, List.replicate 15 ⟨0, 0#8, 0#8, 0#8, 0, 0xFF⟩ ++ [⟨2, 0x80#8, 0#8, 0x80#8, 1, 15⟩]⟩

/-- The island in a state, running that configuration. -/
def Sys2Proof.Tests.isl (st : Nat) (f : SafSt → SafSt) : State :=
  setF Reg.SAF_STAT_state st .a { pair with saf := f { pair.saf with cfg := some islC } }

/-- What a channel reads. -/
def Sys2Proof.Tests.sin (raw : BitVec 16) (osc sup : Bool) : SafIn := ⟨raw, 0#8, 0#8, 0#8, osc, sup⟩

/-- Channels that differ a third time and a second, a bad oscillator and supply, each state of the island; a line that is stable and one that moves;
output pair 7 on and off; an EDM input that follows it and not, at 300 ms and 1 ns less. -/
theorem test_witness_SafetyIslandGuardsItsOutputs :
    let r := isl 2 id
    let on := setF Reg.SAF_OUT_on 0x80 .a r
    let fol := setF Reg.SAF_IN_lvl 0x2000 .a r
    (∀ st ∈ [0, 1, 2, 3], getF (isl st id) Reg.SAF_STAT_state = st ∧ (isl st id).up = true) ∧ IslandRuns r islC ∧
    imagesDiffer (sin 1#16 false false) (sin 0#16 false false) = true ∧ imagesDiffer (sin 0#16 true false) (sin 0#16 false true) = false ∧
    (isl 2 (fun a => { a with diff := 2 })).saf.diff + 1 = 3 ∧ (isl 2 (fun a => { a with diff := 1 })).saf.diff + 1 < 3 ∧
    (safInp islC 0).kind = 0 ∧ (safInp islC 14).kind = 1 ∧ (safInp islC 14).src = 6 ∧ (safInp islC 15).kind = 3 ∧ (safInp islC 15).src = 7 ∧ (safInp islC 15).filt = 5 ∧
    bit r.saf.raw.toNat 15 = bit (0#16).toNat 15 ∧ bit r.saf.raw.toNat 15 ≠ bit (0x8000#16).toNat 15 ∧
    bit (isl 2 (fun a => { a with raw := 0x4000#16 })).saf.raw.toNat 14 = true ∧ (safFun islC 15).kind ≠ 0 ∧ (safFun islC 15).kind ≠ 4 ∧ usesPair islC 15 7 = true ∧
    usesPair islC 14 7 = false ∧ IslandRuns on islC ∧ outOn on 7 = true ∧ outOn r 7 = false ∧ outLocked on 7 = false ∧ outLocked r 7 = false ∧
    (safOutp islC 7).nopt = false ∧ (safOutp islC 7).edm = 13 ∧ inLvl r 13 = outOn r 7 ∧ inLvl fol 13 ≠ outOn fol 7 ∧ IslandRuns fol islC ∧
    since 300000000#64 (Sparse.get timeDef r.saf.onAt 7) = 300 * ms ∧ since 299999999#64 (Sparse.get timeDef r.saf.onAt 7) < 300 * ms ∧
    atOrAfter 0#64 (Sparse.get timeDef on.saf.offDue 15) = true ∧ atOrAfter 0#64 (Sparse.get timeDef r.saf.tsDue 6) = true ∧
    atOrAfter 0#64 (Sparse.get timeDef (isl 2 (fun a => { a with tsDue := [(6, 1#64)] })).saf.tsDue 6) = false ∧
    crossed islC 7 0#16 (isl 2 (fun a => { a with raw := 0x4000#16 })) 14 = true ∧ pulsed islC 15 = true ∧ pulsed islC 13 = false ∧
    sin 1#16 false false ≠ sin 0#16 false false := by
  unfold IslandRuns; decide +kernel

/-- R413, R425: during the pulse of source 7 the input of source 6 goes off: both its flt bit and that of source 7's input are set. -/
theorem test_cross_locks_both :
    (match exec (.testPulse 5#64 7 0#16) (isl 2 (fun a => { a with raw := 0x4000#16 })) with
     | .next u => (inLocked u 14, inLocked u 15, fnState u 15, getF u Reg.SAF_CNT_faults, getF u Reg.SAF_FLT_code)
     | _ => (false, false, 0, 0, 0)) = (true, true, 5, 1, 4) := by decide +kernel

/-- R410: channel Y reads an edge one cycle before X: the channels differ in that cycle and hold different instants after it. -/
theorem test_channels_differ :
    (match exec (.safetyCycle 1000000#64 (sin 0#16 false false) (sin 1#16 false false)) (isl 2 id) with
     | .next u => (u.saf.diff, u.saf.raw, u.saf.y.map (fun ch => ch.core.raw), chansDiffer u)
     | _ => (9, 0#16, none, true)) = (1, 0#16, some 1#16, false) := by decide +kernel

/-- Pair 7 in disagreement for 10 ms and 1 ns more, and not; a delay at its end and before; a reset input held for 5 s and less; a request stable for
5 ms and less; a hold of 20 ms and less. -/
theorem test_witness_SafetyIslandGuardsItsOutputs_timers :
    let d := isl 2 (fun a => { a with disAt := [(7, 0#64)], pressAt := [(15, 0#64)], holdAt := some 0#64, fns := [(15, { due := 5#64 })] })
    let f := setF (Reg.SAF_FNn_state 15) 2 .a d
    let h := setF Reg.SAF_STAT_rqhold 1 .a d
    IslandRuns d islC ∧ IslandRuns f islC ∧ d.saf.disAt.find? (fun p => p.1 == 7) = some (7, 0#64) ∧ (safPair islC 7).disc * ms < since 10000001#64 0#64 ∧
    since 10000000#64 0#64 ≤ (safPair islC 7).disc * ms ∧ d.saf.disAt.find? (fun p => p.1 == 6) = none ∧ fnState f 15 = 2 ∧
    atOrAfter 5#64 (safFn f 15).due = true ∧ atOrAfter 4#64 (safFn f 15).due = false ∧ (safInp islC 15).kind = 3 ∧
    d.saf.pressAt.find? (fun p => p.1 == 15) = some (15, 0#64) ∧ 5000 * ms ≤ since 5000000000#64 0#64 ∧ since 4999999999#64 0#64 < 5000 * ms ∧
    getB d Reg.SAF_STAT_rqhold = false ∧ getB h Reg.SAF_STAT_rqhold = true ∧ 5 * ms ≤ since 5000000#64 (Sparse.get timeDef d.saf.reqAt 7) ∧
    since 4999999#64 (Sparse.get timeDef d.saf.reqAt 7) < 5 * ms ∧ d.saf.holdAt = some 0#64 ∧ 20 * ms ≤ since 20000000#64 0#64 ∧
    since 19999999#64 0#64 < 20 * ms ∧ (isl 2 id).saf.holdAt = none := by
  unfold IslandRuns; decide +kernel

/-- A P-384 key; the signature of the configuration below under it, and the key's identifier (made by an independent program). -/
def Sys2Proof.Tests.theKey : List Byte := beBytes 97
  0x040e2a6dec9d2b66068f44d66230316468f879062b0062f6e64c81263eef27c80980c2b9ddd0434c02bd5a3759b069920f6b9f3967b78cd7e64532a1961333df2b0c0bb4935d975524971656187dc2513be780a0a11b855499043962c35f90b308
def Sys2Proof.Tests.keyId : List Byte := [0x76#8, 0xA6#8, 0xC2#8, 0x9D#8, 0xBA#8, 0xB9#8, 0x33#8, 0x49#8]
def Sys2Proof.Tests.safSig : List Byte := beBytes 48
  0xdb8538bd413645658ac38a389d12e4f04fed32fea83a5fbb0ff4a72ee3eba35e53d0b892f02a76c6e0b42fc87786fd43 ++ beBytes 48
  0x9378c1dc632dbb0238ef0ad0dae185bd035e326a0a2d081ac9b8f69e3d173a6b38f04cd69639b37814e6fed8bf8a6082

/-- A configuration of 768 bytes that this key signs, and the state with that key in slot 0. -/
def Sys2Proof.Tests.safBytes : List Byte :=
  [0x4A#8, 0x58#8, 0x53#8, 0x43#8, 1#8, 0#8, 0#8, 0#8, 0#8, 3#8, 0#8, 0#8] ++ List.replicate 20 0#8 ++ [100#8, 0#8, 100#8, 0#8, 100#8, 0#8, 100#8, 0#8] ++
  List.replicate 24 0#8 ++ [3#8, 0xFF#8, 1#8, 0#8] ++ List.replicate 444 0#8 ++ [0x4A#8, 0x58#8, 0x53#8, 0x47#8, 1#8, 0#8, 0#8, 0#8] ++
  keyId ++ safSig ++ List.replicate 144 0#8
def Sys2Proof.Tests.keyS (st : Nat) (bs : List Byte) : State :=
  wrK Reg.SLV_PKG_KEY 1#32 { isl st (fun a => { a with load := some bs, stored := bs }) with cfg := { pair.cfg with keys := [(0, theKey)] } }
/-- A configuration signed by an enabled key passes the checks; one changed bit of it does not. -/
theorem test_safCheck_passes : safCheck (keyS 1 safBytes) safBytes = 0 ∧ safCheck (keyS 1 safBytes) (safBytes.set 0x20 101#8) = 4 := by decide +kernel

/-- SHA-384 of "abc" (FIPS 180-4), and the key's identifier. -/
theorem test_sha : sha [0x61#8, 0x62#8, 0x63#8] = beBytes 48
    0xcb00753f45a35e8bb5a03d699ac65007272c32ab0eded1631a8b605a43ff5bed8086072ba1e7cc2358baeca134c825a7 ∧ (sha theKey).take 8 = keyId := by
  decide +kernel

/-- A load that passes in START and in RUN, one of another length; no load; the self-test's cases, its alarm not yet raised. -/
theorem test_witness_SafetyIslandGuardsItsOutputs_configuration :
    safCheck (keyS 1 safBytes) safBytes = 0 ∧ (keyS 1 safBytes).saf.load = some safBytes ∧
    getF (keyS 1 safBytes) Reg.SAF_STAT_state = 1 ∧ (keyS 1 safBytes).up = true ∧
    safCheck (keyS 0 safBytes) safBytes = 0 ∧ (keyS 0 safBytes).saf.stored = safBytes ∧
    getF (keyS 0 safBytes) Reg.SAF_STAT_state = 0 ∧ (keyS 0 safBytes).up = true ∧
    safCheck (keyS 0 [1#8]) [1#8] = 1 ∧ getF (keyS 0 [1#8]) Reg.SAF_STAT_state = 0 ∧ (keyS 0 [1#8]).saf.load = some [1#8] ∧
    (Ev.SAF_NOCFG, 0) ∉ (keyS 0 [1#8]).alarms ∧ (isl 2 id).saf.load = none ∧ getF (isl 2 id) Reg.SAF_STAT_state ≠ 0 := by
  decide +kernel

/-! A package. -/

/-- A package of one unknown, made by an independent program and signed by the key of the safety configuration above. -/
def Sys2Proof.Tests.thePkg : List Byte :=

  [0x4A#8, 0x58#8, 0x4D#8, 0x50#8, 0x01#8, 0x00#8, 0x00#8, 0x00#8, 0x40#8, 0x05#8, 0x00#8, 0x00#8, 0x07#8, 0x00#8, 0x00#8, 0x00#8, 0xCD#8, 0xAB#8, 0x00#8, 0x00#8] ++
  [0x00#8, 0x00#8, 0x00#8, 0x00#8, 0x07#8, 0x00#8, 0x00#8, 0x00#8, 0x00#8, 0x00#8, 0x00#8, 0x00#8, 0x01#8, 0x00#8, 0x00#8, 0x00#8, 0x01#8, 0x00#8, 0x00#8, 0x00#8] ++
  [0x04#8, 0x00#8, 0x00#8, 0x00#8, 0x01#8, 0x00#8, 0x00#8, 0x00#8, 0x64#8, 0x00#8, 0x00#8, 0x00#8, 0x01#8] ++ List.replicate 203 0#8 ++
  [0x01#8, 0x00#8, 0x00#8, 0x00#8, 0x00#8, 0x02#8, 0x00#8, 0x00#8, 0x08#8, 0x00#8, 0x00#8, 0x00#8, 0x8A#8, 0xB2#8, 0x28#8, 0x8C#8, 0x05#8, 0x00#8, 0x00#8, 0x00#8] ++
  [0x40#8, 0x02#8, 0x00#8, 0x00#8, 0x08#8, 0x00#8, 0x00#8, 0x00#8, 0x8A#8, 0xB2#8, 0x28#8, 0x8C#8, 0x06#8, 0x00#8, 0x00#8, 0x00#8, 0x80#8, 0x02#8, 0x00#8, 0x00#8] ++
  [0xF0#8, 0x00#8, 0x00#8, 0x00#8, 0xEA#8, 0x19#8, 0x6D#8, 0xD2#8, 0x07#8, 0x00#8, 0x00#8, 0x00#8, 0x80#8, 0x03#8, 0x00#8, 0x00#8, 0x04#8, 0x00#8, 0x00#8, 0x00#8] ++
  [0xC7#8, 0x4B#8, 0x67#8, 0x48#8, 0x08#8, 0x00#8, 0x00#8, 0x00#8, 0xC0#8, 0x03#8, 0x00#8, 0x00#8, 0x00#8, 0x00#8, 0x00#8, 0x00#8, 0x00#8, 0x00#8, 0x00#8, 0x00#8] ++
  [0x09#8, 0x00#8, 0x00#8, 0x00#8, 0xC0#8, 0x03#8, 0x00#8, 0x00#8, 0x04#8, 0x00#8, 0x00#8, 0x00#8, 0xC7#8, 0x4B#8, 0x67#8, 0x48#8, 0x0A#8, 0x00#8, 0x00#8, 0x00#8] ++
  [0x00#8, 0x04#8, 0x00#8, 0x00#8, 0x08#8, 0x00#8, 0x00#8, 0x00#8, 0x8A#8, 0xB2#8, 0x28#8, 0x8C#8] ++ List.replicate 272 0#8 ++
  [0x0B#8, 0x00#8, 0x00#8, 0x00#8, 0x00#8, 0x00#8, 0x00#8, 0x00#8, 0x04#8, 0x00#8, 0x00#8, 0x00#8, 0x09#8, 0x00#8, 0x00#8, 0x00#8, 0xF0#8] ++
  List.replicate 62 0#8 ++ [0x10#8] ++ [0x00#8] ++ [0x00#8] ++ [0x00#8] ++ [0x00#8] ++
  [0x00#8, 0x00#8, 0x00#8, 0x00#8, 0x00#8, 0x00#8, 0x00#8, 0x00#8, 0x00#8, 0x00#8, 0x00#8, 0x20#8, 0x00#8, 0x00#8, 0x40#8] ++ [0x00#8] ++
  [0x00#8, 0x00#8, 0x00#8, 0x00#8, 0x00#8, 0x00#8, 0x00#8, 0x00#8, 0x00#8, 0x00#8, 0x00#8, 0x50#8] ++ [0x00#8] ++ [0x00#8] ++ [0x00#8] ++
  [0x00#8, 0x00#8, 0x00#8, 0x00#8, 0x00#8, 0x00#8, 0x00#8, 0x00#8, 0x00#8, 0x00#8, 0x00#8, 0x10#8] ++ List.replicate 16 0#8 ++ [0x10#8] ++
  [0x00#8] ++ [0x00#8] ++ [0x00#8] ++ [0x00#8] ++
  [0x00#8, 0x00#8, 0x00#8, 0x00#8, 0x00#8, 0x00#8, 0x00#8, 0x00#8, 0x00#8, 0x00#8, 0x00#8, 0x60#8] ++ [0x00#8] ++ [0x00#8] ++ [0x00#8] ++
  [0x00#8] ++ [0x00#8, 0x00#8, 0x00#8, 0x00#8, 0x00#8, 0x00#8, 0x00#8, 0x00#8, 0x00#8, 0x00#8, 0x00#8, 0x80#8] ++ [0x00#8] ++ [0x00#8] ++
  [0x00#8] ++ [0x00#8] ++ [0x00#8, 0x00#8, 0x00#8, 0x00#8, 0x00#8, 0x00#8, 0x00#8, 0x00#8, 0x00#8, 0x00#8, 0x00#8, 0x70#8] ++ [0x00#8] ++
  [0x00#8] ++ [0x00#8] ++ [0x00#8, 0x00#8, 0x00#8, 0x00#8, 0x00#8, 0x00#8, 0x00#8, 0x00#8, 0x00#8, 0x00#8, 0x00#8, 0x20#8] ++
  List.replicate 16 0#8 ++ [0xB0#8] ++ [0x00#8] ++ [0x00#8] ++ [0x00#8] ++
  [0x00#8, 0x00#8, 0x00#8, 0x00#8, 0x00#8, 0x00#8, 0x00#8, 0x00#8, 0x00#8, 0x00#8, 0x00#8, 0x30#8] ++ List.replicate 209 0#8 ++
  [0x4A#8, 0x58#8, 0x53#8, 0x47#8, 0x01#8, 0x00#8, 0x00#8, 0x00#8, 0x76#8, 0xA6#8, 0xC2#8, 0x9D#8, 0xBA#8, 0xB9#8, 0x33#8, 0x49#8, 0xDB#8, 0x85#8, 0x38#8, 0xBD#8] ++
  [0x41#8, 0x36#8, 0x45#8, 0x65#8, 0x8A#8, 0xC3#8, 0x8A#8, 0x38#8, 0x9D#8, 0x12#8, 0xE4#8, 0xF0#8, 0x4F#8, 0xED#8, 0x32#8, 0xFE#8, 0xA8#8, 0x3A#8, 0x5F#8, 0xBB#8] ++
  [0x0F#8, 0xF4#8, 0xA7#8, 0x2E#8, 0xE3#8, 0xEB#8, 0xA3#8, 0x5E#8, 0x53#8, 0xD0#8, 0xB8#8, 0x92#8, 0xF0#8, 0x2A#8, 0x76#8, 0xC6#8, 0xE0#8, 0xB4#8, 0x2F#8, 0xC8#8] ++
  [0x77#8, 0x86#8, 0xFD#8, 0x43#8, 0xA0#8, 0x3C#8, 0x59#8, 0xE8#8, 0x88#8, 0x70#8, 0xF3#8, 0x8E#8, 0x23#8, 0x9F#8, 0x48#8, 0x21#8, 0x7E#8, 0x09#8, 0x5F#8, 0x9A#8] ++
  [0x49#8, 0x9A#8, 0xA7#8, 0xD7#8, 0xBC#8, 0x5C#8, 0x2F#8, 0xDC#8, 0x8E#8, 0x7E#8, 0x9D#8, 0x0C#8, 0x24#8, 0xD8#8, 0xEF#8, 0x39#8, 0x54#8, 0x0C#8, 0xA7#8, 0xDE#8] ++
  [0xAE#8, 0xF9#8, 0x12#8, 0x5D#8, 0x97#8, 0x1C#8, 0xCC#8, 0x95#8, 0xA2#8, 0x74#8, 0xE9#8, 0x4E#8] ++ List.replicate 144 0#8

/-- It passes the checks of its header, sections, limits, program and schedule. -/
theorem test_package_passes : headerOk false thePkg = true ∧ sectionsOk false thePkg = true ∧ limitsOk false thePkg = true ∧
    pkgAsmOk thePkg (readPkg thePkg []) = true ∧ pkgSchedOk thePkg (readPkg thePkg []) = true ∧ readTables thePkg = some [] := by decide +kernel


/-! SEAL with the committed digest: SHA-384 is a free function (log entry 7), so the state is built from its value. -/

/-- A row has no LK field at an offset. -/
def Sys2Proof.Tests.noLk (o : Nat) : Bool := (regRow o).all (fun r => !r.fields.any (fun f => f.acc == .lk))

/-- A key is not one the digest reads. -/
def Sys2Proof.Tests.unread (k : Nat) : Bool := noLk k && noLk (k - laneSpan) && noLk (k - 2 * laneSpan)

/-- Two states that differ in no register the digest reads have one digest. -/
theorem cfgBytes_congr {ks : List Nat} {s u : State} (hk : ks.all unread = true) (hr : OnlyRegs ks s u) (hc : u.cfg = s.cfg) (hs : u.saf = s.saf) :
    cfgBytes u = cfgBytes s := by
  have hl : ∀ o r, regRow o = some r → lkBytes u o r = lkBytes s o r := by
    intro o r hr'
    unfold lkBytes
    split
    · rename_i hany
      have no : ∀ k ∈ ks, o ≠ k ∧ o + laneSpan ≠ k ∧ o + 2 * laneSpan ≠ k := by
        intro k hk'
        have h := List.all_eq_true.mp hk k hk'
        simp only [unread, Bool.and_eq_true] at h
        have bad : noLk o = true → False := by
          intro hb
          simp [noLk, hr'] at hb
          simp only [List.any_eq_true] at hany
          obtain ⟨f, hf, hf'⟩ := hany
          exact hb f hf (by simpa using hf')
        refine ⟨fun e => bad (e ▸ h.1.1), fun e => bad ?_, fun e => bad ?_⟩
        · rw [show o = k - laneSpan by omega]; exact h.1.2
        · rw [show o = k - 2 * laneSpan by omega]; exact h.2
      have n1 := hr o (fun h => (no o h).1 rfl)
      have n2 := hr (o + laneSpan) (fun h => (no _ h).2.1 rfl)
      have n3 := hr (o + 2 * laneSpan) (fun h => (no _ h).2.2 rfl)
      simp only [n1, n2, n3]
    · rfl
  unfold cfgBytes
  generalize allOffsets = offs
  rw [hc, hs]
  refine congrArg (· ++ _) (congrArg (· ++ _) (congrArg (List.flatMap · offs) (funext fun o => ?_)))
  split
  · exact hl o _ ‹_›
  · rfl

/-- Lane A with SEAL due and, as the committed digest, the words of a number. -/
def Sys2Proof.Tests.sealB : State := setF Reg.UPD_LCS_seal 1 .a (host pair)
def Sys2Proof.Tests.sealW (b : State) (w : Nat → Word) : State :=
  { b with regs := Sparse.insert (Sparse.insert (Sparse.insert (Sparse.insert b.regs (Reg.UPD_CMTn 0) (w 0)) (Reg.UPD_CMTn 1) (w 1))
    (Reg.UPD_CMTn 2) (w 2)) (Reg.UPD_CMTn 3) (w 3) }

/-- Its digest, and the state that commits it. -/
def Sys2Proof.Tests.sealD (n : Nat) : Word := BitVec.ofNat 32 (leAt (cfgDig sealB) (4 * n) 4)
def Sys2Proof.Tests.sealS : State := sealW sealB sealD

/-- The order of SEAL. -/
def Sys2Proof.Tests.sealO : Order := ord 1#8 15#8 0

/-- The registers that the commitment and the service of the order change. -/
def Sys2Proof.Tests.sealK : List Nat :=
  [Reg.UPD_CMTn 0, Reg.UPD_CMTn 1, Reg.UPD_CMTn 2, Reg.UPD_CMTn 3, (Reg.HRI_RGn_PTR_idx 0).key .a, (Reg.HRI_RGn_STAT_state 0).key .a]

theorem sealW_regs (b : State) (w : Nat → Word) : OnlyRegs sealK b (sealW b w) := by
  intro k hk
  simp only [sealK, List.mem_cons, List.not_mem_nil, or_false, not_or] at hk
  simp only [rdK, sealW]
  simp only [Sparse.get_insert_ne regDef _ _ hk.1, Sparse.get_insert_ne regDef _ _ hk.2.1, Sparse.get_insert_ne regDef _ _ hk.2.2.1, Sparse.get_insert_ne regDef _ _ hk.2.2.2.1]

theorem sealW_word (b : State) (w : Nat → Word) : rdK (sealW b w) (Reg.UPD_CMTn 0) = w 0 ∧ rdK (sealW b w) (Reg.UPD_CMTn 1) = w 1 ∧
    rdK (sealW b w) (Reg.UPD_CMTn 2) = w 2 ∧ rdK (sealW b w) (Reg.UPD_CMTn 3) = w 3 := by
  simp only [rdK, sealW]
  refine ⟨?_, ?_, ?_, ?_⟩
  · rw [Sparse.get_insert_ne regDef _ _ (by decide), Sparse.get_insert_ne regDef _ _ (by decide), Sparse.get_insert_ne regDef _ _ (by decide), Sparse.get_insert_same regDef]
  · rw [Sparse.get_insert_ne regDef _ _ (by decide), Sparse.get_insert_ne regDef _ _ (by decide), Sparse.get_insert_same regDef]
  · rw [Sparse.get_insert_ne regDef _ _ (by decide), Sparse.get_insert_same regDef]
  · rw [Sparse.get_insert_same regDef]

/-- Four bytes make the word they came from. -/
theorem leBytes_word (a b c d : Byte) : leBytes 4 (BitVec.ofNat 32 (leNat [a, b, c, d])).toNat = [a, b, c, d] := by
  have ha := a.isLt; have hb := b.isLt; have hc := c.isLt; have hd := d.isLt
  simp only [leNat, leBytes, List.cons.injEq, and_true]
  refine ⟨?_, ?_, ?_, ?_⟩ <;> apply BitVec.eq_of_toNat_eq <;> simp only [BitVec.toNat_ofNat] <;> omega

theorem sealS_committed : committed sealS = cfgDig sealB := by
  have hl : (cfgDig sealB).length = 16 := by unfold cfgDig; rw [List.length_take, sha_length]; rfl
  have key : ∀ d : List Byte, d.length = 16 → committed (sealW sealB (fun n => BitVec.ofNat 32 (leAt d (4 * n) 4))) = d := by
    intro d hd
    obtain ⟨h0, h1, h2, h3⟩ := sealW_word sealB (fun n => BitVec.ofNat 32 (leAt d (4 * n) 4))
    match d, hd with
    | [f0, f1, f2, f3, f4, f5, f6, f7, f8, f9, f10, f11, f12, f13, f14, f15], _ =>
      simp only [committed, List.flatMap_cons, List.flatMap_nil]
      rw [h0, h1, h2, h3]
      simp only [leAt, slice, Nat.mul_zero, Nat.mul_one, Nat.reduceMul, List.drop_zero, List.drop_succ_cons, List.take_succ_cons, List.take_zero, leBytes_word]
      rfl
  exact key _ hl

/-- Words that each rise by 1 commit another digest. -/
theorem committed_ne (w : Nat → Word) : committed (sealW sealB w) ≠ committed (sealW sealB (fun n => w n + 1#32)) := by
  intro hc
  have e : (committed (sealW sealB w)).head? = (committed (sealW sealB (fun n => w n + 1#32))).head? := by rw [hc]
  have f : ∀ u, (committed u).head? = some (BitVec.ofNat 8 (rdK u (Reg.UPD_CMTn 0)).toNat) := fun _ => rfl
  rw [f, f, (sealW_word sealB _).1, (sealW_word sealB _).1, Option.some.injEq] at e
  have := congrArg BitVec.toNat e
  simp only [BitVec.toNat_ofNat, BitVec.toNat_add] at this
  omega

/-- What a command that arrives by a ring changes of the registers. -/
theorem arrive_regs (s : State) : OnlyRegs sealK s (arrive sealO s).2 ∧ (arrive sealO s).2.cfg = s.cfg ∧ (arrive sealO s).2.saf = s.saf := by
  unfold arrive sealO ord OnlyRegs
  simp only
  repeat' split
  all_goals refine ⟨?_, rfl, rfl⟩
  all_goals intro k hk
  all_goals simp only [sealK, List.mem_cons, List.not_mem_nil, or_false, not_or] at hk
  all_goals simp only [setF, wrK, rdK]
  · rw [Sparse.get_set_ne regDef _ _ hk.2.2.2.2.2]
  · rw [Sparse.get_set_ne regDef _ _ hk.2.2.2.2.2, Sparse.get_set_ne regDef _ _ hk.2.2.2.2.1]; rfl

theorem begin_keeps (s : State) (t : Time) : (begin' t s).cfg = s.cfg ∧ (begin' t s).saf = s.saf ∧ ∀ k, rdK (begin' t s) k = rdK s k :=
  ⟨rfl, rfl, fun _ => rfl⟩

theorem sealW_keeps (b : State) (w : Nat → Word) : (sealW b w).cfg = b.cfg ∧ (sealW b w).saf = b.saf := ⟨rfl, rfl⟩

/-- The digest is what it was before the words were written and the order came. -/
theorem seal_digest {w : Nat → Word} (ht : takes (.seal 0#64 sealO) (sealW sealB w) (fun _ _ => getB (sealW sealB w) Reg.UPD_LCS_seal) = true) :
    ∃ info s0, Taken (.seal 0#64 sealO) info (sealW sealB w) s0 ∧ getB (sealW sealB w) Reg.UPD_LCS_seal = true ∧ cfgDig s0 = cfgDig sealB := by
  obtain ⟨info, s0, h, hs⟩ := takes_sound ht
  refine ⟨info, s0, h, hs, ?_⟩
  obtain ⟨t, o, cls, op, used, pairs, lc, hr, h1, ha, _⟩ := h
  simp only [orderRow, Option.some.injEq, Prod.mk.injEq] at hr
  obtain ⟨rfl, rfl, _⟩ := hr
  have e : s0 = (arrive sealO (begin' 0#64 (sealW sealB w))).2 := (congrArg Prod.snd ha).symm
  obtain ⟨hr, hc, hf⟩ := arrive_regs (begin' 0#64 (sealW sealB w))
  obtain ⟨b1, b2, b3⟩ := begin_keeps (sealW sealB w) 0#64
  obtain ⟨w1, w2⟩ := sealW_keeps sealB w
  have hk : OnlyRegs sealK sealB s0 := fun k h => by rw [e, hr k h, b3, sealW_regs sealB w k h]
  have hb : cfgBytes s0 = cfgBytes sealB :=
    cfgBytes_congr (by decide +kernel) hk (by rw [e, hc, b1, w1]) (by rw [e, hf, b2, w2])
  unfold cfgDig
  rw [hb]

/-- The hypotheses of a SEAL that is accepted, and of one with another digest committed. -/
theorem test_witness_OrdersActAtOnce_seal :
    ∃ info s0, Taken (.seal 0#64 sealO) info sealS s0 ∧ getB sealS Reg.UPD_LCS_seal = true ∧ cfgDig s0 = committed sealS := by
  rw [sealS_committed]
  exact seal_digest (by decide +kernel)

theorem test_witness_OrdersActAtOnce_sealMismatch : ∃ info s0, Taken (.seal 0#64 sealO) info (sealW sealB (fun n => sealD n + 1#32)) s0 ∧
    getB (sealW sealB (fun n => sealD n + 1#32)) Reg.UPD_LCS_seal = true ∧ cfgDig s0 ≠ committed (sealW sealB (fun n => sealD n + 1#32)) := by
  obtain ⟨info, s0, h, hs, hd⟩ := seal_digest (w := fun n => sealD n + 1#32) (by decide +kernel)
  refine ⟨info, s0, h, hs, ?_⟩
  rw [hd, ← sealS_committed]
  exact committed_ne sealD


/-! The recorder, the Tender, power and images. -/

/-- An event of the wake controller, and a recorder with it in its last source group's queue. -/
def Sys2Proof.Tests.ev (a : Bool) : Event := ⟨0#64, 0#32, 0#32, 0#64, .wake, 7#16, a, false⟩
def Sys2Proof.Tests.recS (split q cnt : Nat) (e : Event) : State :=
  let r : RecSt := { q := q, counts := [(.wake, 7#16, cnt, 1)], queues := [{}, {}, {}, {}, {}, ⟨[e], 0⟩] }
  setF Reg.REC_STAT_split split .a { pair with rec' := r }

/-- The ninth and tenth occurrence in a second, an alarm and a record of the appender; the last slot and the one before; each mode; a second, an hour and
1 ns after; the key of REC_CLR in Service and a wrong one. -/
theorem test_witness_RecorderKeepsEveryEvent :
    let own : Event := { ev false with src := .appender }
    let sync := setF Reg.TMB_STAT_state 1 .a pair
    let srv := setF Reg.UPD_LCS_state 3 .a pair
    let key : Word := BitVec.ofNat 32 (0x5EC0 + 2 ^ 16 * (0xFFFF - 0x5EC0))
    (∀ c ∈ [9, 10], countOf (recS 0 0 c (ev false)) (ev false) = (c, 1) ∧ (recS 0 0 c (ev false)).rec'.queues.getD 5 {} = ⟨[ev false], 0⟩) ∧
    (recS 0 0 10 (ev true)).rec'.queues.getD 5 {} = ⟨[ev true], 0⟩ ∧ (recS 0 0 10 own).rec'.queues.getD 5 {} = ⟨[own], 0⟩ ∧ (recS 0 0 0 own).up = true ∧
    ¬ LastSlot (recS 0 32765 0 own) ∧ LastSlot (recS 0 32766 0 own) ∧ ¬ LastSlot (recS 0 32767 0 own) ∧ ¬ LastSlot (recS 1 32766 0 own) ∧
    (recS 0 0 0 own).rec'.queues.getD 4 {} = ⟨[], 0⟩ ∧ (1000000000#64).toNat % sec = 0 ∧ (1000000001#64).toNat % sec ≠ 0 ∧
    pair.rec'.counts = [] ∧ (recS 0 0 1 own).rec'.counts = [(.wake, 7#16, 1, 1)] ∧ getB (recS 1 0 1 own) Reg.REC_STAT_split = true ∧
    (3600000000000#64).toNat % (3600 * sec) = 0 ∧ (3600000000001#64).toNat % (3600 * sec) ≠ 0 ∧ getF sync Reg.TMB_STAT_state (timeLane sync) = 1 ∧
    getF pair Reg.TMB_STAT_state (timeLane pair) ≠ 1 ∧ getB (setF Reg.PWR_STAT_sup1 1 .a pair) Reg.PWR_STAT_sup1 = true ∧
    getB (setF Reg.PWR_STAT_sup2 1 .a pair) Reg.PWR_STAT_sup2 = true ∧ getB (setF Reg.PWR_STAT_sup1 0 .a pair) Reg.PWR_STAT_sup1 = false ∧
    getB (setF Reg.PWR_STAT_sup2 0 .a pair) Reg.PWR_STAT_sup2 = false ∧ ModWritable srv .a ∧ key.toNat % 2 ^ 16 = 0x5EC0 ∧
    key.toNat / 2 ^ 16 = 0xFFFF - 0x5EC0 ∧ getF srv Reg.UPD_LCS_state = 3 ∧ ¬ LastSlot srv ∧ 0 < srv.rec'.n ∧ (key + 1#32).toNat % 2 ^ 16 ≠ 0x5EC0 := by
  unfold LastSlot ModWritable; decide +kernel

/-- Lane A's Tender after some errors. -/
def Sys2Proof.Tests.tndS (f : TndSt → TndSt) : State := { live with la := { live.la with tnd := f live.la.tnd } }

/-- The 16th and the 17th error of a region, the 64th of the lane; an address seen within 24 h and at 24 h; a page retired; the alarm of an item and none;
a domain on and off; the last behind bit; 25 % and 5 % and one less; 100 ms after the second and 1 ns more; a ring with room and without. -/
theorem test_witness_TenderWatchesTheMemories :
    let d := tndS (fun x => { x with region := [(0, 15)], ceRec := true })
    let m := tndS (fun x => { x with region := [(0, 16)], ceRec := true, pages := [0] })
    let a := tndS (fun x => { x with excess := true, ceRec := true, addrs := [(5, 0#64)] })
    let dom := setF Reg.PWR_STAT_dom 0xFFF .a live
    let nod := setF Reg.PWR_STAT_dom 0xF .a live
    let fen := setF Reg.PWR_STAT_dom 0xFFF .a { live with la := { live.la with fus := { live.la.fus with run := true } },
                                                           cyc := { live.cyc with fusionOpen := true } }
    let sync := setF Reg.TMB_STAT_state 1 .a live
    let low := setF Reg.TND_STAT_flashlow 1 .a live
    let behind := setF { Reg.TND_STAT_bpatrol with lsb := 5 } 1 .a live
    let ring := setF (Reg.HRI_RGn_CFG_en 63) 1 .a (setF (Reg.HRI_RGn_STAT_state 63) 1 .a (setF (Reg.HRI_RGn_CFG_kind 63) 2 .a
      (setF (Reg.HRI_RGn_CFG_sclass 63) 0x13 .a (setF (Reg.HRI_RGn_CFG_lsz 63) 4 .a (setF (Reg.HRI_RGn_DSIZE_pages 63) 1 .a live)))))
    LaneRuns live .a ∧ LaneRuns d .a ∧ LaneRuns m .a ∧ LaneRuns a .a ∧ (alGet (d.lane .a).tnd.region (5 / 2 ^ 26)).getD 0 + 1 = 16 ∧ (d.lane .a).tnd.dram < 64 ∧
    (d.lane .a).tnd.pages.contains (5 / 4096) = false ∧ (recentAddrs 0#64 d .a).any (fun x => x.1 == 5) = false ∧
    (alGet (m.lane .a).tnd.region (5 / 2 ^ 26)).getD 0 + 1 = 17 ∧ (m.lane .a).tnd.excess = false ∧ (m.lane .a).tnd.ceRec = true ∧
    (m.lane .a).tnd.pages.contains (5 / 4096) = true ∧ (a.lane .a).tnd.excess = true ∧ (a.lane .a).tnd.ceRec = true ∧
    (a.lane .a).tnd.pages.contains (5 / 4096) = false ∧ (recentAddrs 86399999999999#64 a .a).any (fun x => x.1 == 5) = true ∧
    (recentAddrs 86400000000000#64 a .a).any (fun x => x.1 == 5) = false ∧ LaneRuns dom .a ∧ domOn dom (domBit .a + 3 - 1) = true ∧
    domOn nod (domBit .a + 3 - 1) = false ∧ LaneRuns nod .a ∧ dom.la.fus.run = false ∧ fen.la.fus.run = true ∧ fen.cyc.fusionOpen = true ∧ isActive fen .a = true ∧
    LaneRuns fen .a ∧ domOn fen (domBit .a + 3 - 1) = true ∧ live.up = true ∧ (active live).isSome = true ∧ active State.reset = none ∧
    live.alarms.contains (Ev.TND_MRAM, 7) = false ∧ live.alarms.contains (Ev.TND_FLASH, Lane.a.idx) = false ∧ LaneRuns low .a ∧
    getB low Reg.TND_STAT_flashlow .a = true ∧ getB live Reg.TND_STAT_flashlow .a = false ∧ getB live { Reg.TND_STAT_bpatrol with lsb := 5 } .a = false ∧
    getB behind { Reg.TND_STAT_bpatrol with lsb := 5 } .a = true ∧ LaneRuns sync .a ∧ getF sync Reg.TMB_STAT_state .a = 1 ∧ isActive sync .b = false ∧
    getF live Reg.TMB_STAT_state .a ≠ 1 ∧ 100 * ms = since 1100000000#64 (BitVec.ofNat 64 ((1100000000#64).toNat / sec * sec)) ∧
    100 * ms < since 1100000001#64 (BitVec.ofNat 64 ((1100000001#64).toNat / sec * sec)) ∧ streamRing live .a 0x13 = none ∧ streamRing ring .a 0x13 = some 63 ∧
    LaneRuns ring .a ∧ ringFull ring .a 63 = false ∧ (pieceAt ring .a 63 128).isSome = true ∧ ringFull (setF (Reg.HRI_RGn_PTR_idx 63) 15 .a ring) .a 63 = true ∧
    pieceAt (setF (Reg.HRI_RGn_DSIZE_pages 63) 0 .a ring) .a 63 128 = none := by
  unfold LaneRuns; decide +kernel

/-- The state with given supplies. -/
def Sys2Proof.Tests.sup (a b : Nat) : State := setF Reg.PWR_STAT_sup1 a .a (setF Reg.PWR_STAT_sup2 b .a pair)

/-- Supplies present and not, the last one lost; MRST_N in reset, masked and free, each step of the journal; a lane in each phase; 100 ms after a removal
and 1 ns less; a die that is hot; the alarm on and off. -/
theorem test_witness_PowerAndResets :
    let res := fun (st : Nat) => setF Reg.UPD_SEQ_step st .a { pair with upd := { pair.upd with inReset := true } }
    let msk : State := { pair with upd := { pair.upd with masked := true } }
    let off : State := { pair with lb := { pair.lb with ph := .off } }
    let wip : State := setF Reg.PWR_STAT_bwipe 1 .a { pair with lb := { pair.lb with ph := .wiping } }
    let lcw : State := { wip with upd := { wip.upd with wiping := true } }
    let cut : State := { off with kpr := { off.kpr with lb := { off.kpr.lb with offAt := some 0#64 } } }
    let good : State := { cut with kpr := { cut.kpr with lb := { cut.kpr.lb with offForGood := true } } }
    let hot : State := { off with upd := { off.upd with hotB := true } }
    let al : State := { pair with alarms := [(Ev.PWR_HOT, 0), (Ev.PWR_SUP, 1), (Ev.PWR_BKP, 0)] }
    let dom := setF Reg.PWR_STAT_dom 0xFFF .a pair
    let nod := setF Reg.PWR_STAT_dom 0xF .a pair
    let fen := { dom with la := { dom.la with fus := { dom.la.fus with run := true } } }
    getB (sup 0 0) (supBit 1) = false ∧ getB (sup 0 0) (supBit (1 - 1)) = false ∧ getB (sup 1 0) (supBit 1) = false ∧ getB (sup 1 0) (supBit (1 - 1)) = true ∧
    getB (sup 0 1) (supBit 1) = true ∧ getB (sup 0 1) (supBit (1 - 1)) = false ∧ getB (sup 1 1) (supBit 1) = true ∧ getB (sup 1 1) (supBit (1 - 1)) = true ∧
    (sup 1 1).alarms.contains (Ev.PWR_SUP, 1) = false ∧ ¬ LastSlot (sup 0 1) ∧ anySupply (sup 0 0) = false ∧ anySupply (sup 1 0) = true ∧
    pair.up = true ∧ pair.upd.masked = false ∧ msk.upd.masked = true ∧ msk.up = true ∧ pair.upd.inReset = false ∧
    (∀ st ∈ [0, 1, 2, 3, 4, 6], (res st).upd.inReset = true ∧ getF (res st) Reg.UPD_SEQ_step = st ∧ (res st).upd.wiping = false) ∧
    (off.lane .b).ph = .off ∧ mayPower off .b = true ∧ mayPower hot .b = false ∧ (pair.lane .b).ph ≠ .off ∧ modeNow dom = .layup ∧ domOn dom (domBit .b + 1) = true ∧
    modeNow (inCycle 2 pair) ≠ .layup ∧ domOn nod (domBit .b + 1) = false ∧ domOn dom (domBit .b + 2) = true ∧ (dom.lane .b).fus.run = false ∧
    domOn nod (domBit .b + 2) = false ∧ (fen.lane .a).fus.run = true ∧ (wip.lane .b).ph = .wiping ∧ getB wip (wipeFld .b) = true ∧ wip.upd.wiping = false ∧
    lcw.upd.wiping = true ∧ (lcw.lane .b).ph = .wiping ∧ getB lcw (wipeFld .b) = true ∧ (pair.lane .b).ph ≠ .wiping ∧ (kprLane cut .b).offAt = some 0#64 ∧
    100 * ms ≤ since 100000000#64 0#64 ∧ since 99999999#64 0#64 < 100 * ms ∧ (kprLane cut .b).offForGood = false ∧ decommissioned cut = false ∧
    dieHot cut .b = false ∧ (kprLane good .b).offForGood = true ∧ (kprLane pair .b).offAt = none ∧ pair.alarms.contains (Ev.PWR_HOT, 0) = false ∧
    al.alarms.contains (Ev.PWR_HOT, 0) = true ∧ al.alarms.contains (Ev.PWR_BKP, 0) = true ∧ LaneRuns pair .b ∧ dieHot hot .b = true ∧ (hot.lane .b).ph = .off ∧
    (kprLane hot .b).offAt = none ∧ (kprLane hot .b).offForGood = false ∧ decommissioned hot = false ∧ hot.up = true ∧
    getB pair Reg.PWR_STAT_bkplow = false ∧ getB (setF Reg.PWR_STAT_bkplow 1 .a pair) Reg.PWR_STAT_bkplow = true := by
  unfold LaneRuns LastSlot; decide +kernel

/-- An image of 512 bytes of a lane, and Lane B with it loaded in its slot 1. -/
def Sys2Proof.Tests.img : List Byte :=
  [0x4A#8, 0x58#8, 0x46#8, 0x57#8, 1#8, 0#8, 0#8, 0#8, 0#8, 2#8, 0#8, 0#8, 1#8, 3#8, 4#8, 0#8] ++ List.replicate 240 0#8
    ++ [0x4A#8, 0x58#8, 0x53#8, 0x47#8, 1#8, 0#8, 0#8, 0#8] ++ beBytes 8 0x1525835b7b8a9098
    ++ beBytes 48 0xce818753960c6c09910ab6f007ec1b79176cba552f407cfa943772f9d3c30f86bb8a76aed636f3da58e11dee1ae1e61
    ++ beBytes 48 0x33f5913a5399c2f7fcd76aa2a7c5fd98ff943ca73b67fd31edfd35f2710379c50178c630f31c54e4e420d6cb16373f12 ++ List.replicate 144 0#8
def Sys2Proof.Tests.imgS : State :=
  setF (slotSt' false 1) 1 .b { pair with upd := { pair.upd with
    slots := [(3, { blocks := [(0, img)], complete := true })]
    romKeys := [[4#8] ++ beBytes 48 0xd8a17e55b8e2f47bc369fd9616695ce273dce4e307830a65f5a4a9aa8967c987aeea7ad365677a13bfd65c3fe5a66939
      ++ beBytes 48 0xbdc53542c5213a51345dba8220abb23c71659a4d850b3bbaff8d035bd08a59eb32099c96a9049e4d7d435cf675713bc8] } }

/-- FIPS 186-4: the signature of the image verifies under the key of KPR ROM (values computed outside the model); with no key it is KEY. -/
theorem test_image_signature :
    imgErr imgS .b false (imgBytes (imgSlot imgS 3)) = 0 ∧
    imgErr { imgS with upd := { imgS.upd with romKeys := [] } } .b false (imgBytes (imgSlot imgS 3)) = 3 := by decide +kernel

/-- Both lanes and the Keeper with images to confirm, a step and kind of the sequence, and counts of good cycles. -/
def Sys2Proof.Tests.confS (step kind cnt : Nat) : State :=
  setF Reg.UPD_SEQ_step step .a (setF Reg.UPD_SEQ_kind kind .a { pair with upd := { pair.upd with
    startA := some 0#64, startB := some 0#64, startK := some 0#64, newA := some 1, runA := 1, newB := some 1, runB := 1, newK := some 1, runK := 1,
    cntA := cnt, cntB := cnt, kGood := 0#64 } })

/-- A wipe in progress for each target, and none; an image whose signature verifies and not, and none loaded; 49 and 50 good cycles in each step; 120 s
and 1 ns less in each step, in Lay-up and outside it; 10 s of the Keeper's image and 1 ns less. -/
theorem test_witness_ImagesAreConfirmed :
    let w := fun (n : Nat) => setF Reg.UPD_LCS_target n .a { pair with upd := { pair.upd with wiping := true } }
    let lone := fun (st : Nat) => { confS st 0 50 with upd := { (confS st 0 50).upd with startA := none } }
    (∀ n ∈ [1, 2, 4], (w n).up = true ∧ (w n).upd.wiping = true ∧ getF (w n) Reg.UPD_LCS_target = n) ∧ pair.upd.wiping = false ∧
    ImageLoaded imgS .b false 1 (imgSlot imgS 3) ∧ ImageLoaded { imgS with upd := { imgS.upd with romKeys := [] } } .b false 1 (imgSlot imgS 3) ∧ getF pair (slotSt' false 1) .b ≠ 1 ∧ LaneRuns (confS 2 0 50) .b ∧
    (∀ st ∈ [2, 4, 6], startOf (confS st 0 50) .b = some 0#64 ∧ confCount (confS st 0 50) .b = 50 ∧ runSlot (confS st 0 50) .b = 1 ∧
      getF (confS st 0 50) Reg.UPD_SEQ_step = st ∧ LaneRuns (confS st 0 50) .b) ∧ confCount (confS 2 0 49) .b < 50 ∧ startOf pair .b = none ∧
    startOf (confS 6 0 50) Lane.b.other ≠ none ∧ startOf (lone 6) Lane.b.other = none ∧ newSlot (lone 6) .b = some 1 ∧ LaneRuns (lone 6) .b ∧
    getF (confS 4 2 50) Reg.UPD_SEQ_kind = 2 ∧ 120 * sec ≤ since 120000000000#64 0#64 ∧ since 119999999999#64 0#64 < 120 * sec ∧
    (pair.lane .b).ph = .ready ∧ ((confS 2 0 0).lane .b).ph = .ready ∧ modeNow (confS 4 0 0) = .layup ∧ modeNow (setF Reg.JX_MODE_mode 2 .a (confS 4 0 0)) ≠ .layup ∧
    pair.upd.startK = none ∧ (confS 7 1 0).upd.startK = some 0#64 ∧ (confS 7 1 0).kpr.up = true ∧ getF (confS 7 1 0) Reg.UPD_SEQ_step = 7 ∧
    (confS 7 1 0).upd.runK = 1 ∧ 10 * sec ≤ since 10000000000#64 (confS 7 1 0).upd.kGood ∧ since 9999999999#64 (confS 7 1 0).upd.kGood < 10 * sec ∧
    getF (confS 6 1 0) Reg.UPD_SEQ_step ≠ 7 := by
  unfold ImageLoaded LaneRuns; decide +kernel

/-- Lane A's flash: erases of block 1, reads of block 2, block 3 retired. -/
def Sys2Proof.Tests.flS (e r : Nat) : State := { live with upd := { live.upd with flashA := { erase := [(1, e)], reads := [(2, r)], bad := [(3, 4)] } } }

/-- Blocks 501 and 500 erases apart, 100,000 reads and one less, a retired block and another; erased and
never erased; a lane with all its spares gone. -/
theorem test_witness_TenderWatchesTheMemories_flash :
    let none' : FlashSt := { bad := List.replicate Config.flashSpares (3, 4) }
    LaneRuns (flS 501 0) .a ∧ max (erases (flS 501 0) .a 1) (erases (flS 501 0) .a 0) - min (erases (flS 501 0) .a 1) (erases (flS 501 0) .a 0) = 501 ∧
    max (erases (flS 500 0) .a 1) (erases (flS 500 0) .a 0) - min (erases (flS 500 0) .a 1) (erases (flS 500 0) .a 0) = 500 ∧
    blockReads (flS 0 100000) .a 2 = 100000 ∧ blockReads (flS 0 99999) .a 2 = 99999 ∧ mayMove (flS 0 0) .a 0 = true ∧ mayMove (flS 0 0) .a 1 = true ∧
    mayMove (flS 0 0) .a 2 = true ∧ mayMove (flS 0 0) .a 3 = false ∧ (∀ x ∈ (flashOf (flS 0 0) .a).bad, x.1 ≠ 2) ∧ (∃ x ∈ (flashOf (flS 0 0) .a).bad, x.1 = 3) ∧
    0 < erases (flS 1 0) .a 1 ∧ [2].count 2 = 1 ∧ 1 ∉ [2] ∧ sparePm none' = 0 := by
  refine ⟨by unfold LaneRuns; decide +kernel, by decide +kernel, by decide +kernel, by decide +kernel, by decide +kernel, by decide +kernel,
    by decide +kernel, by decide +kernel, by decide +kernel, by decide +kernel, by decide +kernel, by decide +kernel, by decide +kernel, by decide +kernel, ?_⟩
  simp [sparePm, rndOpen]

/-- Each value with a good copy elsewhere and without, by its slot. -/
theorem test_witness_TenderWatchesTheMemories_pairs :
    let x : MetSlot := ⟨0#64, 1, [], [], []⟩
    let one := { live with met1 := some x, met0 := none }
    let none' := { live with met0 := none, met1 := none }
    Repairable live (.config 7) 7 ∧ Repairable one (.slotPair 7 (.met 0)) 7 ∧ Repairable { live with met0 := some x } (.slotPair 7 (.met 1)) 7 ∧
    (∀ n ≤ 1, Repairable live (.slotPair 7 (.counter n)) 7 ∧ Repairable live (.slotPair 7 (.journal n)) 7) ∧
    Lost live (.lone 7) 7 ∧ Lost State.reset (.config 7) 7 ∧ State.reset.up = true ∧ Lost { pair with kpr := { pair.kpr with role := none } } (.config 7) 7 ∧
    Lost none' (.slotPair 7 (.met 0)) 7 ∧ Lost one (.slotPair 7 (.met 1)) 7 ∧ live.up = true ∧
    { live with alarms := [(Ev.TND_MRAM, 7)] }.alarms.contains (Ev.TND_MRAM, 7) = true :=
  ⟨.inl ⟨rfl, by decide +kernel⟩, .inr (.inl ⟨rfl, rfl⟩), .inr (.inr (.inl ⟨0, rfl, rfl⟩)),
   fun n _ => ⟨.inr (.inr (.inr ⟨n, .inl rfl⟩)), .inr (.inr (.inr ⟨n, .inr rfl⟩))⟩, .inl rfl, .inr (.inl ⟨rfl, by decide +kernel⟩), by decide +kernel,
   .inr (.inl ⟨rfl, by decide +kernel⟩), .inr (.inr (.inl ⟨rfl, rfl⟩)), .inr (.inr (.inr ⟨0, rfl, rfl⟩)), by decide +kernel, by decide +kernel⟩

/-- Counters whose slot written last checks, or whose other one does; a journal without a good copy, and with one; a recorder size to be taken. -/
theorem test_witness_PowerAndResets_counters :
    let r : RecSt := { cnt0 := (1#32, 2#32), cnt1 := (3#32, 4#32), cntLast := true }
    let i : StartIn := ⟨[], [], true, true, []⟩
    CountsKept i r (3#32, 4#32) ∧ CountsKept { i with cntBad := [(1, 0)] } r (1#32, 2#32) ∧ CountsKept { i with cntBad := [(0, 0)] } r (3#32, 4#32) ∧
    (∃ x ∈ ({ i with badVals := [(.journal, 0)] } : StartIn).badVals, x.1 = .journal) ∧ (∀ x ∈ i.badVals, x.1 ≠ .journal) ∧
    0 < getF pair Reg.REC_CFG_n := by
  refine ⟨⟨true, ?_⟩, ⟨false, ?_⟩, ⟨true, ?_⟩, ?_⟩ <;> decide +kernel

/-! Fusion (R168, R174, R177-R179, R533). -/

/-- ln 8 = 2.0794415416798357…, by hand; below 2⁻⁸⁰ of it. -/
theorem test_logarithm : (lnFix 8 - 2079441541679835928251696364374529704 * 2 ^ 96 / 10 ^ 36).natAbs < 2 ^ 16 ∧ lnFix 1 = 0 := by decide +kernel

/-- Positions 1 m apart with σ = 0.1 m contradict, with σ = 0.3 m they agree (R178: 5σ of both is 0.71 m and 2.1 m); of two single positions the
trusted one is chosen (R179). -/
theorem test_vote : let c (n : Nat) (x : Int) (v : Dy) : Cand' := ⟨n, ⟨x, 0⟩, ⟨0, 0⟩, v, v⟩
    agreePos (c 1 0 ⟨41, -12⟩) (c 2 1 ⟨41, -12⟩) = false ∧ agreePos (c 1 0 ⟨369, -12⟩) (c 2 1 ⟨369, -12⟩) = true ∧
    choose agreePos (fun _ => ⟨0, 0⟩) none [c 1 0 ⟨41, -12⟩, c 2 1 ⟨41, -12⟩] = ([], true) ∧
    choose agreePos (fun _ => ⟨0, 0⟩) (some 2) [c 1 0 ⟨41, -12⟩, c 2 1 ⟨41, -12⟩] = ([c 2 1 ⟨41, -12⟩], false) := by decide +kernel

/-- A measured x with the variance of the state moves it half way and halves its variance (R174). -/
theorem test_filter_update : let f : Filt := { at' := 0#64, x := List.replicate 7 0#64, p := (List.range 7).map (fun i => (List.range 7).map (fun j =>
      if i = j then F64.one else 0#64)) }
    let g := update ⟨0#64, 0, 0x4000000000000000#64, F64.one⟩ f
    fv g 0 = F64.one ∧ fc g 0 0 = 0x3FE0000000000000#64 ∧ fc g 1 1 = F64.one ∧ fv g 1 = 0#64 := by decide +kernel

/-- An empty cell of a lidar tensor is 0 in all eight channels; an image of the output's size is taken pixel for pixel (R168). -/
theorem test_tensors : lidarCell [] = List.replicate 8 0#16 ∧ (List.range 4).map (resizeAt 4 4) = [(0, 1, 0), (1, 2, 0), (2, 3, 0), (3, 3, 0)] := by
  decide +kernel

/-! GNSS (R188, R204, R207). -/

/-- The worked example of the spec: a carrier word of −765,282,227 on IF0 is a Doppler of −2,345.6 Hz, and a code phase of 511.23740 chips at an edge
7,430 ps after E is 511.2298 chips at E. -/
theorem test_worked_example : let v : GnbCh := { sig := 1, car := BitVec.ofInt 32 (-765282227), cod := 53687011#32, chip := 511, codFrac := 1019625236#32 }
    10 * dopplerNum pair 0 v / 2 ^ 32 = -23457 ∧ (codeNum pair 0 7430 v).1 * 10 ^ 4 / (2 ^ 32 * 10 ^ 12) = 5112297 ∧ (codeNum pair 0 7430 v).2 = 0 := by
  decide +kernel

/-- A sample byte in each format: 0x8F is −8 and −1 in two's complement, −0 and −7 in sign-magnitude, where 1111 is −7. -/
theorem test_sample_formats : [sampleVal false 8, sampleVal false 15, sampleVal true 8, sampleVal true 15, sampleVal true 7] = [-8, -1, 0, -7, 7] := by
  decide +kernel

/-- The oscillators: a negative carrier word borrows from the cycle count, and the code wraps at its length and counts a period. -/
theorem test_oscillators : let v : GnbCh := { sig := 7, car := 0xFFFFFFFF#32, cod := 0x80000000#32, chip := 510 }
    (runOsc 3 v).carCyc = 0xFFFFFFFF#32 ∧ (runOsc 3 v).carFrac = 0xFFFFFFFD#32 ∧ (runOsc 3 v).chip = 0 ∧ (runOsc 3 v).codFrac = 0x80000000#32 ∧
    (runOsc 3 v).per = 1#32 ∧ (runOsc 1 v).per = 0#32 := by decide +kernel

/-! Metrology (R225, R228, R236, R240). -/

/-- The 1,873 weights of the sinc³ window add up to 625³, and its ends weigh 1. -/
theorem test_sinc : (List.range 1873).foldl (fun a j => a + sincTap j) 0 = 625 ^ 3 ∧ sincTap 0 = 1 ∧ sincTap 1872 = 1 ∧ sincTap 1 = 3 ∧
    sincTap 936 = 292969 := by decide +kernel

/-- All ones are 1.25 of full scale, all zeros its negative; densities above 0.9 and below 0.1 are over-range. -/
theorem test_density : densOf (625 ^ 3) = 0x3FF4000000000000#64 ∧ densOf 0 = 0xBFF4000000000000#64 ∧ overRange ⟨0, 219726562, false⟩ = false ∧
    overRange ⟨0, 219726563, false⟩ = true ∧ overRange ⟨0, 24414063, false⟩ = false ∧ overRange ⟨0, 24414062, false⟩ = true := by decide +kernel

/-- A square wave of 160 samples a period crosses upward every 160 samples: 50 Hz, whatever the nominal frequency; a period of 201 samples is
outside 40 to 70 Hz. -/
theorem test_frequency : let w (n : Nat) : List F64 := (List.range 402).map (fun i => if i % n < n / 2 then F64.one else F64.neg F64.one)
    (periodFrac (w 160)).map (fun p => p.1 / p.2) = some 160 ∧ windowLen true (w 160) = 160 ∧ windowLen true (w 201) = 133 ∧
    windowLen false [] = 160 := by decide +kernel

/-- A battery string at 800 V with −36 A and then +36 A adds 1000 µWh to export and to import and 1.25 µAh to each charge, by the factor of the worked
example of the spec (p × 0.0347222 µWh a sample); the net register is unchanged. -/
theorem test_reversal : let s (i : Int) (x : State) : State := metDc .a 12 ⟨⟨800, 0⟩, 1⟩ ⟨⟨i, 0⟩, 1⟩ x
    (metInc (mMul ⟨⟨800, 0⟩, 1⟩ ⟨⟨36, 0⟩, 1⟩) / 2 ^ 32 = 1000 ∧ metReg (metPt (s 36 (s (-36) pair)) .a 12) 0 = 1000 ∧
      metReg (metPt (s 36 (s (-36) pair)) .a 12) 1 = 1000 ∧ metReg (metPt (s 36 (s (-36) pair)) .a 12) 9 = 0 ∧
      metReg (metPt (s 36 (s (-36) pair)) .a 12) 7 = 1) := by decide +kernel

/-- The design taps meet the figures of R228 at 0, at the edges of the two bands and at 16 kHz. -/
theorem test_comp_filter : let g (f : Nat) := (chainGain (fun i => F64.val (F64.ofRat (designTaps.getD i 0) (2 ^ 36))) f).mul ⟨10 ^ 9, 0⟩
    (∀ f ∈ [0, 3200], Dy.lt (g f) ⟨999424520, 0⟩ = false ∧ Dy.lt ⟨1000575810, 0⟩ (g f) = false) ∧
    ∀ f ∈ [4800, 16000], Dy.lt (g f) ⟨-31622, 0⟩ = false ∧ Dy.lt ⟨31622, 0⟩ (g f) = false := by decide +kernel

/-- R291-R293: a SOLUTION item with n = 0 is its header of 64 bytes and their complement: two frames, FIRST, then LAST in the complement section at
offset 64. -/
theorem test_solution_frames : let fs := itemFrames 5#32 7#16 (.solution 0#32 none)
    fs.map (fun f => (leAt f 2 2, leAt f 4 4, leAt f 8 4, leAt f 12 2, leAt f 14 2)) = [(1, 5, 0, 64, 8), (6, 5, 64, 64, 9)] ∧
    (fs.map frPay).map (fun p => (leAt p 8 4, leAt p 12 4)) = [(0, 0xFFFFFFFF), (0xFFFFFFFF, 0)] := by decide +kernel

/-- R360: a masked vector waits in the pending-bit array and is raised when its mask is cleared. -/
theorem test_msix_pending :
    (raiseVec .a 63 pair).out = pair.out ∧ rdK (raiseVec .a 63 pair) (pbaKey .a 63) = 0x80000000#32 ∧
    (msixWrite .a (16 * 63 + 12) 0#32 (raiseVec .a 63 pair)).out = pair.out ++ [.msix .a 63] ∧
    rdK (msixWrite .a (16 * 63 + 12) 0#32 (raiseVec .a 63 pair)) (pbaKey .a 63) = 0#32 := by decide +kernel

/-- R344, R349: an ordered shift and a calendar write wait for the next crystal tick; the shift goes first. -/
theorem test_shift_then_load :
    let s := { calOrder 5 false pair with rtc := { (calOrder 5 false pair).rtc with load := some 327680 } }
    getB s Reg.RTC_SHIFT_busy = true ∧ (rtcTicks 0 s).rtc.load = some 327680 ∧ (rtcTicks 3 s).rtc.cal = 327682 ∧
    getB (rtcTicks 1 s) Reg.RTC_SHIFT_busy = false := by decide +kernel

/-- R493, R502: bytes and halves of JX_ID, and JX_ID with JX_REV as one 64-bit read. -/
theorem test_narrow_reads :
    hostRead pair .a 0 4 = 0x4A587400 ∧ hostRead pair .a 2 2 = 0x4A58 ∧ hostRead pair .a 1 1 = 0x74 ∧
    hostRead pair .b 0 8 = 0x4A587400 + 2 ^ 32 * (regRead pair .b 4).toNat := by decide +kernel
end

/-! Register writes (R10, R493-R497). -/

namespace Sys2Proof.Machine

/-! One-bit fields. -/

/-- A bit of a word with a field replaced. -/
theorem getLsbD_withField (v : Word) {lsb w : Nat} (x : Nat) (h : lsb + w ≤ 32) (i : Nat) :
    (withField v lsb w x).getLsbD i
      = if i < lsb then v.getLsbD i else if i < lsb + w then x.testBit (i - lsb) else v.getLsbD i := by
  have hv : (withField v lsb w x).toNat = v.toNat - v.toNat / 2 ^ lsb % 2 ^ w * 2 ^ lsb + x % 2 ^ w * 2 ^ lsb := by
    unfold withField fieldOf
    rw [BitVec.toNat_ofNat]
    exact Nat.mod_eq_of_lt (replaced_lt v.isLt h)
  simp only [← BitVec.testBit_toNat, hv, testBit_replaced]

theorem fieldOf_one (v : Word) (i : Nat) : fieldOf v i 1 = b2n (v.getLsbD i) := by
  simp only [fieldOf, ← BitVec.testBit_toNat, Nat.testBit_eq_decide_div_mod_eq, b2n, Nat.pow_one, decide_eq_true_eq]
  split <;> omega

/-- A one-bit field is a bit of its register. -/
theorem getB_eq_getLsbD (s : State) {f : Fld} (hw : f.w = 1) (l : Lane) : getB s f l = (rdK s (f.key l)).getLsbD f.lsb := by
  simp only [getB, getF, hw, fieldOf_one]
  cases (rdK s (f.key l)).getLsbD f.lsb <;> rfl

/-! The store of a write's fields (R10, R496). -/

/-- Two fields of a register that share no bit. -/
def WField.apart (f g : WField) : Bool := decide (f.lsb + f.w ≤ g.lsb) || decide (g.lsb + g.w ≤ f.lsb)

/-- A field that takes the bits written to it, inside its register. -/
def WField.stored (f : WField) : Bool := (f.acc == .rw || f.acc == .lk) && decide (f.lsb + f.w ≤ 32)

/-- Every field of a register takes the bits written to it, and no two share a bit. -/
def storedApart : List WField → Bool
  | [] => true
  | f :: fs => f.stored && fs.all f.apart && storedApart fs

/-- A one-bit field that a write of 1 clears. -/
def WField.clears (f : WField) : Bool := f.acc == .w1c && f.w == 1 && decide (f.lsb < 32)

theorem WField.stored_fits {f : WField} (h : f.stored = true) : f.lsb + f.w ≤ 32 := by
  simp only [WField.stored, Bool.and_eq_true, decide_eq_true_eq] at h
  exact h.2

/-- A stored field of a write replaces its bits; the write's other fields follow. -/
theorem storeFields_cons_stored (v w : Word) {f : WField} (h : f.stored = true) (fs : List WField) :
    storeFields v (f :: fs) w = storeFields v fs (withField w f.lsb f.w (fieldOf v f.lsb f.w)) := by
  simp only [WField.stored, Bool.and_eq_true, Bool.or_eq_true, beq_iff_eq] at h
  obtain ⟨hacc | hacc, -⟩ := h <;> rw [storeFields, hacc]

/-- A write leaves a field apart from all those it stores. -/
theorem fieldOf_storeFields_apart (v : Word) {g : WField} {fs : List WField} (h : storedApart fs = true)
    (hg : fs.all g.apart = true) (w : Word) : fieldOf (storeFields v fs w) g.lsb g.w = fieldOf w g.lsb g.w := by
  induction fs generalizing w with
  | nil => rfl
  | cons f fs ih =>
    simp only [storedApart, List.all_cons, Bool.and_eq_true] at h hg
    obtain ⟨⟨hf, -⟩, hfs⟩ := h
    obtain ⟨hgf, hgfs⟩ := hg
    rw [storeFields_cons_stored v w hf, ih hfs hgfs]
    simp only [WField.apart, Bool.or_eq_true, decide_eq_true_eq] at hgf
    exact (fieldOf_withField _ _ _ _ _ _ (WField.stored_fits hf)).2 hgf.symm

/-- Every field of a register whose fields are all stored reads, after a write, what was written. -/
theorem fieldOf_storeFields (v : Word) {fs : List WField} (h : storedApart fs = true) (w : Word) :
    ∀ f ∈ fs, fieldOf (storeFields v fs w) f.lsb f.w = fieldOf v f.lsb f.w := by
  induction fs generalizing w with
  | nil => simp
  | cons g fs ih =>
    simp only [storedApart, Bool.and_eq_true] at h
    obtain ⟨⟨hg, hapart⟩, hfs⟩ := h
    rw [storeFields_cons_stored v w hg]
    refine List.forall_mem_cons.2 ⟨?_, ih hfs _⟩
    rw [fieldOf_storeFields_apart v hfs hapart,
      (fieldOf_withField _ _ _ _ _ _ (WField.stored_fits hg)).1 ⟨rfl, rfl⟩]
    exact Nat.mod_eq_of_lt (fieldOf_lt _ _ _)

/-- A write leaves every bit that none of its fields holds. -/
theorem getLsbD_storeFields (v : Word) {fs : List WField} (h : storedApart fs = true) {b : Nat}
    (hb : ∀ f ∈ fs, b < f.lsb ∨ f.lsb + f.w ≤ b) (w : Word) : (storeFields v fs w).getLsbD b = w.getLsbD b := by
  induction fs generalizing w with
  | nil => rfl
  | cons f fs ih =>
    simp only [storedApart, Bool.and_eq_true] at h
    obtain ⟨⟨hf, -⟩, hfs⟩ := h
    obtain ⟨hbf, hbfs⟩ := List.forall_mem_cons.1 hb
    rw [storeFields_cons_stored v w hf, ih hfs hbfs, getLsbD_withField w _ (WField.stored_fits hf)]
    rcases hbf with hlow | hhigh
    · rw [if_pos hlow]
    · rw [if_neg (by omega), if_neg (by omega)]

/-- Among fields that a write of 1 clears, a bit stays set unless a 1 is written to its field (R10 code W1C). -/
theorem getLsbD_storeFields_clears (v : Word) {fs : List WField} (h : fs.all WField.clears = true) (b : Nat) (w : Word) :
    (storeFields v fs w).getLsbD b = (w.getLsbD b && !(v.getLsbD b && fs.any (·.lsb == b))) := by
  induction fs generalizing w with
  | nil => simp [storeFields]
  | cons f fs ih =>
    simp only [List.all_cons, Bool.and_eq_true, WField.clears, beq_iff_eq, decide_eq_true_eq] at h
    obtain ⟨⟨⟨hacc, hw⟩, hlt⟩, hfs⟩ := h
    rw [storeFields, hacc]
    simp only [ih hfs, hw, fieldOf_one, List.any_cons]
    rw [getLsbD_withField w _ (by omega)]
    rcases Nat.lt_trichotomy b f.lsb with hb | rfl | hb
    · rw [if_pos hb, beq_eq_false_iff_ne.2 (by omega), Bool.false_or]
    · rw [if_neg (by omega), if_pos (by omega)]
      cases w.getLsbD f.lsb <;> cases v.getLsbD f.lsb <;> simp [b2n]
    · rw [if_neg (by omega), if_neg (by omega), beq_eq_false_iff_ne.2 (by omega), Bool.false_or]

/-! How a register write runs (R493-R497). -/

/-- What the table says of a register's row, said of the row found. -/
theorem of_regRow {off : Nat} {r : RegRow} {p : RegRow → Bool} (hr : regRow off = some r) (h : (regRow off).all p = true) :
    p r = true := by
  rw [hr] at h; exact h

/-- An aligned 32-bit write of a module in service goes to the register it names. -/
theorem exec_registerWrite_word (t : Time) (ep : Lane) {off : Nat} (v : BitVec 64) {s : State} (hup : s.up = true)
    (hdec : decommissioned s = false) (hoff : off % 4 = 0) :
    exec (.registerWrite t ep off 4 v) s = .next (write32 ep off (v.setWidth 32) (begin' t s)) := by
  show run t s (hostWrite ep off 4 v) = _
  have hdec' : decommissioned (begin' t s) = false := hdec
  rw [run_up hup, hostWrite, hdec']
  simp [hoff]

/-- A write that scope and lock let through comes to the checks of its register. -/
theorem write32_of_scope_lock {ep : Lane} {off : Nat} (v : Word) {s : State} {r : RegRow} (hoff : off < barFour)
    (hr : regRow off = some r) (hlane : r.perLane = true → shut s ep = false) (hmod : r.perLane = false → isActive s ep = true)
    (hlock : lockable r = true → lockRefuses s = false) : write32 ep off v s = checkedWrite ep r off v s := by
  have hl : (lockable r && lockRefuses s) = false := by
    cases h : lockable r
    · rfl
    · exact hlock h
  rw [write32, if_neg (by omega), hr]
  simp only [hl]
  cases h : r.perLane
  · simp [hmod h]
  · simp [hlane h]

/-- An offset outside the data windows, the rings and the alarms of the calendar: its checks are scope, lock and range alone. -/
def rangeOnly (off : Nat) : Bool :=
  decide (off < 0x40030) || (decide (0x40050 ≤ off) && decide (off < 0xB1000)) || (decide (0xB2000 ≤ off) && decide (off < 0xD8000))
    || decide (0xE0000 ≤ off)

/-- A write in range of a register whose checks are scope, lock and range is stored. -/
theorem checkedWrite_of_range {ep : Lane} {off : Nat} {v : Word} {s : State} {r : RegRow} (hoff : rangeOnly off = true)
    (hf : r.fields.isEmpty = false) (hrange : rangeOk s r off v = true) : checkedWrite ep r off v s = commit ep r off v s := by
  simp only [rangeOnly, Bool.or_eq_true, Bool.and_eq_true, decide_eq_true_eq] at hoff
  have hdata : ¬ (0xD8000 ≤ off ∧ off < 0xE0000) := by omega
  have hring : ¬ (0xB1000 ≤ off ∧ off < 0xB2000) := by omega
  have halarm : ¬ (0x40030 ≤ off ∧ off < 0x40050) := by omega
  simp only [checkedWrite, ringSetting, ← Bool.decide_and, hf, hdata, hring, halarm, hrange, decide_false, Bool.false_and,
    Bool.not_true, Bool.false_eq_true, if_false]

/-- What the table says of a register whose writes scope, lock and range alone check: its offset is aligned and in BAR0, and its row has fields,
of which `p` holds. -/
def storesInRange (p : List WField → Bool) (off : Nat) : Bool :=
  decide (off % 4 = 0) && decide (off < barFour) && rangeOnly off && (regRow off).all (fun r => !r.fields.isEmpty && p r.fields)

theorem storesInRange_fields {p : List WField → Bool} {off : Nat} {r : RegRow} (h : storesInRange p off = true)
    (hr : regRow off = some r) : r.fields.isEmpty = false ∧ p r.fields = true := by
  simp only [storesInRange, Bool.and_eq_true] at h
  simpa using of_regRow hr h.2

/-- A 32-bit write that scope, lock and range let through stores the fields of its register; what follows is the register's own. -/
theorem answers_stored_write {p : List WField → Bool} {t : Time} {ep : Lane} {off : Nat} {v : BitVec 64} {s : State} {r : RegRow}
    {P : State → Prop} (hup : s.up = true) (hdec : decommissioned s = false) (hoff : storesInRange p off = true)
    (hr : regRow off = some r) (hlane : r.perLane = true → shut s ep = false) (hmod : r.perLane = false → isActive s ep = true)
    (hlock : lockable r = true → lockRefuses s = false) (hrange : rangeOk s r off (v.setWidth 32) = true)
    (h : P (afterWrite ep off (rdK s (regKey r ep off)) (v.setWidth 32)
      (wrK (regKey r ep off) (storeFields (v.setWidth 32) r.fields (rdK s (regKey r ep off))) (begin' t s)))) :
    Answers (.registerWrite t ep off 4 v) s P := by
  obtain ⟨hf, -⟩ := storesInRange_fields hoff hr
  simp only [storesInRange, Bool.and_eq_true, decide_eq_true_eq] at hoff
  obtain ⟨⟨⟨halign, hbar⟩, hchk⟩, -⟩ := hoff
  refine ⟨_, exec_registerWrite_word t ep v hup hdec halign, ?_⟩
  rw [write32_of_scope_lock (s := begin' t s) _ hbar hr hlane hmod hlock, checkedWrite_of_range (s := begin' t s) hchk hf hrange]
  exact h

/-! Registers that only store. -/

theorem storeOffs_rows : ∀ off ∈ storeOffs, storesInRange storedApart off = true := by decide +kernel

/-- Nothing follows the write of a register that only stores. -/
theorem afterWrite_storeOffs (ep : Lane) (old v : Word) (s : State) : ∀ off ∈ storeOffs, afterWrite ep off old v s = s := by
  simp only [storeOffs, List.forall_mem_cons, List.not_mem_nil, false_implies, implies_true, and_true]
  and_intros <;> rfl

/-- A write of a register alone changes that register alone. -/
theorem wrK_onlyRegs (t : Time) (k : Nat) (w : Word) (s : State) :
    RegsOnly t s (wrK k w (begin' t s)) ∧ OnlyRegs [k] s (wrK k w (begin' t s)) :=
  ⟨rfl, fun j hj => by rw [rdK_wrK_ne _ _ (List.ne_of_not_mem_cons hj), begin_rdK]⟩

/-! NET_RING_CFG. -/

theorem ringCfg_row : storesInRange storedApart Reg.NET_RING_CFG = true ∧
    (regRow Reg.NET_RING_CFG).all (fun r => !r.perLane && r.fields.any (fun f => f.lsb == 16 && f.w == 1)) = true := by decide +kernel

theorem rdK_showPart_ne (s : State) {k : Nat} (h : k ≠ Reg.NET_RING_STAT) : rdK (showPart s) k = rdK s k :=
  rdK_wrK_ne _ _ h

theorem takePhase_regs (ph : Nat) (s : State) : (takePhase ph s).regs = s.regs := by
  unfold takePhase; split
  · rfl
  · split <;> rfl

theorem rdK_ringDown_ne (s : State) {k : Nat} (h : k ≠ Reg.NET_RING_STAT) : rdK (ringDown s) k = rdK s k := by
  show rdK (setF Reg.NET_RING_STAT_master 0 .a (takePhase 0 s)) k = rdK s k
  rw [setF_rdK_ne _ _ _ h]
  unfold rdK
  rw [takePhase_regs]

/-- What follows a write of NET_RING_CFG: the module leaves the ring where the write clears en. -/
theorem afterWrite_ringCfg (ep : Lane) (old v : Word) (s : State) : afterWrite ep Reg.NET_RING_CFG old v s =
    showPart (if old.getLsbD 16 = true ∧ v.getLsbD 16 = false then ringDown s else s) := by
  show showPart (if (old.getLsbD 16 && !v.getLsbD 16) = true then ringDown s else s) = _
  simp only [Bool.and_eq_true, Bool.not_eq_true']

/-- Leaving the ring changes nothing of NET_RING_CFG itself. -/
theorem rdK_ringCfg_written (c : Prop) [Decidable c] (s : State) :
    rdK (showPart (if c then ringDown s else s)) Reg.NET_RING_CFG = rdK s Reg.NET_RING_CFG := by
  rw [rdK_showPart_ne _ (by decide)]
  split
  · exact rdK_ringDown_ne _ (by decide)
  · rfl

/-! HRI_SYS_STAT. -/

/-- Every field clears on a write of 1, and they are the bits 6 to 0. -/
def clearsLowSeven (fs : List WField) : Bool :=
  fs.all WField.clears && (List.range 32).all (fun b => fs.any (·.lsb == b) == (0x7F#32).getLsbD b)

theorem sysStat_row : storesInRange clearsLowSeven Reg.HRI_SYS_STAT = true ∧
    (regRow Reg.HRI_SYS_STAT).all (fun r => r.perLane && !lockable r) = true := by decide +kernel

/-- Nothing follows a write of HRI_SYS_STAT. -/
theorem afterWrite_sysStat (ep : Lane) (old v : Word) (s : State) : afterWrite ep Reg.HRI_SYS_STAT old v s = s := rfl

theorem storeFields_clearsLowSeven (v w : Word) {fs : List WField} (h : clearsLowSeven fs = true) :
    storeFields v fs w = w &&& ~~~(v &&& 0x7F#32) := by
  simp only [clearsLowSeven, Bool.and_eq_true, List.all_eq_true (l := List.range 32), List.mem_range, beq_iff_eq] at h
  obtain ⟨hclears, hbits⟩ := h
  refine BitVec.eq_of_getLsbD_eq fun b hb => ?_
  rw [getLsbD_storeFields_clears v hclears, hbits b hb, BitVec.getLsbD_and, BitVec.getLsbD_not, BitVec.getLsbD_and, decide_eq_true hb,
    Bool.true_and]

/-- Fields that clear on a write of 1 have no range. -/
theorem fieldOk_of_clears (v : Word) {fs : List WField} (h : fs.all WField.clears = true) : fs.all (fieldOk v) = true := by
  rw [List.all_eq_true] at h ⊢
  intro f hf
  have hc := h f hf
  simp only [WField.clears, Bool.and_eq_true, beq_iff_eq] at hc
  obtain ⟨⟨hacc, -⟩, -⟩ := hc
  rw [fieldOk, hacc]

end Sys2Proof.Machine

section
open Sys2Proof Sys2Proof.Machine

/-- Settles O16: the path of a 32-bit write to `commit`, and what `storeFields` does to stored fields (no two share a bit) and to W1C bits. -/
theorem registerWriteStoresItsFields : Obligations.RegisterWriteStoresItsFields := by
  unfold Obligations.RegisterWriteStoresItsFields
  refine ⟨?_, ?_, ?_⟩
  · intro t ep off v s r hoff hr hup hdec hlane hmod hlock hrange
    have hrow := storeOffs_rows off hoff
    obtain ⟨-, hfields⟩ := storesInRange_fields hrow hr
    refine answers_stored_write hup hdec hrow hr hlane hmod hlock hrange ?_
    obtain ⟨hregs, hkeys⟩ := wrK_onlyRegs t (regKey r ep off) (storeFields (v.setWidth 32) r.fields (rdK s (regKey r ep off))) s
    rw [afterWrite_storeOffs ep _ _ _ off hoff, rdK_wrK_same]
    exact ⟨hregs, hkeys, fieldOf_storeFields _ hfields _, fun b hb => getLsbD_storeFields _ hfields hb _⟩
  · rintro t ep v s r ⟨hup, hdec, hact⟩ hlock hr hrange
    obtain ⟨hrow, hmore⟩ := ringCfg_row
    obtain ⟨-, hfields⟩ := storesInRange_fields hrow hr
    have hen := of_regRow hr hmore
    simp only [Bool.and_eq_true, Bool.not_eq_true', List.any_eq_true, beq_iff_eq] at hen
    obtain ⟨hmod, en, hmem, hlsb, hwidth⟩ := hen
    refine answers_stored_write hup hdec hrow hr (by simp [hmod]) (fun _ => hact) (fun _ => hlock) hrange ?_
    have hkey : regKey r ep Reg.NET_RING_CFG = Reg.NET_RING_CFG := by simp [regKey, hmod]
    have hnew : (v.setWidth 32).getLsbD 16 = v.getLsbD 16 := by simp
    have hold : getB s Reg.NET_RING_CFG_en = (rdK s Reg.NET_RING_CFG).getLsbD 16 := getB_eq_getLsbD s rfl .a
    rw [hkey, afterWrite_ringCfg, hnew, hold]
    have hstored := fieldOf_storeFields (v.setWidth 32) hfields (rdK s Reg.NET_RING_CFG)
    generalize storeFields (v.setWidth 32) r.fields (rdK s Reg.NET_RING_CFG) = w at hstored ⊢
    rw [rdK_ringCfg_written, rdK_wrK_same]
    refine ⟨hstored, ⟨w, rfl⟩, fun h1 h0 => ?_⟩
    have hleft : (fieldOf w 16 1 == 1) = false := by
      have := hstored en hmem
      rw [hlsb, hwidth, fieldOf_one (v.setWidth 32), hnew, h0] at this
      rw [this]; rfl
    refine ⟨?_, ?_⟩
    · show (fieldOf (rdK _ Reg.NET_RING_CFG) 16 1 == 1) = false
      rw [rdK_ringCfg_written, rdK_wrK_same, hleft]
    · rw [if_pos ⟨h1, h0⟩]
      exact ⟨rfl, rfl, rfl⟩
  · rintro t ep v s ⟨hup, hdec, hshut⟩
    obtain ⟨hrow, hmore⟩ := sysStat_row
    obtain ⟨r, hr⟩ : ∃ r, regRow Reg.HRI_SYS_STAT = some r := Option.isSome_iff_exists.1 (by decide +kernel)
    obtain ⟨-, hfields⟩ := storesInRange_fields hrow hr
    have hflags := of_regRow hr hmore
    simp only [Bool.and_eq_true, Bool.not_eq_true'] at hflags
    obtain ⟨hlane, hlock⟩ := hflags
    have hrange : rangeOk s r Reg.HRI_SYS_STAT (v.setWidth 32) = true := by
      have hclears := hfields
      simp only [clearsLowSeven, Bool.and_eq_true] at hclears
      show (r.fields.all (fieldOk (v.setWidth 32)) && true) = true
      rw [fieldOk_of_clears _ hclears.1]; rfl
    refine answers_stored_write hup hdec hrow hr (fun _ => hshut) (by simp [hlane]) (by simp [hlock]) hrange ?_
    have hkey : regKey r ep Reg.HRI_SYS_STAT = laneKey Reg.HRI_SYS_STAT ep := by simp [regKey, hlane, laneKey]
    rw [hkey, afterWrite_sysStat, storeFields_clearsLowSeven _ _ hfields]
    obtain ⟨hregs, hkeys⟩ := wrK_onlyRegs t (laneKey Reg.HRI_SYS_STAT ep)
      (rdK s (laneKey Reg.HRI_SYS_STAT ep) &&& ~~~(v.setWidth 32 &&& 0x7F#32)) s
    exact ⟨hregs, hkeys, rdK_wrK_same _ _ _⟩
end

/-! Start from module reset (R467-R470, R489). -/

namespace Sys2Proof.Machine

/-! What of a start from module reset leaves the update's own state. -/

theorem forEach_upd {α : Type} {f : α → State → State} (hf : ∀ x s, (f x s).upd = s.upd) (xs : List α) (s : State) :
    (forEach f xs s).upd = s.upd :=
  forEach_keeps (fun u => u.upd = s.upd) f xs (fun x u hu => (hf x u).trans hu) s rfl

theorem when_upd {f : State → State} (hf : ∀ s, (f s).upd = s.upd) (c : Bool) (s : State) : (when c f s).upd = s.upd :=
  when_keeps (fun u => u.upd = s.upd) f c (fun u hu => (hf u).trans hu) s rfl

theorem bothLanes_upd {f : Lane → State → State} (hf : ∀ l s, (f l s).upd = s.upd) (s : State) : (bothLanes f s).upd = s.upd :=
  bothLanes_keeps (fun u => u.upd = s.upd) f (fun l u hu => (hf l u).trans hu) s rfl

theorem metRestore_upd (ok0 ok1 : Bool) (s : State) : (metRestore ok0 ok1 s).upd = s.upd := by
  unfold metRestore
  dsimp only
  refine (bothLanes_upd (fun k x => ?_) _).trans ?_
  · rw [forEach_upd (fun n y => by simp [poShow]), setF_upd, forEach_upd (fun n y => setF_upd _ _ _ _)]
    exact onLane_upd _ _ _
  · cases latestSlot s <;> simp only [apply_ite State.upd, raise_upd, setF2_upd, raiseAlarm_upd, ite_self]

theorem canEnableOp_upd (c : Nat) (s : State) : (canEnableOp c s).upd = s.upd := by
  unfold canEnableOp
  dsimp only
  split
  · rw [setF_upd, setF_upd, setF_upd, setF_upd]
  · rw [raise_upd, setF_upd, setF_upd]

theorem canStart_upd (s : State) : (canStart s).upd = s.upd :=
  forEach_upd (fun c x => when_upd (canEnableOp_upd c) _ x) _ s

theorem modesInit_upd (l : Lane) (s : State) : (modesInit l s).upd = s.upd :=
  forEach_upd (fun _ x => when_upd (fun y => setF_upd y _ _ _) _ x) _ s

theorem lpeInit_upd (l : Lane) (s : State) : (lpeInit l s).upd = s.upd := onLane_upd _ _ _

theorem bankReset_upd (l : Lane) (net : Bool) (k : Nat) (s : State) : (bankReset l net k s).upd = s.upd := by
  unfold bankReset
  rw [setF_upd, setF_upd]
  exact onLane_upd _ _ _

theorem showRev_upd (l : Lane) (s : State) : (showRev l s).upd = s.upd := by simp [showRev]

theorem showAuthStat_upd (s : State) : (showAuthStat s).upd = s.upd := by simp [showAuthStat]

theorem showPart_upd (s : State) : (showPart s).upd = s.upd := setB_upd _ _ _ _

/-- A start from module reset up to its recorder's first record: registers reset, alarms of the run before ended (R467-R470). -/
def woken (cause : Nat) (s : State) : State :=
  let s0 := { s with up := true, now := 0#64, kpr := {}, upd := { s.upd with inReset := false },
                     regs := Sparse.mapVals regDef (fun k v => resetWord true k v) s.regs }
  endAutojoy (when (getB s0 Reg.RTC_STATUS_oscfail) (raise .rtc Ev.RTC_OSC 0) (endAlarms (fun c => !startAlarms.contains c)
    (when (!s0.upd.wiping) (recStart cause) (setF Reg.PWR_STAT_cause cause .a s0))))

/-- What a start from module reset finds as it comes to the update journal (R489). -/
def beforeJournal (cause : Nat) (i : StartIn) (s : State) : State :=
  newRun (cycRestore (badVals i.badVals (badRegs i.badRegs (woken cause s))))

/-- Outside a life-cycle wipe a start from module reset leaves the update as the journal left it. -/
theorem moduleUp_upd (cause : Nat) (i : StartIn) (s : State) (h : (woken cause s).upd.wiping = false) :
    (moduleUp cause i s).upd = (journal (beforeJournal cause i s)).upd := by
  show (showPart (showAuthStat (showRev .b (showRev .a (forEach _ _ (bothLanes _
    (if (woken cause s).upd.wiping = true then _ else canStart (metRestore _ _ (journal (beforeJournal cause i s)))))))))).upd = _
  rw [showPart_upd, showAuthStat_upd, showRev_upd, showRev_upd, forEach_upd (fun p x => bankReset_upd _ _ _ x),
    bothLanes_upd (fun l x => (modesInit_upd l _).trans (lpeInit_upd l x)), h, if_neg Bool.false_ne_true, canStart_upd, metRestore_upd]

/-- A sequence with an image that had not confirmed is rolled back: Lane A runs its old image (R489). -/
theorem journal_runA_of_step_two {s : State} (h : getF s Reg.UPD_SEQ_step = 2) :
    (journal s).upd.runA = oldSlot s.upd.newA s.upd.runA := by
  simp [journal, h, rolledBack, seqIdle]

/-! A module held in reset whose register file is not canonical. -/

/-- A start from module reset that finds every pair of AO MRAM good. -/
def soundStart : StartIn := ⟨[], [], true, true, []⟩

/-- UPD_SEQ stands twice in the register file: first IDLE, which is what a read finds, and behind it step 2 (lane 1 activates). A module reset maps the
listed values and drops those that equal their default, so that it uncovers the second entry. -/
def twiceListedSeq : State :=
  { up := false, regs := [(Reg.UPD_SEQ, 0#32), (Reg.UPD_SEQ, 2#32)], upd := { inReset := true, newA := some 0, runA := 0 } }

theorem step_twiceListedSeq : getF twiceListedSeq Reg.UPD_SEQ_step = 0 := by decide +kernel

theorem beforeJournal_twiceListedSeq : let s := beforeJournal 2 soundStart (begin' 0#64 twiceListedSeq)
    getF s Reg.UPD_SEQ_step = 2 ∧ s.upd.newA = some 0 ∧ s.upd.runA = 0 := by decide +kernel

/-- Lane A's image slot changes from 0 to 1. -/
theorem runA_twiceListedSeq : (moduleUp 2 soundStart (begin' 0#64 twiceListedSeq)).upd.runA = 1 := by
  obtain ⟨hstep, hnew, hrun⟩ := beforeJournal_twiceListedSeq
  rw [moduleUp_upd _ _ _ (by decide +kernel), journal_runA_of_step_two hstep, hnew, hrun]
  rfl

theorem exec_mrstRelease (t : Time) (i : StartIn) {s : State} (h : s.upd.inReset = true) :
    exec (.mrstRelease t i) s = .next (moduleUp 2 i (begin' t s)) := by
  show Host.Outcome.next (if (begin' t s).upd.inReset then moduleUp 2 i (begin' t s) else begin' t s) = _
  rw [begin_upd, if_pos h]

end Sys2Proof.Machine

section
open Sys2Proof Sys2Proof.Machine

/-- Refutes O59: that a module reset leaves the image of Lane A as it is where the journal reads IDLE (R489) fails in `twiceListedSeq`, whose register
file is not canonical. The statement is for every state and lacks the premise `RegsWf s`; the counterexample says nothing of canonical register
files, the only ones a run comes to (`Obligations.StepKeepsCanonicalRegisters`). -/
theorem not_powerAndResets : ¬ Obligations.PowerAndResets := by
  unfold Obligations.PowerAndResets ModuleResetByMrst
  rintro ⟨-, ⟨-, -, hrelease, -⟩, -⟩
  obtain ⟨u, hu, -, -, hjournal⟩ := hrelease 0#64 soundStart twiceListedSeq _ rfl rfl
  have hexec : exec (.mrstRelease 0#64 soundStart) twiceListedSeq = .next (moduleUp 2 soundStart (begin' 0#64 twiceListedSeq)) :=
    exec_mrstRelease 0#64 soundStart rfl
  obtain rfl : moduleUp 2 soundStart (begin' 0#64 twiceListedSeq) = u := Host.Outcome.next.inj (hexec.symm.trans hu)
  obtain ⟨hidle, -⟩ := hjournal rfl (by simp [soundStart])
  obtain ⟨-, -, hkept, -⟩ := hidle (.inl step_twiceListedSeq)
  rw [runA_twiceListedSeq] at hkept
  exact absurd hkept (by decide)
end

/-! The controller of the solver (R96, R97, R105, R106, R108-R114). -/

namespace Sys2Proof.Machine

/-! What a command of one lane's solver leaves unchanged. -/

@[simp] theorem onSlv_slv (l : Lane) (f : SlvSt → SlvSt) (s : State) : ((onSlv l f s).lane l).slv = f (s.lane l).slv := by
  simp [onSlv]

@[simp] theorem onSlv_lane_other (l : Lane) (f : SlvSt → SlvSt) (s : State) : (onSlv l f s).lane l.other = s.lane l.other := by
  simp [onSlv, onLane]

@[simp] theorem onSlv_now (l : Lane) (f : SlvSt → SlvSt) (s : State) : (onSlv l f s).now = s.now := onLane_now _ _ _

@[simp] theorem onSlv_out (l : Lane) (f : SlvSt → SlvSt) (s : State) : (onSlv l f s).out = s.out := onLane_out _ _ _

@[simp] theorem onSlv_regs (l : Lane) (f : SlvSt → SlvSt) (s : State) : (onSlv l f s).regs = s.regs := onLane_regs _ _ _

@[simp] theorem onSlv_rec (l : Lane) (f : SlvSt → SlvSt) (s : State) : (onSlv l f s).rec' = s.rec' := onLane_rec _ _ _

@[simp] theorem onSlv_alarms (l : Lane) (f : SlvSt → SlvSt) (s : State) : (onSlv l f s).alarms = s.alarms := onLane_alarms _ _ _

@[simp] theorem onSlv_slvCfg (l : Lane) (f : SlvSt → SlvSt) (s : State) : (onSlv l f s).slvCfg = s.slvCfg := onLane_slvCfg _ _ _

@[simp] theorem onSlv_fresh (l : Lane) (f : SlvSt → SlvSt) (s : State) : (onSlv l f s).fresh = s.fresh := onLane_fresh _ _ _

@[simp] theorem freshen_lane (s : State) (l : Lane) : (freshen s).lane l = s.lane l := by cases l <;> rfl

theorem getF_of_regs {s u : State} (h : u.regs = s.regs) (f : Fld) (l : Lane) : getF u f l = getF s f l := by
  rw [getF, getF, rdK, rdK, h]

@[simp] theorem actPkg_begin (t : Time) (s : State) (l : Lane) : actPkg (begin' t s) l = actPkg s l := by cases l <;> rfl

@[simp] theorem modeNow_begin (t : Time) (s : State) : modeNow (begin' t s) = modeNow s := rfl

/-- A counter counted up, read in its own copy (R52). -/
theorem getF_incF_same {f : Fld} (h : f.fits = true) (l : Lane) (s : State) :
    getF (incF f l s) f l = min (getF s f l + 1) (2 ^ f.w - 1) := by
  have := Nat.two_pow_pos f.w
  rw [incF, getF_setF_same h, Nat.mod_eq_of_lt (by omega)]

/-! Registers that a record and a field may touch. -/

theorem OnlyRegs.of_regs {ks : List Nat} {s u : State} (h : u.regs = s.regs) : OnlyRegs ks s u := fun k _ => by rw [rdK, rdK, h]

theorem OnlyRegs.onSlv {ks : List Nat} {s u : State} (h : OnlyRegs ks s u) (l : Lane) (f : SlvSt → SlvSt) :
    OnlyRegs ks s (onSlv l f u) := fun k hk => (congrArg (Sparse.get regDef · k) (onSlv_regs l f u)).trans (h k hk)

theorem OnlyRegs.setF {ks : List Nat} {s u : State} (h : OnlyRegs ks s u) {f : Fld} {l : Lane} (hk : f.key l ∈ ks) (x : Nat) :
    OnlyRegs ks s (setF f x l u) := fun k hn => by
  have hne : k ≠ f.key l := fun he => hn (he ▸ hk)
  exact (setF_rdK_ne x l u hne).trans (h k hn)

theorem OnlyRegs.incF {ks : List Nat} {s u : State} (h : OnlyRegs ks s u) {f : Fld} {l : Lane} (hk : f.key l ∈ ks) :
    OnlyRegs ks s (incF f l u) := h.setF hk _

theorem OnlyRegs.pushEvent {ks : List Nat} {s u : State} (h : OnlyRegs ks s u) (hrec : recKeys ⊆ ks) (e : Event) :
    OnlyRegs ks s (pushEvent e u) := by
  have hdrop : Reg.REC_CNT_drop.key .a ∈ ks := hrec (by decide)
  have hflag : Reg.REC_STAT_almdrop.key .a ∈ ks := hrec (by decide)
  unfold Machine.pushEvent
  dsimp only
  split
  · exact h
  · exact when_keeps (OnlyRegs ks s) _ _ (fun _ hu => hu.setF hflag 1) _ (OnlyRegs.incF (by exact h) hdrop)

theorem OnlyRegs.raise {ks : List Nat} {s u : State} (h : OnlyRegs ks s u) (hrec : recKeys ⊆ ks) (src : Src) (code data : Nat) :
    OnlyRegs ks s (raise src code data u) := h.pushEvent hrec _

/-! The recorder's queues after a record. -/

/-- What a record does to the recorder does not depend on the registers. -/
theorem pushEvent_rec_congr {s u : State} (h : u.rec' = s.rec') (e : Event) : (pushEvent e u).rec' = (pushEvent e s).rec' := by
  unfold pushEvent
  dsimp only
  rw [h]
  split
  · rfl
  · cases e.alm || e.clr <;> rfl

/-- What an event record does to the recorder depends on the registers of its counters only (R437). -/
theorem raise_rec_congr {ks : List Nat} {s u : State} (hregs : OnlyRegs ks s u) (hsec : Reg.REC_OPSEC ∉ ks) (hcyc : Reg.REC_PWRCYC ∉ ks)
    (hrec : u.rec' = s.rec') (hnow : u.now = s.now) (src : Src) (code data : Nat) :
    (raise src code data u).rec' = (raise src code data s).rec' := by
  simp only [raise, raiseAt, hregs _ hsec, hregs _ hcyc, hnow]
  exact pushEvent_rec_congr hrec _

theorem raise_onSlv_rec (l : Lane) (f : SlvSt → SlvSt) (s : State) (src : Src) (code data : Nat) :
    (raise src code data (onSlv l f s)).rec' = (raise src code data s).rec' :=
  raise_rec_congr (OnlyRegs.of_regs (ks := []) (onSlv_regs l f s)) List.not_mem_nil List.not_mem_nil (onSlv_rec l f s)
    (onSlv_now l f s) _ _ _

/-! What a command changes at most: one lane, registers, records, alarms and ports. -/

theorem LaneAndAlarms.begin' (l : Lane) (t : Time) (s : State) : LaneAndAlarms l t s (begin' t s) := by cases l <;> rfl

theorem LaneAndAlarms.onSlv {l : Lane} {t : Time} {s u : State} (h : LaneAndAlarms l t s u) (f : SlvSt → SlvSt) :
    LaneAndAlarms l t s (onSlv l f u) := by
  unfold LaneAndAlarms at h ⊢
  rw [h]
  cases l <;> rfl

theorem LaneAndAlarms.regs_rec {l : Lane} {t : Time} {s u : State} (h : LaneAndAlarms l t s u) (r : Sparse Word) (q : RecSt) :
    LaneAndAlarms l t s { u with regs := r, rec' := q } := by
  unfold LaneAndAlarms at h ⊢
  rw [h]
  cases l <;> rfl

theorem LaneAndAlarms.setF {l : Lane} {t : Time} {s u : State} (h : LaneAndAlarms l t s u) (f : Fld) (x : Nat) (k : Lane) :
    LaneAndAlarms l t s (setF f x k u) := h.regs_rec _ u.rec'

/-- A record changes the recorder's queues and its registers only. -/
theorem pushEvent_regs_rec (e : Event) (s : State) :
    pushEvent e s = { s with regs := (pushEvent e s).regs, rec' := (pushEvent e s).rec' } := by
  unfold pushEvent
  dsimp only
  split
  · rfl
  · cases e.alm || e.clr <;> rfl

theorem LaneAndAlarms.raise {l : Lane} {t : Time} {s u : State} (h : LaneAndAlarms l t s u) (src : Src) (code data : Nat) :
    LaneAndAlarms l t s (raise src code data u) := by
  rw [Machine.raise, raiseAt, pushEvent_regs_rec]
  exact h.regs_rec _ _

/-! The end of a solve, and an iteration that fails (R106, R108). -/

/-- The solver whose solve ended with a condition. -/
def ended (c : Cond) (t : Time) (v : SlvSt) : SlvSt :=
  { v with solving := false, seg := 0, ph := .idle, cond := some c, t1 := some t }

@[simp] theorem endSolve_slv (l : Lane) (c : Cond) (s : State) :
    ((endSolve l c s).lane l).slv = ended c s.now (s.lane l).slv := onSlv_slv _ _ _

@[simp] theorem endSolve_lane_other (l : Lane) (c : Cond) (s : State) : (endSolve l c s).lane l.other = s.lane l.other :=
  onSlv_lane_other _ _ _

@[simp] theorem endSolve_regs (l : Lane) (c : Cond) (s : State) : (endSolve l c s).regs = s.regs := onSlv_regs _ _ _

theorem LaneAndAlarms.endSolve {l : Lane} {t : Time} {s u : State} (h : LaneAndAlarms l t s u) (c : Cond) :
    LaneAndAlarms l t s (endSolve l c u) := h.onSlv _

@[simp] theorem iterFailed_slv (l : Lane) (s : State) :
    ((iterFailed l s).lane l).slv = ended .shifted s.now { (s.lane l).slv with fItfail := true } := by
  simp [iterFailed]

@[simp] theorem iterFailed_lane_other (l : Lane) (s : State) : (iterFailed l s).lane l.other = s.lane l.other := by
  simp [iterFailed]

theorem iterFailed_getF_itfail (l : Lane) (s : State) :
    getF (iterFailed l s) Reg.SLV_CNT1_itfail l = min (getF s Reg.SLV_CNT1_itfail l + 1) 0xFFFF := by
  rw [iterFailed, getF_of_regs (endSolve_regs _ _ _), getF_incF_same (by decide), raise_getF (by decide),
    getF_of_regs (onSlv_regs _ _ _)]
  rfl

theorem iterFailed_rec (l : Lane) (s : State) :
    (iterFailed l s).rec' = (raise (laneSrc l 6) Ev.SLV_ITFAIL (s.lane l).slv.k s).rec' := by
  rw [iterFailed, endSolve, onSlv_rec, incF_rec, raise_onSlv_rec]

theorem OnlyRegs.iterFailed {l : Lane} {s u : State} (h : u.regs = s.regs) :
    OnlyRegs (laneKey Reg.SLV_CNT1 l :: recKeys) s (iterFailed l u) :=
  ((((OnlyRegs.of_regs h).onSlv l _).raise (List.subset_cons_self _ _) _ _ _).incF (f := Reg.SLV_CNT1_itfail)
    (List.mem_cons_self ..)).onSlv l _

theorem LaneAndAlarms.iterFailed {l : Lane} {t : Time} {s u : State} (h : LaneAndAlarms l t s u) :
    LaneAndAlarms l t s (iterFailed l u) := (((h.onSlv _).raise _ _ _).setF _ _ _).endSolve _

/-! A schedule instruction that breaks down (R105, R106). -/

/-- FACT starts again on the scanned image: of the solver only the figures of the scan and the place in the schedule change. -/
theorem startFact_eq (c : SlvCfg) (p : PkgData) (v : SlvSt) :
    startFact c p v = { v with d0 := (scan c p v).d0, dmax := (scan c p v).dmax, vecs := (scan c p v).vecs, nrepl := 0, ninert := 0,
                               refSteps := 0, ph := .fact, seg := 1, win := p.fact, done := [] } := rfl

/-- The retry of an iteration after its first breakdown (R106). -/
def retry (l : Lane) (p : PkgData) (col n : Nat) (s : State) : State :=
  incF Reg.SLV_CNT0_retry l (raise (laneSrc l 6) Ev.SLV_RETRY (col % 2 ^ 32 + 2 ^ 32 * n)
    (onSlv l (fun v => startFact s.slvCfg p { v with r := v.r + 1, retried := true, fRetry := true }) s))

theorem retry_slv (l : Lane) (p : PkgData) (col n : Nat) (s : State) : ((retry l p col n s).lane l).slv =
    startFact s.slvCfg p { (s.lane l).slv with r := (s.lane l).slv.r + 1, retried := true, fRetry := true } := by
  rw [retry, incF_lane, raise_lane, onSlv_slv]

theorem retry_getF_count (l : Lane) (p : PkgData) (col n : Nat) (s : State) :
    getF (retry l p col n s) Reg.SLV_CNT0_retry l = min (getF s Reg.SLV_CNT0_retry l + 1) 0xFFFF := by
  rw [retry, getF_incF_same (by decide), raise_getF (by decide), getF_of_regs (onSlv_regs _ _ _)]
  rfl

theorem OnlyRegs.retry {l : Lane} {s u : State} (h : u.regs = s.regs) (p : PkgData) (col n : Nat) :
    OnlyRegs (laneKey Reg.SLV_CNT0 l :: recKeys) s (retry l p col n u) :=
  (((OnlyRegs.of_regs h).onSlv l _).raise (List.subset_cons_self _ _) _ _ _).incF (f := Reg.SLV_CNT0_retry)
    (List.mem_cons_self ..)

theorem LaneAndAlarms.retry {l : Lane} {t : Time} {s u : State} (h : LaneAndAlarms l t s u) (p : PkgData) (col n : Nat) :
    LaneAndAlarms l t s (retry l p col n u) := ((h.onSlv _).raise _ _ _).setF _ _ _

theorem breakdown_of_not_retried {l : Lane} {s : State} (h : (s.lane l).slv.retried = false) (p : PkgData) (col n : Nat) :
    breakdown l p col n s = retry l p col n s := by
  simp [breakdown, retry, h]

theorem breakdown_of_retried {l : Lane} {s : State} (h : (s.lane l).slv.retried = true) (p : PkgData) (col n : Nat) :
    breakdown l p col n s = iterFailed l s := by
  simp [breakdown, h]

/-- A schedule instruction in its window, one of whose writes breaks down, hands its iteration to `breakdown` (R105). -/
theorem schedStep_breaks {t : Time} {n : Nat} {op : SOp} {f : SchCtx → SlvSt × List (Nat × F64)} {s : State} {l : Lane} {p : PkgData}
    (h : SchedAt n op s l p) (hb : ∃ w ∈ (f (schedCtx s l p n)).2, breaks w.2 = true) :
    ∃ col, schedStep t n op f s = .next (breakdown l p col n
      (onSlv l (fun v => { (f (schedCtx s l p n)).1 with done := n :: v.done }) (begin' t s))) := by
  obtain ⟨hup, hact, hpkg, hwin⟩ := h
  obtain ⟨w, hw⟩ := Option.isSome_iff_exists.1 (List.find?_isSome.2 hb)
  refine ⟨w.1, ?_⟩
  unfold schedStep
  rw [run_up hup]
  simp only [begin_active, hact, actPkg_begin, hpkg, begin_lane, hwin, begin_slvCfg, Bool.not_true, Bool.false_eq_true, if_false]
  simp only [schedCtx] at hw ⊢
  rw [hw]
  rfl

theorem inWindow_solving {p : PkgData} {v : SlvSt} {n : Nat} {op : SOp} (h : inWindow p v n op = true) : v.solving = true := by
  simp only [inWindow, Bool.and_eq_true] at h
  obtain ⟨⟨⟨⟨⟨hsolving, -⟩, -⟩, -⟩, -⟩, -⟩ := h
  exact hsolving

theorem setV0_vecs (ws : List (Nat × F64)) (v : SlvSt) : setV0 ws v = { v with vecs := (setV0 ws v).vecs } := by
  induction ws generalizing v with
  | nil => rfl
  | cons w ws ih => exact ih (setVec 0 w.1 w.2 v)

/-- DSC changes words of the vectors only. -/
theorem schDsc_vecs (row cnt : Nat) (x : SchCtx) : (schDsc row cnt x).1 = { x.v with vecs := (schDsc row cnt x).1.vecs } :=
  setV0_vecs _ _

/-- A DSC that breaks down has divided words of V0 and is marked executed; then its iteration is handed to `breakdown`. -/
theorem exec_dsc_breaks {t : Time} {n row cnt : Nat} {s : State} {l : Lane} {p : PkgData} (h : SchedAt n (.dsc row cnt) s l p)
    (hb : ∃ w ∈ (schDsc row cnt (schedCtx s l p n)).2, breaks w.2 = true) :
    ∃ col f xs, exec (.dsc t n row cnt) s = .next (breakdown l p col n (onSlv l f (begin' t s))) ∧
      f (s.lane l).slv = { (s.lane l).slv with vecs := xs, done := n :: (s.lane l).slv.done } := by
  obtain ⟨col, hexec⟩ := schedStep_breaks h hb
  exact ⟨col, _, (schDsc row cnt (schedCtx s l p n)).1.vecs, hexec,
    congrArg (fun v : SlvSt => { v with done := n :: (s.lane l).slv.done }) (schDsc_vecs row cnt _)⟩

/-! The new iterate and the tests (R96, R97, R108-R112). -/

/-- Writing consecutive keys leaves every key below them. -/
theorem Sparse.get_setRange_lt {α : Type} [DecidableEq α] (d : Nat → α) (m : Sparse α) {j k : Nat} (h : j < k) (vs : List α) :
    Sparse.get d (Sparse.setRange d m k vs) j = Sparse.get d m j := by
  induction vs generalizing m k with
  | nil => rfl
  | cons x vs ih =>
    rw [Sparse.setRange, ih _ (Nat.lt_succ_of_lt h), Sparse.get_set_ne d m x (Nat.ne_of_lt h)]

theorem vec_congr {u v : SlvSt} (hvecs : u.vecs = v.vecs) (hclr : u.bndClr = v.bndClr) (k i : Nat) : vec u k i = vec v k i := by
  rw [vec, vec, hvecs, hclr]

/-- For any solver `v`, so that a use at the iterate of step 7 does not compute that iterate. -/
theorem vec_withSteps (v : SlvSt) (ap ad : F64) (k i : Nat) : vec { v with stepP := ap, stepD := ad } k i = vec v k i :=
  vec_congr rfl rfl k i

/-- Writing a vector from its first word leaves the vectors before it. -/
theorem vec_setVecs_lt {k q i : Nat} (hq : q < k) (hi : i < 16384) (xs : List F64) (v : SlvSt) :
    vec (setVecs k xs v) q i = vec v q i :=
  Sparse.get_setRange_lt _ _ (by omega) xs

/-- A step of the iterate writes V9 to V12. -/
theorem vec_stepTo_lt {q i : Nat} (hq : q < 9) (hi : i < 16384) (p : PkgData) (ap ad : F64) (d : List (List F64)) (v : SlvSt) :
    vec (stepTo p ap ad d v) q i = vec v q i := by
  unfold stepTo
  dsimp only
  rw [vec_setVecs_lt hq hi, vec_setVecs_lt (by omega) hi, vec_setVecs_lt (by omega) hi, vec_setVecs_lt (by omega) hi]

theorem stepTo_keeps (p : PkgData) (ap ad : F64) (d : List (List F64)) (v : SlvSt) :
    (stepTo p ap ad d v).k = v.k ∧ (stepTo p ap ad d v).solving = v.solving ∧ (stepTo p ap ad d v).infRun = v.infRun ∧
      (stepTo p ap ad d v).cond = v.cond := ⟨rfl, rfl, rfl, rfl⟩

/-- Step 7 moves the iterate and keeps the step lengths. -/
theorem newIterate_some {p : PkgData} {fresh : Nat} {v u : SlvSt} (h : newIterate p fresh v = some u) :
    ∃ ap ad d, u = { stepTo p ap ad d v with stepP := ap, stepD := ad } := by
  unfold newIterate at h
  dsimp only at h
  split at h
  · exact ⟨_, _, _, (Option.some.inj h).symm⟩
  · exact absurd h (by simp)

/-- Step 7 keeps what the tests read of the iterations before. -/
theorem newIterate_keeps {p : PkgData} {fresh : Nat} {v u : SlvSt} (h : newIterate p fresh v = some u) :
    u.k = v.k ∧ u.solving = v.solving ∧ u.infRun = v.infRun ∧ u.cond = v.cond := by
  obtain ⟨ap, ad, d, rfl⟩ := newIterate_some h
  exact stepTo_keeps p ap ad d v

/-- Step 7 keeps V0 to V8. -/
theorem vec_newIterate_lt {p : PkgData} {fresh : Nat} {v u : SlvSt} (h : newIterate p fresh v = some u) {q i : Nat} (hq : q < 9)
    (hi : i < 16384) : vec u q i = vec v q i := by
  obtain ⟨ap, ad, d, rfl⟩ := newIterate_some h
  exact (vec_withSteps _ ap ad q i).trans (vec_stepTo_lt hq hi p ap ad d v)

/-- The solver after the tests at the end of an iteration, in their order (R97). -/
def stopped (c : SlvCfg) (p : PkgData) (fresh : Nat) (t : Time) (r : IterRes) (v : SlvSt) : SlvSt :=
  if 3 ≤ v.infRun then ended .mfault t v
  else if converged c p v r = true then ended .optimal t v
  else if c.itcap ≤ v.k then
    if accepted c p v r = true then ended .capped t v else ended .shifted t { v with fRej := true }
  else startIter c p fresh (v.k + 1) v

theorem stopTests_slv (l : Lane) (p : PkgData) (r : IterRes) (s : State) :
    ((stopTests l p r s).lane l).slv = stopped s.slvCfg p s.fresh s.now r (s.lane l).slv := by
  unfold stopTests stopped
  dsimp only
  split
  · simp
  · split
    · simp
    · split
      · split <;> simp
      · simp

theorem stopTests_lane_other (l : Lane) (p : PkgData) (r : IterRes) (s : State) :
    (stopTests l p r s).lane l.other = s.lane l.other := by
  unfold stopTests
  dsimp only
  split
  · simp
  · split
    · simp
    · split
      · split <;> simp
      · simp

/-- What the tests keep of an iteration: its number, figures and run of infeasible ones, and, where the solve ends, the iterate. -/
theorem stopped_keeps (c : SlvCfg) (p : PkgData) (fresh : Nat) (t : Time) (r : IterRes) {v : SlvSt} (hv : v.solving = true) :
    let w := stopped c p fresh t r v
    w.iters = v.iters ∧ w.latest = v.latest ∧ w.infRun = v.infRun ∧ (w.solving = false → w.vecs = v.vecs ∧ w.bndClr = v.bndClr) := by
  unfold stopped
  dsimp only
  split
  · exact ⟨rfl, rfl, rfl, fun _ => ⟨rfl, rfl⟩⟩
  · split
    · exact ⟨rfl, rfl, rfl, fun _ => ⟨rfl, rfl⟩⟩
    · split
      · split <;> exact ⟨rfl, rfl, rfl, fun _ => ⟨rfl, rfl⟩⟩
      · exact ⟨rfl, rfl, rfl, fun h => absurd (h.symm.trans hv) (by simp)⟩

@[simp] theorem tookIterate_k (c : SlvCfg) (r : IterRes) (v : SlvSt) : (tookIterate c r v).k = v.k := rfl

@[simp] theorem tookIterate_solving (c : SlvCfg) (r : IterRes) (v : SlvSt) : (tookIterate c r v).solving = v.solving := rfl

@[simp] theorem tookIterate_cond (c : SlvCfg) (r : IterRes) (v : SlvSt) : (tookIterate c r v).cond = v.cond := rfl

theorem tookIterate_infRun (c : SlvCfg) (r : IterRes) (v : SlvSt) :
    (tookIterate c r v).infRun = if infeasible c r then v.infRun + 1 else 0 := rfl

theorem three_le_infRun_tookIterate (c : SlvCfg) (r : IterRes) (v : SlvSt) :
    3 ≤ (tookIterate c r v).infRun ↔ infeasible c r = true ∧ 2 ≤ v.infRun := by
  rw [tookIterate_infRun]
  cases infeasible c r <;> simp

theorem accepted_tookIterate (c : SlvCfg) (p : PkgData) (r : IterRes) (v : SlvSt) :
    accepted c p (tookIterate c r v) r = accepted c p v r := rfl

theorem converged_tookIterate (c : SlvCfg) (p : PkgData) (r : IterRes) (v : SlvSt) :
    converged c p (tookIterate c r v) r = converged c p v r := rfl

/-- The condition the tests set, and the next iteration where they set none. -/
theorem stopped_outcome (c : SlvCfg) (p : PkgData) (fresh : Nat) (t : Time) (r : IterRes) (v : SlvSt) :
    let w := stopped c p fresh t r v
    if 3 ≤ v.infRun then w.cond = some .mfault ∧ w.solving = false
    else if converged c p v r = true then w.cond = some .optimal ∧ w.solving = false
    else if c.itcap ≤ v.k then
      w.solving = false ∧ w.cond = some (if accepted c p v r = true then .capped else .shifted)
    else w.solving = v.solving ∧ w.k = v.k + 1 ∧ w.ph = .fact ∧ w.cond = v.cond := by
  unfold stopped
  dsimp only
  split
  · exact ⟨rfl, rfl⟩
  · split
    · exact ⟨rfl, rfl⟩
    · split
      · split <;> exact ⟨rfl, rfl⟩
      · exact ⟨rfl, rfl, rfl, rfl⟩

/-! An assembly fault (R78). -/

@[simp] theorem asmShow_lane (l : Lane) (fault : Nat) (s : State) (k : Lane) : (asmShow l fault s).lane k = s.lane k := by
  rw [asmShow, setF_lane, setF_lane, setF_lane]

@[simp] theorem asmShow_rec (l : Lane) (fault : Nat) (s : State) : (asmShow l fault s).rec' = s.rec' := by
  rw [asmShow, setF_rec, setF_rec, setF_rec]

@[simp] theorem asmShow_now (l : Lane) (fault : Nat) (s : State) : (asmShow l fault s).now = s.now := by
  rw [asmShow, setF_now, setF_now, setF_now]

@[simp] theorem asmShow_alarms (l : Lane) (fault : Nat) (s : State) : (asmShow l fault s).alarms = s.alarms := by
  rw [asmShow, setF_alarms, setF_alarms, setF_alarms]

@[simp] theorem asmShow_out (l : Lane) (fault : Nat) (s : State) : (asmShow l fault s).out = s.out := by
  rw [asmShow, setF_out, setF_out, setF_out]

theorem asmFault_slv (l : Lane) (code data : Nat) (s : State) : ((asmFault l code data s).lane l).slv =
    { (s.lane l).slv with asmRun := false, asmFault := code, cond := some .shifted, fAsmf := true, t1 := some s.now } := by
  rw [asmFault, raise_lane, asmShow_lane, onSlv_slv]

/-- The registers that show the end of an assembly. -/
def asmKeys (l : Lane) : List Nat := [laneKey Reg.SLV_ASM_STAT l, laneKey Reg.SLV_ASM_TIME l]

theorem OnlyRegs.asmShow {l : Lane} {s u : State} {ks : List Nat} (h : OnlyRegs ks s u) (hks : asmKeys l ⊆ ks) (fault : Nat) :
    OnlyRegs ks s (asmShow l fault u) :=
  have hstat : laneKey Reg.SLV_ASM_STAT l ∈ ks := hks (List.mem_cons_self ..)
  have htime : laneKey Reg.SLV_ASM_TIME l ∈ ks := hks (List.mem_cons_of_mem _ (List.mem_cons_self ..))
  ((h.setF (f := Reg.SLV_ASM_TIME_last) htime _).setF (f := Reg.SLV_ASM_STAT_fault) hstat _).setF (f := Reg.SLV_ASM_STAT_steps) hstat _

theorem OnlyRegs.asmFault {l : Lane} {s u : State} (h : OnlyRegs (asmKeys l ++ recKeys) s u) (code data : Nat) :
    OnlyRegs (asmKeys l ++ recKeys) s (asmFault l code data u) := by
  rw [Machine.asmFault]
  exact ((h.onSlv l _).asmShow (List.subset_append_left _ _) code).raise (List.subset_append_right _ _) _ _ _

theorem LaneAndAlarms.asmFault {l : Lane} {t : Time} {s u : State} (h : LaneAndAlarms l t s u) (code data : Nat) :
    LaneAndAlarms l t s (asmFault l code data u) := ((((h.onSlv _).setF _ _ _).setF _ _ _).setF _ _ _).raise _ _ _

theorem asmFault_rec (l : Lane) (code data : Nat) (s : State) :
    (asmFault l code data s).rec' = (raise (laneSrc l 6) Ev.SLV_ASMFLT (code + 2 ^ 32 * data) s).rec' := by
  rw [asmFault]
  exact raise_rec_congr ((OnlyRegs.of_regs (onSlv_regs l _ s)).asmShow (List.Subset.refl _) code) (by cases l <;> decide)
    (by cases l <;> decide) ((asmShow_rec l code _).trans (onSlv_rec l _ s)) ((asmShow_now l code _).trans (onSlv_now l _ s)) _ _ _

/-- An assembly fault, at a state that differs in the lane's solver only from the one the command found (R78). -/
theorem asmFault_asmFaulted {l : Lane} {s : State} {f : SlvSt → SlvSt} {steps : Nat} (t : Time) {code : Nat} (data : Nat) (hcode : code < 16)
    (himage : (f (s.lane l).slv).image = (s.lane l).slv.image) (hvecs : (f (s.lane l).slv).vecs = (s.lane l).slv.vecs)
    (hfr : (f (s.lane l).slv).fr = (s.lane l).slv.fr) (hsteps : (f (s.lane l).slv).steps = steps) :
    AsmFaulted l t code data steps s (asmFault l code data (onSlv l f (begin' t s))) := by
  unfold AsmFaulted
  rw [asmFault_slv, onSlv_slv, begin_lane, onSlv_now, begin_now]
  refine ⟨rfl, rfl, rfl, rfl, rfl, himage, hvecs, hfr, ?_, ?_, ?_, ?_, ((LaneAndAlarms.begin' l t s).onSlv f).asmFault code data, ?_, ?_⟩
  · rw [asmFault, raise_getF (by decide), asmShow, getF_setF_apart (by decide) (by decide), getF_setF_same (by decide)]
    exact Nat.mod_eq_of_lt hcode
  · rw [asmFault, raise_getF (by decide), asmShow, getF_setF_same (by decide), onSlv_slv, onSlv_slv, begin_lane, hsteps]
    rfl
  · rw [asmFault_rec, raise_onSlv_rec]
  · exact ((OnlyRegs.of_regs (begin_regs s t)).onSlv l f).asmFault code data
  · rw [asmFault, raise_alarms, asmShow_alarms, onSlv_alarms, onSlv_alarms, begin_alarms]
  · rw [asmFault, raise_out, asmShow_out, onSlv_out, onSlv_out, begin_out]

/-! The commands of the controller, in the Active lane with an active package. -/

section
variable {t : Time} {s : State} {l : Lane} {p : PkgData} (hup : s.up = true) (hact : active s = some l) (hpkg : actPkg s l = some p)
include hup hact hpkg

/-- The command that completes an iteration, once the controller may finish it (R96 step 7). -/
theorem exec_iterationComplete (hsolving : (s.lane l).slv.solving = true) (hph : (s.lane l).slv.ph = .finish) :
    exec (.iterationComplete t) s = .next ((newIterate p s.fresh (s.lane l).slv).elim (iterFailed l (begin' t s)) fun v =>
      stopTests l p (figures p s.fresh v) (onSlv l (fun _ => tookIterate s.slvCfg (figures p s.fresh v) v) (begin' t s))) := by
  show execIterationComplete t s = _
  unfold execIterationComplete
  rw [run_up hup]
  simp only [begin_active, hact, actPkg_begin, hpkg, begin_lane, hsolving, hph, begin_fresh, begin_slvCfg, Bool.not_true, Bool.false_or,
    ne_eq, not_true_eq_false, decide_false, Bool.false_eq_true, if_false]
  cases newIterate p s.fresh (s.lane l).slv <;> rfl

/-- DEADLINE does nothing at another instant, or in a cycle already decided or published. -/
theorem exec_deadline_idle
    (h : atMark (begin' t s) s.cyc.cur.deadline = false ∨ (s.lane l).slv.cond ≠ none ∨ s.cyc.published = true) :
    exec (.deadline t) s = .next (begin' t s) := by
  have hidle : (!atMark (begin' t s) s.cyc.cur.deadline || (s.lane l).slv.cond.isSome || s.cyc.published) = true := by
    simpa [Option.isSome_iff_ne_none, or_assoc] using h
  show execDeadline t s = _
  unfold execDeadline
  rw [run_up hup]
  simp [hact, hpkg, hidle]

/-- DEADLINE at its mark, in a cycle not yet decided. -/
theorem exec_deadline_due (hmark : atMark (begin' t s) s.cyc.cur.deadline = true) (hcond : (s.lane l).slv.cond = none)
    (hpub : s.cyc.published = false) (hmode : modeNow s ≠ .layup) :
    exec (.deadline t) s = .next (
      let u := onSlv l (fun v => { v with fLate := true }) (begin' t s)
      if (s.lane l).slv.solving = true then
        (s.lane l).slv.latest.elim (endSolve l .shifted u) fun r =>
          if accepted s.slvCfg p (s.lane l).slv r = true then endSolve l .ditr u
          else endSolve l .shifted (onSlv l (fun v => { v with fRej := true }) u)
      else asmFault l 5 (s.lane l).slv.pc u) := by
  have hdue : (!atMark (begin' t s) s.cyc.cur.deadline || (s.lane l).slv.cond.isSome || s.cyc.published ||
      modeNow (begin' t s) == .layup) = false := by
    simp [hmark, hcond, hpub, hmode]
  show execDeadline t s = _
  unfold execDeadline
  rw [run_up hup]
  simp only [begin_active, hact, actPkg_begin, hpkg, begin_lane, begin_cyc, begin_slvCfg, hdue, Bool.false_eq_true, if_false]
  cases (s.lane l).slv.latest <;> rfl

end

end Sys2Proof.Machine

section
open Sys2Proof Sys2Proof.Machine

/-- Settles O12: DSC hands its iteration to `breakdown`, which retries it or, on the second breakdown, lets it fail. -/
theorem breakdownRetriesOnceThenFails : Obligations.BreakdownRetriesOnceThenFails := by
  unfold Obligations.BreakdownRetriesOnceThenFails
  intro t n row cnt s l p hat hbreaks
  obtain ⟨col, f, xs, hexec, hf⟩ := exec_dsc_breaks (t := t) hat hbreaks
  obtain ⟨-, -, -, hwindow⟩ := hat
  have hsolving := inWindow_solving hwindow
  have hregs : (onSlv l f (begin' t s)).regs = s.regs := onSlv_regs l f _
  have hframe : LaneAndAlarms l t s (onSlv l f (begin' t s)) := (LaneAndAlarms.begin' l t s).onSlv f
  have hslv : ((onSlv l f (begin' t s)).lane l).slv = { (s.lane l).slv with vecs := xs, done := n :: (s.lane l).slv.done } :=
    (onSlv_slv l f _).trans hf
  refine ⟨fun hfirst => ?_, fun hsecond => ?_⟩
  · rw [breakdown_of_not_retried (by rw [hslv]; exact hfirst)] at hexec
    refine ⟨_, hexec, ?_⟩
    dsimp only
    rw [retry_slv, startFact_eq, hslv, retry_getF_count, getF_of_regs hregs]
    exact ⟨rfl, rfl, rfl, hsolving, rfl, rfl, rfl, rfl, rfl, OnlyRegs.retry hregs _ _ _, hframe.retry _ _ _⟩
  · rw [breakdown_of_retried (by rw [hslv]; exact hsecond)] at hexec
    refine ⟨_, hexec, ?_⟩
    dsimp only
    rw [iterFailed_slv, onSlv_now, begin_now, iterFailed_getF_itfail, iterFailed_rec, hslv, raise_onSlv_rec, getF_of_regs hregs]
    exact ⟨rfl, rfl, rfl, rfl, rfl, rfl, rfl, OnlyRegs.iterFailed hregs, hframe.iterFailed⟩

/-- Settles O14: the tests run on the iterate of step 7, and an end of the solve leaves that iterate as it is. -/
theorem iterationEndsByItsTests : Obligations.IterationEndsByItsTests := by
  unfold Obligations.IterationEndsByItsTests
  intro t s l p hup hact hpkg hsolving hph
  refine ⟨_, exec_iterationComplete hup hact hpkg hsolving hph, ?_⟩
  cases hnew : newIterate p s.fresh (s.lane l).slv with
  | none => exact ⟨by simp, fun _ => by simp [ended], fun v r hv => absurd hv (by simp)⟩
  | some v =>
    refine ⟨by simp [stopTests_lane_other], fun h => absurd h (by simp), ?_⟩
    rintro _ r ⟨⟩ hr
    obtain ⟨hk, hrunning, hbefore, hcond⟩ := newIterate_keeps hnew
    simp only [Option.elim_some, stopTests_slv, onSlv_slv, onSlv_slvCfg, onSlv_fresh, onSlv_now, begin_slvCfg, begin_fresh, begin_now,
      ← hr]
    obtain ⟨hiters, hlatest, hrun, hends⟩ :=
      stopped_keeps s.slvCfg p s.fresh t r (v := tookIterate s.slvCfg r v) (hrunning.trans hsolving)
    have hout := stopped_outcome s.slvCfg p s.fresh t r (tookIterate s.slvCfg r v)
    simp only [three_le_infRun_tookIterate, converged_tookIterate, accepted_tookIterate, tookIterate_k, tookIterate_solving,
      tookIterate_cond, hk, hrunning, hsolving, hbefore, hcond] at hout
    refine ⟨fun k i hlt hi hend => ?_, fun hend => (hends hend).1, hiters.trans hk, hlatest, ?_, hout⟩
    · obtain ⟨hvecs, hclr⟩ := hends hend
      exact (vec_congr hvecs hclr k i).trans (vec_newIterate_lt hnew hlt hi)
    · rw [hrun, tookIterate_infRun, hbefore]

/-- Settles O15: at the mark of an undecided cycle DEADLINE sets the cause late and ends the solve, or the assembly by its fault LATE. -/
theorem deadlineChoosesTheOutput : Obligations.DeadlineChoosesTheOutput := by
  unfold Obligations.DeadlineChoosesTheOutput
  intro t s l p hup hact hpkg
  refine ⟨fun hmark hcond hpub hmode => ?_, exec_deadline_idle hup hact hpkg⟩
  have hexec := exec_deadline_due hup hact hpkg hmark hcond hpub hmode
  have hframe := (LaneAndAlarms.begin' l t s).onSlv (fun v => { v with fLate := true })
  refine ⟨fun hsolving r hlatest => ?_, fun hsolving hlatest => ?_, fun hsolving => ?_⟩
  · simp only [hsolving, hlatest, if_true, Option.elim_some] at hexec
    by_cases hacc : accepted s.slvCfg p (s.lane l).slv r = true
    · rw [if_pos hacc] at hexec
      exact ⟨_, hexec, by simp [ended, hacc, hframe.endSolve]⟩
    · rw [if_neg hacc] at hexec
      exact ⟨_, hexec, by simp [ended, hacc, (hframe.onSlv _).endSolve]⟩
  · simp only [hsolving, hlatest, if_true, Option.elim_none] at hexec
    exact ⟨_, hexec, by simp [ended, hframe.endSolve]⟩
  · simp only [hsolving, Bool.false_eq_true, if_false] at hexec
    refine ⟨_, hexec, ?_, asmFault_asmFaulted t _ (by decide) rfl rfl rfl rfl⟩
    rw [asmFault_slv, onSlv_slv]
end

/-! Stream packets in both lanes (R157-R160, R185). -/

namespace Sys2Proof.Machine

/-- With one stream configured, a datagram to its port is a packet of that stream in every ready lane (R158, R185). -/
theorem exec_streamPacket_single (t : Time) (pl : List Byte) {s : State} {n : Nat} {c : StreamCfg} (hup : s.up = true)
    (hon : sensorPortsOn s = true) (hstr : s.cfg.streams = [(n, c)]) :
    exec (.streamPacket t c.port c.dport pl) s = .next (intakeEarly (readyLanes (packet n c pl) (begin' t s))) := by
  have hon' : sensorPortsOn (begin' t s) = true := hon
  show execStreamPacket t c.port c.dport pl s = _
  rw [execStreamPacket, run_up hup]
  simp [hon', hstr, forEach]

/-- A stream without a sensor clock, two packets to a frame. -/
def clocklessStream : StreamCfg :=
  { port := 0, dport := 5000, lidar := true, ofsCounter := 0, ofsIndex := 2, packets := 2, clk := .none', tf := 100000000, lat := 0,
    width := 64, height := 64, extractor := 0 }

/-- The second packet of the frame with counter 0. -/
def secondPacket : List Byte := [0#8, 0#8, 1#8, 0#8]

/-- Both lanes are ready and Lane A is Active. Lane B holds the first packet of the frame with counter 0, as after a lane reset of Lane A between
the two packets; the stream is EXCLUDED there, with its condition clear since MTC 0. -/
def halfFrameInLaneB : State :=
  setStr .b 0 { open' := true, counter := 0, stamp := 9990000000#64, got := [(0, [0#8, 0#8, 0#8, 0#8])], good := some 0#64 }
    (setF (Reg.FUS_STRn_STAT_state 0) 3 .b (setF Reg.PWR_STAT_dom 0xFFF .a
      { State.reset with
        la := { LaneSt.reset with ph := .ready }
        lb := { LaneSt.reset with ph := .ready }
        kpr := { State.reset.kpr with role := some .a }
        cfg := { State.reset.cfg with streams := [(0, clocklessStream)] } }))

/-- For Lane A the second packet is the first it sees of its frame. -/
theorem halfFrameInLaneB_newFrame_a : LaneRuns halfFrameInLaneB .a ∧ sensorPortsOn halfFrameInLaneB = true ∧
    (strSt halfFrameInLaneB .a 0).open' = false ∧ (strSt halfFrameInLaneB .a 0).lastCtr ≠ some (leAt secondPacket 0 2) := by
  unfold LaneRuns
  decide +kernel

/-- In Lane B the second packet, 10 s after MTC 0, completes the frame, and the stream's return is recorded (R160). -/
theorem halfFrameInLaneB_records :
    (intakeEarly (readyLanes (packet 0 clocklessStream secondPacket) (begin' 10000000000#64 halfFrameInLaneB))).rec' =
      (raise (laneSrc .b 7) Ev.FUS_STRBACK 0 (begin' 10000000000#64 halfFrameInLaneB)).rec' := by
  decide +kernel

/-- That record changes the recorder. -/
theorem halfFrameInLaneB_raise_rec :
    (raise (laneSrc .b 7) Ev.FUS_STRBACK 0 (begin' 10000000000#64 halfFrameInLaneB)).rec' ≠ halfFrameInLaneB.rec' := by
  decide +kernel

end Sys2Proof.Machine

section
open Sys2Proof Sys2Proof.Machine

/-- Refutes O40: that a packet which opens a frame in one lane leaves the recorder as it is (R157-R160) fails in `halfFrameInLaneB`, where the same
packet completes the frame of the other lane, whose stream leaves EXCLUDED with FUS_STRBACK (R160, R185). The statement lacks a premise on
the other lane; the counterexample says nothing of its clauses on loops and traces. -/
theorem not_loopsTracesAndStreams : ¬ Obligations.LoopsTracesAndStreams := by
  unfold Obligations.LoopsTracesAndStreams StreamPacketsFormFrames
  rintro ⟨-, -, hopens, -⟩
  obtain ⟨hlane, hon, hclosed, hlast⟩ := halfFrameInLaneB_newFrame_a
  obtain ⟨-, hframe⟩ := hopens 10000000000#64 0 5000 secondPacket halfFrameInLaneB .a 0 clocklessStream hlane hon rfl rfl rfl
    (by decide) (by decide) (by decide) (.inl hclosed)
  obtain ⟨u, hu, -, -, -, hrec, -⟩ := hframe hlast
  have hexec := exec_streamPacket_single 10000000000#64 secondPacket (s := halfFrameInLaneB) hlane.1 hon rfl
  obtain rfl := Host.Outcome.next.inj (hexec.symm.trans hu)
  exact halfFrameInLaneB_raise_rec (halfFrameInLaneB_records.symm.trans hrec)
end

/-! The mirror acknowledgement and the loop mirror (R50, R276, R292, R294, R295). -/

namespace Sys2Proof.Machine

/-! What the completion of an order leaves unchanged (R364). -/

/-- The parts of the state that decide which waiting orders complete (R50), with the Keeper and the authority state. -/
def waitView (s : State) : KprSt × Auth × Word × List Wait := (s.kpr, s.auth, s.ackVer, s.waits)

theorem waitView_eq_iff {s u : State} :
    waitView u = waitView s ↔ u.kpr = s.kpr ∧ u.auth = s.auth ∧ u.ackVer = s.ackVer ∧ u.waits = s.waits := by
  simp [waitView]

@[simp] theorem setF_waitView (f : Fld) (x : Nat) (l : Lane) (s : State) : waitView (setF f x l s) = waitView s := rfl

@[simp] theorem setB_waitView (f : Fld) (x : Bool) (l : Lane) (s : State) : waitView (setB f x l s) = waitView s := rfl

@[simp] theorem incF_waitView (f : Fld) (l : Lane) (s : State) : waitView (incF f l s) = waitView s := rfl

@[simp] theorem emit_waitView (e : Emit) (s : State) : waitView (emit e s) = waitView s := rfl

@[simp] theorem setTxQueue_waitView (c : Nat) (q : List CanTx) (s : State) : waitView (setTxQueue c q s) = waitView s := rfl

@[simp] theorem stationDgram_waitView (st port : Nat) (e : List Byte) (s : State) : waitView (stationDgram st port e s) = waitView s := rfl

@[simp] theorem onRing_waitView (l : Lane) (n : Nat) (f : RingSt → RingSt) (s : State) : waitView (onRing l n f s) = waitView s := by
  simp [waitView, onRing]

@[simp] theorem raiseVec_waitView (l : Lane) (v : Nat) (s : State) : waitView (raiseVec l v s) = waitView s := by
  simp [waitView]

@[simp] theorem raise_waitView (src : Src) (code data : Nat) (s : State) : waitView (raise src code data s) = waitView s := by
  simp [waitView]

@[simp] theorem signalEntry_waitView (l : Lane) (n : Nat) (s : State) : waitView (signalEntry l n s) = waitView s := by
  unfold signalEntry
  dsimp only
  split
  · split <;> simp
  · rfl

@[simp] theorem pushEntry_waitView (l : Lane) (n : Nat) (mk : Bool → List Byte) (s : State) :
    waitView (pushEntry l n mk s) = waitView s := by
  simp [pushEntry]

@[simp] theorem putCompletion_waitView (l : Lane) (c : Nat) (e : List Byte) (s : State) :
    waitView (putCompletion l c e s) = waitView s := by
  unfold putCompletion
  split
  · rfl
  · split <;> simp

@[simp] theorem abandon_waitView (c k : Nat) (s : State) : waitView (abandon c k s) = waitView s := by
  unfold abandon
  dsimp only
  split
  · simp
  · simp [waitView]

@[simp] theorem queueFrame_waitView (k : Nat) (data : List Byte) (s : State) : waitView (queueFrame k data s) = waitView s := by
  unfold queueFrame
  dsimp only
  split
  · rfl
  · split <;> simp

/-- A completion goes out on the order's path and touches neither what waits nor the Keeper (R364). -/
theorem completeAt_waitView (ver : Word) (info : OrdInfo) (code detail : Nat) (eEff : Time) (res : List Byte) (buf : Bool) (s : State) :
    waitView (completeAt ver info code detail eEff res buf s) = waitView s := by
  unfold completeAt
  cases info.path with
  | pcie ep n => dsimp only; split <;> simp
  | net st => dsimp only; split <;> simp
  | can => dsimp only; split <;> simp

/-! The waiting orders after a sweep (R50). -/

/-- What a sweep keeps: the Keeper, the authority state and the version acknowledged; orders leave the waiting ones and none joins them. -/
structure Swept (s u : State) : Prop where
  kpr : u.kpr = s.kpr
  auth : u.auth = s.auth
  ackVer : u.ackVer = s.ackVer
  waits : u.waits ⊆ s.waits

theorem Swept.refl (s : State) : Swept s s := ⟨rfl, rfl, rfl, List.Subset.refl _⟩

theorem Swept.trans {s u v : State} (h : Swept s u) (h' : Swept u v) : Swept s v :=
  ⟨h'.kpr.trans h.kpr, h'.auth.trans h.auth, h'.ackVer.trans h.ackVer, List.Subset.trans h'.waits h.waits⟩

/-- One waiting order completes when it is acknowledged (R50): the step of `sweepList`. -/
def sweepOne (w : Wait) (s : State) : State :=
  if acked s w then
    completeAt (w.verEff.getD s.auth.ver) w.info Code.ACCEPTED 0 w.eEff [] false { s with waits := s.waits.filter (fun x => x.tkt ≠ w.tkt) }
  else s

theorem sweepList_cons (w : Wait) (ws : List Wait) (s : State) : sweepList (w :: ws) s = sweepList ws (sweepOne w s) := rfl

/-- An acknowledged order's ticket leaves the waiting orders, and its completion changes nothing else of them. -/
theorem sweepOne_of_acked {w : Wait} {s : State} (h : acked s w = true) :
    waitView (sweepOne w s) = waitView { s with waits := s.waits.filter (fun x => x.tkt ≠ w.tkt) } := by
  rw [sweepOne, if_pos h, completeAt_waitView]

theorem sweepOne_swept (w : Wait) (s : State) : Swept s (sweepOne w s) := by
  by_cases h : acked s w = true
  · obtain ⟨hkpr, hauth, hack, hwaits⟩ := waitView_eq_iff.mp (sweepOne_of_acked h)
    exact ⟨hkpr, hauth, hack, fun x hx => (List.mem_filter.mp (hwaits ▸ hx)).1⟩
  · rw [sweepOne, if_neg h]
    exact .refl s

theorem not_mem_waits_sweepOne {w : Wait} {s : State} (h : acked s w = true) : w ∉ (sweepOne w s).waits := by
  obtain ⟨-, -, -, hwaits⟩ := waitView_eq_iff.mp (sweepOne_of_acked h)
  simp [hwaits]

theorem sweepList_swept (ws : List Wait) (s : State) : Swept s (sweepList ws s) := by
  induction ws generalizing s with
  | nil => exact .refl s
  | cons w ws ih => exact (sweepOne_swept w s).trans (ih _)

/-- With a Standby admitted it is the version acknowledged that acknowledges an order, whatever the registers of the Keeper show later. -/
theorem acked_of_ackVer {s u : State} {w : Wait} (hstandby : (standby s).isNone = false) (hver : u.ackVer = s.ackVer)
    (h : acked s w = true) : acked u w = true := by
  unfold acked at h ⊢
  cases hw : w.verEff with
  | none => simp [hw] at h
  | some v =>
    rw [hw] at h
    simp only [hstandby, Bool.false_or, ← hver] at h
    simp only [Bool.or_assoc, h, Bool.or_true]

/-- Every order that the version acknowledged by the Standby acknowledges has completed after the sweep. -/
theorem not_mem_waits_sweepList {w : Wait} {ws : List Wait} {s : State} (hmem : w ∈ ws)
    (h : ∀ u, u.ackVer = s.ackVer → acked u w = true) : w ∉ (sweepList ws s).waits := by
  induction ws generalizing s with
  | nil => cases hmem
  | cons v ws ih =>
    rw [sweepList_cons]
    cases hmem with
    | head => exact fun hw => not_mem_waits_sweepOne (h s rfl) ((sweepList_swept ws _).waits hw)
    | tail _ hmem => exact ih hmem fun u hu => h u (hu.trans (sweepOne_swept v s).ackVer)

/-! MIRROR_ACK (R294, R295). -/

@[simp] theorem begin_linkSends (t : Time) (s : State) : linkSends (begin' t s) = linkSends s := by
  cases hact : active s <;> simp [linkSends, admitted, blocked, kprLane, hact]

@[simp] theorem begin_standby (t : Time) (s : State) : standby (begin' t s) = standby s := rfl

/-- A module that begins a command at `t` with a frame of the mirror link just heard (R295). -/
def linkHeard (t : Time) (s : State) : State := { begin' t s with kpr := { s.kpr with linkAt := t } }

section
variable {s : State} {m : Lane} (t : Time) (ver cyc : Word)

theorem exec_mirrorAck_badCrc (hup : s.up = true) (hact : active s = some m) (hlink : linkSends s = true) :
    exec (.mirrorAck t ver cyc false) s = .next (linkHeard t s) := by
  show execMirrorAck t ver cyc false s = _
  rw [execMirrorAck, run_up hup]
  simp [hact, hlink, linkHeard]

theorem exec_mirrorAck (hup : s.up = true) (hact : active s = some m) (hlink : linkSends s = true)
    (hstandby : (standby s).isNone = false) (hver : verReached ver s.ackVer = true) :
    exec (.mirrorAck t ver cyc true) s = .next (sweep { linkHeard t s with ackVer := ver }) := by
  show execMirrorAck t ver cyc true s = _
  rw [execMirrorAck, run_up hup]
  simp only [begin_active, hact, begin_linkSends, hlink, begin_standby, hstandby, begin_ackVer, hver, Option.isNone_some, Bool.not_true,
    Bool.or_self, Bool.false_eq_true, if_false, if_true]
  rfl
end

/-! Items on the mirror link and to the standby module (R276, R292, R295, R312). -/

theorem sendItem_of_linkSends {s : State} (h : linkSends s = true) (it : MirItem) : sendItem it s =
    { s with
      mirTx := s.mirTx ++ [it]
      linkSeq := s.linkSeq + BitVec.ofNat 16 (itemFrames (rdK s Reg.JX_CYC_COUNT) s.linkSeq it).length
      out := s.out ++ [.mirror it (itemFrames (rdK s Reg.JX_CYC_COUNT) s.linkSeq it)] } := by
  rw [sendItem, if_pos h]
  rfl

theorem sendModule_of_not_active {s : State} (h : getF s Reg.NET_RING_CFG_role ≠ 1) (it : MirItem) : sendModule it s = s := by
  simp [sendModule, h]

section
variable {s : State} (hrole : getF s Reg.NET_RING_CFG_role = 1) (hen : getB s Reg.NET_RING_CFG_en = true) (hheld : outReleased s = false)
include hrole hen hheld

theorem sendModule_inWindow (hwin : winOpen s = true) (it : MirItem) :
    sendModule it s = { s with net := { s.net with modTx := s.net.modTx ++ [it] } } := by
  simp [sendModule, hrole, hen, hheld, hwin]

theorem sendModule_offWindow (hwin : winOpen s = false) (it : MirItem) : sendModule it s = emitModule it s := by
  simp [sendModule, hrole, hen, hheld, hwin]
end

/-- An item to the standby module changes the ring's state and what is sent. -/
theorem sendModule_eq (it : MirItem) (s : State) :
    sendModule it s = { s with net := (sendModule it s).net, out := (sendModule it s).out } := by
  unfold sendModule
  split
  · split <;> rfl
  · rfl

@[simp] theorem sendModule_mirTx (it : MirItem) (s : State) : (sendModule it s).mirTx = s.mirTx := by
  rw [sendModule_eq]

@[simp] theorem sendModule_linkSeq (it : MirItem) (s : State) : (sendModule it s).linkSeq = s.linkSeq := by
  rw [sendModule_eq]

@[simp] theorem sendModule_lane (it : MirItem) (s : State) (l : Lane) : (sendModule it s).lane l = s.lane l := by
  rw [sendModule_eq]
  cases l <;> rfl

theorem out_subset_sendModule (it : MirItem) (s : State) : s.out ⊆ (sendModule it s).out := by
  unfold sendModule
  split
  · split
    · exact List.Subset.refl _
    · exact List.subset_append_left _ _
  · exact List.Subset.refl _

/-! LOOP_MIRROR (R276, R312). -/

/-- The item of every slot of a lane that is not OFF, for an instant (R276). -/
def loopItem (s : State) (l : Lane) (tm : Time) : MirItem := .loops ((allSlots.filter (fun n => modeSl s l n != 0)).map (loopMirAt s l tm))

theorem loopItem_begin (t : Time) (s : State) (l : Lane) (tm : Time) : loopItem (begin' t s) l tm = loopItem s l tm := by
  cases l <;> rfl

/-- An item sent over the mirror link by a command that begins at `t`. -/
def itemSent (t : Time) (it : MirItem) (fs : List (List Byte)) (s : State) : State :=
  { begin' t s with mirTx := s.mirTx ++ [it], linkSeq := s.linkSeq + BitVec.ofNat 16 fs.length, out := [.mirror it fs] }

section
variable {t : Time} {s : State} {l : Lane} (hup : s.up = true) (hact : active s = some l)
include hup hact

theorem exec_loopMirror (hready : ready s l = true) (hdue : since t (mirAt t) ≤ 2 * ms) (hnew : (s.lane l).lpe.sentAt ≠ some (mirAt t))
    (hlink : linkSends s = true) {it : MirItem} (hit : it = loopItem s l (mirAt t)) :
    exec (.loopMirror t) s = .next (onLpe l (fun p => { p with sentAt := some (mirAt t) })
      (sendModule it (itemSent t it (itemFrames (rdK s Reg.JX_CYC_COUNT) s.linkSeq it) s))) := by
  have hlink' : linkSends (begin' t s) = true := (begin_linkSends t s).trans hlink
  have hsent := sendItem_of_linkSends hlink' it
  show execLoopMirror t s = _
  rw [hit, ← loopItem_begin t] at hsent ⊢
  rw [execLoopMirror, run_up hup]
  simp only [begin_active, hact, begin_now, begin_lane, begin_ready, hready, hdue, bne_iff_ne.mpr hnew, decide_true, Bool.and_self,
    if_true]
  exact congrArg (fun u => Host.Outcome.next (onLpe l _ (sendModule _ u))) hsent

theorem exec_loopMirror_idle (h : 2 * ms < since t (mirAt t) ∨ (s.lane l).lpe.sentAt = some (mirAt t)) :
    exec (.loopMirror t) s = .next (begin' t s) := by
  show execLoopMirror t s = _
  rw [execLoopMirror, run_up hup]
  obtain hlate | hsent := h
  · simp [hact, Nat.not_le.mpr hlate]
  · simp [hact, hsent]
end

end Sys2Proof.Machine

section
open Sys2Proof Sys2Proof.Machine

/-- Settles O23: the version acknowledged alone decides which orders the sweep completes while a Standby is admitted, and LOOP_MIRROR sends its
item over the mirror link before it goes to a standby module. -/
theorem mirrorAckAndLoopMirror : Obligations.MirrorAckAndLoopMirror := by
  unfold Obligations.MirrorAckAndLoopMirror
  refine ⟨?_, fun t ver cyc s m hup hact hlink => exec_mirrorAck_badCrc t ver cyc hup hact hlink, ?_,
    fun t s l hup hact h => exec_loopMirror_idle hup hact h⟩
  · intro t ver cyc s m o hup hact hstandby hlink hver
    have hsome : (standby s).isNone = false := by rw [hstandby]; rfl
    have hswept : Swept { linkHeard t s with ackVer := ver } (sweep { linkHeard t s with ackVer := ver }) := sweepList_swept _ _
    refine ⟨_, exec_mirrorAck t ver cyc hup hact hlink hsome hver, hswept.ackVer, hswept.kpr, hswept.auth, fun w hw hacked => ?_⟩
    exact not_mem_waits_sweepList hw fun u hu => acked_of_ackVer (s := { s with ackVer := ver }) hsome hu hacked
  · rintro t s l hup hact hready hdue hnew hlink it fs hit rfl
    refine ⟨_, exec_loopMirror hup hact hready hdue hnew hlink hit, ?_⟩
    generalize itemFrames (rdK s Reg.JX_CYC_COUNT) s.linkSeq it = fs
    have hlane : (itemSent t it fs s).lane l = s.lane l := begin_lane s t l
    simp only [onLpe, onLane, setLane_mirTx, setLane_linkSeq, setLane_out, setLane_net, lane_setLane_same, sendModule_mirTx,
      sendModule_linkSeq, sendModule_lane, hlane]
    refine ⟨rfl, out_subset_sendModule it _ (List.mem_singleton_self _), rfl, trivial, fun hrole hen hheld => ⟨fun hwin => ?_, fun hwin => ?_⟩,
      fun hrole => ?_, ?_⟩
    · rw [sendModule_inWindow (s := itemSent t it fs s) hrole hen hheld hwin]
      rfl
    · rw [sendModule_offWindow (s := itemSent t it fs s) hrole hen hheld hwin]
      exact ⟨_, List.mem_append_right _ (List.mem_singleton_self _)⟩
    · rw [sendModule_of_not_active (s := itemSent t it fs s) hrole]
      exact ⟨rfl, rfl⟩
    · exact congrArg (State.setLane · l _) (sendModule_eq it (itemSent t it fs s))
end
